-- ==== Sys2Proof/Word.lean ====
section
/-! DEFINITION. The word types of the Perest block and their plainest arithmetic. -/
namespace Sys2Proof

/-- A byte of a flit, of a message or of host memory (R52). -/
abbrev Byte := BitVec 8

/-- A 32-bit word of the configuration window (R608). -/
abbrev W32 := BitVec 32

/-- A 64-bit word: an instruction, a register of the sequencer, a descriptor word (R170). -/
abbrev W64 := BitVec 64

/-- A sparse map: keys rising, no entry equal to what an unlisted key reads as. -/
abbrev Sp (α : Type) := List (Nat × α)

/-- Integer division rounded up. -/
def ceilDiv (a b : Nat) : Nat := (a + b - 1) / b

end Sys2Proof
end

