-- ==== Sys2Proof/Syntax.lean ====
section
/-! DEFINITION. The commands of the block: one constructor of Instr for each row of spec/opcode_table.json, with the
operands that the event carries in from outside. -/
namespace Sys2Proof

/-- The members of Table 0-1. -/
inductive Member where
  | q1s | q1 | q2 | q4 | q8 | q16
deriving DecidableEq, Repr, Inhabited

/-- A native sideband message as received: 64-bit header and data words (R524). -/
structure SbMsg where
  hdr : W64
  words : List W64
deriving DecidableEq, Repr, Inhabited

/-- A transport message (R128, Table 4-2) with the stream and class of the flits that carry it. -/
structure Msg where
  mtype : BitVec 8
  poison : Bool
  resend : Bool
  stream : Nat
  tc : Nat
  sseq : Nat
  src : BitVec 4
  dst : BitVec 4
  optag : BitVec 8
  arg : W64
  data : List Byte
deriving DecidableEq, Repr, Inhabited

/-- One beat of memory-port read data (Table 15-4); `tag` is channel × 1,024 + tag (log entry 63). -/
structure MemBeat where
  tag : Nat
  data : List Byte
  gv : BitVec 2
  err : BitVec 2
  poison : BitVec 2
  last : Bool
deriving DecidableEq, Repr, Inhabited

/-- A unit of the pass-through port: a message or forwarded response, or the acknowledgement report of R414. -/
inductive XptUnit where
  | msg (src : BitVec 3) (m : Msg)
  | ack (src : BitVec 3)
deriving DecidableEq, Repr, Inhabited

/-- A message of an operation handed over on the twin bus (R447): what the owning twin admits. -/
structure TwinOp where
  tag : Nat
  orig : BitVec 3
  opcode : BitVec 8
  stream : Nat
  tc : Nat
  msgs : List Msg
deriving DecidableEq, Repr, Inhabited

/-- A response-log entry (R455): the header of an admitted response, with the data bytes of an atomic's response. `src` is where its bytes are
read again (R457), which no field of the header names (log entry 61). -/
structure LogEnt where
  stream : Nat
  sseq : Nat
  msg : Msg
  src : Option (Nat × Nat)
deriving DecidableEq, Repr, Inhabited

/-- A takeover under way, as a survivor's heartbeat tells it to its sister (log entry 20): the target once it is fixed, and LOST. -/
structure Pending where
  target : Option Nat
  lost : Bool
deriving DecidableEq, Repr, Inhabited

/-- What a heartbeat tells beside the link's state (R448, R491): the link wakes; the takeover that its sender runs, if any. -/
structure HbNews where
  waking : Bool
  take : Option Pending
deriving DecidableEq, Repr, Inhabited

/-- Stream state on the twin bus (Table 11-1): next SSEQ, E and the whole messages held after it. -/
structure StreamState where
  stream : Nat
  next : Nat
  e : Nat
  held : List Nat
deriving DecidableEq, Repr, Inhabited

/-- What the PHY reports when a training phase of a module ends (Table 13-3). -/
structure PhyReport where
  lockP : Bool
  lockA : Bool
  failData : W64
  failSpare : BitVec 4
  lat8 : BitVec 16
  marker8 : BitVec 16
deriving DecidableEq, Repr, Inhabited

/-- What one Health Monitor sample senses (Table 12-1); corrections, PRBS errors and failed flits the block counts itself (R474). -/
structure HmInputs where
  margins : List (Nat × Nat)          -- module, eye width of its spares in 1/64 UI (on a scan)
  temps : List (Nat × BitVec 32)      -- module, four sensors, one per byte
  vdd : Nat                           -- mV
  coreMhz : Nat                       -- core_clk in MHz, counted over 1,024 aon_clk cycles (R559)
deriving DecidableEq, Repr, Inhabited

/-- What one receiver found in an AIT step (R570 to R573). Wires are the physical lanes 0 to 67, then CK, CK_ALT, VLD, VLD_ALT, SBD, SBCK. -/
structure AitResult where
  wires : List (Nat × Nat)            -- module, wire that failed in step 1 or 2, or a clock or valid lane in step 3
  errs : List (Nat × Nat × Nat)       -- module, physical lane 0 to 67, bit errors on one clock set in step 3
deriving DecidableEq, Repr, Inhabited

/-- One constructor per row of spec/opcode_table.json, in its order. -/
inductive Instr where
  | coldReset (autoTrain openMode : Bool)
  | warmReset
  | fuseAck (word : W32)
  | resetClearSweepDone
  | trnCtrlGo
  | present (m : Nat) (x : SbMsg)
  | presentResend
  | nopeer
  | caprec (m : Nat) (x : SbMsg)
  | capack (m : Nat) (x : SbMsg)
  | lanemap (m : Nat) (x : SbMsg)
  | palat (m : Nat) (x : SbMsg)
  | phase (m : Nat) (x : SbMsg)
  | trainingPhaseComplete (m : Nat) (r : PhyReport)
  | trainingMessageResend
  | vendorCapabilityMessage (idx : BitVec 3) (vid : BitVec 16) (word : W64)
  | solstice
  | overrun
  | deferredProgramStart
  | digestFreeTimer
  | hvHoldExpiry
  | tickMarker (m : Nat) (f : List Byte) (frac : BitVec 3)
  | tickPulse (num : BitVec 48)
  | nomark
  | tickEn (en : Bool)
  | tickRoleWrite (role : BitVec 2)
  | tickReacq
  | cfgCommitReq (next : Bool)
  | cfgCommitCancel
  | cfgCommitRevert
  | cfgPortWrite (off : BitVec 20) (d : W32)
  | cfgPortReadLowHalf (off : BitVec 20)
  | mergeBufferWrite (off : BitVec 20) (d : W32)
  | mergeBufferFlush
  | seqCtrlStart
  | seqCtrlStop
  | seqCtrlClr
  | seqPmCheckGo (d : W32)
  | seqPmCheckDone
  | nop
  | endProg
  | tickwait
  | jmp
  | br
  | loop
  | call
  | ret
  | trap
  | li
  | addi
  | add
  | sub
  | and
  | or
  | xor
  | shl
  | shr
  | mul
  | cmp
  | ldd
  | std
  | lds
  | sts
  | signal
  | wait
  | waitTimeout
  | waitResume
  | fence
  | fenceResume
  | engineStallResume
  | push
  | pull
  | gather
  | scatter
  | copy
  | convert
  | foldSend
  | foldReduce
  | mergeSend
  | mergeCollect
  | mergeGroupFold (slot group : Nat)
  | mergeCutoff (slot : Nat)
  | dispatch
  | combineSend
  | combineCollect
  | combineCutoff (slot : Nat)
  | pgfetch
  | pgpin
  | pgunpin
  | pgatomic
  | pggather
  | pageWalkRetry (tag : Nat)
  | commit
  | rd32
  | rd64
  | wr32
  | emit
  | flitSlot (m : Nat) (frac : BitVec 3)
  | messageAdmission (tc : Nat)
  | data (m : Nat) (f : List Byte)
  | retx (m : Nat) (f : List Byte)
  | idle (m : Nat) (f : List Byte)
  | failedSlot (m : Nat) (f : Option (List Byte))
  | reservedTypeFlit (m : Nat) (f : List Byte)
  | ackTimer (m : Nat)
  | credit (m : Nat) (f : List Byte)
  | creditTimer
  | flow (m : Nat) (f : List Byte)
  | flowTimer
  | repairRequest (m : Nat) (f : List Byte)
  | repairEcho (m : Nat) (f : List Byte)
  | repairCancel (m : Nat) (f : List Byte)
  | repairSwitch (m : Nat) (f : List Byte)
  | repairResend (m : Nat)
  | repairNoEcho (m : Nat)
  | paRepairGo (m : Nat) (d : W32)
  | swapSwitchSend (m : Nat)
  | swapReceiverTimeout (m : Nat)
  | swapFrostEnd (m : Nat)
  | retrainReq (m : Nat) (f : List Byte)
  | retrain (m : Nat) (x : SbMsg)
  | retrainReqResend (m : Nat)
  | retrainEnd (m : Nat)
  | retrainTimeout (m : Nat)
  | llModCtrlRetrain (m : Nat)
  | lockLoss (m : Nat) (alt clk : Bool)
  | lockTimeout (m : Nat)
  | lockRegain (m : Nat) (alt : Bool)
  | fragmentRelease (stream : Option Nat)
  | writeRelease (stream : Nat)
  | readReqRelease (stream : Nat)
  | readDataRelease (stream : Nat)
  | signalRelease (stream : Nat)
  | localSignalApply (tag : Nat)
  | completionRelease (stream : Nat)
  | passThroughUnit (u : XptUnit)
  | hvContrib (stream : Nat)
  | hvPartial (stream : Nat)
  | hvExpert (stream : Nat)
  | pgReq (stream : Nat)
  | pgData (stream : Nat)
  | pgAtomicRead (stream : Nat)
  | pgAtomicInc (stream : Nat)
  | pgAtomicDec (stream : Nat)
  | pgAtomicCas (stream : Nat)
  | pgAtomicRdec (stream : Nat)
  | pgAtomicResp (stream : Nat)
  | rpcFlushGo
  | rpcCfgWrite (d : W32)
  | memReadData (b : MemBeat)
  | memWriteAck (tag : Nat) (err : Bool)
  | xeMtStatAbort (k : Nat)
  | hvCalClrGo (d : W32)
  | hvCalClrDone
  | sxDslotFlush (k : Nat)
  | llPlanGo (d : W32)
  | frostEntryComplete (m : Nat)
  | gapOver
  | llRetireGo (d : W32)
  | llRetireForce (d : W32)
  | retireRequest
  | retireEcho
  | mgmtResend
  | digest
  | mgmtCredit
  | takeoverRequest
  | takeoverEcho
  | streamState
  | rejoinRequest
  | rejoinEcho
  | twnCtrlForce
  | twnCtrlRejoin
  | heartbeatSend
  | heartbeat (linkOk : Bool) (half : Nat) (news : HbNews)
  | instLost
  | noSister
  | operationRecord (r : TwinOp)
  | completionReport (tag : Nat) (status : BitVec 4) (psn : Bool) (ecount : Nat)
  | twinStreamState (x : StreamState)
  | responseLogTransfer (xs : List LogEnt)
  | releaseCommand (stream sseq : Nat)
  | hmSample (x : HmInputs)
  | rateStepRequest
  | rateStepEcho
  | rateStepRefuse
  | rateStepCancel
  | rateStepNoEcho
  | fallowIdle
  | fallowReq (x : SbMsg)
  | fallowAck (x : SbMsg)
  | fallowNak (x : SbMsg)
  | fallowWake
  | fallowWakeDetect (m : Nat)
  | fallowWakeDone (m : Nat)
  | pwrFallowWrite (d : W32)
  | mwGo
  | mwReq (x : SbMsg)
  | mwAck (x : SbMsg)
  | mwNoAck
  | phyOff
  | pwrCtrlWake
  | mwWake (x : SbMsg)
  | mwWakeAck (x : SbMsg)
  | mwWakeResend
  | trafficWake
  | midwinterExitStep
  | capRecord (r : BitVec 128)
  | wakeRecord (r : BitVec 128)
  | eccRewrite (n : Nat)
  | eccScrubGo (d : W32)
  | scrubRead
  | eccRetireWrite (k : Nat) (d : W32)
  | spareUnitReplace (k : Nat)
  | bistSliceStart
  | bistSliceEnd (misr : W64) (count : Nat)
  | bistMonthTimeout
  | bistRunGo (d : W32)
  | aitCtrlGo (d : W32)
  | aitStepComplete (r : AitResult)
  | wsBypass
  | wsExtest
  | wsIntest
  | cfgAccess (dr : W64)
  | aitRun (ctrl cfg : W32)
  | aitRead
  | bistRun (dr : W32)
  | openDataUnit (m : Nat) (u : List Byte)
  | openPaddingUnit (m : Nat) (u : List Byte)
  | reservedSubtypeFlit (m : Nat) (f : List Byte)
  | sparePrbsError (m lane count : Nat)
  | invalidOp
  | rpcFlushDone
  | openReservedUnit (m : Nat) (u : List Byte)
  | ucieLinkDown (m : Nat)
  | resetAssert (cold : Bool)
  | coreClkRestart
deriving DecidableEq, Repr

end Sys2Proof
end

