-- ==== Sys2Proof/Decode.lean ====
section
/-! DEFINITION. The table's bits: spec/opcode_table.json gives no row any bits (a command is an event, not a word), so no
word spells a command. -/
namespace Sys2Proof

/-- The command that a word spells by the table's bits: none, since no row gives bits. -/
def decodeTableWord (nbits w : Nat) : Option Instr :=
  match nbits, w with
  | _, _ => none

end Sys2Proof
end

