-- ==== Sys2Proof/Machine/Bits.lean ====
section
/-! DEFINITION. Bit fields, little-endian bytes, CRC-32C and sparse maps. -/
namespace Sys2Proof.Machine

/-- Bits [hi:lo] of a word, as a number. -/
def fld {n : Nat} (w : BitVec n) (hi lo : Nat) : Nat := (w.toNat >>> lo) % 2 ^ (hi - lo + 1)

/-- Bit i of a word. -/
def bit {n : Nat} (w : BitVec n) (i : Nat) : Bool := w.getLsbD i

/-- The word whose bits [hi:lo] hold v and whose other bits are 0. -/
def bf (n hi lo v : Nat) : BitVec n := BitVec.ofNat n ((v % 2 ^ (hi - lo + 1)) <<< lo)

/-- w with bits [hi:lo] replaced by v. -/
def setFld {n : Nat} (w : BitVec n) (hi lo v : Nat) : BitVec n :=
  (w &&& ~~~(bf n hi lo (2 ^ (hi - lo + 1) - 1))) ||| bf n hi lo v

/-- A Bool as a number. -/
def b2n (b : Bool) : Nat := if b then 1 else 0

/-- The n low bytes of v, least significant first (R52). -/
def leBytes : Nat → Nat → List Byte
  | 0, _ => []
  | n + 1, v => BitVec.ofNat 8 v :: leBytes n (v / 256)

/-- The number that little-endian bytes spell. -/
def leNat : List Byte → Nat
  | [] => 0
  | b :: bs => b.toNat + 256 * leNat bs

/-- Bytes [i, i+n) of a list, with zeros past its end. -/
def slice (bs : List Byte) (i n : Nat) : List Byte :=
  let x := (bs.drop i).take n
  x ++ List.replicate (n - x.length) 0

/-- The n-byte little-endian number at byte i. -/
def leAt (bs : List Byte) (i n : Nat) : Nat := leNat (slice bs i n)

/-- A two's-complement reading of the low n bits of v. -/
def sgn (n v : Nat) : Int := let x := v % 2 ^ n; if x < 2 ^ (n - 1) then (x : Int) else (x : Int) - (2 ^ n : Nat)

/-- The low n bits of an integer, in two's complement. -/
def unsgn (n : Nat) (v : Int) : Nat := (v % ((2 ^ n : Nat) : Int)).toNat

/-! ## Sparse maps -/

/-- The listed value at a key. -/
def spFind {α : Type} : Sp α → Nat → Option α
  | [], _ => none
  | (k, v) :: r, i => if k = i then some v else spFind r i

/-- The value at a key: the listed one, or the default. -/
def spGet {α : Type} (d : α) (m : Sp α) (i : Nat) : α := (spFind m i).getD d

/-- The map without a key. -/
def spErase {α : Type} : Sp α → Nat → Sp α
  | [], _ => []
  | (k, v) :: r, i => if k = i then spErase r i else (k, v) :: spErase r i

/-- The map with an entry put at its place among rising keys; the key is not listed before. -/
def spIns {α : Type} : Sp α → Nat → α → Sp α
  | [], i, v => [(i, v)]
  | (k, w) :: r, i, v => if i < k then (i, v) :: (k, w) :: r else (k, w) :: spIns r i v

/-- The map with a key set; setting a key to the default removes it. -/
def spPut {α : Type} [DecidableEq α] (d : α) (m : Sp α) (i : Nat) (v : α) : Sp α :=
  if v = d then spErase m i else spIns (spErase m i) i v

/-- The canonical form: keys strictly rising and no entry equal to its default. -/
def spWf {α : Type} [DecidableEq α] (d : Nat → α) : Sp α → Bool
  | [] => true
  | [(k, v)] => decide (v ≠ d k)
  | (k, v) :: (k', v') :: r => decide (v ≠ d k) && decide (k < k') && spWf d ((k', v') :: r)

/-! ## CRC-32C -/

/-- One bit step of the reflected CRC-32C (R60). -/
def crcStep (c : W32) : W32 := (c >>> 1) ^^^ (if c.getLsbD 0 then 0x82F63B78 else 0)

/-- One byte of the CRC. -/
def crcByte (c : W32) (b : Byte) : W32 := Nat.repeat crcStep 8 (c ^^^ b.setWidth 32)

/-- The CRC-32C of bytes from the initial value that R60 forms of a 13-bit seed. -/
def crc32c (seed13 : Nat) (bs : List Byte) : W32 :=
  (bs.foldl crcByte (0xFFFFE000 ||| BitVec.ofNat 32 (seed13 % 8192))) ^^^ 0xFFFFFFFF

/-- The standard CRC-32C (R60: the seed is 0x1FFF). -/
def crcStd (bs : List Byte) : W32 := crc32c 0x1FFF bs

end Sys2Proof.Machine
end

