-- ==== Sys2Proof/Machine/Code.lean ====
section
/-! DEFINITION. The flit's code: layout, CRC seeds, the extended Reed-Solomon code RS(256,248) and the lane mapping
(02, R52 to R63). -/
namespace Sys2Proof.Machine

/-! ## GF(2^8) with field polynomial x^8 + x^4 + x^3 + x^2 + 1 (R61) -/

/-- Multiplication by alpha = 0x02. -/
def gfDouble (x : Nat) : Nat := let y := x * 2; if y < 256 then y else (y ^^^ 0x11D) % 256

/-- The product: shift and add over eight bits of the second factor. -/
def gfMulN : Nat → Nat → Nat → Nat
  | 0, _, _ => 0
  | n + 1, a, b => (if b % 2 = 1 then a else 0) ^^^ gfMulN n (gfDouble a) (b / 2)

/-- The field product. -/
def gfMul (a b : Nat) : Nat := gfMulN 8 a b

/-- x to the power n. -/
def gfPow (x : Nat) : Nat → Nat
  | 0 => 1
  | n + 1 => gfMul x (gfPow x n)

/-- The inverse: x^254. -/
def gfInv (x : Nat) : Nat :=
  let x2 := gfMul x x; let x4 := gfMul x2 x2; let x8 := gfMul x4 x4; let x16 := gfMul x8 x8
  let x32 := gfMul x16 x16; let x64 := gfMul x32 x32; let x128 := gfMul x64 x64
  gfMul x128 (gfMul x64 (gfMul x32 (gfMul x16 (gfMul x8 (gfMul x4 x2)))))

/-- The generator polynomial of R61, highest coefficient first, less its leading 1: the product of (x - alpha^i), i = 1 to 7. -/
def rsGen : List Nat :=
  ((List.range 7).foldl (fun g i =>
    let a := gfPow 2 (i + 1)
    (g ++ [0]).zipWith (fun u v => u ^^^ v) (0 :: g.map (gfMul a))) [1]).drop 1

/-- One step of the systematic encoder of R61: the seven remainder bytes after one more message byte. -/
def rsStep (par : List Nat) (c : Byte) : List Nat :=
  let fb := c.toNat ^^^ par.headD 0
  (par.drop 1 ++ [0]).zipWith (fun u v => u ^^^ v) (rsGen.map (gfMul fb))

/-- The XOR of bytes. -/
def xorAll (bs : List Byte) : Byte := bs.foldl (fun a b => a ^^^ b) 0

/-- The eight check bytes over bytes 0 to 247 (R61). -/
def rsCheck (c : List Byte) : List Byte :=
  let par := (c.foldl rsStep (List.replicate 7 0)).map (BitVec.ofNat 8)
  par ++ [xorAll (c ++ par)]

/-- Syndrome j of bytes 0 to 254: the received polynomial at alpha^j, by Horner's rule. -/
def rsSyn (f : List Byte) (j : Nat) : Nat :=
  let a := gfPow 2 j
  (f.take 255).foldl (fun s b => gfMul s a ^^^ b.toNat) 0

/-- The extended syndrome S_0: the XOR of all 256 bytes, byte 255 standing for the evaluation at 1. -/
def rsSyn0 (f : List Byte) : Nat := (xorAll f).toNat

/-- Value at x of a polynomial given lowest coefficient first. -/
def polyAt (p : List Nat) (x : Nat) : Nat := p.foldr (fun c s => c ^^^ gfMul x s) 0

/-- Sum of two polynomials, lowest coefficient first. -/
def polyAdd : List Nat → List Nat → List Nat
  | [], q => q
  | p, [] => p
  | a :: p, b :: q => (a ^^^ b) :: polyAdd p q

/-- State of the Berlekamp-Massey iteration: connection polynomial, previous one, its discrepancy, gap, length. -/
structure Bm where
  c : List Nat
  b : List Nat
  d : Nat
  gap : Nat
  len : Nat

/-- One iteration on syndrome number i of the list s. -/
def bmStep (s : List Nat) (z : Bm) (i : Nat) : Bm :=
  let disc := (List.range (z.len + 1)).foldl (fun a k => a ^^^ gfMul (z.c.getD k 0) (if k ≤ i then s.getD (i - k) 0 else 0)) 0
  if disc = 0 then { z with gap := z.gap + 1 }
  else
    let q := gfMul disc (gfInv z.d)
    let c' := polyAdd z.c (List.replicate z.gap 0 ++ z.b.map (gfMul q))
    if 2 * z.len ≤ i then { c := c', b := z.c, d := disc, gap := 1, len := i + 1 - z.len }
    else { z with c := c', gap := z.gap + 1 }

/-- The error locator and its length from a run of consecutive syndromes. -/
def rsLocator (s : List Nat) : List Nat × Nat :=
  let z := (List.range s.length).foldl (bmStep s) { c := [1], b := [1], d := 1, gap := 1, len := 0 }
  (z.c, z.len)

/-- Byte positions among 0 to 254 whose locator (alpha^(254 - i)) is a root's inverse. -/
def rsPositions (loc : List Nat) : List Nat :=
  (List.range 255).filter fun i => polyAt loc (gfPow 2 ((255 - (254 - i)) % 255)) == 0

/-- Solve for the error values at known positions: Forney's formula on syndromes S_1 onward. -/
def rsValues (s : List Nat) (loc : List Nat) (pos : List Nat) : List (Nat × Nat) :=
  let n := pos.length
  let omega := (List.range n).map fun k =>
    (List.range (k + 1)).foldl (fun a i => a ^^^ gfMul (loc.getD i 0) (s.getD (k - i) 0)) 0
  let deriv := (List.range loc.length).filterMap fun k => if k % 2 = 1 then some (loc.getD k 0) else none
  pos.map fun i =>
    let xi := gfPow 2 ((255 - (254 - i)) % 255)
    let den := polyAt deriv (gfMul xi xi)
    (i, gfMul (polyAt omega xi) (gfInv den))

/-- The flit with error values XORed in. -/
def rsApply (f : List Byte) (ev : List (Nat × Nat)) : List Byte :=
  ev.foldl (fun g e => g.set e.1 (g.getD e.1 0 ^^^ BitVec.ofNat 8 e.2)) f

/-- The 256 bytes form a codeword of the extended code (R61). -/
def rsOk (f : List Byte) : Bool :=
  rsSyn0 f == 0 && (List.range 7).all fun j => rsSyn f (j + 1) == 0

/-- A candidate correction: the flit it leads to and the positions it changes. -/
def rsTry (f g : List Byte) : Option (List Byte × List Nat) :=
  let diff := (List.range 256).filter fun i => f.getD i 0 != g.getD i 0
  if rsOk g && decide (diff.length ≤ 4) then some (g, diff) else none

/-- Byte 255 recomputed so that the extension holds. -/
def rsFix255 (f : List Byte) : List Byte := f.set 255 (xorAll (f.take 255))

/-- The bounded-distance decoder of R626: the codeword within four bytes, with the corrected positions, if there is one.
Two trials cover every pattern: no error in byte 255 (eight syndromes S_0 to S_7 locate up to four errors), or an error in
it (seven syndromes locate up to three others). -/
def rsDecode (f : List Byte) : Option (List Byte × List Nat) :=
  if rsOk f then some (f, []) else
  let s := (List.range 7).map fun j => rsSyn f (j + 1)
  let (l8, _) := rsLocator (rsSyn0 f :: s)
  let p8 := rsPositions l8
  let s7 := rsLocator s
  let p7 := rsPositions s7.1
  match rsTry f (rsApply f (rsValues s l8 p8)) with
  | some r => some r
  | none => rsTry f (rsFix255 (rsApply f (rsValues s s7.1 p7)))

/-! ## The flit (R52, R53, R58) -/

/-- The header of Table 2-4. -/
def flitHeader (type tc stream ack nak : Nat) : W32 :=
  bf 32 31 28 type ||| bf 32 27 26 tc ||| bf 32 25 20 stream ||| bf 32 19 8 ack ||| bf 32 7 0 nak

/-- A flit of a header, 240 payload bytes and a CRC seed, with both codes computed as R58 orders. -/
def flitMake (hdr : W32) (pay : List Byte) (seed : Nat) : List Byte :=
  let body := leBytes 4 hdr.toNat ++ slice pay 0 240
  let c := body ++ leBytes 4 (crc32c seed body).toNat
  c ++ rsCheck c

/-- The header word of a flit. -/
def flitHdr (f : List Byte) : W32 := BitVec.ofNat 32 (leAt f 0 4)

def flitType (f : List Byte) : Nat := fld (flitHdr f) 31 28
def flitTc (f : List Byte) : Nat := fld (flitHdr f) 27 26
def flitStream (f : List Byte) : Nat := fld (flitHdr f) 25 20
def flitAck (f : List Byte) : Nat := fld (flitHdr f) 19 8
def flitNak (f : List Byte) : Nat := fld (flitHdr f) 7 0

/-- The payload, bytes 4 to 243. -/
def flitPay (f : List Byte) : List Byte := slice f 4 240

/-- A corrected flit verifies under a seed (R59). -/
def flitVerifies (f : List Byte) (seed : Nat) : Bool :=
  (crc32c seed (f.take 244)).toNat == leAt f 244 4

/-- n sequences from s, modulo 4,096. -/
def seqRun (s n : Nat) : List Nat := (List.range n).map fun i => (s + i) % 4096

/-- The candidate seeds of a decoded TYPE (R87), for in-order point p and next new sequence n. -/
def candidates (type p n : Nat) : List Nat :=
  if type = 1 then seqRun n ((p + 97 + 4096 - n) % 4096)
  else if type = 2 then seqRun (p + 1) 96 ++ seqRun (p + 4096 - 95) 96
  else if type = 0 ∨ type = 3 then [0x1FFF]
  else 0x1FFF :: (seqRun (p + 1) 96 ++ seqRun (p + 4096 - 95) 96)

/-- What a received slot turns out to be (R59, R626). -/
inductive RxClass where
  | uncorrectable
  | crcFail (type : Nat)
  | good (f : List Byte) (fixed : List Nat) (seed : Nat)
deriving DecidableEq, Repr

/-- Decode the code, then find the seed that verifies. -/
def rxClass (f : List Byte) (p n : Nat) : RxClass :=
  match rsDecode f with
  | none => .uncorrectable
  | some (g, fixed) =>
    match (candidates (flitType g) p n).find? (flitVerifies g) with
    | some s => .good g fixed s
    | none => .crcFail (flitType g)

/-! ## Lane mapping (R56, R57) -/

/-- The logical lane, within the w lanes in use, that carries byte i of a flit. -/
def laneOf (w i : Nat) : Nat := if w = 0 then 0 else (i / 4) % w

end Sys2Proof.Machine
end

