-- ==== Sys2Proof/Config.lean ====
section
/-! DEFINITION. What an implementation fixes and the spec leaves open: opaque constants with no body, so that no proof
can lean on a value (log entry 2). A free value is one of them applied to the operands or to State.free. -/
namespace Sys2Proof.Config

/-- A free choice between two outcomes that the spec both allows, drawn at State.free (R44, R92, R97, R622). -/
opaque freeBit : Nat → Bool

/-- A free 64-bit value for a result the spec leaves open, drawn at State.free (log entry 2). -/
opaque freeWord : Nat → W64

/-- The lanes that the peer's fuses list for a direction of module m, bit n for physical lane n: `tx` for its transmit direction. No message of
Table 13-5 carries them, and R69 makes both ends use them (log entry 24). -/
opaque peerFuse (tx : Bool) (m : Nat) : BitVec 68

/-- The vendor identifier that TRN_VID reads: the summary row of R549 states no reset value, and R617 makes such a field zero (log entry 6). -/
def vendorId : BitVec 16 := 0

/-- The scale of the INT8 returns that a COMBINE COLLECT takes, by its OPT and its registers: no field of a message carries one, and R402 wants
equal operands to give equal results (log entry 2). -/
opaque returnScale (opt : Nat) (ra rb rc : W64) : BitVec 32

/-- The power estimate in 1/64 W: R493 bounds its error and gives no formula (log entry 7). -/
opaque powerEstimate : Nat → BitVec 12

/-- Transmit and receive use in per cent of a STATUS record: R493 names them and gives no formula (log entry 7). -/
opaque useEstimate : Nat → BitVec 7

/-- The boundary cells after EXTEST or INTEST, as one number: their order and what is shifted through them is not given, drawn at
State.free (log entry 29). -/
opaque boundaryCells : Nat → Nat

/-- The expected MISR of slice `s` of month `m`: the test ROM of R561, whose contents the spec does not give (log entry 8). -/
opaque bistMisr (month slice : Nat) : W64

/-- The expected pattern count of a slice whose month is no march: the test ROM of R561 (log entry 8). -/
opaque bistCount (month slice : Nat) : Nat

/-- The part that a slice of month 2 or 12 covers: modulo one more than the modules, a module, or last the response log (month 2) or the sequencer
(month 12). No table numbers them (log entry 27). -/
opaque bistPart (month slice : Nat) : Nat

/-- While some operation is under way, whether what a slice of months 1 and 3 to 8 covers is free of it, drawn at State.free: no table says which
words or lanes a slice covers (log entry 27). -/
opaque bistClear (free month slice : Nat) : Bool

/-- Slices of month 12 on a member other than Q16, by member code: Table 14-1 says only that they are fewer (log entry 8). -/
opaque bistLogic (code : Nat) : Nat

/-- The value of an INT8 element k of FMT 0x10 under a SCALE that is infinite or NaN, as an FP32 code: R275 gives none (log entry 59). -/
opaque int8Value (scale : BitVec 32) (k : Int) : BitVec 32

/-- The integer that a value ±m × 2^e becomes in INT8 of FMT 0x10 under a SCALE that is zero, infinite or NaN, before it saturates: R286 divides
by SCALE, and states no quotient there (log entry 59). -/
opaque int8Quot (scale : BitVec 32) (neg : Bool) (m : Nat) (e : Int) : Int

end Sys2Proof.Config
end

