-- ==== Sys2Proof/Machine/State.lean ====
section
/-! DEFINITION. The state of a Perest block as plain data, the reasons a step can stop, and the state after reset. Every
sparse map is in canonical form: keys rising, no entry equal to the default that its reader names. -/
namespace Sys2Proof.Machine

/-- Why a step stops with a fault. -/
inductive Fault where
  /-- A command whose operands no wire can carry (a flit that is not 256 bytes, a beat that is not 128 bytes, a unit that is
  not 244 bytes, a module past 15, a stream past 63, a class past 3). Raised by the meanings of commands that carry such
  operands. Safe: the block never sees such an event. -/
  | malformed
deriving DecidableEq, Repr

/-- Why a step has no meaning. -/
inductive Refusal where
  /-- The command has no meaning yet; raised by the dispatcher alone. Safe. -/
  | notModelled (mnemonic : String)
deriving DecidableEq, Repr

/-! ## Outputs -/

/-- What the block sends on the twin bus (Table 11-1). -/
inductive TwinItem where
  | heartbeat (linkOk : Bool) (half : Nat) (news : HbNews)
  | opRecord (r : TwinOp)
  | completion (tag : Nat) (status : BitVec 4) (psn : Bool) (ecount : Nat)
  | streamState (x : StreamState)
  | responseLog (xs : List LogEnt)
  | release (stream sseq : Nat)
deriving DecidableEq, Repr

/-- A beat of memory-port write data (Table 15-4): the 128-byte window, a byte whose strobe is 0 as none, the poison of its granules, and the
mark of the last one. `wire` is the request it belongs to, which no signal carries. -/
structure WdBeat where
  wire : Nat
  data : List (Option Byte)
  poison : BitVec 2
  last : Bool
deriving DecidableEq, Repr

/-- What the block drives on its ports and bumps (log entry 3). -/
inductive Out where
  | flit (m : Nat) (bytes : List Byte)
  | openUnit (m : Nat) (bytes : List Byte)
  | sideband (m : Nat) (x : SbMsg)
  | ucieVendor (idx : BitVec 3) (vid : BitVec 16) (word : W64)
  | ucieRetrain (m : Nat)
  | memRead (ch tag addr granules : Nat)
  | memWrite (ch tag addr granules : Nat)
  | memData (ch : Nat) (b : WdBeat)
  | xpt (dst : BitVec 3) (u : XptUnit)
  | twin (x : TwinItem)
  | tel (r : BitVec 128)
  | fuseReq (addr : Nat)
  | tickPulse (num : BitVec 48)
  | cfgRsp (d : W32)
  | wakeLevel (m : Nat)
  | wrapper (dr : List W64)
deriving DecidableEq, Repr

/-! ## Tick and commit -/

/-- The candidate of an acquisition run (Table 1-3). -/
structure Cand where
  num : Nat
  phase8 : Nat
  run : Nat
deriving DecidableEq, Repr

/-- A past Solstice of this instance: its tick, its cc and the LL_FIXED_LAT active in it (R130). -/
structure TickRec where
  num : Nat
  sol : Nat
  lat : Nat
deriving DecidableEq, Repr

/-- The frame tick of the instance (R20 to R31, R623, R624). -/
structure Tick where
  lock : BitVec 2 := 0
  num : Nat := 0
  phase8 : Nat := 0
  nextSol : Option Nat := none
  cand : Option Cand := none
  miss : Nat := 0
  got : Bool := false
  mute : Option Nat := none
  hist : List TickRec := []
  markerDue : Bool := false
  phaseErr : BitVec 8 := 0
  nomark : Bool := false
  first : Bool := false
  ovrWork : Bool := false
  ovrProg : Bool := false
deriving DecidableEq, Repr

/-- A pending commit request (R38, R39): its target tick, its source, the cc in which it was accepted, and the flag that its COMMIT wrote
(R213, R214). -/
structure CommitReq where
  target : Option Nat
  viaSeq : Bool
  at_ : Nat
  flag : Option Nat
deriving DecidableEq, Repr

/-- An entry of the merge buffer (R502): a 64-bit word address, the halves held and the cc of the first. -/
structure MergeEnt where
  addr : Nat
  lo : Option W32
  hi : Option W32
  since : Nat
deriving DecidableEq, Repr

/-- What hardware did to a field [hi:lo] of the word at `off` in this cc: an event set it, or it grew by n (R615). -/
structure Hit where
  off : Nat
  hi : Nat
  lo : Nat
  n : Nat
deriving DecidableEq, Repr

/-- What came in this cc beside `hits`, for the rules that order two sources of one cc: the descriptor words that the configuration port wrote,
with the halves written (R188); the event counters that an STS stored (R179); and shadow writes that the port accepted in a Solstice cc, which
wait for that Solstice to pass (R40); the largest exponent that alignments brought to a calibration entry (R323); and whether a COMMIT of this
cc was refused LATE (R214). -/
structure CcLog where
  td : List (Nat × Option W32 × Option W32) := []
  sts : List Nat := []
  hold : List (Nat × W32) := []
  cal : List (Nat × Int) := []
  late : Bool := false
deriving DecidableEq, Repr

/-! ## The Link Sequencer -/

/-- Sequencer states (Table 5-1). -/
inductive SeqSt where
  | stopped | idle | running | waiting | halted | trapped
deriving DecidableEq, Repr

/-- A program that a slot entry named: its tick, slot, entry point and deadline tick (R33, R168), and whether the overrun of that deadline is
recorded (R36). -/
structure Prog where
  tick : Nat
  slot : Nat
  entry : Nat
  deadline : Nat
  serial : Nat
  judged : Bool := false
deriving DecidableEq, Repr

/-- What the sequencer is blocked on (R201, R204, R205); `timed`: the timeout of a WAIT expires in this cc, in which its counter may still reach
the target; `tickEnd`: the Solstice of a TICKWAIT is past, and the wait ends at a cc. -/
inductive WaitSt where
  | ev (ev : Nat) (target : BitVec 32) (until_ : Option Nat) (flag : Option Nat) (trapErr : Bool)
  | timed (ev : Nat) (target : BitVec 32) (flag : Option Nat) (trapErr : Bool)
  | fence (uids : List Nat)
  | tick
  | tickEnd (at_ : Nat)
deriving DecidableEq, Repr

/-- What follows a stop at the next instruction boundary (R164, R633); `start`: the cc in which the port accepted a START (R163). -/
structure StopReq where
  halt : Bool
  clr : Bool
  start : Option Nat
deriving DecidableEq, Repr

/-- A tensor descriptor, taken apart by Table 5-4. -/
structure Desc where
  v : Bool
  rsvd : Bool
  paged : Bool
  bmap : Bool
  fmt : Nat
  die : Nat
  addr : Nat
  dim2 : Nat
  dim1 : Nat
  dim0 : Nat
  stride2 : Nat
  stride1 : Nat
  auxoff : Nat
  cal : Nat
  scale : BitVec 32
deriving DecidableEq, Repr, Inhabited

/-- Everything an engine instruction reads at issue (R187, R208), the cc of its issue and the GOFF of TDB.CAL included. The third and fourth
descriptors are the index list of a GATHER or SCATTER, or the routing and outcome descriptors of DISPATCH and COMBINE. -/
structure Iss where
  opcode : BitVec 8
  ra : W64
  rb : W64
  rc : W64
  nc : Bool
  stream : Nat
  ev : Nat
  opt : BitVec 12
  tda : Desc
  tdb : Desc
  tdc : Desc
  tdd : Desc
  tick : Nat
  far : Option Nat
  profile : Nat
  maps : List W64
  at_ : Nat
  goff : Option Int
deriving DecidableEq, Repr, Inhabited

/-- The sequencer apart from its memories (R161, R170). `pcEnd`: the next fetch would be at 16,384 (R199); `op`: the opcode of the instruction
that waits, stalls or was the last of program memory, as it was fetched. -/
structure Seq where
  st : SeqSt := .stopped
  pc : Nat := 0
  p : BitVec 8 := 0
  stack : List (BitVec 14) := []
  nextAt : Nat := 0
  stall : Option Iss := none
  wait : Option WaitSt := none
  prog : Option Prog := none
  past : List Prog := []
  ovrAt : Option Nat := none
  defer : Option Prog := none
  deferAt : Nat := 0
  endAt : Nat := 0
  stopReq : Option StopReq := none
  lastTag : Nat := 255
  serial : Nat := 0
  startAt : Option Nat := none
  pmCheck : Option (Nat × Nat) := none
  rdLatch : Option (Nat × W32) := none
  wrLatch : Option (Nat × W32) := none
  wrPend : Option (Nat × List (Nat × W32)) := none
  pcEnd : Bool := false
  op : BitVec 8 := 0
deriving DecidableEq, Repr

/-! ## Operations -/

/-- A 64-byte granule read through the memory port, with its error or poison indication (R266, R589). -/
structure Gran where
  data : List Byte
  bad : Bool
deriving DecidableEq, Repr

/-- How far an operation has come. -/
inductive Phase where
  | index | walkHdr | walkEnt | walkVer | walkWait | bmap | src | list | header | outcome | run | result
deriving DecidableEq, Repr

/-- A piece of a transfer (R235): where its bytes are and where they go; data that the engine itself makes. -/
structure Piece where
  sdie : Nat
  saddr : Nat
  ddie : Nat
  daddr : Nat
  len : Nat
  lit : Option (List Byte)
  pid : Option Nat
  ans : Bool
deriving DecidableEq, Repr, Inhabited

/-- A logical page that an operation needs, after its walk (R418, R426): its page id and generation, and what serves it. Codes of
`loc`: 0 the owner die by messages, 1 near memory, 2 a held entry of the cache, 3 a fill that the read waits for, 4 a held entry
after such a wait, 5 out of range, 6 no route, 7 read poisoned. -/
structure PgLoc where
  j : Nat
  pid : Nat
  gen : Nat
  loc : Nat
  entry : Nat
deriving DecidableEq, Repr, Inhabited

/-- An entry of a page instruction, with its outcome and the value its result word returns (R437, R438). -/
structure PgEnt where
  pid : Nat
  gen : Nat
  out : Option Nat
  val : Nat
  pend : Bool
deriving DecidableEq, Repr

/-- An operation that holds an operation tag (R210, R245). `st` is the first status that its far side found, `nst` the near side's, and
`farPsn` says that its far side found poison (R267); `thru` that the pass-through port took a WRITE of it. -/
structure Op where
  tag : Nat
  uid : Nat := 0
  iss : Iss
  serial : Nat
  issuedAt : Nat
  phase : Phase
  buf : List (Nat × Gran) := []
  rdLeft : Nat := 0
  msgs : List Msg := []
  sends : Bool := false
  since : Nat := 0
  trk : List (Nat × Piece) := []
  pieces : List Piece := []
  wrLeft : Nat := 0
  await : List Nat := []
  st : BitVec 4 := 0
  nst : BitVec 4 := 0
  psn : Bool := false
  farPsn : Bool := false
  ecount : Nat := 0
  ents : List PgEnt := []
  moves : List (Nat × Nat) := []
  pg : List PgLoc := []
  held : List Nat := []
  snap : List (Nat × W64) := []
  hdr : W64 := 0
  attempt : Nat := 0
  retryAt : Nat := 0
  mt : Option Nat := none
  abort : Bool := false
  pos : Nat := 0
  total : Nat := 0
  tickBytes : Nat := 0
  doneAt : Option Nat := none
  handed : Bool := false
  fence : List Nat := []
  rnum : Nat := 0
  orig : Option (BitVec 3) := none
  sent : List Msg := []
  thru : Bool := false
deriving DecidableEq, Repr

/-- Identifies a far operation: SRC_DIE, ORIG, OPTAG and the stream (R246). -/
structure FarKey where
  src : BitVec 4
  orig : BitVec 3
  optag : BitVec 8
  stream : Nat
deriving DecidableEq, Repr

/-- What a receiving instance keeps of a far operation until it sends its COMPLETION (R246, R257, R267). `stOrd` is the release order of
the message whose status `st` holds. -/
structure FarOp where
  key : FarKey
  rnum : Nat := 0
  wr : Nat := 0
  last : Bool := false
  st : BitVec 4 := 0
  stOrd : Nat := 0
  psn : Bool := false
  ecount : Nat := 0
  pages : List (Nat × Bool) := []
  reading : List Nat := []
  pend : List (Msg × Nat × Nat) := []
deriving DecidableEq, Repr

/-- Who waits for a memory-port read. -/
inductive RdOwner where
  | op (tag : Nat)
  | rsp (id : Nat)
  | page (k : FarKey) (pid : Nat)
  | record (id : Nat)
deriving DecidableEq, Repr

/-- An outstanding memory-port read (R585, R586). -/
structure RdReq where
  id : Nat
  addr : Nat
  n : Nat
  owner : RdOwner
  got : List (Nat × Gran)
  wire : Option Nat := none
  took : Bool := false
deriving DecidableEq, Repr

/-- Who waits for a memory-port write. -/
inductive WrOwner where
  | op (tag : Nat)
  | far (k : FarKey)
  | fill (trk chunk : Nat)
  | record (id : Nat)
  | near (tag : Nat) (trkNo : Nat)
  | ring
deriving DecidableEq, Repr

/-- A memory-port write, issued or still waiting behind an earlier write to its granules (R241, R587, R588). Its channel, its tag and its
acceptance are as those of a read. -/
structure WrReq where
  id : Nat
  addr : Nat
  data : List Byte
  poison : Bool
  stream : Option Nat
  ord : Nat
  owner : WrOwner
  issued : Bool
  wire : Option Nat := none
  took : Bool := false
deriving DecidableEq, Repr

/-! ## Harvest slots -/

/-- An exact element value (R272, R276): a NaN, an infinity with the largest finite magnitude of its own format, or sign, mantissa and
exponent of m × 2^e, with the sign of a zero. -/
inductive Val where
  | nan
  | inf (neg : Bool) (m : Nat) (e : Int)
  | num (neg : Bool) (m : Nat) (e : Int)
deriving DecidableEq, Repr, Inhabited

/-- The accumulator of one element of a reduction (R295, R297, R304): the integer sum, the NaN mark, and the extreme
contribution. -/
structure Acc where
  sum : Int := 0
  nan : Bool := false
  best : Option Val := none
deriving DecidableEq, Repr

/-- A reduction slot (Table 7-14): grid exponents per grid block in PRE mode, one otherwise; the Emax values held so far, and how many
blocks of them each contributor has sent; the accumulators by element; per contributor its faults and whether it was poisoned. -/
structure Red where
  busy : Bool := false
  tag : Nat := 0
  rtag : Nat := 0
  gmode : Nat := 0
  op : Nat := 0
  ftz : Bool := false
  satinf : Bool := false
  k : Nat := 0
  tdb : Desc := default
  g : List Int := []
  gfinal : Bool := false
  emax : Sp Int := []
  p0 : Sp Nat := []
  acc : Sp Acc := []
  done : List Nat := []
  cf : List (Nat × Nat × Bool) := []
  gsat : Bool := false
  nan : Bool := false
  first : Nat := 0
  drops : Nat := 0
  poison : Bool := false
  converted : Bool := false
  calBad : Bool := false
deriving DecidableEq, Repr

/-- A staged partial record, widened to FP32: row, m, l and o as FP32 words (R332, R344). -/
structure PRec where
  row : Nat
  m : BitVec 32
  l : BitVec 32
  o : List (BitVec 32)
deriving DecidableEq, Repr

/-- A merge slot (Table 8-9): the staged records by contributor, the contributors masked and those whose LAST is taken, the groups
written, the rows that poisoned records touch, and what R348 found of each contributor. -/
structure Mrg where
  busy : Bool := false
  cut : Bool := false
  tag : Nat := 0
  rtag : Nat := 0
  k : Nat := 0
  gsize : Nat := 0
  d : Nat := 0
  rows : Nat := 0
  exp3 : Bool := false
  outp : Bool := false
  ftz : Bool := false
  satinf : Bool := false
  ofmt : List (Nat × Nat) := []
  localIdx : Option Nat := none
  tdb : Desc := default
  cutoffAt : Option Nat := none
  recs : List (Nat × PRec) := []
  masked : List Nat := []
  last : List Nat := []
  written : List Nat := []
  allmask : Bool := false
  nan : Bool := false
  nanIn : Bool := false
  bad : Bool := false
  contribErr : Bool := false
  drops : Nat := 0
  badRows : List Nat := []
  cf : List (Nat × Nat × Bool) := []
  lastAt : Nat := 0
deriving DecidableEq, Repr

/-- A token entry of an outcome table (Table 9-4). -/
structure TokEnt where
  token : Nat
  state : Nat
  late : Bool
  carries : Nat
  kmask : Nat
deriving DecidableEq, Repr

/-- A carried token (R381): its id, routing entries, carry count and converted row, with the format it was converted to. -/
structure Carried where
  token : Nat
  route : List W64
  carries : Nat
  row : List Byte
  scales : List Byte
  fmt : Nat
  dim0 : Nat
  psn : Bool
deriving DecidableEq, Repr

/-- A dispatch slot (Table 9-11). -/
structure Dsl where
  busy : Bool := false
  tag : Nat := 0
  flush : Bool := false
  carried : List Carried := []
  placed : Nat := 0
  late : Nat := 0
  ncarried : Nat := 0
  dropped : Nat := 0
deriving DecidableEq, Repr

/-- A combine slot (Table 9-12): the returns taken in full, the elements of the others, the entries and gates that were read, the tokens
written and those that poison touches, and what R396 found of each sender. -/
structure Cmb where
  busy : Bool := false
  cut : Bool := false
  opened : Bool := false
  tag : Nat := 0
  rtag : Nat := 0
  expect : Nat := 0
  taken : List (Nat × Nat) := []
  parts : List (Nat × Nat × Nat × BitVec 32) := []
  toks : List TokEnt := []
  gates : List (Nat × List (BitVec 32)) := []
  written : List Nat := []
  cutoffAt : Option Nat := none
  cf : List ((BitVec 4 × Nat × BitVec 8) × Nat × Bool) := []
  drop : Bool := false
  contribErr : Bool := false
  nan : Bool := false
  drops : Nat := 0
  badToks : List Nat := []
  ready : Bool := false
  scale : BitVec 32 := 0
deriving DecidableEq, Repr

/-! ## Link -/

/-- PA_STATUS.STATE (Table 2-9). -/
inductive PaSt where
  | down | training | active | frost | fallow | midwinter | retired
deriving DecidableEq, Repr

/-- A byte of a spare map (Table 2-11). -/
structure Spare where
  valid : Bool := false
  fuse : Bool := false
  lane : Nat := 0
deriving DecidableEq, Repr

/-- A DATA flit as the sender keeps it (R85, R99, R101): from its grant until its launch, and then in the replay buffer. `sent` is its latest launch,
or before the first one the moment at which that is due, in 1/8 cc; `wait` counts the slots that R135 allows a RETX, once it is owed. -/
structure RepEnt where
  seq : Nat
  tc : Nat
  stream : Nat
  pay : List Byte
  ids : List Nat
  sent : Nat
  retx : Nat
  owed : Bool
  rpt : Bool
  wait : Nat := 0
deriving DecidableEq, Repr

/-- An accepted sequenced flit: its class, stream and bytes 4 to 243; whether it counts under R141. -/
structure RxFlit where
  tc : Nat
  stream : Nat
  pay : List Byte
  retrained : Bool
  fixed : Bool
deriving DecidableEq, Repr

/-- A retrain in progress (R103, R104, R630); `newRate` and `newWidth`: a planned one that runs at a new rate or width (R155, R77). -/
structure Retrain where
  since : Nat
  limitFrom : Option Nat
  mine : Bool
  reason : BitVec 8
  answered : Bool
  nextReq : Nat
  phase7 : Bool
  gotFlit : Bool
  planned : Bool
  newRate : Bool := false
  newWidth : Bool := false
deriving DecidableEq, Repr

/-- A Frost of a module direction (R75, R77, R151 to R155). Kinds as LL_GAP.KIND. -/
structure Frost where
  since : Nat
  kind : Nat
  tx : Bool
  rx : Bool
  switched : Bool
deriving DecidableEq, Repr

/-- A REPAIR in either direction (R71 to R76). -/
structure Repair where
  id : Nat
  width : Nat
  map : List Spare
  target : Nat
  echoed : Bool
  cancel : Bool
  nextSend : Nat
  began : Option Nat
deriving DecidableEq, Repr

/-- A handshake with a target tick (RETIRE, TAKEOVER, REJOIN, RATE_STEP). -/
structure Shake where
  target : Nat
  mine : Bool
  echoed : Bool
  nextSend : Nat
  arg : Nat
deriving DecidableEq, Repr

/-- One PHY module with its link-layer state (02, 03). `tphase` is the training phase under way, 8 where phase 5 is over and its verdict is
awaited; `passed` is that verdict (R520). `grants` holds the DATA flits that are granted and not launched (R102), `swapRx` and `swapTx` the repair
of each direction that has begun (R74 to R77), `vldGood` and `vldBad` the run of framing patterns (R49), `hmReq` a retrain that the Health
Monitor wants at the next Solstice (R479). For R141, `lateFrom` is the cc of the last entry to a retrain or to DOWN, and from the end of phase 7 on
the cc of that; `lateOld` says that the stamps of the flits held since may have come round again. `stopped` holds granted flits whose slot flow
control took (R120), and `sbNext` when the module's training messages are repeated (R525). -/
structure Mod where
  st : PaSt := .down
  rate : Nat := 0
  width : Nat := 0
  altSel : Bool := false
  clkP : Bool := false
  clkA : Bool := false
  frmP : Bool := false
  frmA : Bool := false
  lostAt : Option Nat := none
  clkLost : Bool := false
  lat8 : Nat := 0
  peerLat8 : Nat := 0
  marker8 : Nat := 0
  nakHold : Nat := 0
  spTx : List Spare := []
  spRx : List Spare := []
  failRx : List Nat := []
  failTx : List Nat := []
  next : Nat := 0
  rep : List RepEnt := []
  grants : List RepEnt := []
  stopped : List RepEnt := []
  sinceReq : Nat := 0
  wasRetired : Bool := false
  prob : Option Nat := none
  p : Nat := 4095
  n : Nat := 0
  u : Nat := 0
  missing : List Nat := []
  reord : List (Nat × RxFlit) := []
  a : Nat := 4095
  ackAt : Option Nat := none
  oldAck : Nat := 4095
  oldNak : Nat := 0
  hdrAt : Option Nat := none
  retrain : Option Retrain := none
  frost : Option Frost := none
  planWidth : Option Nat := none
  planRate : Option Nat := none
  rateGot : Bool := false
  tphase : Nat := 0
  passed : Bool := false
  laneGot : Bool := false
  laneSent : Bool := false
  palGot : Bool := false
  palSent : Bool := false
  sbNext : Nat := 0
  repRx : Option Repair := none
  repTx : Option Repair := none
  swapRx : Option Repair := none
  swapTx : Option Repair := none
  retire : Option Shake := none
  retiring : Bool := false
  lastUse : Nat := 0
  rxUse : Nat := 0
  fallowReq : Bool := false
  wantWake : Bool := false
  wakeAt : Option Nat := none
  fallowAt : Nat := 0
  outAt : Nat := 0
  duty : Nat := 0
  slots : Nat := 0
  after : Bool := false
  lateFrom : Nat := 0
  lateOld : Bool := false
  vldGood : Nat := 0
  vldBad : Nat := 0
  hmReq : Bool := false
  wantRetrain : Option Nat := none
  fuseTx : List Nat := []
  fuseRx : List Nat := []
deriving DecidableEq, Repr

/-- Flow control and arbitration per TC (R109 to R121); `buf` is the receive buffer in use in bytes. -/
structure Flow where
  conH : Nat := 0
  conD : Nat := 0
  graH : Nat := 0
  graD : Nat := 0
  rxH : Nat := 0
  rxD : Nat := 0
  sentH : Nat := 0
  sentD : Nat := 0
  buf : Nat := 0
  xoffTx : Bool := false
  xoffRx : Bool := false
deriving DecidableEq, Repr

/-- A fragment of a message at the receiver (R128, R131). -/
structure Frag where
  mod : Nat
  moff : Nat
  bytes : List Byte
  due : Option Nat
  untimed : Bool
  retrained : Bool
  flit : Nat
  rdy : Nat
  released : Bool
deriving DecidableEq, Repr

/-- A management function received: released at its ready time, outside R143 (R535). `mod`, `due`, `retrained` and `flit` are those of its DATA
flit. -/
structure MgmtIn where
  msg : Msg
  untimed : Bool
  rdy : Nat
  released : Bool
  mod : Nat := 0
  due : Option Nat := none
  retrained : Bool := false
  flit : Nat := 0
deriving DecidableEq, Repr

/-- A message held for its SSEQ turn (R143); `resent` where a second sending of it has come while it was not whole (R150). -/
structure Held where
  sseq : Nat
  tc : Nat
  frags : List Frag
  late : Bool := false
  resent : Bool := false
deriving DecidableEq, Repr

/-- The first 1 to 3 bytes of a message that ends a flit's area (R128): they lie before the SSEQ, which the flit after it gives. `prev` is the
message before it in that area. -/
structure Stub where
  tc : Nat
  prev : Nat
  frag : Frag
deriving DecidableEq, Repr

/-- One stream of the link (R142, R143, R269); `lastRel`: by class, the SSEQ of the message released last; `runTo`: where the stream has gone to the
other twin, the E that went with it, up to which messages are still released here (R454). -/
structure Stream where
  next : Nat := 0
  e : Nat := 0
  held : List Held := []
  stubs : List Stub := []
  lastRel : List (Nat × Nat) := []
  psn : Bool := false
  err : Bool := false
  moving : Bool := false
  stopped : Bool := false
  runTo : Option Nat := none
deriving DecidableEq, Repr

/-- A message released to a user port and not yet taken (R131, R302). `dom` is the order it keeps: the link's stream, or
64 × (1 + s) + the stream for a unit from sister s (R255). -/
structure Rel where
  ord : Nat
  dom : Nat
  msg : Msg
  due : Option Nat
  tick : Nat
  held : Bool
  psn : Bool
  err : Bool
deriving DecidableEq, Repr

/-- An admitted message that still has bytes to send or a flit outstanding (R632, R150). -/
structure TxMsg where
  id : Nat
  msg : Msg
  off : Nat
deriving DecidableEq, Repr

/-- A response waiting for its data or for admission (R239, R243). -/
structure Rsp where
  id : Nat
  msg : Msg
  ready : Bool
  base : Nat
  len : Nat
  buf : List (Nat × Gran)
  rdLeft : Nat
  since : Nat
  via : Option (BitVec 3) := none
deriving DecidableEq, Repr

/-- A transit message waiting for admission, with the source instance and the cc of its arrival (R138, R255). -/
structure Transit where
  msg : Msg
  src : BitVec 3
  since : Nat
deriving DecidableEq, Repr

/-! ## Pages -/

/-- A tag-store entry (Table 10-4): st 0 INVALID, 1 FILLING, 2 VALID. -/
structure Tag where
  st : Nat := 0
  pid : Nat := 0
  gen : Nat := 0
  pin : Nat := 0
  hold : Nat := 0
  lru : Nat := 0
deriving DecidableEq, Repr

/-- A fill with its tracker (R427): the entry, the chunks written, and the operations that wait for it. -/
structure Fill where
  trk : Nat
  set : Nat
  way : Nat
  pid : Nat
  gen : Nat
  got : List Nat
  acked : List Nat
  poison : Bool
  waiters : List (Nat × Nat × Bool)
deriving DecidableEq, Repr

/-- An operation on an owner record at the home instance (R409, R411). -/
structure RecOp where
  id : Nat
  msg : Msg
  started : Bool
  rec_ : Option W64
  wr : Bool
  src : Option (BitVec 3)
deriving DecidableEq, Repr

/-! ## Training, twin, health, power, test -/

/-- Training of the link (13). TRN_STATUS.STATE in `st`; `goWait`: a start that waits for R513; `via`: the module whose sideband carries
phases 1 and 2; the peer's record in `peer`, in Open mode by word in `openWords`; the FC_MODE in force when the link was last up in `fcLast`;
the active set in `act`; the pass bits of phase 5. -/
structure Trn where
  st : Nat := 0
  goWait : Bool := false
  via : Nat := 0
  open_ : Bool := false
  since : Nat := 0
  nextSend : Nat := 0
  nopeer : Bool := false
  peer : List W64 := []
  openWords : List (Nat × W64) := []
  acked : Bool := false
  err : Nat := 0
  fresh : Bool := false
  steps : Nat := 0
  rate : Nat := 0
  sinceReset : Bool := true
  fcLast : Option Bool := none
  act : Option W64 := none
  peerFc : Bool := false
  passMine : Option Bool := none
  passPeer : Option Bool := none
  linkDown : Bool := true
deriving DecidableEq, Repr

/-- Twin pair state (11). TWN_STATUS.STATE in `st`; `failed`: the own link is reported failed; `take` and `rejoin`: the handshakes, with the role
they name in `arg`; `got`: adopted streams whose state has come; `sisHeld`: messages held at the failed-link receiver (R456); `resend` and `peerE`:
what R457 re-sends, and from where; `back`: streams that have moved back, with the E last passed on (R463); `asked`: TWN_CTRL.REJOIN reads 1. -/
structure Twin where
  st : Nat := 0
  alive : Bool := false
  enAt : Option Nat := none
  lastHb : Option Nat := none
  nextHb : Nat := 0
  sisOk : Bool := true
  sisHalf : Nat := 0
  failed : Bool := false
  take : Option Shake := none
  lost : Bool := false
  rejoin : Option Shake := none
  moving : Bool := false
  asked : Bool := false
  rlog : List LogEnt := []
  got : List Nat := []
  sisHeld : List (Nat × Nat) := []
  resend : List Msg := []
  resendAt : Nat := 0
  peerE : Option (List Nat) := none
  back : List (Nat × Nat) := []
  target : Nat := 0
  early : List StreamState := []
deriving DecidableEq, Repr

/-- Health Monitor (12). Filter keys: lane m*68+n; module m; supply 0. The `n` fields are its own event counts since the latest sample
(R474), and `lastAt` the cc of that. -/
structure Hm where
  nLane : Sp Nat := []
  nPrbs : Sp Nat := []
  nCrc : Sp Nat := []
  lane : Sp Nat := []
  prbs : Sp Nat := []
  crc : Sp Nat := []
  temp : Sp Nat := []
  vddA : Nat := 0
  vdd : Nat := 0
  margin : Sp Nat := []
  tempNow : Sp Nat := []
  hold : Sp Nat := []
  retired : Nat := 0
  scan : Nat := 0
  lastAt : Nat := 0
  stepReq : Option Shake := none
  lastId : Nat := 0
deriving DecidableEq, Repr

/-- Power states, caps and telemetry (12). PWR_CTRL.STATE in `st`. -/
structure Pwr where
  st : Nat := 0
  mwGo : Option Nat := none
  peerGo : Option Nat := none
  acked : Bool := false
  result : Nat := 0
  entryAt : Nat := 0
  drained : Bool := false
  wakeSent : Bool := false
  nextSend : Nat := 0
  exitAt : Nat := 0
  exitStep : Nat := 0
  capPend : List (Nat × Nat) := []
  maxmod : Nat := 0
  duty : Nat := 0
  tel : List (BitVec 128) := []
deriving DecidableEq, Repr

/-- Scrub and spare units (12, R501, R505). -/
structure Ecc where
  scrub : Option (Nat × Nat × Nat) := none
  nextAt : Nat := 0
  spStage : List Nat := []
  spRx : List Nat := []
  ways : List Nat := []
  retire : List (Nat × Nat) := []
  pend : List Nat := []
deriving DecidableEq, Repr

/-- The BIST controller and the AIT (14). Results of ended slices and of months: 1 passed, 2 failed, 3 incomplete. `cur` is the slice under
test: month, slice, whether on demand. `ait…` are what the receiver has found so far; `wait` is a CFG_ACCESS that waits for the release of reset. -/
structure Bist where
  month : Nat := 1
  began : Nat := 0
  slices : List (Nat × Nat) := []
  failOnce : List Nat := []
  cur : Option (Nat × Nat × Bool) := none
  lastEnd : Nat := 0
  results : List (Nat × Nat) := []
  yearRes : Nat := 0
  year : Nat := 0
  mhz : Option Nat := none
  begun : Bool := false
  busyAt : Sp Nat := []
  run : Option Nat := none
  runBegan : Nat := 0
  runSlices : List (Nat × Nat) := []
  runFail : List Nat := []
  aitStep : Nat := 0
  aitBad : List (Nat × Nat) := []
  aitScreen : Bool := false
  wir : Nat := 0
  bypass : Bool := false
  cells : Nat := 0
  wso : Bool := false
  dr : W64 := 0
  wait : Option W64 := none
deriving DecidableEq, Repr

/-- What surrounds the block and what only resets and the fuse read settle: the cc, the member, core_clk in MHz (in the range of its
member: clkInRange, which every step keeps), the reset input (`cold`: cold_rst_n is the one held), aon_clk in MHz (its
range is 32 to 100; log entry 80), the straps as sampled, the fuse read (the word asked for, and the words
read), and the end of the clear sweep (R3, R5, R7, R15, R507, R583, R600). -/
structure Env where
  now : Nat := 0
  member : Member := .q16
  clk : Nat := 2400
  inReset : Bool := false
  cold : Bool := false
  aon : Nat := 100
  strapTrain : Bool := false
  strapOpen : Bool := false
  fuseAddr : Option Nat := some 0
  fuseId : W32 := 0
  fuseLanes : Sp W32 := []
  sweepDone : Bool := false
deriving DecidableEq, Repr

/-- The whole state. -/
structure State where
  pending : List Instr := []
  env : Env := {}
  free : Nat := 0
  out : List Out := []
  upset : Sp Nat := []
  regs : Sp W32 := []
  shadow : Sp W32 := []
  calDirty : List Nat := []
  hits : List Hit := []
  cc : CcLog := {}
  portRd : Option (Nat × W32) := none
  portWr : Option (Nat × W32) := none
  merge : List MergeEnt := []
  commit : Option CommitReq := none
  digOld : W32 := 0
  digAt : Option Nat := none
  pendOld : W32 := 0
  pendAt : Option Nat := none
  digestAt : Nat := 0
  digPrev : List Byte := []
  tick : Tick := {}
  seq : Seq := {}
  pm : Sp W64 := []
  g : Sp W64 := []
  scratch : Sp W64 := []
  td : Sp W64 := []
  ev : Sp W64 := []
  ops : List Op := []
  far : List FarOp := []
  rdq : List RdReq := []
  wrq : List WrReq := []
  wd : List WdBeat := []
  xtx : List (BitVec 3 × XptUnit) := []
  cfgq : List (Nat × W32) := []
  ord : Nat := 0
  calTick : List (Nat × Int × Bool) := []
  calClr : Option (Nat × Nat × Nat) := none
  red : Sp Red := []
  mrg : Sp Mrg := []
  dsl : Sp Dsl := []
  cmb : Sp Cmb := []
  mods : Sp Mod := []
  flow : Sp Flow := []
  credAt : Option Nat := none
  credLast : Nat := 0
  credDue : Bool := false
  flowLast : Nat := 0
  flowDue : List Nat := []
  d1 : Nat := 0
  d2 : Nat := 0
  ctl : List (Nat × List Byte) := []
  streams : Sp Stream := []
  rr : List Nat := []
  tx : List TxMsg := []
  rsp : List Rsp := []
  transit : List Transit := []
  mgmtQ : List Msg := []
  mgmtRx : List MgmtIn := []
  rel : List Rel := []
  owed : List (Nat × Msg) := []
  nextFlit : Nat := 0
  slipN : Nat := 0
  slipMax : Nat := 0
  lateFlits : List (Nat × Nat) := []
  plan : Option (Nat × Nat × Nat) := none
  planRun : Bool := false
  gapEnd : Option Nat := none
  tags : Sp Tag := []
  fills : List Fill := []
  fillWait : List (Nat × Nat) := []
  recOps : List RecOp := []
  rdecs : List Nat := []
  ackWait : Nat := 0
  flushSet : Option (List Nat) := none
  trn : Trn := {}
  twin : Twin := {}
  hm : Hm := {}
  pwr : Pwr := {}
  ecc : Ecc := {}
  bist : Bist := {}
deriving DecidableEq, Repr

/-- The present cc. -/
abbrev State.now (s : State) : Nat := s.env.now
/-- The member of Table 0-1. -/
abbrev State.member (s : State) : Member := s.env.member
/-- core_clk in MHz. -/
abbrev State.clk (s : State) : Nat := s.env.clk
/-- The block is held in reset. -/
abbrev State.inReset (s : State) : Bool := s.env.inReset
/-- The strap that asks for training, as sampled. -/
abbrev State.strapTrain (s : State) : Bool := s.env.strapTrain
/-- The strap that asks for Open mode, as sampled. -/
abbrev State.strapOpen (s : State) : Bool := s.env.strapOpen
/-- The fuse word asked for, none after the last. -/
abbrev State.fuseAddr (s : State) : Option Nat := s.env.fuseAddr
/-- Fuse word 0. -/
abbrev State.fuseId (s : State) : W32 := s.env.fuseId
/-- The lane-repair fuse words that are not 0. -/
abbrev State.fuseLanes (s : State) : Sp W32 := s.env.fuseLanes
/-- The clear sweep of the memories has ended. -/
abbrev State.sweepDone (s : State) : Bool := s.env.sweepDone
/-- The environment changed. -/
def State.updEnv (s : State) (f : Env → Env) : State := { s with env := f s.env }

/-- The block right after the release of cold reset on a Q16 with both straps at 0, before the fuse read and the clear
sweep: every register at its reset value, every memory as the sweep will leave it (R507, R512, Table 13-1; log entries 4, 5). -/
def State.reset : State := {}

end Sys2Proof.Machine
end

