-- ==== Sys2Proof/Machine/Regs.lean ====
section
/-! DEFINITION. The stored registers of the configuration window: which fields of which word a port write stores, clears or
shadows (Tables 16-1 to 16-22 and the unit chapters' field maps), their reset values, and the copies that a commit makes. -/
namespace Sys2Proof.Machine

/-! ## Members (Tables 0-1, 15-1) -/

/-- The member code of ID_MEMBER. -/
def memberCode : Member → Nat
  | .q1s => 0 | .q1 => 1 | .q2 => 2 | .q4 => 3 | .q8 => 4 | .q16 => 5

/-- PHY modules of the member. -/
def modules : Member → Nat
  | .q1s => 1 | .q1 => 1 | .q2 => 2 | .q4 => 4 | .q8 => 8 | .q16 => 16

/-- Memory-port channels of the member, each of read and write (Table 15-1). -/
def memChannels : Member → Nat
  | .q1s => 2 | .q1 => 4 | .q2 => 4 | .q4 => 8 | .q8 => 16 | .q16 => 16

/-- The member's highest rate code (R522). -/
def maxRate : Member → Nat
  | .q1s => 3 | _ => 5

/-- Data lanes of one module direction. -/
def dataLanes : Member → Nat
  | .q1s => 16 | _ => 64

/-- Spare lanes of one module direction. -/
def spareLanes : Member → Nat
  | .q1s => 0 | _ => 4

/-- A module of the member has the alternate clock pair and valid lane: a standard x16 module has one of each (R48). -/
def altSet : Member → Bool
  | .q1s => false | _ => true

/-- Physical lane n is one that a module of the member has (R48, Table 2-1). -/
def hasLane (x : Member) (n : Nat) : Bool := decide (n < dataLanes x) || (decide (64 ≤ n) && decide (n < 64 + spareLanes x))

/-- The lowest core_clk in MHz at which the member runs (R7). -/
def minClk : Member → Nat
  | .q1s => 600 | _ => 1200

/-- The member's highest core_clk in MHz (R7, Table 0-1). -/
def maxClk : Member → Nat
  | .q1s => 1000 | _ => 2400

/-- core_clk is in the member's range (R5, R7). -/
def clkInRange (x : Member) (mhz : Nat) : Bool := decide (minClk x ≤ mhz) && decide (mhz ≤ maxClk x)

/-- A lane rate code in GT/s (Table 2-9). -/
def rateGT (code : Nat) : Nat := [4, 8, 12, 16, 24, 32].getD code 0

/-! ## Words of the window -/

/-- A word, or an array of words, of the window: offset, count and stride of up to two indices, whether the first index is a
PHY module (R4), which half of a 64-bit register it is (0 neither, 1 low, 2 high), and its RW, W1C and RWS bits. -/
structure RegRow where
  off : Nat
  n : Nat
  st : Nat
  n2 : Nat
  st2 : Nat
  perMod : Bool
  half : Nat
  rw : W32
  w1c : W32
  rws : W32
deriving DecidableEq, Repr

/-- Identification, interrupts and training (Tables 1-1, 13-12 to 13-14, 15-10, 15-11; R549). -/
def idRows : List RegRow := [
  ⟨0x18, 1, 0x0, 1, 0x0, false, 1, 0x0, 0x0, 0x0⟩, -- ID_CAP low
  ⟨0x1c, 1, 0x0, 1, 0x0, false, 2, 0x0, 0x0, 0x0⟩, -- ID_CAP high
  ⟨0x30, 1, 0x0, 1, 0x0, false, 0, 0x0, 0xff, 0x0⟩, -- IRQ_PEND
  ⟨0x34, 1, 0x0, 1, 0x0, false, 0, 0xff, 0x0, 0x0⟩, -- IRQ_EN
  ⟨0x104, 1, 0x0, 1, 0x0, false, 0, 0x1ff1, 0x0, 0x0⟩, -- TRN_CFG
  ⟨0x10c, 1, 0x0, 1, 0x0, false, 0, 0x0, 0x10000, 0x0⟩, -- TRN_MISMATCH
  ⟨0x110, 1, 0x0, 1, 0x0, false, 1, 0xffffffff, 0x0, 0x0⟩, -- TRN_CAP_MASK low
  ⟨0x114, 1, 0x0, 1, 0x0, false, 2, 0xffffffff, 0x0, 0x0⟩, -- TRN_CAP_MASK high
  ⟨0x118, 1, 0x0, 1, 0x0, false, 1, 0x0, 0x0, 0x0⟩, -- TRN_PEER_CAP low
  ⟨0x11c, 1, 0x0, 1, 0x0, false, 2, 0x0, 0x0, 0x0⟩, -- TRN_PEER_CAP high
  ⟨0x120, 1, 0x0, 1, 0x0, false, 1, 0x0, 0x0, 0x0⟩, -- TRN_ACT_CAP low
  ⟨0x124, 1, 0x0, 1, 0x0, false, 2, 0x0, 0x0, 0x0⟩, -- TRN_ACT_CAP high
  ⟨0x130, 1, 0x0, 1, 0x0, false, 0, 0xffffffff, 0x0, 0x0⟩ -- TRN_ABORTED
  ]

/-- Commit and tick (Tables 1-4 to 1-9, 16-4 to 16-9). -/
def tickRows : List RegRow := [
  ⟨0x1000, 1, 0x0, 1, 0x0, false, 0, 0x2, 0x0, 0x0⟩, -- CFG_COMMIT
  ⟨0x1008, 1, 0x0, 1, 0x0, false, 1, 0xffffffff, 0x0, 0x0⟩, -- CFG_COMMIT_TICK low
  ⟨0x100c, 1, 0x0, 1, 0x0, false, 2, 0xffff, 0x0, 0x0⟩, -- CFG_COMMIT_TICK high
  ⟨0x1010, 1, 0x0, 1, 0x0, false, 0, 0x0, 0x10, 0x0⟩, -- CFG_COMMIT_STATUS
  ⟨0x1018, 1, 0x0, 1, 0x0, false, 1, 0x0, 0x0, 0x0⟩, -- CFG_COMMIT_LAST low
  ⟨0x101c, 1, 0x0, 1, 0x0, false, 2, 0x0, 0x0, 0x0⟩, -- CFG_COMMIT_LAST high
  ⟨0x2000, 1, 0x0, 1, 0x0, false, 0, 0xf07, 0x0, 0x30⟩, -- TICK_CTRL
  ⟨0x2004, 1, 0x0, 1, 0x0, false, 0, 0x0, 0x0, 0x1ffffff⟩, -- TICK_PERIOD
  ⟨0x2008, 1, 0x0, 1, 0x0, false, 1, 0x0, 0x0, 0x0⟩, -- TICK_NUMBER low
  ⟨0x200c, 1, 0x0, 1, 0x0, false, 2, 0x0, 0x0, 0x0⟩, -- TICK_NUMBER high
  ⟨0x2010, 1, 0x0, 1, 0x0, false, 0, 0x0, 0x34, 0x0⟩, -- TICK_STATUS
  ⟨0x2014, 1, 0x0, 1, 0x0, false, 0, 0xffffffff, 0x0, 0x0⟩, -- TICK_OVR_COUNT
  ⟨0x2018, 1, 0x0, 1, 0x0, false, 0, 0xffff, 0x0, 0x0⟩, -- TICK_SKEW_COUNT
  ⟨0x201c, 1, 0x0, 1, 0x0, false, 0, 0x0, 0x0, 0x1ff⟩, -- TICK_SLOT_COUNT
  ⟨0x2400, 256, 0x4, 1, 0x0, false, 0, 0x0, 0x0, 0x80f03fff⟩ -- TICK_SLOT
  ]

/-- Physical adapter (Tables 2-9 to 2-12, 16-10 to 16-12). -/
def paRows : List RegRow := [
  ⟨0x10004, 16, 0x1000, 1, 0x0, true, 0, 0x1ffff, 0x0, 0x0⟩, -- PA_CFG
  ⟨0x10008, 16, 0x1000, 1, 0x0, true, 1, 0x0, 0x0, 0x0⟩, -- PA_SPARE_MAP low
  ⟨0x1000c, 16, 0x1000, 1, 0x0, true, 2, 0x0, 0x0, 0x0⟩, -- PA_SPARE_MAP high
  ⟨0x10010, 16, 0x1000, 1, 0x0, true, 0, 0x3bf, 0x0, 0x0⟩, -- PA_REPAIR
  ⟨0x1001c, 16, 0x1000, 1, 0x0, true, 0, 0x0, 0x7f, 0x0⟩, -- PA_EVENT
  ⟨0x10020, 16, 0x1000, 1, 0x0, true, 0, 0xffffffff, 0x0, 0x0⟩, -- PA_FLIT_UNCORR
  ⟨0x10024, 16, 0x1000, 1, 0x0, true, 0, 0xffffffff, 0x0, 0x0⟩, -- PA_CRC_FAIL
  ⟨0x10100, 16, 0x1000, 68, 0x4, true, 0, 0xffff, 0x0, 0x0⟩, -- PA_LANE_CORR
  ⟨0x10300, 16, 0x1000, 68, 0x4, true, 0, 0xffff, 0x0, 0x0⟩ -- PA_LANE_PRBS
  ]

/-- Link layer (Tables 3-10 to 3-13, 4-7 to 4-10, 16-13 to 16-19). -/
def llRows : List RegRow := [
  ⟨0x20000, 1, 0x0, 1, 0x0, false, 0, 0xff0000, 0x0, 0x1⟩, -- LL_CFG
  ⟨0x20004, 1, 0x0, 1, 0x0, false, 0, 0x0, 0x0, 0x1ff⟩, -- LL_ARB
  ⟨0x20008, 1, 0x0, 1, 0x0, false, 0, 0xff, 0x0, 0x0⟩, -- LL_FLOW_HEAD
  ⟨0x20010, 1, 0x0, 1, 0x0, false, 0, 0xffffffff, 0x0, 0x0⟩, -- LL_CRED_ADV0
  ⟨0x20014, 1, 0x0, 1, 0x0, false, 0, 0xffffffff, 0x0, 0x0⟩, -- LL_CRED_ADV1
  ⟨0x20018, 1, 0x0, 1, 0x0, false, 0, 0xffffffff, 0x0, 0x0⟩, -- LL_CRED_ADV2
  ⟨0x2001c, 1, 0x0, 1, 0x0, false, 0, 0xffffffff, 0x0, 0x0⟩, -- LL_CRED_ADV3
  ⟨0x20034, 1, 0x0, 1, 0x0, false, 0, 0x0, 0xf, 0x0⟩, -- LL_EVENT
  ⟨0x20038, 1, 0x0, 1, 0x0, false, 0, 0xffffffff, 0x0, 0x0⟩, -- LL_PROTO_ERR
  ⟨0x20040, 1, 0x0, 1, 0x0, false, 0, 0x0, 0x0, 0xfff⟩, -- LL_FIXED_LAT
  ⟨0x20048, 1, 0x0, 1, 0x0, false, 1, 0x0, 0x0, 0x0⟩, -- LL_SLIP_TICK low
  ⟨0x2004c, 1, 0x0, 1, 0x0, false, 2, 0x0, 0x0, 0x0⟩, -- LL_SLIP_TICK high
  ⟨0x20054, 1, 0x0, 1, 0x0, false, 0, 0xffffffff, 0x0, 0x0⟩, -- LL_SLIP_TOTAL
  ⟨0x20058, 1, 0x0, 1, 0x0, false, 0, 0x0, 0x3f, 0x0⟩, -- LL_LAT_EVENT
  ⟨0x2005c, 1, 0x0, 1, 0x0, false, 0, 0x3, 0x0, 0x0⟩, -- LL_LAT_CFG
  ⟨0x20060, 1, 0x0, 1, 0x0, false, 0, 0xf0ff00, 0x0, 0x0⟩, -- LL_PLAN
  ⟨0x20068, 1, 0x0, 1, 0x0, false, 1, 0xffffffff, 0x0, 0x0⟩, -- LL_PLAN_TICK low
  ⟨0x2006c, 1, 0x0, 1, 0x0, false, 2, 0xffff, 0x0, 0x0⟩, -- LL_PLAN_TICK high
  ⟨0x20070, 1, 0x0, 1, 0x0, false, 1, 0x0, 0x0, 0x0⟩, -- LL_GAP low
  ⟨0x20074, 1, 0x0, 1, 0x0, false, 2, 0x0, 0x0, 0x0⟩, -- LL_GAP high
  ⟨0x20078, 1, 0x0, 1, 0x0, false, 0, 0xffffffff, 0x0, 0x0⟩, -- LL_RETRAIN_LATE
  ⟨0x2007c, 1, 0x0, 1, 0x0, false, 0, 0xffffffff, 0x0, 0x0⟩, -- LL_VIS_SLIP
  ⟨0x20080, 1, 0x0, 1, 0x0, false, 0, 0xf, 0x0, 0x0⟩, -- LL_RETIRE
  ⟨0x20110, 16, 0x20, 1, 0x0, true, 0, 0xffffffff, 0x0, 0x0⟩, -- LL_MOD_RETX
  ⟨0x20114, 16, 0x20, 1, 0x0, true, 0, 0xffffffff, 0x0, 0x0⟩ -- LL_MOD_DUP
  ]

/-- Transport (R160, R271, Table 6-10). -/
def tpRows : List RegRow := [
  ⟨0x20500, 1, 0x0, 1, 0x0, false, 0, 0xffffffff, 0x0, 0x0⟩, -- TP_DUP
  ⟨0x20504, 1, 0x0, 1, 0x0, false, 0, 0xffffffff, 0x0, 0x0⟩, -- TP_PROTO_ERR
  ⟨0x20600, 16, 0x4, 1, 0x0, false, 0, 0x0, 0x0, 0x80000007⟩, -- TP_ROUTE
  ⟨0x20640, 1, 0x0, 1, 0x0, false, 0, 0xffffffff, 0x0, 0x0⟩ -- TP_ROUTE_ERR
  ]

/-- Sequencer (Tables 5-14 to 5-16, 16-20 to 16-22; R226). -/
def seqRows : List RegRow := [
  ⟨0x30008, 1, 0x0, 1, 0x0, false, 1, 0x0, 0x0, 0x0⟩, -- SEQ_TRAP low
  ⟨0x3000c, 1, 0x0, 1, 0x0, false, 2, 0x0, 0x0, 0x0⟩, -- SEQ_TRAP high
  ⟨0x30010, 1, 0x0, 1, 0x0, false, 1, 0x0, 0x0, 0x0⟩, -- SEQ_TRAP_TICK low
  ⟨0x30014, 1, 0x0, 1, 0x0, false, 2, 0x0, 0x0, 0x0⟩, -- SEQ_TRAP_TICK high
  ⟨0x30018, 1, 0x0, 1, 0x0, false, 1, 0x0, 0x0, 0x0⟩, -- SEQ_LAST_START low
  ⟨0x3001c, 1, 0x0, 1, 0x0, false, 2, 0x0, 0x0, 0x0⟩, -- SEQ_LAST_START high
  ⟨0x30020, 1, 0x0, 1, 0x0, false, 0, 0x1fffffff, 0x0, 0x0⟩, -- SEQ_PM_CHECK
  ⟨0x30100, 32, 0x8, 1, 0x0, false, 1, 0xffffffff, 0x0, 0x0⟩, -- SEQ_G low
  ⟨0x30104, 32, 0x8, 1, 0x0, false, 2, 0xffffffff, 0x0, 0x0⟩, -- SEQ_G high
  ⟨0x30200, 1, 0x0, 1, 0x0, false, 0, 0xff, 0x0, 0x0⟩, -- SEQ_FLAGS
  ⟨0x30400, 64, 0x8, 1, 0x0, false, 1, 0xffffffff, 0x0, 0x0⟩, -- SEQ_EV low
  ⟨0x30404, 64, 0x8, 1, 0x0, false, 2, 0x0, 0x3, 0x0⟩ -- SEQ_EV high
  ]

/-- Transfer engine (Tables 6-11 to 6-13; R271). -/
def xeRows : List RegRow := [
  ⟨0x31000, 1, 0x0, 1, 0x0, false, 0, 0x1ffff, 0x0, 0x0⟩, -- XE_CFG
  ⟨0x31008, 1, 0x0, 1, 0x0, false, 1, 0x0, 0x300000, 0x0⟩, -- XE_ERRLOG low
  ⟨0x3100c, 1, 0x0, 1, 0x0, false, 2, 0x0, 0x0, 0x0⟩, -- XE_ERRLOG high
  ⟨0x31010, 1, 0x0, 1, 0x0, false, 1, 0x0, 0x0, 0x0⟩, -- XE_ERRLOG_TICK low
  ⟨0x31014, 1, 0x0, 1, 0x0, false, 2, 0x0, 0x0, 0x0⟩, -- XE_ERRLOG_TICK high
  ⟨0x31018, 1, 0x0, 1, 0x0, false, 0, 0xffffffff, 0x0, 0x0⟩, -- XE_ERR_COUNT
  ⟨0x3101c, 1, 0x0, 1, 0x0, false, 0, 0xffffffff, 0x0, 0x0⟩, -- XE_ZSKIP_COUNT
  ⟨0x31048, 4, 0x20, 1, 0x0, false, 1, 0x0, 0x0, 0x0⟩, -- XE_MT_POS low
  ⟨0x3104c, 4, 0x20, 1, 0x0, false, 2, 0x0, 0x0, 0x0⟩, -- XE_MT_POS high
  ⟨0x31050, 4, 0x20, 1, 0x0, false, 1, 0x0, 0x0, 0x0⟩, -- XE_MT_TOTAL low
  ⟨0x31054, 4, 0x20, 1, 0x0, false, 2, 0x0, 0x0, 0x0⟩ -- XE_MT_TOTAL high
  ]

/-- Harvest, merge and sparse (Tables 7-10 to 7-14, 8-9, 9-10 to 9-12). -/
def hvRows : List RegRow := [
  ⟨0x70000, 1, 0x0, 1, 0x0, false, 0, 0x0, 0x0, 0x3⟩, -- HV_PROFILE
  ⟨0x70004, 1, 0x0, 1, 0x0, false, 0, 0x10f, 0x0, 0x0⟩, -- HV_CAL_CFG
  ⟨0x70008, 1, 0x0, 1, 0x0, false, 0, 0x1ffffff, 0x0, 0x0⟩, -- HV_CAL_CLR
  ⟨0x70010, 1, 0x0, 1, 0x0, false, 0, 0xffffffff, 0x0, 0x0⟩, -- HV_NAN_COUNT
  ⟨0x70014, 1, 0x0, 1, 0x0, false, 0, 0xffffffff, 0x0, 0x0⟩, -- HV_SAT_COUNT
  ⟨0x70018, 1, 0x0, 1, 0x0, false, 0, 0xffffffff, 0x0, 0x0⟩, -- HV_GRID_OVF
  ⟨0x7001c, 1, 0x0, 1, 0x0, false, 0, 0xffffffff, 0x0, 0x0⟩, -- HV_CONTRIB_ERR
  ⟨0x70020, 1, 0x0, 1, 0x0, false, 0, 0xffffffff, 0x0, 0x0⟩, -- HV_HELD
  ⟨0x70024, 1, 0x0, 1, 0x0, false, 0, 0x7ff0000, 0x0, 0x0⟩, -- HV_STAGE
  ⟨0x70028, 1, 0x0, 1, 0x0, false, 0, 0xffffffff, 0x0, 0x0⟩, -- HV_ALLMASK
  ⟨0x7002c, 1, 0x0, 1, 0x0, false, 0, 0xffffffff, 0x0, 0x0⟩, -- HV_MRG_STALE
  ⟨0x70030, 1, 0x0, 1, 0x0, false, 0, 0xffff0000, 0x0, 0x0⟩, -- HV_MRG_WAIT
  ⟨0x70034, 1, 0x0, 1, 0x0, false, 0, 0xf, 0x0, 0x0⟩, -- SX_CFG
  ⟨0x70038, 1, 0x0, 1, 0x0, false, 0, 0xffffffff, 0x0, 0x0⟩, -- SX_LATE_COUNT
  ⟨0x7003c, 1, 0x0, 1, 0x0, false, 0, 0xffffffff, 0x0, 0x0⟩, -- SX_DROP_COUNT
  ⟨0x70040, 1, 0x0, 1, 0x0, false, 0, 0xff, 0x0, 0x0⟩, -- HV_HOLD
  ⟨0x70044, 1, 0x0, 1, 0x0, false, 0, 0xffffffff, 0x0, 0x0⟩, -- HV_STALE
  ⟨0x70100, 16, 0x8, 1, 0x0, false, 1, 0x0, 0x0, 0x0⟩, -- HV_RED low
  ⟨0x70104, 16, 0x8, 1, 0x0, false, 2, 0x0, 0x0, 0x0⟩, -- HV_RED high
  ⟨0x70200, 8, 0x8, 1, 0x0, false, 1, 0x0, 0x0, 0x0⟩, -- HV_MRG low
  ⟨0x70204, 8, 0x8, 1, 0x0, false, 2, 0x0, 0x0, 0x0⟩, -- HV_MRG high
  ⟨0x70300, 16, 0x8, 1, 0x0, false, 1, 0x0, 0x0, 0xffffffff⟩, -- SX_MAP low
  ⟨0x70304, 16, 0x8, 1, 0x0, false, 2, 0x0, 0x0, 0x800f01ff⟩, -- SX_MAP high
  ⟨0x70380, 4, 0x10, 1, 0x0, false, 1, 0xfffff, 0x0, 0x0⟩, -- SX_DSLOT low
  ⟨0x70384, 4, 0x10, 1, 0x0, false, 2, 0x0, 0x0, 0x0⟩, -- SX_DSLOT high
  ⟨0x70388, 4, 0x10, 1, 0x0, false, 1, 0x0, 0x0, 0x0⟩, -- SX_DSTAT low
  ⟨0x7038c, 4, 0x10, 1, 0x0, false, 2, 0x0, 0x0, 0x0⟩, -- SX_DSTAT high
  ⟨0x703c0, 4, 0x8, 1, 0x0, false, 1, 0x0, 0x0, 0x0⟩, -- SX_CMB low
  ⟨0x703c4, 4, 0x8, 1, 0x0, false, 2, 0x0, 0x0, 0x0⟩, -- SX_CMB high
  ⟨0x78000, 4096, 0x8, 1, 0x0, false, 1, 0x0, 0x0, 0x1ff⟩, -- HV_CAL low
  ⟨0x78004, 4096, 0x8, 1, 0x0, false, 2, 0x0, 0x0, 0x0⟩ -- HV_CAL high
  ]

/-- Remote Page Cache (Tables 10-8 to 10-11; R443). -/
def rpcRows : List RegRow := [
  ⟨0x80000, 1, 0x0, 1, 0x0, false, 0, 0xf001f01, 0x0, 0xff0070⟩, -- RPC_CFG
  ⟨0x80004, 1, 0x0, 1, 0x0, false, 0, 0x0, 0x200, 0x0⟩, -- RPC_STATUS
  ⟨0x80008, 1, 0x0, 1, 0x0, false, 1, 0xffff0000, 0x0, 0x0⟩, -- RPC_CARVE low
  ⟨0x8000c, 1, 0x0, 1, 0x0, false, 2, 0xffff, 0x0, 0x0⟩, -- RPC_CARVE high
  ⟨0x80010, 1, 0x0, 1, 0x0, false, 1, 0xfffffff8, 0x0, 0x0⟩, -- RPC_RC_BASE low
  ⟨0x80014, 1, 0x0, 1, 0x0, false, 2, 0xffff, 0x0, 0x0⟩, -- RPC_RC_BASE high
  ⟨0x80018, 1, 0x0, 1, 0x0, false, 1, 0xfffffff8, 0x0, 0x0⟩, -- RPC_FREE_BASE low
  ⟨0x8001c, 1, 0x0, 1, 0x0, false, 2, 0xffff, 0x0, 0x0⟩, -- RPC_FREE_BASE high
  ⟨0x80020, 1, 0x0, 1, 0x0, false, 0, 0x1f, 0x0, 0x0⟩, -- RPC_FREE_CTL
  ⟨0x80028, 1, 0x0, 1, 0x0, false, 0, 0xffffffff, 0x0, 0x0⟩, -- RPC_FREE_TAIL
  ⟨0x80038, 1, 0x0, 1, 0x0, false, 1, 0x0, 0x0, 0x0⟩, -- RPC_FAULTLOG low
  ⟨0x8003c, 1, 0x0, 1, 0x0, false, 2, 0x0, 0xc0000000, 0x0⟩, -- RPC_FAULTLOG high
  ⟨0x80040, 1, 0x0, 1, 0x0, false, 1, 0x0, 0x0, 0x0⟩, -- RPC_FAULTLOG_TICK low
  ⟨0x80044, 1, 0x0, 1, 0x0, false, 2, 0x0, 0x0, 0x0⟩, -- RPC_FAULTLOG_TICK high
  ⟨0x80048, 1, 0x0, 1, 0x0, false, 0, 0xffffffff, 0x0, 0x0⟩, -- RPC_HIT
  ⟨0x8004c, 1, 0x0, 1, 0x0, false, 0, 0xffffffff, 0x0, 0x0⟩, -- RPC_STREAM
  ⟨0x80050, 1, 0x0, 1, 0x0, false, 0, 0xffffffff, 0x0, 0x0⟩, -- RPC_FILL
  ⟨0x80054, 1, 0x0, 1, 0x0, false, 0, 0xffffffff, 0x0, 0x0⟩, -- RPC_COALESCE
  ⟨0x80058, 1, 0x0, 1, 0x0, false, 0, 0xffffffff, 0x0, 0x0⟩, -- RPC_FULL
  ⟨0x8005c, 1, 0x0, 1, 0x0, false, 0, 0xffffffff, 0x0, 0x0⟩, -- RPC_EVICT
  ⟨0x80060, 1, 0x0, 1, 0x0, false, 0, 0xffffffff, 0x0, 0x0⟩, -- RPC_STALE
  ⟨0x80064, 1, 0x0, 1, 0x0, false, 0, 0xffffffff, 0x0, 0x0⟩, -- RPC_WALK
  ⟨0x80068, 1, 0x0, 1, 0x0, false, 0, 0xffffffff, 0x0, 0x0⟩, -- RPC_FREE_OVF
  ⟨0x80100, 16, 0x8, 1, 0x0, false, 1, 0x0, 0x0, 0xffffffff⟩, -- RPC_POOL low
  ⟨0x80104, 16, 0x8, 1, 0x0, false, 2, 0x0, 0x0, 0xffffffff⟩, -- RPC_POOL high
  ⟨0x80200, 1, 0x0, 1, 0x0, false, 0, 0xf1fff, 0x0, 0x0⟩, -- RPC_TAG_SEL
  ⟨0x80208, 1, 0x0, 1, 0x0, false, 1, 0x0, 0x0, 0x0⟩, -- RPC_TAG low
  ⟨0x8020c, 1, 0x0, 1, 0x0, false, 2, 0x0, 0x0, 0x0⟩ -- RPC_TAG high
  ]

/-- Twin pairs (Tables 11-4 to 11-8; R472). -/
def twnRows : List RegRow := [
  ⟨0x90000, 1, 0x0, 1, 0x0, false, 0, 0xff3f, 0x0, 0x0⟩, -- TWN_CFG
  ⟨0x90008, 1, 0x0, 1, 0x0, false, 1, 0xffffffff, 0x0, 0x0⟩, -- TWN_TICK low
  ⟨0x9000c, 1, 0x0, 1, 0x0, false, 2, 0xffff, 0x0, 0x0⟩, -- TWN_TICK high
  ⟨0x90014, 1, 0x0, 1, 0x0, false, 0, 0x0, 0x1f, 0x0⟩, -- TWN_EVENT
  ⟨0x90020, 1, 0x0, 1, 0x0, false, 0, 0xffffffff, 0x0, 0x0⟩, -- TWN_RESENT
  ⟨0x90024, 1, 0x0, 1, 0x0, false, 0, 0xffffffff, 0x0, 0x0⟩, -- TWN_ABORTED
  ⟨0x90028, 1, 0x0, 1, 0x0, false, 0, 0xffffffff, 0x0, 0x0⟩, -- TWN_LOST_MSG
  ⟨0x9002c, 1, 0x0, 1, 0x0, false, 0, 0x3fff0000, 0x0, 0x0⟩, -- TWN_RLOG
  ⟨0x90030, 1, 0x0, 1, 0x0, false, 1, 0x0, 0x0, 0x0⟩, -- TWN_LAST low
  ⟨0x90034, 1, 0x0, 1, 0x0, false, 2, 0x0, 0x0, 0x0⟩ -- TWN_LAST high
  ]

/-- Health Monitor and power (Tables 12-10, 12-11; R509, R510). -/
def hmRows : List RegRow := [
  ⟨0xa0000, 1, 0x0, 1, 0x0, false, 0, 0x80ffffff, 0x0, 0x0⟩, -- HM_CFG
  ⟨0xa0004, 1, 0x0, 1, 0x0, false, 0, 0xffff, 0x0, 0x0⟩, -- HM_FILT
  ⟨0xa0008, 1, 0x0, 1, 0x0, false, 0, 0xff1ff03f, 0x0, 0x0⟩, -- HM_LIMIT
  ⟨0xa0010, 1, 0x0, 1, 0x0, false, 0, 0xffffffff, 0x0, 0x0⟩, -- HM_THR_LANE
  ⟨0xa0014, 1, 0x0, 1, 0x0, false, 0, 0xffffffff, 0x0, 0x0⟩, -- HM_THR_CRC
  ⟨0xa0018, 1, 0x0, 1, 0x0, false, 0, 0xffff, 0x0, 0x0⟩, -- HM_TEMP
  ⟨0xa001c, 1, 0x0, 1, 0x0, false, 0, 0xfff, 0x0, 0x0⟩, -- HM_VDD_MIN
  ⟨0xa0020, 1, 0x0, 1, 0x0, false, 0, 0x3f, 0x0, 0x0⟩, -- HM_MARGIN
  ⟨0xa0030, 1, 0x0, 1, 0x0, false, 0, 0x0, 0x3ff, 0x0⟩, -- HM_EVENT
  ⟨0xa0038, 1, 0x0, 1, 0x0, false, 1, 0x0, 0x0, 0x0⟩, -- HM_LAST low
  ⟨0xa003c, 1, 0x0, 1, 0x0, false, 2, 0x0, 0x0, 0x0⟩, -- HM_LAST high
  ⟨0xa0104, 1, 0x0, 1, 0x0, false, 0, 0xc01fffff, 0x0, 0x0⟩, -- PWR_CFG
  ⟨0xa0108, 1, 0x0, 1, 0x0, false, 1, 0xffffffff, 0x0, 0x0⟩, -- PWR_TICK low
  ⟨0xa010c, 1, 0x0, 1, 0x0, false, 2, 0xffff, 0x0, 0x0⟩, -- PWR_TICK high
  ⟨0xa0118, 1, 0x0, 1, 0x0, false, 0, 0xff, 0x0, 0x0⟩, -- PWR_WAKE_WAIT
  ⟨0xa0400, 16, 0x8, 1, 0x0, true, 1, 0x0, 0x0, 0x0⟩, -- HM_MOD_AVG low
  ⟨0xa0404, 16, 0x8, 1, 0x0, true, 2, 0x0, 0x0, 0x0⟩ -- HM_MOD_AVG high
  ]

/-- Self-test (Tables 14-5 to 14-7; R577). -/
def bistRows : List RegRow := [
  ⟨0xb0000, 1, 0x0, 1, 0x0, false, 0, 0xc0ffffff, 0x0, 0x0⟩, -- BIST_CFG
  ⟨0xb000c, 1, 0x0, 1, 0x0, false, 0, 0x0, 0xf, 0x0⟩, -- BIST_EVENT
  ⟨0xb0010, 1, 0x0, 1, 0x0, false, 0, 0x0, 0xc0000000, 0x0⟩, -- BIST_FAIL
  ⟨0xb0018, 1, 0x0, 1, 0x0, false, 1, 0x0, 0x0, 0x0⟩, -- BIST_FAIL_TICK low
  ⟨0xb001c, 1, 0x0, 1, 0x0, false, 2, 0x0, 0x0, 0x0⟩, -- BIST_FAIL_TICK high
  ⟨0xb0020, 1, 0x0, 1, 0x0, false, 0, 0xffffffff, 0x0, 0x0⟩, -- BIST_PREEMPT
  ⟨0xb0024, 1, 0x0, 1, 0x0, false, 0, 0xffffffff, 0x0, 0x0⟩, -- BIST_REFUSE
  ⟨0xb0028, 1, 0x0, 1, 0x0, false, 0, 0xff0f, 0x40000000, 0x0⟩, -- BIST_RUN
  ⟨0xb0080, 1, 0x0, 1, 0x0, false, 0, 0x1, 0x0, 0x0⟩, -- AIT_CTRL
  ⟨0xb0084, 1, 0x0, 1, 0x0, false, 0, 0xffff3f0f, 0x0, 0x0⟩, -- AIT_CFG
  ⟨0xb0100, 16, 0x8, 1, 0x0, true, 1, 0x0, 0x0, 0x0⟩, -- AIT_FAIL low
  ⟨0xb0104, 16, 0x8, 1, 0x0, true, 2, 0x0, 0x0, 0x0⟩ -- AIT_FAIL high
  ]

/-- Internal memories and telemetry (Tables 12-12, 12-13; R501, R509). -/
def eccRows : List RegRow := [
  ⟨0xc0000, 1, 0x0, 1, 0x0, false, 0, 0x7ff, 0x0, 0x0⟩, -- ECC_CFG
  ⟨0xc0004, 1, 0x0, 1, 0x0, false, 0, 0x0, 0x3f, 0x0⟩, -- ECC_EVENT
  ⟨0xc0008, 1, 0x0, 1, 0x0, false, 0, 0xffffffff, 0x0, 0x0⟩, -- ECC_LOG_OVF
  ⟨0xc000c, 1, 0x0, 1, 0x0, false, 0, 0xffffffff, 0x0, 0x0⟩, -- ECC_CE_COUNT
  ⟨0xc0010, 1, 0x0, 1, 0x0, false, 0, 0xffffffff, 0x0, 0x0⟩, -- ECC_UE_COUNT
  ⟨0xc0020, 1, 0x0, 1, 0x0, false, 0, 0xf00ff00, 0x10000000, 0x0⟩, -- ECC_SCRUB_CTL
  ⟨0xc0024, 1, 0x0, 1, 0x0, false, 0, 0xffffff, 0x0, 0x0⟩, -- ECC_SCRUB_START
  ⟨0xc0028, 1, 0x0, 1, 0x0, false, 0, 0xffffff, 0x0, 0x0⟩, -- ECC_SCRUB_COUNT
  ⟨0xc0080, 8, 0x4, 1, 0x0, false, 0, 0x8f0fffff, 0x0, 0x0⟩, -- ECC_RETIRE
  ⟨0xc0100, 16, 0x20, 1, 0x0, false, 1, 0x0, 0x0, 0x0⟩, -- ECC_LOG low
  ⟨0xc0104, 16, 0x20, 1, 0x0, false, 2, 0x0, 0x80000000, 0x0⟩, -- ECC_LOG high
  ⟨0xc0108, 16, 0x20, 1, 0x0, false, 1, 0x0, 0x0, 0x0⟩, -- ECC_LOG_FIRST low
  ⟨0xc010c, 16, 0x20, 1, 0x0, false, 2, 0x0, 0x0, 0x0⟩, -- ECC_LOG_FIRST high
  ⟨0xc0110, 16, 0x20, 1, 0x0, false, 1, 0x0, 0x0, 0x0⟩, -- ECC_LOG_LAST low
  ⟨0xc0114, 16, 0x20, 1, 0x0, false, 2, 0x0, 0x0, 0x0⟩, -- ECC_LOG_LAST high
  ⟨0xd0000, 1, 0x0, 1, 0x0, false, 0, 0xc00000ff, 0x0, 0x0⟩, -- TEL_CFG
  ⟨0xd0004, 1, 0x0, 1, 0x0, false, 0, 0xffffffff, 0x0, 0x0⟩ -- TEL_DROP
  ]
/-- Every word that a port access treats by its masks or its half. -/
def regRows : List RegRow :=
  idRows ++ tickRows ++ paRows ++ llRows ++ tpRows ++ seqRows ++ xeRows ++ hvRows ++ rpcRows ++ twnRows ++ hmRows ++
    bistRows ++ eccRows

/-- The indices at which a row holds an offset. -/
def RegRow.hit (r : RegRow) (nm off : Nat) : Bool :=
  decide (r.off ≤ off) &&
    (let d := off - r.off
     let i := if r.st = 0 then 0 else d / r.st
     let j := if r.st2 = 0 then 0 else (d - i * r.st) / r.st2
     decide (d = i * r.st + j * r.st2) && decide (i < r.n) && decide (j < r.n2) && (!r.perMod || decide (i < nm)))

/-- The row of an offset, for a member of nm modules; none where the window holds no such word (R4, R608). -/
def regRow (nm off : Nat) : Option RegRow := regRows.find? (RegRow.hit · nm off)

/-- Reset values other than 0 of words outside arrays and member parameters. -/
def resetList : List (Nat × W32) :=
  [(0x2004, 0x12C0), (0x201C, 1),
   (0x20000, 0x280000), (0x20004, 0x13), (0x20008, 0x70),
   (0x20010, 0x20000200), (0x20014, 0x40000400), (0x20018, 0x60000800), (0x2001C, 0x20000100),
   (0x20040, 0x90), (0x20044, 0x8E), (0x2005C, 2),
   (0x30020, 0x4000)] ++
  [(0x70000, 3), (0x70004, 0x102), (0x70008, 0x1000), (0x70034, 3), (0x70040, 4),
   (0x80000, 0x08BF1000), (0x90000, 0x1000),
   (0xA0000, 0x804003E8), (0xA0004, 0x2423), (0xA0008, 0x10003027), (0xA0010, 0x4000), (0xA0014, 0x400),
   (0xA0018, 0xBDA9), (0xA001C, 0x2C1), (0xA0020, 0x10), (0xA0104, 0x40010960), (0xA0118, 0x10)] ++
  [(0xB0000, 0x40FF1020), (0xC0000, 0x308), (0xC0020, 0x1000), (0xD0000, 0x10),
   (0x110, 0xFFFFFFFF), (0x114, 0xFFFFFFFF)]

/-- The reset value of a stored word (the Reset columns; R512, R616). -/
def regReset (m : Member) (strapOpen : Bool) (off : Nat) : W32 :=
  if off = 0x104 then bf 32 12 8 (modules m) ||| bf 32 7 4 (maxRate m) ||| bf 32 0 0 (b2n strapOpen)
  else if off = 0x20060 then bf 32 23 20 (maxRate m) ||| bf 32 15 8 1
  else if off = 0xB0084 then bf 32 13 8 32 ||| bf 32 3 0 (maxRate m)
  else if 0x10000 ≤ off ∧ off < 0x20000 then (if off % 0x1000 = 4 then 0x10960 else 0)
  else if 0x78000 ≤ off ∧ off < 0x80000 then (if off % 8 = 0 then 0x1000000 else 0)
  else (spFind resetList off).getD 0

/-- The stored (for an RWS field: active) word at an offset. -/
def State.rg (s : State) (off : Nat) : W32 := (spFind s.regs off).getD (regReset s.member s.strapOpen off)

/-- The shadow word at an offset (R37). -/
def State.sh (s : State) (off : Nat) : W32 := (spFind s.shadow off).getD (regReset s.member s.strapOpen off)

/-- The state with a stored word set. -/
def State.setRg (s : State) (off : Nat) (v : W32) : State :=
  { s with regs := spPut (regReset s.member s.strapOpen off) s.regs off v }

/-- The state with a shadow word set. -/
def State.setSh (s : State) (off : Nat) (v : W32) : State :=
  { s with shadow := spPut (regReset s.member s.strapOpen off) s.shadow off v }

/-- A field of a stored word. -/
def State.rf (s : State) (off hi lo : Nat) : Nat := fld (s.rg off) hi lo

/-- The state with a field of a stored word set. -/
def State.setRf (s : State) (off hi lo v : Nat) : State := s.setRg off (setFld (s.rg off) hi lo v)

/-- What hardware does to a field is kept to the end of the cc, for a write that comes in the same one (R615). -/
def State.hit (s : State) (off hi lo n : Nat) : State := { s with hits := s.hits ++ [{ off := off, hi := hi, lo := lo, n := n }] }

/-- The state with a bit of a stored word set by an event (R615). -/
def State.setBit (s : State) (off i : Nat) : State := (s.setRf off i i 1).hit off i i 1

/-- The state with bits of a stored word cleared. -/
def State.clrBits (s : State) (off : Nat) (mask : W32) : State := s.setRg off (s.rg off &&& ~~~mask)

/-- A 64-bit stored register, from its two halves. -/
def State.rg64 (s : State) (off : Nat) : W64 := (s.rg (off + 4)) ++ (s.rg off)

/-- The state with both halves of a 64-bit stored register set. -/
def State.setRg64 (s : State) (off : Nat) (v : W64) : State :=
  (s.setRg off (v.setWidth 32)).setRg (off + 4) ((v >>> 32).setWidth 32)

/-- A counter field raised by n; it saturates at its maximum and never wraps (R617). -/
def State.count (s : State) (off hi lo n : Nat) : State :=
  (s.setRf off hi lo (min (s.rf off hi lo + n) (2 ^ (hi - lo + 1) - 1))).hit off hi lo n

/-- A 32-bit counter raised by n. -/
def State.count32 (s : State) (off n : Nat) : State := s.count off 31 0 n

/-- An event raises irq[n]: IRQ_PEND[n] is set (R601). -/
def State.irq (s : State) (n : Nat) : State := s.setBit 0x30 n

/-- The irq outputs: IRQ_PEND AND IRQ_EN (R601). -/
def State.irqOut (s : State) : BitVec 8 := (s.rg 0x30 &&& s.rg 0x34).setWidth 8

/-! ## Commit copies (R37, R43, R618) -/

/-- The RWS bits of a word. -/
def rwsMask (nm off : Nat) : W32 :=
  match regRow nm off with
  | some r => r.rws
  | none => 0

/-- Offsets that two banks list. -/
def bankKeys (a b : Sp W32) : List Nat := a.map (·.1) ++ b.map (·.1)

/-- The shadow bank copied to the active fields of every listed word. -/
def State.shadowToActive (s : State) : State :=
  (bankKeys s.shadow s.regs).foldl (fun t o =>
    let m := rwsMask (modules t.member) o
    t.setRg o ((t.rg o &&& ~~~m) ||| (t.sh o &&& m))) s

/-- The active fields copied to the shadow bank. -/
def State.activeToShadow (s : State) : State :=
  (bankKeys s.shadow s.regs).foldl (fun t o =>
    let m := rwsMask (modules t.member) o
    t.setSh o ((t.sh o &&& ~~~m) ||| (t.rg o &&& m))) s

/-- Which bank a digest or a range check reads. -/
def State.bank (s : State) (shadow : Bool) (off : Nat) : W32 := if shadow then s.sh off else s.rg off

/-- The digest input of Table 13-9 over one bank. -/
def State.digestInput (s : State) (shadow : Bool) : List Byte :=
  let f := fun off hi lo => fld (s.bank shadow off) hi lo
  leBytes 4 (f 0x2004 24 0) ++ leBytes 2 (f 0x20040 11 0) ++ leBytes 1 (f 0x20004 7 0) ++
    leBytes 1 (f 0x20004 8 8 + 2 * f 0x20000 0 0 + 4 * f 0x70000 1 0)

/-- The configuration digest of one bank (R44, R536). -/
def State.digestOf (s : State) (shadow : Bool) : W32 := crcStd (s.digestInput shadow)

end Sys2Proof.Machine
end

