-- ==== Sys2Proof/Machine/Ops.lean ====
section
/-! DEFINITION. The named operations that the meanings share: events, modules, streams, counters, the memory port, messages
and the completion of operations. -/
namespace Sys2Proof.Machine

/-! ## The form of a meaning -/

/-- A command takes effect on a block that is not held in reset (R583); in reset the event does not occur. -/
def live (s : State) (f : State → State) : Host.Outcome State Fault Refusal :=
  .next (if s.inReset then s else f s)

/-- A command whose operands some wire can carry; otherwise the step faults. -/
def liveWf (ok : Bool) (s : State) (f : State → State) : Host.Outcome State Fault Refusal :=
  if ok then live s f else .fault .malformed

/-- The state changed when a condition holds. -/
def State.when (s : State) (c : Bool) (f : State → State) : State := if c then f s else s

/-- The state changed by each element of a list, first to last. -/
def State.each {α : Type} (s : State) (xs : List α) (f : State → α → State) : State := xs.foldl f s

/-- The block drives something on a port (log entry 3). -/
def State.emit (s : State) (o : Out) : State := { s with out := s.out ++ [o] }

/-- A free choice between two outcomes that the spec both allows (log entry 2). -/
def State.draw (s : State) : Bool × State := (Config.freeBit s.free, { s with free := s.free + 1 })

/-- A unit waits for its transfer on the pass-through port (R584, R591). -/
def State.sendXpt (s : State) (dst : BitVec 3) (u : XptUnit) : State := { s with xtx := s.xtx ++ [(dst, u)] }

/-- cfg_ready: the block holds fewer than 8 unanswered requests, and no reset is asserted (R594). -/
def State.cfgReady (s : State) : Bool := !s.inReset && decide (s.cfgq.length < 8)

/-- The answer to an accepted request, due within a number of cc (R594). -/
def State.cfgAnswer (s : State) (within : Nat) (d : W32) : State := { s with cfgq := s.cfgq ++ [(s.now + within, d)] }

/-- A fresh number in the order of events: identifies messages, requests and releases. -/
def State.fresh (s : State) : Nat × State := (s.ord, { s with ord := s.ord + 1 })

/-- An access of the configuration port that is not to the half a latch holds: both latches are empty after it (R609, R612). -/
def State.accessed (s : State) : State := { s with portRd := none, portWr := none }

/-- A request of the configuration port acts in the cc of its handshake, which does not come while cfg_ready is 0 (R594). -/
def portTake (s : State) (f : State → State) : Host.Outcome State Fault Refusal := .next (if s.cfgReady then f s else s)

/-- A command that is a port write of one register: it acts, and the port owes an answer (R594, R608). -/
def portCmd (s : State) (f : State → State) : Host.Outcome State Fault Refusal := portTake s fun s => (f s.accessed).cfgAnswer 32 0

/-- A port write of a numbered register that exists; otherwise the step faults. -/
def portCmdWf (ok : Bool) (s : State) (f : State → State) : Host.Outcome State Fault Refusal :=
  if ok then portCmd s f else .fault .malformed

/-! ## Identity (R15, R237) -/

/-- ID_FUSE_IDENT as it reads (Table 1-1): the fuse word with PERR for an odd parity (Table 15-8). -/
def fuseIdent (w : W32) : W32 :=
  (w &&& 0x8F77F000) ||| bf 32 30 30 ((List.range 32).foldl (fun p i => p + b2n (bit w i)) 0 % 2)

/-- DIE_ID. -/
def State.die (s : State) : Nat := fld s.fuseId 27 24

/-- EDGE. -/
def State.edge (s : State) : Nat := fld s.fuseId 15 14

/-- TWIN_ROLE: 0 unpaired, 1 twin A, 2 twin B, 3 invalid. -/
def State.role (s : State) : Nat := fld s.fuseId 13 12

/-- The instance's code, as ORIG: EDGE in [1:0], twin B in [2] (R237). -/
def State.inst (s : State) : BitVec 3 := BitVec.ofNat 3 (s.edge + 4 * b2n (s.role == 2))

/-- The output rst_done: ECC_SWEEP.DONE, 0 while a reset is held (R583). -/
def State.rstDone (s : State) : Bool := s.sweepDone && !s.inReset

/-- The output xpt_self: this instance's code once ID_FUSE_IDENT is valid (Table 15-5). -/
def State.xptSelf (s : State) : BitVec 3 := if s.fuseAddr == some 0 then 0 else s.inst


/-- The fuses permit more than the record exchange and the assembly test (R16). -/
def State.fuseOk (s : State) : Bool := bit s.fuseId 31 && !bit (fuseIdent s.fuseId) 30 && s.role != 3

/-- The identity fuse word has been read and permits no more than the record exchange and the assembly test (R16). -/
def State.blank (s : State) : Bool := s.fuseAddr != some 0 && !s.fuseOk

/-- The instance is one of a twin pair; one whose fuses permit no more than the assembly test takes no part in any (R16). -/
def State.paired (s : State) : Bool := s.fuseOk && (s.role == 1 || s.role == 2)

/-- The code of the other twin of the pair. -/
def State.sister (s : State) : BitVec 3 := s.inst ^^^ 4

/-- Streams that a role of a pair owns in Equinox (R445). -/
def roleStream (role n : Nat) : Bool := n % 2 == (if role = 2 then 1 else 0)

/-- This instance owns stream n (R445, R454, R463, R470, R471, Table 11-6). Before the pair is in Equinox each twin has its own half
(log entry 20). -/
def State.owns (s : State) (n : Nat) : Bool :=
  let back := s.twin.back.any (·.1 == n)
  if !s.paired || s.twin.st = 5 then true
  else if s.twin.st = 3 then roleStream s.role n || !back
  else if s.twin.st = 4 then back
  else roleStream s.role n

/-- The sister is lost: this instance owns all, or is to (R450, R460, R461). -/
def State.sisterGone (s : State) : Bool := s.twin.st == 5 || (s.twin.lost && !s.twin.alive)

/-! ## Pre-emption of a BIST slice (R556 to R558) -/

/-- Loopback slices of a module: its lanes in groups of four, and its clock and valid lanes (R555). -/
def bistPerModule (x : Member) : Nat := (dataLanes x + spareLanes x) / 4 + 1

/-- The module that a slice of months 9 to 11 covers (Table 14-1), or one of months 2 and 12 that covers a module's buffers or link layer. -/
def bistModule (x : Member) (month slice : Nat) : Option Nat :=
  let k := slice / bistPerModule x
  if month = 9 then some k else if month = 10 then some (6 + k) else if month = 11 then some (11 + k)
  else if month = 2 ∨ month = 12 then
    let u := Config.bistPart month slice % (modules x + 1)
    if u < modules x then some u else none
  else none

/-- The slice under test is cut: it is INCOMPLETE and counted in BIST_PREEMPT. -/
def State.bistCut (s : State) : State :=
  { s.count32 0xB0020 1 with bist := { s.bist with cur := none, lastEnd := s.now } }

/-- A service of module m pre-empts a slice of it: a wake, a repair, a retrain or a training (R556). -/
def State.bistServe (s : State) (m : Nat) : State :=
  match s.bist.cur with
  | some (month, k, _) => if bistModule s.member month k = some m then s.bistCut else s
  | none => s

/-! ## Tick -/

/-- Two to the 48th: tick numbers wrap modulo it (R21). -/
def tickMod : Nat := 0x1000000000000

/-- Tick t is in the future of tick c (R21). -/
def future (t c : Nat) : Bool :=
  let d := (t % tickMod + tickMod - c % tickMod) % tickMod
  decide (1 ≤ d) && decide (d < 0x800000000000)

/-- The instance's tick is LOCKED. -/
def State.locked (s : State) : Bool := s.tick.lock == 2

/-- The active TICK_PERIOD in cc (R20). -/
def State.period (s : State) : Nat := s.rf 0x2004 24 0

/-- The tick n ticks after the current one. -/
def State.tickPlus (s : State) (n : Nat) : Nat := (s.tick.num + n) % tickMod

/-- TICK_CTRL.EN. -/
def State.tickOn (s : State) : Bool := bit (s.rg 0x2000) 2

/-- The tick that the next Solstice counts: a root's first counts tick 0 (R547). -/
def State.nextTick (s : State) : Nat := if s.tick.first then 0 else s.tickPlus 1

/-- The next phase point brings a Solstice: the count is not held silent by R30. -/
def State.sounds (s : State) : Bool := (s.tick.mute.map fun t => s.nextTick == t).getD true

/-- A LOCKED follower has its Solstice with a sampled pulse and not from its flywheel (R597; log entry 43). -/
def State.byPulse (s : State) : Bool := s.rf 0x2000 1 0 == 0 && s.tick.lock == 2

/-- The present cc is a Solstice cc whose actions have not been taken yet: what the port accepts now comes after them (R40). -/
def State.solNow (s : State) : Bool :=
  s.tickOn && (s.tick.nextSol.map fun t => if s.byPulse then t == s.now else decide (t ≤ s.now)).getD false && s.sounds

/-- The tick of the present cc: from the Solstice cc on, the new one (R22). -/
def State.curTick (s : State) : Nat := if s.solNow then s.nextTick else s.tick.num

/-- The cc of the latest Solstice, 0 before the first. -/
def State.solCc (s : State) : Nat := ((s.tick.hist.head?).map (·.sol)).getD 0

/-! ## Modules and the link -/

/-- The state of module m. -/
def State.mod (s : State) (m : Nat) : Mod := spGet {} s.mods m

/-- The state with module m set. -/
def State.setMod (s : State) (m : Nat) (x : Mod) : State := { s with mods := spPut {} s.mods m x }

/-- The state with module m changed. -/
def State.updMod (s : State) (m : Nat) (f : Mod → Mod) : State := s.setMod m (f (s.mod m))

/-- The modules of the member, ascending. -/
def State.allMods (s : State) : List Nat := List.range (modules s.member)

/-- A module that carries flits: ACTIVE, or in Frost with no retrain begun (R151). -/
def Mod.carries (x : Mod) : Bool := (x.st == .active || x.st == .frost) && x.retrain.isNone

/-- A training runs (Table 13-13). -/
def State.trainRuns (s : State) : Bool := decide (1 ≤ s.trn.st) && decide (s.trn.st ≤ 4)

/-- The active modules, ascending. -/
def State.active (s : State) : List Nat := s.allMods.filter fun m => (s.mod m).carries

/-- No module keeps the link up (R107), and it is not asleep (R490). -/
def State.linkDownNow (s : State) : Bool :=
  s.allMods.all fun m => let x := s.mod m
    x.retrain.isNone && (x.st == .down || x.st == .retired || x.st == .training)

/-- The link is asleep: every module that is not out of use is in Midwinter (R107, R490). -/
def State.asleep (s : State) : Bool :=
  s.allMods.any (fun m => (s.mod m).st == .midwinter) &&
    s.allMods.all fun m => let x := (s.mod m).st; x == .midwinter || x == .down || x == .retired

/-- The link runs in Open mode. -/
def State.openMode (s : State) : Bool := s.trn.open_

/-- The active FC_MODE: true is on/off mode (R122). -/
def State.onOff (s : State) : Bool := bit (s.rg 0x20000) 0

/-- Lanes in use by a module at its width (R51). -/
def State.lanes (s : State) (m : Nat) : Nat := if (s.mod m).width = 0 then dataLanes s.member else dataLanes s.member / 2

/-- k flit times of a module in 1/8 cc, rounded up: 2,048 / w UI each at the lane rate (R51, Table 2-2), with core_clk at
State.clk MHz. -/
def State.flitTimes8 (s : State) (m k : Nat) : Nat :=
  ceilDiv (k * 8 * 2048 * s.clk) (s.lanes m * rateGT (s.mod m).rate * 1000)

/-- A duration of the PHY, the sideband or training, given in cc at 2.4 GHz, in cc of this core_clk (R621). -/
def State.dur (s : State) (cc : Nat) : Nat := ceilDiv (cc * s.clk) 2400

/-- A link-layer protocol error is counted (R54, R94, R629). -/
def State.protoErr (s : State) : State := ((s.count32 0x20038 1).setBit 0x20034 3).irq 1

/-- A transport protocol error is counted (R126, R129, R535). -/
def State.tpErr (s : State) : State := s.count32 0x20504 1

/-- A TWN_EVENT bit is set; each raises irq[7] (Table 11-7). -/
def State.twinEvent (s : State) (i : Nat) : State := (s.setBit 0x90014 i).irq 7

/-! ## Streams, classes -/

/-- Stream n of the link. -/
def State.strm (s : State) (n : Nat) : Stream := spGet {} s.streams n

/-- The state with stream n changed. -/
def State.updStrm (s : State) (n : Nat) (f : Stream → Stream) : State :=
  { s with streams := spPut {} s.streams n (f (s.strm n)) }

/-- Flow state of a class. -/
def State.tc (s : State) (c : Nat) : Flow := spGet {} s.flow c

/-- The state with the flow state of a class changed. -/
def State.updTc (s : State) (c : Nat) (f : Flow → Flow) : State :=
  { s with flow := spPut {} s.flow c (f (s.tc c)) }

/-- Receive buffer of a class in bytes (Table 3-8). -/
def rxBuffer (c : Nat) : Nat := [524288, 1048576, 1572864, 524288].getD c 0

/-- On/off mode: whether this end holds a class in XOFF (R117), from the space in use; a change makes a FLOW flit due (R119). -/
def State.flowCheck (s : State) (c : Nat) : State :=
  let f := s.tc c
  let head := s.rf 0x20008 7 0 * s.active.length * 240
  let space := rxBuffer c - f.buf
  let x := if f.xoffTx then decide (space < head + 32768) else decide (space < head)
  if s.onOff && x != f.xoffTx then
    { s.updTc c (fun f => { f with xoffTx := x }) with flowDue := s.active, flowLast := s.now }
  else s

/-- The cost of a message in data credits (R110, R128). -/
def dataCredits (m : Msg) : Nat := ceilDiv m.data.length 64

/-- A message's data left the receive buffer of its class: its credits are granted back (R113) and its space is free. -/
def State.grant (s : State) (m : Msg) : State :=
  let s := s.updTc m.tc fun f =>
    { f with graH := (f.graH + 1) % 65536, graD := (f.graD + dataCredits m) % 65536,
             buf := f.buf - (16 + m.data.length) }
  let s : State := { s with credAt := some (s.credAt.getD s.now) }
  s.flowCheck m.tc

/-! ## Event counters (R177 to R179) -/

/-- Counter n: COUNT in [31:0], ERR in [32], POISON in [33]. -/
def State.evc (s : State) (n : Nat) : W64 := spGet 0 s.ev n

/-- The state with counter n set. -/
def State.setEvc (s : State) (n : Nat) (v : W64) : State := { s with ev := spPut 0 s.ev n v }

/-- An increment of COUNT modulo 2^32, and sticky bits set; a write of the same cc comes before them (R615). -/
def State.evAdd (s : State) (n amount : Nat) (err psn : Bool) : State :=
  let w := s.evc n
  let w := setFld w 31 0 ((fld w 31 0 + amount) % 0x100000000)
  let w := if err then setFld w 32 32 1 else w
  let s := (s.setEvc n (if psn then setFld w 33 33 1 else w)).hit (0x30400 + 8 * n) 31 0 amount
  let s := if err then s.hit (0x30404 + 8 * n) 0 0 1 else s
  if psn then s.hit (0x30404 + 8 * n) 1 1 1 else s

/-- The counter has reached a target (R180). -/
def evReached (w : W64) (t : Nat) : Bool := decide ((fld w 31 0 + 0x100000000 - t % 0x100000000) % 0x100000000 < 0x80000000)

/-! ## Messages (R128, Table 4-2) -/

/-- The 16 header bytes of a message. -/
def msgHeader (m : Msg) : List Byte :=
  leBytes 16 (m.mtype.toNat + 2 ^ 8 * b2n m.poison + 2 ^ 9 * b2n m.resend + 2 ^ 16 * (m.sseq % 65536) +
    2 ^ 32 * (m.data.length % 8192) + 2 ^ 48 * m.src.toNat + 2 ^ 52 * m.dst.toNat + 2 ^ 56 * m.optag.toNat +
    2 ^ 64 * m.arg.toNat)

/-- A message's bytes: header, then data. -/
def msgBytes (m : Msg) : List Byte := msgHeader m ++ m.data

/-- LEN of a header. -/
def hdrLen (h : List Byte) : Nat := leAt h 4 4 % 8192

/-- The message that whole bytes spell, of a stream and class. -/
def msgOf (stream tc : Nat) (bs : List Byte) : Msg :=
  let w : W64 := BitVec.ofNat 64 (leAt bs 0 8)
  { mtype := BitVec.ofNat 8 (fld w 7 0), poison := bit w 8, resend := bit w 9, stream := stream, tc := tc,
    sseq := fld w 31 16, src := BitVec.ofNat 4 (fld w 51 48), dst := BitVec.ofNat 4 (fld w 55 52),
    optag := BitVec.ofNat 8 (fld w 63 56), arg := BitVec.ofNat 64 (leAt bs 8 8),
    data := slice bs 16 (hdrLen bs) }

/-- ORIG of the ARG layouts that carry it in [50:48] (Table 6-5). -/
def origOf (m : Msg) : BitVec 3 := BitVec.ofNat 3 (fld m.arg 50 48)

/-- A message of this instance toward a die, with no SSEQ yet. -/
def State.mkMsg (s : State) (mtype stream tc dst tag : Nat) (arg : W64) (data : List Byte) (psn : Bool) : Msg :=
  { mtype := BitVec.ofNat 8 mtype, poison := psn, resend := false, stream := stream, tc := tc, sseq := 0,
    src := BitVec.ofNat 4 s.die, dst := BitVec.ofNat 4 dst, optag := BitVec.ofNat 8 tag, arg := arg, data := data }

/-- A management function waiting for admission: to the peer's die, STREAM 0, SSEQ 0, TC3, FN in ARG [7:0] (R535). -/
def State.sendMgmt (s : State) (fn : Nat) (arg : W64) (data : List Byte) : State :=
  { s with mgmtQ := s.mgmtQ ++ [s.mkMsg 0x30 0 3 (s.rf 0x12C 27 24) 0 (arg ||| BitVec.ofNat 64 fn) data false] }

/-- A management function of which at most one waits: a newer one replaces an older (R636). -/
def State.sendMgmt1 (s : State) (fn : Nat) (arg : W64) (data : List Byte) : State :=
  ({ s with mgmtQ := s.mgmtQ.filter fun m => fld m.arg 7 0 != fn } : State).sendMgmt fn arg data

/-- A pending repair of module m is superseded by its retirement (R480): RESULT 3, SWAP_CANCEL. -/
def State.dropRepair (s : State) (m : Nat) : State :=
  (s.when ((s.mod m).repRx.isSome) fun s => ((s.setRf (0x10010 + 0x1000 * m) 30 28 3).setBit (0x1001C + 0x1000 * m) 4).irq 4).updMod m fun x =>
    { x with repRx := none, repTx := none }

/-- A retirement of module m is decided here: a RETIRE REQUEST for 2 ticks ahead, and no new DATA flit from now on (R464, R465); a module
in Fallow is woken for it (R486). -/
def State.startRetire (s : State) (m : Nat) (byHm : Bool) : State :=
  let x := s.mod m
  if x.st == .retired || x.retire.isSome then s
  else
    let t := s.tickPlus 2
    let k : Shake := { target := t, mine := true, echoed := false, nextSend := s.now + 256, arg := b2n byHm }
    let s := (s.dropRepair m).updMod m fun x => { x with retire := some k, retiring := true, wantWake := x.wantWake || x.st == .fallow }
    s.sendMgmt 0x42
      (bf 64 9 8 1 ||| bf 64 63 16 t) (BitVec.ofNat 8 m :: List.replicate 7 0)

/-- A response that needs no memory read, sent in the reverse direction on the request's stream (R243). -/
def State.respond (s : State) (m : Msg) : State :=
  let (i, s) := s.fresh
  { s with rsp := s.rsp ++ [{ id := i, msg := m, ready := true, base := 0, len := 0, buf := [], rdLeft := 0, since := s.now }] }

/-- The answer to a request: to its SRC_DIE on its stream, with its OPTAG (R243). -/
def State.answer (s : State) (req : Msg) (mtype tc : Nat) (arg : W64) (data : List Byte) (psn : Bool) : Msg :=
  { s.mkMsg mtype req.stream tc req.src.toNat req.optag.toNat arg data psn with dst := req.src }

/-- The COMPLETION of Table 6-5 for an operation. -/
def completionArg (status : Nat) (psn : Bool) (ecount : Nat) (orig : BitVec 3) : W64 :=
  bf 64 3 0 status ||| bf 64 4 4 (b2n psn) ||| bf 64 31 8 (min ecount 0xFFFFFF) ||| bf 64 50 48 orig.toNat

/-- Health Monitor state changed. -/
def State.updHm (s : State) (f : Hm → Hm) : State := { s with hm := f s.hm }

/-- n more events under a key of one of the Health Monitor's counts (R474). -/
def spAdd (m : Sp Nat) (k n : Nat) : Sp Nat := spPut 0 m k (spGet 0 m k + n)

/-! ## Routes (R252 to R254) -/

/-- A physical error marked on a word of an internal memory (Table 12-9, log entry 9): 0 none; else [7:0] syndrome,
[8] uncorrectable, [9] stuck. -/
def State.upsetAt (s : State) (id idx : Nat) : Nat := spGet 0 s.upset (id * 0x1000000 + idx)

/-- An uncorrectable error is marked on the word. -/
def State.uncorr (s : State) (id idx : Nat) : Bool := s.upsetAt id idx / 256 % 2 == 1

/-- The instance on this die toward die d: TP_ROUTE[d].INST when V is 1 (Table 6-10); an uncorrectable entry acts as V 0. -/
def State.route (s : State) (d : Nat) : Option (BitVec 3) :=
  let w := s.rg (0x20600 + 4 * d)
  if bit w 31 && !s.uncorr 4 d then some (BitVec.ofNat 3 (fld w 2 0)) else none

/-! ## Memory port (R585 to R589, Table 6-8) -/

/-- Spans of a byte range that no 4 KiB boundary crosses: (address, bytes). -/
def spans4k : Nat → Nat → Nat → List (Nat × Nat)
  | 0, _, _ => []
  | fuel + 1, addr, n =>
    if n = 0 then [] else
    let k := min n (4096 - addr % 4096)
    (addr, k) :: spans4k fuel (addr + k) (n - k)

/-- The spans of a range, one request each (R585). -/
def reqSpans (addr n : Nat) : List (Nat × Nat) := spans4k (n / 4096 + 2) addr n

/-- One read request for the granules that hold a span. It waits for a channel and a tag (State.offerRead). -/
def State.read1 (s : State) (owner : RdOwner) (a : Nat × Nat) : State :=
  let g := a.1 / 64 * 64
  let k := ceilDiv (a.1 + a.2 - g) 64
  let (i, s) := s.fresh
  { s with rdq := s.rdq ++ [{ id := i, addr := g, n := k, owner := owner, got := [] }] }

/-- The read requests of a byte range, and how many there are. -/
def State.readMem (s : State) (owner : RdOwner) (addr n : Nat) : State := s.each (reqSpans addr n) (·.read1 owner ·)

/-- Two byte ranges share a 64-byte granule. -/
def shareGranule (a n b k : Nat) : Bool :=
  decide (0 < n) && decide (0 < k) && decide (a / 64 ≤ (b + k - 1) / 64) && decide (b / 64 ≤ (a + n - 1) / 64)

/-- The piece of a WRITE: its bytes, without the page id that PGCHK puts first (R238). -/
def writePiece (m : Msg) : List Byte := if bit m.arg 52 then m.data.drop 8 else m.data

/-- DADDR, and SADDR of a READ_REQ. -/
def msgAddr (m : Msg) : Nat := fld m.arg 47 0

/-- An earlier piece of the stream for one of the granules still waits for the check of its page (R241, R257). -/
def State.pendBefore (s : State) (stream : Option Nat) (ord addr n : Nat) : Bool :=
  s.far.any fun f => f.pend.any fun p =>
    some p.2.1 == stream && decide (p.2.2 < ord) && shareGranule (msgAddr p.1) (writePiece p.1).length addr n

/-- A write stands before another: its message was released earlier, or it is an earlier request of the same one. -/
def WrReq.before (v w : WrReq) : Bool := decide (v.ord < w.ord) || (v.ord == w.ord && decide (v.id < w.id))

/-- A write of a stream waits while an earlier write of the stream to one of its granules is unacknowledged, or still waits for the check of its
page (R241). -/
def State.writeBarred (s : State) (w : WrReq) : Bool :=
  w.stream.isSome &&
    ((s.wrq.any fun v => v.stream == w.stream && v.before w && shareGranule v.addr v.data.length w.addr w.data.length) ||
      s.pendBefore w.stream w.ord w.addr w.data.length)

/-- One write request, which may go out unless R241 has it wait. -/
def State.write1 (s : State) (owner : WrOwner) (stream : Option Nat) (ord addr : Nat) (data : List Byte) (psn : Bool) : State :=
  let (i, s) := s.fresh
  let w : WrReq := { id := i, addr := addr, data := data, poison := psn, stream := stream, ord := ord, owner := owner, issued := false }
  { s with wrq := s.wrq ++ [{ w with issued := !s.writeBarred w }] }

/-- The write requests of a byte range (R251: only the piece's bytes are enabled). -/
def State.writeMem (s : State) (owner : WrOwner) (stream : Option Nat) (ord addr : Nat) (data : List Byte) (psn : Bool) : State :=
  s.each (reqSpans addr data.length) fun s a =>
    s.write1 owner stream ord a.1 (slice data (a.1 - addr) a.2) psn

/-- Write requests that a byte range needs. -/
def writesOf (addr n : Nat) : Nat := (reqSpans addr n).length

/-- The byte at an address of a granule buffer. -/
def bufByte (buf : List (Nat × Gran)) (a : Nat) : Byte :=
  match spFind buf (a / 64) with
  | some g => g.data.getD (a % 64) 0
  | none => 0

/-- Bytes [a, a+n) of a granule buffer. -/
def bufBytes (buf : List (Nat × Gran)) (a n : Nat) : List Byte := (List.range n).map fun i => bufByte buf (a + i)

/-- Some granule of the range was read with an error or poison indication (R266). -/
def bufBad (buf : List (Nat × Gran)) (a n : Nat) : Bool :=
  decide (0 < n) && buf.any fun g => g.2.bad && decide (a / 64 ≤ g.1) && decide (g.1 ≤ (a + n - 1) / 64)

/-! ## Operations -/

/-- The operation that holds a tag. -/
def State.op? (s : State) (tag : Nat) : Option Op := s.ops.find? fun o => o.tag == tag

/-- The state with the operation of its tag replaced. -/
def State.setOp (s : State) (o : Op) : State := { s with ops := s.ops.map fun p => if p.tag = o.tag then o else p }

/-- The state with an operation changed. -/
def State.updOp (s : State) (tag : Nat) (f : Op → Op) : State :=
  { s with ops := s.ops.map fun p => if p.tag = tag then f p else p }

/-- Reads of the near memory for an operation. -/
def State.opRead (s : State) (tag addr n : Nat) : State :=
  (s.readMem (.op tag) addr n).updOp tag fun o => { o with rdLeft := o.rdLeft + (reqSpans addr n).length }

/-- A write to near memory for an operation, in its stream's order (R241). -/
def State.opWrite (s : State) (tag addr : Nat) (data : List Byte) (psn : Bool) : State :=
  let st := (s.op? tag).map (1024 + ·.iss.stream)
  (s.writeMem (.op tag) st s.ord addr data psn).updOp tag fun o => { o with wrLeft := o.wrLeft + writesOf addr data.length }

/-- The first status other than OK and POISON is kept. -/
def firstStatus (old : BitVec 4) (st : Nat) : BitVec 4 := if old.toNat ≤ 1 && decide (1 < st) then BitVec.ofNat 4 st else old

/-- A fault that a side of an operation found: each side keeps its first status; ECOUNT grows (R267). -/
def Op.fail (o : Op) (st : Nat) (far : Bool) (n : Nat) : Op :=
  { o with st := if far then firstStatus o.st st else o.st,
           nst := if far then o.nst else firstStatus o.nst st,
           farPsn := o.farPsn || (far && st == 1),
           ecount := min (o.ecount + n) 0xFFFFFF }

/-- The status that a collecting operation's rule gives it (R363, R400): it stands before any other of its near side. -/
def Op.collect (o : Op) (st n : Nat) : Op :=
  { o with nst := if 1 < st then BitVec.ofNat 4 st else o.nst, ecount := min (o.ecount + n) 0xFFFFFF }

/-- STATUS of an outcome: the first fault of the far side, or of the near side, or POISON, or OK (R267). -/
def Op.status (o : Op) : Nat :=
  if 1 < o.st.toNat then o.st.toNat else if 1 < o.nst.toNat then o.nst.toNat else if o.psn then 1 else 0

/-- STATUS came from the far side (Table 6-12). -/
def Op.stFar (o : Op) : Bool := decide (1 < o.st.toNat) || (decide (o.nst.toNat ≤ 1) && o.farPsn)

/-- XE_ERR_COUNT, XE_ERRLOG and irq[1] for a completion that is not clean (R270). -/
def State.errLog (s : State) (o : Op) : State :=
  if o.status = 0 && !o.psn then s else
  let s := s.count32 0x31018 1
  let s :=
    if bit (s.rg 0x31008) 20 then s.setBit 0x31008 21
    else
      let lo : W32 := bf 32 29 22 o.iss.opcode.toNat ||| bf 32 20 20 1 ||| bf 32 19 14 o.iss.ev ||| bf 32 13 13 (b2n o.stFar) |||
        bf 32 12 12 (b2n o.psn) ||| bf 32 11 8 o.status ||| bf 32 7 0 o.tag
      ((s.setRg 0x31008 (lo ||| (s.rg 0x31008 &&& 0x200000))).setRg 0x3100C (bf 32 23 0 o.ecount)).setRg64 0x31010
        (BitVec.ofNat 64 s.tick.num) |>.hit 0x31008 20 20 1
  s.when (bit (s.rg 0x31000) 16) (·.irq 1)

/-- A completed operation frees the slot that it holds: a reduction, merge or combine slot, or a dispatch slot with the counts of
R388 and a flush that waited (R316, R344, R384, R393). -/
def State.freeSlots (s : State) (tag : Nat) : State :=
  let s :=
    match s.mrg.find? fun e => e.2.busy && e.2.tag == tag with
    | some (_, x) =>
      let w := min x.lastAt 0xFFFF
      (s.setRf 0x70030 15 0 w).setRf 0x70030 31 16 (max w (s.rf 0x70030 31 16))
    | none => s
  let s :=
    match s.dsl.find? fun e => e.2.busy && e.2.tag == tag with
    | some (d, x) =>
      let sat := fun n => min n 0xFFFF
      let s := s.setRg64 (0x70388 + 0x10 * d)
        (bf 64 15 0 (sat x.placed) ||| bf 64 31 16 (sat x.late) ||| bf 64 47 32 (sat x.ncarried) ||| bf 64 63 48 (sat x.dropped))
      let s := (s.count32 0x70038 x.late).count32 0x7003C (x.dropped + if x.flush then x.carried.length else 0)
      let y := { x with busy := false, flush := false, carried := if x.flush then [] else x.carried }
      { s with dsl := spPut {} s.dsl d y }
    | none => s
  { s with red := s.red.filter (fun e => e.2.tag != tag), mrg := s.mrg.filter (fun e => e.2.tag != tag),
           cmb := s.cmb.filter (fun e => e.2.tag != tag) }

/-- The multi-tick slot of a completed COPY keeps its tag, POS and TOTAL, and PCT reads 100 (R263). -/
def State.mtDone (s : State) (o : Op) : State :=
  match o.mt with
  | none => s
  | some k =>
    let a := 0x20 * k
    ((s.setRg (0x31040 + a) (bf 32 23 16 o.tag ||| 100)).setRg64 (0x31048 + a) (bf 64 47 0 o.pos)).setRg64 (0x31050 + a)
      (bf 64 47 0 o.total)

/-- An operation completes: its counter (R211, R268), the error log (R270), and its tag is free (R245). An operation run
for the sister reports on the twin bus instead, and its issuer counts it (R447). -/
def State.finishOp (s : State) (o : Op) : State :=
  let s := (({ s with ops := s.ops.filter fun p => p.tag != o.tag } : State).freeSlots o.tag).mtDone o
  match o.orig with
  | some _ => s.emit (.twin (.completion (o.tag - 256) (BitVec.ofNat 4 o.status) o.psn o.ecount))
  | none =>
    let s := s.when (!o.iss.nc) (·.evAdd o.iss.ev 1 (decide (1 < o.status)) o.psn)
    s.errLog o

/-- An operation completes now, as its record stands. -/
def State.finish (s : State) (tag : Nat) : State :=
  match s.op? tag with
  | some o => s.finishOp o
  | none => s

/-- An operation that only waits for its messages, reads, writes and COMPLETIONs completes once none is left (R245). -/
def State.opCheck (s : State) (tag : Nat) : State :=
  match s.op? tag with
  | some o =>
    if o.phase == Phase.result && o.msgs.isEmpty && o.trk.isEmpty && o.wrLeft == 0 && o.await.isEmpty && o.doneAt.isNone && !o.handed &&
        !(o.abort && s.tx.any fun t => t.msg.optag.toNat == o.tag && t.msg.mtype == 0x01) then
      s.finishOp o
    else s
  | none => s

/-- The message is the last one that its operation sends toward its die: LAST of its ARG layout; a SIGNAL is alone. -/
def msgLast (m : Msg) : Bool :=
  match m.mtype.toNat with
  | 0x01 | 0x02 => bit m.arg 51
  | 0x04 => true
  | 0x10 | 0x11 => bit m.arg 26
  | 0x12 => bit m.arg 36
  | _ => false

/-! ## Far operations (R246, R257, R267) -/

/-- The key of the operation that a message belongs to. -/
def farKey (m : Msg) : FarKey := { src := m.src, orig := origOf m, optag := m.optag, stream := m.stream }

/-- What this instance keeps of a far operation. -/
def State.farOp (s : State) (k : FarKey) : FarOp := (s.far.find? fun f => f.key == k).getD { key := k }

/-- The state with a far operation's record set. -/
def State.setFar (s : State) (f : FarOp) : State :=
  { s with far := s.far.filter (fun g => g.key != f.key) ++ [f] }

/-- The state without a far operation's record. -/
def State.dropFar (s : State) (k : FarKey) : State := { s with far := s.far.filter fun g => g.key != k }

/-- A fault found at the far side in a message of release order `ord`, n faulty messages that do not count yet: the status of the message
released first, ECOUNT (R267). -/
def FarOp.fail (f : FarOp) (st ord n : Nat) : FarOp :=
  let take := decide (1 < st) && (decide (f.st.toNat ≤ 1) || decide (ord < f.stOrd))
  { f with st := if take then BitVec.ofNat 4 st else f.st, stOrd := if take then ord else f.stOrd,
           ecount := min (f.ecount + n) 0xFFFFFF }

/-- STATUS that a far side reports. -/
def FarOp.status (f : FarOp) : Nat := if 1 < f.st.toNat then f.st.toNat else if f.psn then 1 else 0

/-- A COMPLETION for an operation of this instance (R245, R267): from a die that it awaits, or with NO_ROUTE from a die on the way to
one (R254), which then stands for the first die that it awaits. -/
def State.takeCompletion (s : State) (tag die st : Nat) (psn : Bool) (ecount : Nat) : State :=
  match s.op? tag with
  | some o =>
    if o.await.isEmpty then s
    else
      let d := if o.await.contains die then die else o.await.headD 0
      let far := die != s.die
      let o := { o with await := o.await.erase d, psn := o.psn || psn || st == 1, farPsn := o.farPsn || (far && psn) }
      (s.setOp (o.fail st far ecount)).opCheck tag
  | none => s

/-- The COMPLETION goes out once LAST is released, nothing is pending and every write is acknowledged (R148, R246). -/
def State.farCheck (s : State) (k : FarKey) : State :=
  match s.far.find? fun f => f.key == k with
  | none => s
  | some f =>
    if f.last && f.wr == 0 && f.pend.isEmpty && !s.rel.any (fun r => r.msg.mtype == 0x01 && farKey r.msg == k) then
      if k.src.toNat = s.die && k.orig == s.inst then
        (s.dropFar k).takeCompletion k.optag.toNat s.die f.status f.psn f.ecount
      else
        let m := s.mkMsg 0x05 k.stream 0 k.src.toNat k.optag.toNat (completionArg f.status f.psn f.ecount k.orig) [] false
        (s.dropFar k).respond m
    else s

end Sys2Proof.Machine
end

