-- ==== Sys2Proof/Machine/Ecc.lean ====
section
/-! DEFINITION. The block's own memories: protected reads and the error log, rewrites, retirement to spare units and the
scrub (12, R497 to R508); the telemetry queue (R493, R494). -/
namespace Sys2Proof.Machine

/-! ## Telemetry (R493, R494, Table 12-8) -/

/-- A record of Table 12-8 from its type and payload. -/
def State.telRec (s : State) (type : Nat) (payload : W64) : BitVec 128 :=
  payload ++ (bf 64 63 16 s.tick.num ||| bf 64 10 8 s.inst.toNat ||| bf 64 7 4 s.die ||| bf 64 3 0 type)

/-- A record joins the queue of 16; one that finds it full is dropped and counted. The port takes the first record of the queue in a cc in
which it is ready (State.elapse). -/
def State.tel (s : State) (type : Nat) (payload : W64) : State :=
  if s.pwr.tel.length < 16 then
    { s with pwr := { s.pwr with tel := s.pwr.tel ++ [s.telRec type payload] } }
  else s.count32 0xD0004 1

/-! ## The error log (R498 to R500, Table 12-12) -/

/-- Offset of ECC_LOG[n]. -/
def eccLogOff (n : Nat) : Nat := 0xC0100 + 0x20 * n

/-- Entry n is valid and holds the word. -/
def State.eccHit (s : State) (id idx n : Nat) : Bool :=
  bit (s.rg (eccLogOff n + 4)) 31 && s.rf (eccLogOff n) 31 28 == id && s.rf (eccLogOff n) 23 0 == idx

/-- The entry that holds a word. -/
def State.eccFind (s : State) (id idx : Nat) : Option Nat := (List.range 16).find? (s.eccHit id idx)

/-- The lowest-numbered free entry. -/
def State.eccFree (s : State) : Option Nat := (List.range 16).find? fun n => !bit (s.rg (eccLogOff n + 4)) 31

/-- The state of an entry after a read: UE for an uncorrectable one, whose rewrite is off; HARD for a corrected one that finds REWRITTEN (R500). -/
def State.eccJudge (s : State) (id n : Nat) (ue : Bool) : State :=
  let o := eccLogOff n + 4
  if ue then { s.setRf o 30 29 3 with ecc := { s.ecc with pend := s.ecc.pend.filter (· != n) } }
  else if s.rf o 30 29 = 1 then ((s.setRf o 30 29 2).setBit 0xC0004 2).when (bit (s.rg 0xC0000) 9) (·.irq 6)
  else if s.rf o 30 29 = 0 && decide (id < 0xA) && decide (s.rf 0xC0000 7 0 ≤ s.rf o 15 0) && !s.ecc.pend.contains n then
    { s with ecc := { s.ecc with pend := s.ecc.pend ++ [n] } }
  else s

/-- A corrected or uncorrectable read is logged (R498). -/
def State.eccLog (s : State) (id idx syn : Nat) (ue : Bool) : State :=
  let s := if ue then ((s.count32 0xC0010 1).setBit 0xC0004 1).when (bit (s.rg 0xC0000) 8) (·.irq 6)
    else (s.count32 0xC000C 1).setBit 0xC0004 0
  match s.eccFind id idx with
  | some n =>
    let o := eccLogOff n
    let s := ((s.count (o + 4) 15 0 1).setRf (o + 4) 23 16 syn).setRg64 (o + 0x10) (BitVec.ofNat 64 s.tick.num)
    s.eccJudge id n ue
  | none =>
    match s.eccFree with
    | some n =>
      let o := eccLogOff n
      let t : W64 := BitVec.ofNat 64 s.tick.num
      let s := (s.setRg o (bf 32 31 28 id ||| bf 32 23 0 idx)).setRg (o + 4) (bf 32 31 31 1 ||| bf 32 23 16 syn ||| 1)
      let s := ((s.setRg64 (o + 8) t).setRg64 (o + 0x10) t).hit (o + 4) 31 31 1
      s.eccJudge id n ue
    | none => ((s.count32 0xC0008 1).setBit 0xC0004 3).when (bit (s.rg 0xC0000) 10) (·.irq 6)

/-- A functional read of a protected word: whether it is uncorrectable, and the state with the read logged. -/
def State.eccRead (s : State) (id idx : Nat) : Bool × State :=
  let u := s.upsetAt id idx
  if u = 0 then (false, s) else (s.uncorr id idx, s.eccLog id idx (u % 256) (s.uncorr id idx))

/-- A word is written with fresh check bits: a transient error is gone, a stuck cell stays. -/
def State.eccWritten (s : State) (id idx : Nat) : State :=
  if s.upsetAt id idx / 512 % 2 = 1 then s else { s with upset := spErase s.upset (id * 0x1000000 + idx) }

/-- The units of 512 words of a memory that spares have replaced, in the order of the spares, and the number of its own units (R501). -/
def State.spared (s : State) (id : Nat) : List Nat × Nat :=
  if id = 7 then (s.ecc.spStage, 1024) else if id = 8 then (s.ecc.spRx, 896) else ([], 0)

/-- The word of a memory that a word index reaches: that of the spare which has replaced its unit (R501). -/
def State.physWord (s : State) (id idx : Nat) : Nat :=
  match (s.spared id).1.findIdx? (· == idx / 512) with
  | some j => ((s.spared id).2 + j) * 512 + idx % 512
  | none => idx

/-- Data can lie in a word: its unit is not replaced, or it is a spare in use (R501). -/
def State.wordUsed (s : State) (id idx : Nat) : Bool :=
  let (us, n) := s.spared id
  n == 0 || (if idx / 512 < n then !us.contains (idx / 512) else decide (idx / 512 < n + us.length))

/-- A read of data kept in a memory in which the spec does not place it (staging 0x7, receive buffers 0x8, response log 0x9): of each word of the
memory with an error, whether the data lies in it is free, and a read of it is logged (R498; log entry 9). It answers whether one was
uncorrectable. -/
def State.memHit (s : State) (id : Nat) : Bool × State :=
  (s.upset.filter fun e => e.1 / 0x1000000 == id && s.wordUsed id (e.1 % 0x1000000)).foldl (fun (r : Bool × State) e =>
    let (hit, t) := r.2.draw
    if hit then
      let (ue, t) := t.eccRead id (e.1 % 0x1000000)
      (r.1 || ue, t)
    else (r.1, t)) (false, s)

/-- A read of several words of a memory, of which only the errors count. -/
def State.eccReads (s : State) (id : Nat) (idxs : List Nat) : State := s.each idxs fun s i => (s.eccRead id i).2

/-- The rewrite of entry n: the word with its corrected value, the entry REWRITTEN (R499). -/
def State.eccRewriteEntry (s : State) (n : Nat) : State :=
  let o := eccLogOff n
  let s := (s.eccWritten (s.rf o 31 28) (s.rf o 23 0)).setBit 0xC0004 4
  { s.setRf (o + 4) 30 29 1 with ecc := { s.ecc with pend := s.ecc.pend.filter (· != n) } }

/-- ECC_REWRITE (R499): entry n, whose error recurred RECUR times in state FRESH, is rewritten. -/
def execEccRewrite (n : Nat) (s : State) : Host.Outcome State Fault Refusal :=
  live s fun s => s.when (s.ecc.pend.contains n && bit (s.rg (eccLogOff n + 4)) 31) (·.eccRewriteEntry n)

/-! ## Scrub (R505, R506) -/

/-- A write of ECC_SCRUB_CTL: REFUSED clears on 1, ID and GAP are stored (GAP 0 stores 1), GO starts or is refused. -/
def State.writeScrubCtl (s : State) (d : W32) : State :=
  let s := s.when (bit d 28) (·.clrBits 0xC0020 0x10000000)
  let s := (s.setRf 0xC0020 27 24 (fld d 27 24)).setRf 0xC0020 15 8 (max 1 (fld d 15 8))
  if !bit d 31 then s
  else if s.ecc.scrub.isSome || fld d 27 24 = 0xA || fld d 27 24 = 0xB then s.setBit 0xC0020 28
  else
    let start := s.rf 0xC0024 23 0
    let count := s.rf 0xC0028 23 0
    let s := ((s.setRg 0xC002C (bf 32 23 0 start)).setRg 0xC0030 0).setRg 0xC0034 0
    let s := (s.setRf 0xC0020 30 29 2).setRf 0xC0020 6 0 0
    if count = 0 then (s.setRf 0xC0020 30 29 1).setRf 0xC0020 6 0 100
    else { s with ecc := { s.ecc with scrub := some (fld d 27 24, start, count), nextAt := s.now } }

/-- ECC_SCRUB_GO (R505). BUSY and DONE are [30] and [29]. -/
def execEccScrubGo (d : W32) (s : State) : Host.Outcome State Fault Refusal := portCmd s (·.writeScrubCtl d)

/-- One scrub read of a word: it is logged, counted, and a corrected word is rewritten (R505). -/
def State.scrubWord (s : State) (id idx : Nat) : State :=
  if s.upsetAt id idx = 0 then s
  else if s.uncorr id idx then (s.eccRead id idx).2.count32 0xC0034 1
  else
    let s := (s.eccRead id idx).2.count32 0xC0030 1
    match s.eccFind id idx with
    | some n => if s.rf (eccLogOff n + 4) 30 29 = 0 then s.eccRewriteEntry n else (s.eccWritten id idx).setBit 0xC0004 4
    | none => (s.eccWritten id idx).setBit 0xC0004 4

/-- SCRUB_READ (R505, R506): the next word, at least GAP cc after the one before. -/
def execScrubRead (s : State) : Host.Outcome State Fault Refusal :=
  live s fun s =>
    match s.ecc.scrub with
    | none => s
    | some (id, pos, left) =>
      if s.now < s.ecc.nextAt then s else
      let s := s.scrubWord id (s.physWord id pos)
      let s := s.setRg 0xC002C (bf 32 23 0 (pos + 1))
      let count := s.rf 0xC0028 23 0
      let start := s.rf 0xC0024 23 0
      let s : State := { s with ecc := { s.ecc with nextAt := s.now + s.rf 0xC0020 15 8 } }
      if left ≤ 1 then { (s.setRf 0xC0020 30 29 1).setRf 0xC0020 6 0 100 with ecc := { s.ecc with scrub := none } }
      else { s.setRf 0xC0020 6 0 (min 99 (100 * (pos + 1 - start) / max 1 count)) with
             ecc := { s.ecc with scrub := some (id, pos + 1, left - 1) } }

/-! ## Retirement (R501) -/

/-- Spares of a memory in use or promised. -/
def State.sparesUsed (s : State) (id : Nat) : Nat :=
  (s.ecc.retire.filter fun u => u.1 == id).length +
    (if id = 7 then s.ecc.spStage.length else if id = 8 then s.ecc.spRx.length else 0)

/-- A unit that is retired or promised a spare. -/
def State.unitRetired (s : State) (id unit : Nat) : Bool :=
  s.ecc.retire.contains (id, unit) || (id == 7 && s.ecc.spStage.contains unit) || (id == 8 && s.ecc.spRx.contains unit) ||
    (id == 6 && s.ecc.ways.contains unit)

/-- A write of ECC_RETIRE[k] with V at 1: a staging unit or a receive-buffer unit is promised a spare, a tag-store way leaves
its set, anything else is refused. -/
def State.retireUnit (s : State) (id unit : Nat) : State :=
  let top := if id = 7 then 1024 else 896
  if id = 6 ∧ unit < 131072 then
    if s.unitRetired 6 unit then s else { s with ecc := { s.ecc with ways := s.ecc.ways ++ [unit] } }
  else if (id = 7 ∨ id = 8) ∧ unit < top ∧ s.unitRetired id unit then s
  else if (id = 7 ∨ id = 8) ∧ unit < top ∧ s.sparesUsed id < 8 then
    { s with ecc := { s.ecc with retire := s.ecc.retire ++ [(id, unit)] } }
  else s.setBit 0xC0004 5

/-- SPARE_UNIT_REPLACE (R501): the unit of ECC_RETIRE[k] is replaced once it is free (staging), or at a training of the link
(receive buffers). -/
def execSpareUnitReplace (k : Nat) (s : State) : Host.Outcome State Fault Refusal :=
  live s fun s =>
    let w := s.rg (0xC0080 + 4 * k)
    let u := (fld w 27 24, fld w 19 0)
    if !s.ecc.retire.contains u then s else
    let rest := s.ecc.retire.filter (· != u)
    if u.1 = 7 then { s with ecc := { s.ecc with retire := rest, spStage := s.ecc.spStage ++ [u.2] } }
    else if !s.trainRuns then s
    else { s with ecc := { s.ecc with retire := rest, spRx := s.ecc.spRx ++ [u.2] } }

end Sys2Proof.Machine
end

