-- ==== Sys2Proof/Machine/Flags.lean ====
section
/-! DEFINITION. The flag computations of the sequencer: the conditions of CMP (Table 5-11). Only CMP and the instructions that
name a destination flag change p0 to p7 (R174). -/
namespace Sys2Proof.Machine

/-- COND of CMP on two 64-bit values (Table 5-11); 6 and 7 are no conditions. -/
def cmpCond (cond : Nat) (a b : W64) : Option Bool :=
  match cond with
  | 0 => some (a == b)
  | 1 => some (a != b)
  | 2 => some (BitVec.ult a b)
  | 3 => some (!BitVec.ult a b)
  | 4 => some (BitVec.slt a b)
  | 5 => some (!BitVec.slt a b)
  | _ => none

/-- Flag n of p0 to p7. -/
def flagOf (p : BitVec 8) (n : Nat) : Bool := p.getLsbD n

/-- Flag n set to a value. -/
def setFlagOf (p : BitVec 8) (n : Nat) (v : Bool) : BitVec 8 := setFld p n n (b2n v)

end Sys2Proof.Machine
end

