-- ==== Sys2Proof/Machine/Operands.lean ====
section
/-! DEFINITION. What an instruction of the Link Sequencer reads and how it ends: program memory, registers, local space,
descriptors, the checks at issue, traps and the advance of PC (05, R161 to R221, R634). -/
namespace Sys2Proof.Machine

/-! ## Sequencer memories -/

/-- Word i of program memory; a word never written is all ones (R170). -/
def State.pmWord (s : State) (i : Nat) : W64 := spGet 0xFFFFFFFFFFFFFFFF s.pm i

/-- A word of program memory written (R222). -/
def State.setPmWord (s : State) (i : Nat) (v : W64) : State :=
  { s with pm := spPut 0xFFFFFFFFFFFFFFFF s.pm i v }.eccWritten 0 i

/-- Register gn; g0 reads as zero (R172). -/
def State.greg (s : State) (n : Nat) : W64 := if n = 0 then 0 else spGet 0 s.g n

/-- Register gn written; a write to g0 is discarded (R172). -/
def State.setGreg (s : State) (n : Nat) (v : W64) : State := if n = 0 then s else { s with g := spPut 0 s.g n v }

/-- Word w of descriptor n. -/
def State.tdWord (s : State) (n w : Nat) : W64 := spGet 0 s.td (4 * n + w)

/-- A descriptor word written. -/
def State.setTdWord (s : State) (n w : Nat) (v : W64) : State :=
  { s with td := spPut 0 s.td (4 * n + w) v }.eccWritten 1 (4 * n + w)

/-- Scratch word i. -/
def State.scratchWord (s : State) (i : Nat) : W64 := spGet 0 s.scratch i

/-- A scratch word written. -/
def State.setScratch (s : State) (i : Nat) (v : W64) : State :=
  { s with scratch := spPut 0 s.scratch i v }.eccWritten 2 i

/-- Flag n. -/
def State.flag (s : State) (n : Nat) : Bool := flagOf s.seq.p n

/-- Flag n written. -/
def State.setFlag (s : State) (n : Nat) (v : Bool) : State := { s with seq := { s.seq with p := setFlagOf s.seq.p n v } }

/-! ## Stopping -/

/-- A program that was selected and does not run is counted in TICK_OVR_COUNT.SKIPPED (R36, R167, R625). -/
def State.skip (s : State) : State := s.count 0x2014 31 16 1

/-- The running program has ended; its deadline still judges its operations (R35, R166). A waiting program is dropped and
counted when the sequencer stops, halts or traps (R625). -/
def State.endProg (s : State) (st : SeqSt) : State :=
  let s := s.when (s.seq.defer.isSome && st != .idle) (·.skip)
  let q := s.seq
  { s with seq := { q with st := st, wait := none, stall := none, prog := none,
                           past := q.past ++ q.prog.toList, pcEnd := false,
                           defer := if st = .idle then q.defer else none, endAt := s.now } }

/-- CLR: g1 to g31, the flags and the call stack (Table 5-14). -/
def State.clrSeq (s : State) : State := { s with g := [], seq := { s.seq with p := 0, stack := [] } }

/-- START out of STOPPED, HALTED or TRAPPED (R162); the cc in which the port accepted it is kept for R163. A START before the sweep ends is
ignored (R171), and so is one on a block whose identity fuses permit none (R16). -/
def State.startSeq (s : State) (at_ : Nat) : State :=
  if s.sweepDone && !s.blank && (s.seq.st == .stopped || s.seq.st == .halted || s.seq.st == .trapped) then
    { s with seq := { s.seq with st := .idle, startAt := some at_ } }
  else s

/-- The sequencer stands at an instruction boundary: no instruction is still in its cycles, and none is stalled; an instruction
blocked in WAIT, FENCE or TICKWAIT counts as being at one (R164). -/
def State.atBoundary (s : State) : Bool :=
  s.seq.st == .waiting || (s.seq.st == .running && s.seq.stall.isNone && decide (s.seq.nextAt ≤ s.now)) ||
    !(s.seq.st == .running || s.seq.st == .waiting)

/-- A stop that was asked for takes effect at the boundary, and then the CLR and START of the same write (R164, R633). -/
def State.settle (s : State) : State :=
  match s.seq.stopReq with
  | none => s
  | some r =>
    if !s.atBoundary then s else
    let s : State := { s with seq := { s.seq with stopReq := none } }
    let s := s.when (s.seq.st == .running || s.seq.st == .waiting || s.seq.st == .idle)
      (·.endProg (if r.halt then .halted else .stopped))
    let s := s.when r.clr (·.clrSeq)
    match r.start with
    | some t => s.startSeq t
    | none => s

/-- A stop is asked for; a CLR and a START of an earlier write that still wait for the boundary are kept (R164, R633). Where
a HALT overrun and a STOP wait for the same boundary, the program ends in HALTED whichever came first (DESIGN CHOICE, log entry 71). -/
def State.askStop (s : State) (halt clr : Bool) (start : Option Nat) : State :=
  let r := s.seq.stopReq.getD { halt := false, clr := false, start := none }
  let q : StopReq := { halt := r.halt || halt, clr := r.clr || clr, start := if start.isSome then start else r.start }
  ({ s with seq := { s.seq with stopReq := some q } } : State).settle

/-- A trap (R220): SEQ_TRAP, SEQ_TRAP_TICK, the state TRAPPED and irq[3]; the instruction has no effect. OPCODE is that of the word as it was
fetched, whatever the port has written over it since. -/
def State.trap (s : State) (code info : Nat) : State :=
  let kept := s.seq.pcEnd || s.seq.wait.isSome || s.seq.stall.isSome
  let op := if kept then s.seq.op.toNat else fld (s.pmWord s.seq.pc) 63 56
  let s := (s.setRg 0x30008 (bf 32 29 16 s.seq.pc ||| bf 32 15 8 op ||| bf 32 7 0 code)).setRg 0x3000C (BitVec.ofNat 32 info)
  let s := s.setRg64 0x30010 (BitVec.ofNat 64 s.tick.num)
  (s.endProg .trapped).irq 3

/-- The next instruction in sequence, after the cycles of the current one's class (R194); past 16,383 the fetch then traps with PC_END
(R199). -/
def State.advance (s : State) (cc : Nat) : State :=
  if s.seq.pc = 16383 then
    if cc = 0 then s.trap 0x04 0 else { s with seq := { s.seq with pcEnd := true, nextAt := s.now + cc } }
  else { s with seq := { s.seq with pc := s.seq.pc + 1, nextAt := s.now + cc } }

/-- A wait ends: the sequencer runs on with the next instruction, 2 cc after the wait began at the earliest. -/
def State.unblock (s : State) : State :=
  let at_ := max s.now s.seq.nextAt
  let s : State := { s with seq := { s.seq with st := .running, wait := none } }
  s.advance (at_ - s.now)

/-- A wait or test that ends without its target. -/
def State.waitMissed (s : State) (fl : Option Nat) : State :=
  ((match fl with | some p => s.setFlag p false | none => s) : State).unblock

/-- A WAIT whose timeout has expired ends without its target (R201, R202): no increment of its last cc has reached it. -/
def State.endTimed (s : State) : State :=
  match s.seq.wait with
  | some (.timed _ _ fl _) => s.waitMissed fl
  | _ => s

/-- The sequencer's own event of a cc: a TICKWAIT ends 4 cc after its Solstice (R205); the fetch at 16,384 traps (R199); a WAIT whose timeout
expired in the cc before is over. -/
def State.seqCc (s : State) : State :=
  let s := s.settle.endTimed
  match s.seq.wait with
  | some (.tickEnd t) =>
    if s.seq.st == .waiting && decide (t ≤ s.now) then
      ({ s with seq := { s.seq with st := .running, wait := none } } : State).advance 0
    else s
  | _ => if s.seq.pcEnd && s.seq.st == .running && decide (s.seq.nextAt ≤ s.now) then s.trap 0x04 0 else s

/-- Control transfers: class J, 3 cc (Table 5-10). -/
def State.jump (s : State) (target : Nat) : State :=
  { s with seq := { s.seq with pc := target % 16384, nextAt := s.now + 3 } }

/-! ## Issue -/

/-- RD or PD, or the first specifier. -/
def fRd (w : W64) : Nat := fld w 55 51
/-- RA, or the second specifier. -/
def fRa (w : W64) : Nat := fld w 50 46
/-- RB, or the third specifier. -/
def fRb (w : W64) : Nat := fld w 45 41
/-- IMM of formats I and K, sign-extended. -/
def fImm (w : W64) : W64 := BitVec.ofInt 64 (sgn 32 w.toNat)

/-- The bits of a range that shall be zero and are set (R190). -/
def zeros (w : W64) (hi lo : Nat) : List Nat := ((List.range (hi + 1 - lo)).map (· + lo)).filter (bit w ·)

/-- A PD of 8 to 31 offends at its lowest bit (R191). -/
def pdBad (w : W64) : List Nat := if fRd w < 8 then [] else [51]

/-- The lowest of the offending numbers (R634). -/
def lowest : List Nat → Nat
  | [] => 0
  | n :: ns => ns.foldl min n

/-- Opcodes of Tables 5-8 and 5-9 (R193). -/
def opcodeOk (op : Nat) : Bool :=
  decide (op ≤ 0x17) || [0x20, 0x21, 0x22, 0x28, 0x29, 0x2A, 0x2B, 0x2C, 0x40, 0x41, 0x48, 0x50, 0x60, 0x70, 0x71, 0x72, 0x73,
    0x74, 0x80, 0x81].contains op

/-- The sequencer is at the cc in which the next instruction issues. -/
def State.ready (s : State) : Bool :=
  s.seq.st == .running && s.seq.stall.isNone && s.seq.stopReq.isNone && !s.seq.pcEnd && decide (s.seq.nextAt ≤ s.now)

/-- The word's opcode is op. -/
def opIs (op : Nat) (w : W64) : Bool := fld w 63 56 == op

/-- The opcode of the instruction at PC, whose word is w, is kept where the program ends behind it (R199). -/
def State.keepOp (s : State) (w : W64) : State :=
  s.when (s.seq.pc == 16383) fun s => { s with seq := { s.seq with op := BitVec.ofNat 8 (fld w 63 56) } }

/-- The instruction at PC issues when its word is one that a row names: the word is fetched (R200), its reserved bits and
fields are checked (R190, R634), and then it acts. Otherwise the row's event does not occur. -/
def State.issue (s0 : State) (is : W64 → Bool) (offend : W64 → List Nat) (act : W64 → State → State) : State :=
  let s := s0.settle.endTimed
  let w := s.pmWord s.seq.pc
  if !(s.ready && is w) then s else
  let (ue, s) := (s.keepOp w).eccRead 0 s.seq.pc
  if ue then s.trap 0x0A s.seq.pc
  else if !(offend w).isEmpty then s.trap 0x02 (lowest (offend w))
  else act w s

/-! ## Local space (Table 5-3) -/

/-- A local-space address that is not a multiple of 8 or lies outside the table (R175). -/
def localBad (a : W64) : Bool := a.toNat % 8 != 0 || decide (0x1200 ≤ a.toNat)

/-! ## Formats (Table 5-5) -/

/-- Element width in bits. -/
def fmtBits : Nat → Option Nat
  | 0x00 => some 32 | 0x01 => some 16 | 0x02 => some 16 | 0x03 => some 8 | 0x04 => some 8
  | 0x08 => some 8 | 0x09 => some 8 | 0x0A => some 6 | 0x0B => some 6 | 0x0C => some 4 | 0x0D => some 8
  | 0x10 => some 8 | 0x20 => some 8 | 0x21 => some 64
  | _ => none

/-- The format is an MX format, with scales in the side array. -/
def fmtMx (f : Nat) : Bool := decide (0x08 ≤ f) && decide (f ≤ 0x0D)

/-- Lowest profile of a format; 0 for BYTES and U64, which need none. -/
def fmtProfile (f : Nat) : Nat :=
  if f = 0x0C then 3
  else if f = 0x03 ∨ f = 0x04 ∨ fmtMx f then 2
  else if f = 0x20 ∨ f = 0x21 then 0
  else 1

/-! ## Descriptors (Tables 5-4, 5-6) -/

/-- The four words of a descriptor, taken apart. -/
def descOf (w0 w1 w2 w3 : W64) : Desc :=
  { v := bit w0 63, rsvd := fld w0 62 60 != 0 || fld w3 47 44 != 0, paged := bit w0 59, bmap := bit w0 58,
    fmt := fld w0 57 52, die := fld w0 51 48, addr := fld w0 47 0,
    dim2 := fld w1 63 48, dim1 := fld w1 47 24, dim0 := fld w1 23 0,
    stride2 := fld w2 63 32, stride1 := fld w2 31 0,
    auxoff := fld w3 63 48, cal := fld w3 43 32, scale := BitVec.ofNat 32 (fld w3 31 0) }

/-- Descriptor n. -/
def State.desc (s : State) (n : Nat) : Desc := descOf (s.tdWord n 0) (s.tdWord n 1) (s.tdWord n 2) (s.tdWord n 3)

/-- Element width of a descriptor in bits, 0 for an unknown format. -/
def Desc.b (d : Desc) : Nat := (fmtBits d.fmt).getD 0

/-- Row size in bytes. -/
def Desc.rowBytes (d : Desc) : Nat := ceilDiv (d.dim0 * d.b) 8

/-- Rows of the tensor. -/
def Desc.rows (d : Desc) : Nat := d.dim1 * d.dim2

/-- Byte address of row r (R182). -/
def Desc.rowAddr (d : Desc) (r : Nat) : Nat := d.addr + r / d.dim1 * d.stride2 + r % d.dim1 * d.stride1

/-- Blocks of 32 elements per row (R184). -/
def Desc.rowBlocks (d : Desc) : Nat := ceilDiv d.dim0 32

/-- Start of the side array (R184). -/
def Desc.side (d : Desc) : Nat := d.addr + d.auxoff * 4096

/-- Start of the bitmap part: the first 64-byte boundary of memory behind the scale part (R184). -/
def Desc.bmapAt (d : Desc) : Nat := if fmtMx d.fmt then ceilDiv (d.side + d.rows * d.rowBlocks) 64 * 64 else d.side

/-- Elements of the tensor. -/
def Desc.elems (d : Desc) : Nat := d.dim0 * d.rows

/-- An FP32 per-tensor scale that R275 admits: finite and above zero. -/
def scaleOk (w : BitVec 32) : Bool := !bit w 31 && fld w 30 23 != 255 && fld w 30 0 != 0

/-- A condition of Table 5-6 holds, or the descriptor's INT8 scale fails R275. -/
def Desc.bad (d : Desc) : Bool :=
  !d.v || d.rsvd || (fmtBits d.fmt).isNone || d.dim0 == 0 || d.dim1 == 0 || d.dim2 == 0 ||
    ((fmtMx d.fmt || d.bmap) && d.dim0 % 32 != 0) || d.addr % max 1 (ceilDiv d.b 8) != 0 ||
    (decide (1 < d.dim1) && decide (d.stride1 < d.rowBytes)) ||
    (decide (1 < d.dim2) && decide (d.stride2 < d.stride1 * (d.dim1 - 1) + d.rowBytes)) ||
    (d.fmt == 0x10 && !scaleOk d.scale)

/-- The last byte address of a descriptor that is not paged reaches 2^48 (Table 6-4). -/
def Desc.tooHigh (d : Desc) : Bool :=
  !d.paged && decide (0x1000000000000 ≤ d.addr + (d.dim2 - 1) * d.stride2 + (d.dim1 - 1) * d.stride1 + d.rowBytes - 1)

/-- The first uncorrectable word of the descriptors named, as the INFO of ECC_UNCORR has it (Table 5-12), with the reads logged. -/
def State.descEcc (s : State) (tds : List Nat) : Option Nat × State :=
  let ws := tds.flatMap fun n => (List.range 4).map (4 * n + ·)
  (ws.find? (s.uncorr 1 ·) |>.map (0x10000 + ·), s.each ws fun s i => (s.eccRead 1 i).2)

/-! ## Capabilities (R209, R527 to R530) -/

/-- HV_PROFILE.NEG: the highest profile bit of the active set, or 1; 3 before any training (R529, Table 7-10). -/
def State.profNeg (s : State) : Nat :=
  match s.trn.act with
  | none => 3
  | some a => if bit a 18 then 3 else if bit a 17 then 2 else 1

/-- The active profile: the lower of PROFILE and NEG (R327). -/
def State.profile (s : State) : Nat := min (s.rf 0x70000 1 0) s.profNeg

/-- Bit n of the active set of the link (R528). -/
def State.cap (s : State) (n : Nat) : Bool := (s.trn.act.map (bit · n)).getD false

/-- The link of this instance leads to a die: the route names this instance. -/
def State.ownLink (s : State) (d : Nat) : Bool := d != s.die && s.route d == some s.inst

/-- The lowest capability that an instruction lacks: profile bits by the active profile; `caps` by the active set of the own link for a
target that it leads to (R530); `always` by that set for an instruction that needs them in either role or whatever its target (R238's page
capability, R338, R395, R436). -/
def State.capLack (s : State) (target : Option Nat) (profile : Nat) (caps always : List Nat) : Option Nat :=
  let own := (target.map s.ownLink).getD false
  match (if own then caps.filter (!s.cap ·) else []) ++ always.filter (!s.cap ·) with
  | c :: cs => some (lowest (c :: cs))
  | [] => if s.profile < profile then some (15 + profile) else none

/-! ## Operation tags and stalls (R208, R210) -/

/-- The first free tag in ascending order modulo 256 after the one assigned last. -/
def State.freeTag (s : State) : Option Nat :=
  ((List.range 256).map fun i => (s.seq.lastTag + 1 + i) % 256).find? fun t => (s.op? t).isNone

/-- Operations that an engine has not yet fully admitted (R271). -/
def State.unadmitted (s : State) : Nat := (s.ops.filter fun o => o.sends && o.orig.isNone).length

/-- A new operation with the tag given, in the phase given. -/
def newOp (s : State) (tag : Nat) (i : Iss) (ph : Phase) : Op :=
  { tag := tag, iss := i, serial := s.seq.serial, issuedAt := i.at_, phase := ph }

/-- The operation takes its tag; the next instruction issues 2 cc later (class E). -/
def State.takeTag (s : State) (o : Op) : State :=
  let s : State := { s with ops := s.ops ++ [{ o with uid := s.ord }], ord := s.ord + 1,
                            seq := { s.seq with lastTag := o.tag, stall := none } }
  s.advance 2

/-- RA, RB and RC of format D, the event counter and so on: what an engine instruction reads at issue (R208). -/
def State.issOf (s : State) (w : W64) : Iss :=
  { opcode := BitVec.ofNat 8 (fld w 63 56), ra := s.greg (fRd w), rb := s.greg (fRa w), rc := s.greg (fRb w), nc := bit w 40,
    stream := fld w 23 18, ev := fld w 17 12, opt := BitVec.ofNat 12 (fld w 11 0), tda := s.desc (fld w 39 32),
    tdb := s.desc (fld w 31 24), tdc := default, tdd := default, tick := s.tick.num, far := none, profile := s.profile,
    maps := [], at_ := s.now, goff := some 0 }

/-- EV shall be 0 while NC is 1 (R211). -/
def ncBad (w : W64) : List Nat := if bit w 40 then zeros w 17 12 else []

/-- The instruction stalls with what it read at its checks (R208). -/
def State.stallOn (s : State) (i : Iss) : State := { s with seq := { s.seq with stall := some i, op := i.opcode } }

end Sys2Proof.Machine
end

