-- ==== Sys2Proof/Machine/Commit.lean ====
section
/-! DEFINITION. The Solstice commit: shadow writes, requests, the legality of R41 (Table 16-2), the copy, CANCEL and REVERT
(01, R37 to R44). -/
namespace Sys2Proof.Machine

/-! ## Shadow writes and digests -/

/-- A shadow write of the RWS bits of a word (R37, R40); CFG_DIGEST_PEND becomes valid 64 cc later (R44). -/
def State.shadowWrite (s : State) (off : Nat) (d : W32) : State :=
  let m := rwsMask (modules s.member) off
  if m = 0 then s else
  let settled := match s.pendAt with | some t => decide (t + 64 ≤ s.now) | none => true
  let s : State := { s with pendOld := if settled then s.digestOf true else s.pendOld, pendAt := some s.now }
  s.setSh off ((s.sh off &&& ~~~m) ||| (d &&& m))

/-- A shadow write that the port accepts in a Solstice cc waits for the Solstice to pass (R40). -/
def State.holdShadow (s : State) (off : Nat) (d : W32) : State := { s with cc := { s.cc with hold := s.cc.hold ++ [(off, d)] } }

/-- What a register that becomes valid at a stated time reads: its new value, or before that time either (R44, R622). -/
def lagged (new old : W32) (at_ : Option Nat) (lag now free : Nat) : W32 :=
  match at_ with
  | some t => if now < t + lag && Config.freeBit free then old else new
  | none => new

/-- CFG_DIGEST as it reads (R44: valid 16 cc after each commit). -/
def State.digestRead (s : State) : W32 := lagged (s.digestOf false) s.digOld s.digAt 16 s.now s.free

/-- CFG_DIGEST_PEND as it reads (R44: valid 64 cc after the last shadow write). -/
def State.pendRead (s : State) : W32 := lagged (s.digestOf true) s.pendOld s.pendAt 64 s.now (s.free + 1)

/-! ## Legality (R41, Table 16-2) -/

/-- A shadow field. -/
def State.shf (s : State) (off hi lo : Nat) : Nat := fld (s.sh off) hi lo

/-- ONOFF counts as active: by the active set, or before the first training by the own capabilities under the mask (R532). -/
def State.onOffCap (s : State) : Bool :=
  match s.trn.act with
  | some a => bit a 2
  | none => bit (s.rg 0x110) 2

/-- Some module is ACTIVE, in Frost or in training (R122). -/
def State.linkBusy (s : State) : Bool :=
  s.trainRuns || s.allMods.any fun m => let x := (s.mod m).st; x == .active || x == .frost || x == .training

/-- Shadow FC_MODE is out of range (R122, R532). -/
def State.fcBad (s : State) : Bool :=
  (s.shf 0x20000 0 0 == 1 && !s.onOffCap) || (s.shf 0x20000 0 0 != s.rf 0x20000 0 0 && s.linkBusy)

/-- Entry n of SX_MAP in the shadow bank: V, DIE, COUNT, FIRST (Table 9-10). -/
def State.sxShadow (s : State) (n : Nat) : W64 := s.sh (0x70304 + 8 * n) ++ s.sh (0x70300 + 8 * n)

/-- An expert map entry's index range overlaps another's, or is empty, or reaches beyond 0xF_FFFF (R371). -/
def State.sxBad (s : State) (n : Nat) : Bool :=
  let e := s.sxShadow n
  bit e 63 && (fld e 40 20 == 0 || decide (0x100000 < fld e 19 0 + fld e 40 20) ||
    (List.range 16).any fun k => let f := s.sxShadow k
      k != n && bit f 63 && decide (fld e 19 0 < fld f 19 0 + fld f 40 20) && decide (fld f 19 0 < fld e 19 0 + fld e 40 20))

/-- The offsets of the registers out of range, in ascending order (R41). -/
def State.outOfRange (s : State) : List Nat :=
  (if 2 < s.shf 0x2000 5 4 then [0x2000] else []) ++
  (if s.shf 0x2004 24 0 < 600 ∨ 16777216 < s.shf 0x2004 24 0 then [0x2004] else []) ++
  (if s.shf 0x201C 8 0 < 1 ∨ 256 < s.shf 0x201C 8 0 then [0x201C] else []) ++
  (if s.fcBad then [0x20000] else []) ++
  (if s.shf 0x20004 3 0 = 0 ∨ s.shf 0x20004 7 4 = 0 then [0x20004] else []) ++
  (if s.shf 0x20040 11 0 < s.rf 0x20044 11 0 then [0x20040] else []) ++
  (if s.shf 0x70000 1 0 = 0 then [0x70000] else []) ++
  ((List.range 16).filter s.sxBad).map (0x70300 + 8 * ·) ++
  (if s.shf 0x80000 23 22 % 2 = 1 then [0x80000] else [])

/-! ## Requests (R38, R39, R43) -/

/-- CFG_COMMIT_STATUS.STATE and SRC. -/
def State.commitState (s : State) (st : Nat) (viaSeq : Bool) : State :=
  (s.setRf 0x1010 2 0 st).setRf 0x1010 3 3 (b2n viaSeq)

/-- A request: for the next Solstice (none) or a tick; refused BUSY while one is pending, LATE for a tick not in the future. `flag` is the flag
that a COMMIT writes. -/
def State.commitReq (s : State) (target : Option Nat) (viaSeq : Bool) (flag : Option Nat) : Bool × State :=
  if s.commit.isSome then (false, s.setBit 0x1010 4)
  else if (target.map fun t => !future t s.curTick).getD false then
    (false, { s.commitState 3 viaSeq with cc := { s.cc with late := s.cc.late || viaSeq } })
  else (true, { s.commitState 1 viaSeq with commit := some { target := target, viaSeq := viaSeq, at_ := s.now, flag := flag } })

/-- A request of the configuration port: NEXT, or CFG_COMMIT_TICK (R39). It comes before a COMMIT of its cc: one accepted or refused LATE in this
cc gives way to a port request that is accepted, as refused under R38 (R214). -/
def State.portCommit (s : State) (next : Bool) : State :=
  let target := if next then none else some ((s.rg64 0x1008).toNat % tickMod)
  match s.commit with
  | some r =>
    if r.viaSeq && r.at_ = s.now then
      let (ok, t) := ({ s with commit := none } : State).commitReq target false none
      if ok then
        match r.flag with
        | some p => (t.setBit 0x1010 4).setFlag p false
        | none => t.setBit 0x1010 4
      else s
    else (s.commitReq target false none).2
  | none =>
    let (ok, t) := s.commitReq target false none
    if ok then t.when s.cc.late (·.setBit 0x1010 4) else t.when s.cc.late (·.commitState 3 true)

/-- CANCEL (R43): the pending request ends CANCELLED. -/
def State.commitCancel (s : State) : State :=
  match s.commit with
  | none => s
  | some r => { s.commitState 6 r.viaSeq with commit := none }

/-- REVERT (R43): active fields to shadow, ignored while a request is pending. No shadow field is then one that software wrote since the last
commit (R326). -/
def State.commitRevert (s : State) : State :=
  if s.commit.isSome then s else
  let settled := match s.pendAt with | some t => decide (t + 64 ≤ s.now) | none => true
  let s : State :=
    { s with pendOld := if settled then s.digestOf true else s.pendOld, pendAt := some s.now, calDirty := [],
             cc := { s.cc with hold := [] } }
  s.activeToShadow

/-- CFG_COMMIT_REQ (R38, R39): the NEXT value of the write is stored, and REQ requests. -/
def execCfgCommitReq (next : Bool) (s : State) : Host.Outcome State Fault Refusal :=
  portCmd s fun s => (s.setRf 0x1000 1 1 (b2n next)).portCommit next

/-- CFG_COMMIT_CANCEL (R43). -/
def execCfgCommitCancel (s : State) : Host.Outcome State Fault Refusal := portCmd s (·.commitCancel)

/-- CFG_COMMIT_REVERT (R43). -/
def execCfgCommitRevert (s : State) : Host.Outcome State Fault Refusal := portCmd s (·.commitRevert)

/-- A COMMIT of this cc that the request of a write of this cc comes before (R214). -/
def State.laterCommit (s : State) : Option CommitReq := s.commit.filter fun r => r.viaSeq && r.at_ == s.now

/-- A write of CFG_COMMIT: CANCEL, REVERT and REQ act in this order, with NEXT of the same write (R43); a COMMIT of the cc comes after a write
with REQ (R214). -/
def State.writeCommit (s : State) (d : W32) : State :=
  let s := s.setRf 0x1000 1 1 (fld d 1 1)
  let after := if bit d 0 then s.laterCommit else none
  let s : State := if after.isSome then { s with commit := none } else s
  let s := s.when (bit d 2) (·.commitCancel)
  let s := s.when (bit d 3) (·.commitRevert)
  let s : State := if after.isSome then { s with commit := after } else s
  s.when (bit d 0) (·.portCommit (bit d 1))

/-! ## The Solstice (Table 1-2, step 3) -/

/-- The copy of every shadow field in one cc (R37), with CFG_COMMIT_LAST and the digest's validity (R44). The mode of flow control is then the one
in force on a link that is up (R124). -/
def State.commitApply (s : State) : State :=
  let old := s.digestOf false
  let s := s.shadowToActive
  let s := s.setRg64 0x1018 (BitVec.ofNat 64 s.tick.num)
  let fc := if s.linkDownNow then s.trn.fcLast else some s.onOff
  { s with digOld := old, digAt := some s.now, trn := { s.trn with fcLast := fc } }

/-- The pending commit at the Solstice of tick num in cc t: one accepted in that cc targets a later Solstice (R39, R40); LATE when its target
was passed (R39); INVALID with BAD_OFFSET (R41); NOLOCK when a digest field changes out of lock (R42); else DONE. -/
def State.commitSolstice (s : State) (t : Nat) : State :=
  match s.commit with
  | none => s
  | some r =>
    let n := s.tick.num
    if (r.target.map fun t => future t n).getD (decide (t ≤ r.at_)) then s
    else
      let s : State := { s with commit := none }
      if (r.target.map (· != n)).getD false then s.commitState 3 r.viaSeq
      else match s.outOfRange with
        | o :: _ => (s.commitState 4 r.viaSeq).setRf 0x1010 24 5 o
        | [] =>
          if s.digestInput true != s.digestInput false && !s.locked then s.commitState 5 r.viaSeq
          else (s.commitApply).commitState 2 r.viaSeq

/-! ## COMMIT (R212, R213) -/

/-- COMMIT: the request of CFG_COMMIT.REQ by the sequencer, with a flag for its acceptance when [39] is 1; 4 cc. Fields that it
does not read shall be zero: RA with NEXT at 1, PD with [39] at 0. -/
def execCommit (s : State) : Host.Outcome State Fault Refusal :=
  live s (·.issue (opIs 0x80)
    (fun w => (if bit w 39 then pdBad w else zeros w 55 51) ++ (if bit w 40 then zeros w 50 46 else []) ++ zeros w 45 41 ++
      zeros w 38 0)
    fun w s =>
      let (ok, s) := s.commitReq (if bit w 40 then none else some (fld (s.greg (fRa w)) 47 0)) true
        (if bit w 39 then some (fRd w) else none)
      (s.when (bit w 39) (·.setFlag (fRd w) ok)).advance 4)

end Sys2Proof.Machine
end

