-- ==== Sys2Proof/Machine/LinkTx.lean ====
section
/-! DEFINITION. The transmit side of the link: headers, the flit-slot priority, DATA flits, repeats, admission, credits and flow
control as sent (02, R64, R65; 03, R85, R92 to R121; 04, R126 to R128, R142, R144; 06, R236, R253). -/
namespace Sys2Proof.Machine

/-! ## ACK and NAK of the header (R92, R93, R96, R97) -/

/-- NAK: bit i for sequence P + 1 + i in the missing set or among N to N + U − 1 (R96). -/
def Mod.nak (x : Mod) : Nat :=
  ((List.range 8).map fun i =>
    let q := (x.p + 1 + i) % 4096
    if x.missing.contains q || decide ((q + 4096 - x.n) % 4096 < x.u) then 2 ^ i else 0).sum

/-- The fields that a flit launched now carries: current ones, or within 3 cc of a change the ones before it (R92, R97); with a NAK
that is not 0, ACK is P (R93). -/
def Mod.header (x : Mod) (now free : Nat) : Nat × Nat :=
  let old := (x.hdrAt.map fun t => decide (now < t + 3)).getD false && Config.freeBit free
  let nak := if old then x.oldNak else x.nak
  (if nak != 0 then x.p else if old then x.oldAck else x.a, nak)

/-- A change of what the header advertises, kept for the 3 cc in which a flit may carry either. -/
def Mod.noteHdr (old new : Mod) (now : Nat) : Mod :=
  if old.a = new.a ∧ old.nak = new.nak then new else { new with oldAck := old.a, oldNak := old.nak, hdrAt := some now }

/-- A advances to P (R92). -/
def Mod.ackNow (x : Mod) (now : Nat) : Mod := Mod.noteHdr x { x with a := x.p, ackAt := none } now

/-- ACK_TIMER (R92): LL_CFG.ACK_TIMER cc after P first moved past A. -/
def execAckTimer (m : Nat) (s : State) : Host.Outcome State Fault Refusal :=
  liveWf (decide (m < 16)) s fun s =>
    match (s.mod m).ackAt with
    | some t => if t + s.rf 0x20000 23 16 ≤ s.now then s.updMod m (·.ackNow s.now) else s
    | none => s

/-! ## Link flags and unsequenced flits (R64, Tables 2-7, 2-8) -/

/-- A direction of the module is in transmit Frost. -/
def Mod.txFrost (x : Mod) : Bool := (x.frost.map (·.tx)).getD false

/-- ACKREQ on every IDLE and CTRL flit at 80 outstanding (R95), and on IDLE flits in Frost with flits outstanding (R152). -/
def Mod.ackReq (x : Mod) (idle : Bool) : Bool :=
  decide (80 ≤ x.rep.length) || (idle && x.txFrost && !x.rep.isEmpty)

/-- Payload of an IDLE or CTRL flit: subtype, link flags, content. -/
def ctlPay (sub : Nat) (ackreq frost : Bool) (content : List Byte) : List Byte :=
  slice ([BitVec.ofNat 8 sub, BitVec.ofNat 8 (b2n ackreq + 2 * b2n frost)] ++ content) 0 240

/-- A flit leaves module m: header and codes are formed, and the count of R95 moves. -/
def State.launch (s : State) (m type tc stream seed : Nat) (pay : List Byte) (ackreq : Bool) : State :=
  let x := s.mod m
  let (ack, nak) := x.header s.now s.free
  let s : State := { s with free := s.free + 1 }
  let s := s.updMod m fun x =>
    { x with sinceReq := if ackreq then 0 else x.sinceReq + 1, slots := (x.slots + 1) % 16,
             duty := if x.slots = 15 then 0 else x.duty }
  s.emit (.flit m (flitMake (flitHeader type tc stream ack nak) pay seed))

/-- An IDLE flit. -/
def State.sendIdle (s : State) (m : Nat) : State :=
  let x := s.mod m
  s.launch m 0 0 0 0x1FFF (ctlPay 0 (x.ackReq true) x.txFrost []) (x.ackReq true)

/-- A CTRL flit of a subtype. -/
def State.sendCtrl (s : State) (m sub : Nat) (content : List Byte) : State :=
  let x := s.mod m
  s.launch m 3 0 0 0x1FFF (ctlPay sub (x.ackReq false) x.txFrost content) (x.ackReq false)

/-- A control flit waits for a slot of module m. -/
def State.queueCtl (s : State) (m : Nat) (subAndContent : List Byte) : State := { s with ctl := s.ctl ++ [(m, subAndContent)] }

/-- The lowest-numbered active module other than m. -/
def State.otherActive (s : State) (m : Nat) : Option Nat := s.active.find? (· != m)

/-- A REPAIR flit travels on its own module, or on the lowest other active one when that cannot carry it (R65). -/
def State.queueRepair (s : State) (m : Nat) (content : List Byte) : State :=
  let via := if (s.mod m).carries then m else (s.otherActive m).getD m
  s.queueCtl via (4 :: content)

/-! ## DATA flits (R126, R127, R632) -/

/-- What a message area was filled with: bytes, CEND, MSEQ, MOFF, the messages' numbers, and the queue after it. -/
structure Filled where
  area : List Byte
  cend : Nat
  mseq : Nat
  moff : Nat
  ids : List Nat
  tx : List TxMsg
deriving DecidableEq, Repr

/-- Bytes of an admitted message. -/
def TxMsg.len (t : TxMsg) : Nat := 16 + t.msg.data.length

/-- Fill the room of an area from the queue: the messages of one stream and class in admission order; a MGMT message only
whole (R535). -/
def fillFrom (stream tc : Nat) : List TxMsg → Nat → Bool → Filled → Filled
  | [], _, _, f => f
  | t :: ts, room, stop, f =>
    if t.msg.stream != stream || t.msg.tc != tc || decide (t.len ≤ t.off) || stop || room == 0 then
      fillFrom stream tc ts room stop { f with tx := f.tx ++ [t] }
    else if t.msg.mtype == 0x30 && decide (room < t.len) then
      fillFrom stream tc ts room true { f with tx := f.tx ++ [t] }
    else
      let k := min room (t.len - t.off)
      let first := f.area.isEmpty
      fillFrom stream tc ts (room - k) (decide (t.off + k < t.len))
        { area := f.area ++ slice (msgBytes t.msg) t.off k, cend := if first then k else f.cend,
          mseq := if first then t.msg.sseq else f.mseq, moff := if first then t.off else f.moff,
          ids := f.ids ++ [t.id], tx := f.tx ++ [{ t with off := t.off + k }] }

/-- The oldest message of a class that is not yet fully sent (R632). -/
def State.nextTx (s : State) (c : Nat) : Option TxMsg := s.tx.find? fun t => t.msg.tc == c && decide (t.off < t.len)

/-- The transport prefix of Table 4-1. -/
def prefixBytes (off tick mseq moff cend used : Nat) (untimed : Bool) : List Byte :=
  leBytes 3 off ++ leBytes 1 tick ++ leBytes 2 mseq ++ leBytes 2 (moff + 0x2000 * b2n untimed) ++
    leBytes 1 cend ++ leBytes 1 used ++ leBytes 2 0

/-- The payload of the next DATA flit of class c, granted now. -/
def State.fillData (s : State) (c : Nat) : Option (Nat × List Byte × Filled) :=
  match s.nextTx c with
  | none => none
  | some t =>
    let f := fillFrom t.msg.stream c s.tx 228 false { area := [], cend := 0, mseq := 0, moff := 0, ids := [], tx := [] }
    let timed := s.locked && !s.openMode
    let off := if s.openMode then 0 else min (s.now - s.solCc) 0xFFFFFF
    let tk := if s.openMode then 0 else s.tick.num % 256
    some (t.msg.stream, prefixBytes off tk f.mseq f.moff f.cend f.area.length (!timed) ++ slice f.area 0 228, f)

/-- The first entry of a list that satisfies a test, removed. -/
def dropFirst {α : Type} (p : α → Bool) : List α → List α
  | [] => []
  | a :: as => if p a then as else a :: dropFirst p as

/-- The module is in service and out of Fallow: ACTIVE, in Frost, in a training or retrain, or waking. -/
def Mod.awake (x : Mod) : Bool :=
  x.st == .active || x.st == .frost || x.st == .training || x.retrain.isSome || (x.st == .fallow && x.wakeAt.isSome)

/-- The module admits no new DATA flit beyond a cap's count of modules out of Fallow (R496). -/
def State.capped (s : State) (m : Nat) : Bool :=
  s.pwr.maxmod != 0 && decide (max 1 s.pwr.maxmod ≤ ((List.range m).filter fun k => (s.mod k).awake).length)

/-- A granted flit of module m has not had the slot that was meant for it, and goes before any new one (R102). -/
def State.overdue (s : State) (m : Nat) : Bool := (s.mod m).grants.any fun e => decide (e.sent < 8 * s.now)

/-- The ends' modes of flow control let DATA of class c be carried (R123). -/
def State.modeOpen (s : State) (c : Nat) : Bool := c == 3 || s.onOff == s.trn.peerFc

/-- Flow control lets a new DATA flit of class c into a slot (R120, R121, R123). -/
def State.flowOpen (s : State) (c : Nat) : Bool := s.modeOpen c && !(s.onOff && (s.tc c).xoffRx)

/-- The first granted flit gives its slot up: it keeps its stamp, and its sequence goes to the flits behind it (R108, R120; DESIGN CHOICE, log
entry 77). -/
def Mod.stopHead (x : Mod) : Mod :=
  match x.grants with
  | [] => x
  | e :: es =>
    { x with grants := es.map fun r => { r with seq := (r.seq + 4095) % 4096 }, next := (x.next + 4095) % 4096, stopped := x.stopped ++ [e] }

/-- A flit of class c of module m has given its slot up and waits for another. -/
def State.stoppedFlit (s : State) (m c : Nat) : Option RepEnt := (s.mod m).stopped.find? fun e => e.tc == c

/-- Granted flits whose slot a retrain took, of classes that the modes of flow control bar since, give their place up (R102, R123). -/
def State.stopBarred (s : State) (m : Nat) : State :=
  s.each (s.mod m).grants fun s _ =>
    match (s.mod m).grants with
    | e :: _ => s.when (decide (e.sent < 8 * s.now) && !s.modeOpen e.tc) (·.updMod m (·.stopHead))
    | [] => s

/-- New DATA of class c may be granted on module m: state and Frost (R151), R95, R85, flow control (R120, R121, R123), a cap's duty. TC3 travels
on the lowest-numbered module when every module of the link is in Frost, until its retrain begins. -/
def State.mayData (s : State) (m c : Nat) : Bool :=
  let x := s.mod m
  let link := s.allMods.filter fun k => (s.mod k).carries || (s.mod k).frost.isSome
  let frostOk := !x.txFrost || (c == 3 && (link.all fun k => (s.mod k).txFrost) && link.head? == some m)
  x.carries && frostOk && !x.retiring && !x.fallowReq && !s.capped m && !s.overdue m &&
    decide (x.rep.length + x.grants.length < 96) && (c == 0 || c == 3 || decide (x.rep.length < 80)) &&
    s.flowOpen c && !(c == 2 && s.pwr.duty != 0 && decide (s.pwr.duty ≤ x.duty)) && ((s.nextTx c).isSome || (s.stoppedFlit m c).isSome)

/-- The arbiter's choice between TC1 and TC2 by deficit counting (R109). -/
def pickTc12 (strict : Bool) (w1 w2 d1 d2 : Nat) (r1 r2 : Bool) : Nat × Nat × Nat :=
  if strict then (if r1 then 1 else 2, d1, d2)
  else
    let refill := !(r1 && decide (0 < d1)) && !(r2 && decide (0 < d2))
    let e1 := if refill then w1 else d1
    let e2 := if refill then w2 else d2
    if r1 && (decide (0 < e1) || !r2) then (1, e1 - 1, e2) else (2, e1, e2 - 1)

/-- The class of the next new DATA flit of module m: TC3, TC0, then TC1 and TC2 by weight (Table 3-7). -/
def State.pickTc (s : State) (m : Nat) : Option (Nat × State) :=
  if s.mayData m 3 then some (3, s)
  else if s.mayData m 0 then some (0, s)
  else if s.mayData m 1 || s.mayData m 2 then
    let (c, e1, e2) := pickTc12 (bit (s.rg 0x20004) 8) (s.rf 0x20004 3 0) (s.rf 0x20004 7 4) s.d1 s.d2
      (s.mayData m 1) (s.mayData m 2)
    some (c, { s with d1 := e1, d2 := e2 })
  else none

/-- A new DATA flit of class c is granted on module m, `frac` eighths into this cc: the next sequence, the stamp, and a launch due 8 cc later
(Table 4-4). One that gave its slot up comes first, with the stamp of its own grant. -/
def State.grantData (s : State) (m c frac : Nat) : State :=
  let at8 := 8 * s.now + frac + 64
  match s.stoppedFlit m c, s.fillData c with
  | some e, _ =>
    s.updMod m fun x =>
      { x with stopped := dropFirst (· == e) x.stopped, next := (x.next + 1) % 4096, lastUse := s.now, duty := x.duty + b2n (c == 2),
               grants := x.grants ++ [{ e with seq := x.next, sent := at8 }] }
  | none, none => s
  | none, some (stream, pay, f) =>
    let e : RepEnt := { seq := (s.mod m).next, tc := c, stream := stream, pay := pay, ids := f.ids, sent := at8, retx := 0,
                        owed := false, rpt := false }
    ({ s with tx := f.tx } : State).updMod m fun x =>
      { x with next := (x.next + 1) % 4096, grants := x.grants ++ [e], lastUse := s.now, duty := x.duty + b2n (c == 2) }

/-- The first granted flit of module m is launched at a time in 1/8 cc, with the ACK and NAK of now (R92, R93, R97), and is outstanding (R85): its
replay slot is written (R497). -/
def State.launchData (s : State) (m at8 : Nat) : State :=
  match (s.mod m).grants with
  | [] => s
  | e :: es =>
    ((s.launch m 1 e.tc e.stream e.seq e.pay false).eccWritten 0xA (m * 96 + e.seq % 96)).updMod m fun x =>
      { x with grants := es, rep := x.rep ++ [{ e with sent := at8 }], lastUse := s.now }

/-- The granted flits whose launch falls into this cc (Table 4-4); in a retrain they wait for a later slot (R102), and under XOFF they give theirs
up (R120). -/
def State.launchDue (s : State) : State :=
  s.each s.allMods fun s m =>
    match (s.mod m).grants with
    | [] => s
    | e :: _ =>
      if e.sent / 8 = s.now ∧ (s.mod m).carries then
        if s.flowOpen e.tc then s.launchData m e.sent else s.updMod m (·.stopHead)
      else s

/-- An owed repeat of module m, the oldest first (R100), its first UI `frac` eighths into this cc: TC, STREAM and payload as before, header and codes
afresh (R55). A replay entry with an uncorrectable word is not sent, and its module is to be retired (Table 12-9). -/
def State.sendRetx (s : State) (m frac : Nat) : State :=
  match (s.mod m).rep.find? (·.owed) with
  | none => s
  | some e =>
    let mark := fun (x : Mod) => x.rep.map fun r => if r.seq = e.seq then
      { r with owed := false, sent := 8 * s.now + frac, retx := if r.rpt then r.retx else r.retx + 1, rpt := false } else r
    let (ue, s) := s.eccRead 0xA (m * 96 + e.seq % 96)
    if ue then (s.updMod m fun x => { x with rep := mark x }).startRetire m false
    else
      let s := s.updMod m fun x => { x with rep := mark x, lastUse := s.now }
      (s.launch m 2 e.tc e.stream e.seq e.pay false).count32 (0x20110 + 0x20 * m) 1

/-! ## Items of a flit slot (R108, Table 3-7) -/

/-- Tick marker content: tick number and launch offset from the phase point in 1/8 cc, for a launch `frac` eighths into this cc
(Table 2-8, R623). A marker that is launched in the Solstice's cc before the phase point inside that cc carries 0: R623 names no negative offset
(DESIGN CHOICE, log entry 56). A marker that no module could launch in its tick stays due and is sent when one can, with the offset held at 65,535
once it exceeds the field (DESIGN CHOICE, log entry 67; R25 leaves it open). -/
def State.markerBytes (s : State) (frac : Nat) : List Byte :=
  leBytes 6 s.tick.num ++ leBytes 2 (min (8 * s.now + frac - s.tick.phase8) 65535)

/-- CREDIT content: the granted counters of TC0 to TC3 (Table 2-8, R545). -/
def State.creditBytes (s : State) : List Byte :=
  (List.range 4).flatMap fun c => leBytes 2 (s.tc c).graH ++ leBytes 2 (s.tc c).graD

/-- The counters that a CREDIT carries are taken as sent (R114). -/
def State.creditSent (s : State) : State :=
  let s := s.each (List.range 4) fun s c => s.updTc c fun f => { f with sentH := f.graH, sentD := f.graD }
  { s with credDue := false, credAt := none }

/-- XOFF per class, as a FLOW flit carries it (Table 2-8). -/
def State.xoffBits (s : State) : Nat := ((List.range 4).map fun c => b2n (s.tc c).xoffTx * 2 ^ c).sum

/-- What module m sends in this slot. -/
inductive SlotItem where
  | marker | ctl (c : List Byte) | flow | credit | retx | ackIdle | held | data | idle
deriving DecidableEq, Repr

/-- A RETX that a NAK asked for is owed on module m, and its bound of R135 leaves no slot to spare; the repeats of R104 have no such bound. -/
def Mod.retxUrgent (x : Mod) : Bool := x.rep.any fun e => e.owed && !e.rpt && decide (7 ≤ e.wait)

/-- A slot has gone by that counts toward the 8 of R135 for every RETX owed: one that launched neither a marker nor an older RETX. -/
def Mod.retxWaits (x : Mod) : Mod := { x with rep := x.rep.map fun e => if e.owed then { e with wait := e.wait + 1 } else e }

/-- The first available item of Table 3-7; a control flit of items 2 and 3 never breaks the bound of R135. -/
def State.slotItem (s : State) (m : Nat) : SlotItem :=
  let x := s.mod m
  if x.retrain.isSome then .idle
  else if s.tick.markerDue && s.active.head? == some m then .marker
  else
    let own := s.ctl.find? fun c => c.1 == m
    match own with
    | some c => if !x.retxUrgent then .ctl c.2 else .retx
    | none =>
      if s.flowDue.contains m && !x.retxUrgent then .flow
      else if s.credDue && !x.retxUrgent then .credit
      else if x.rep.any (·.owed) then .retx
      else if decide (80 ≤ x.rep.length) && decide (7 ≤ x.sinceReq) then .ackIdle
      else if s.overdue m then .held
      else if (s.pickTc m).isSome then .data
      else .idle

/-- The item is sent, its first UI `frac` eighths into this cc; a new DATA flit is granted. -/
def State.sendItem (s : State) (m frac : Nat) : SlotItem → State
  | .marker => ({ s with tick := { s.tick with markerDue := false } } : State).sendCtrl m 1 (s.markerBytes frac)
  | .ctl c => ({ s with ctl := dropFirst (fun e => e.1 == m) s.ctl } : State).sendCtrl m (c.headD 0).toNat (c.drop 1)
  | .flow => ({ s with flowDue := s.flowDue.filter (· != m) } : State).sendCtrl m 3
      [BitVec.ofNat 8 s.xoffBits]
  | .credit => s.creditSent.sendCtrl m 2 s.creditBytes
  | .retx => s.sendRetx m frac
  | .ackIdle => s.sendIdle m
  | .held => s.launchData m (8 * s.now + frac)
  | .data =>
    match s.pickTc m with
    | some (c, s) => s.grantData m c frac
    | none => s.sendIdle m
  | .idle => s.sendIdle m

/-- A flit slot of module m: its item, and the count of R135. A flit that a retrain kept from its launch counts as outstanding (R102), and XOFF does
not hold it. -/
def State.flitSlot (s : State) (m frac : Nat) : State :=
  let s := s.stopBarred m
  let i := s.slotItem m
  let s := s.sendItem m frac i
  if i = .marker ∨ i = .retx then s else s.updMod m (·.retxWaits)

/-- Messages that are fully sent and have no flit outstanding leave the transmit queue, and the response log (R455). -/
def State.reapTx (s : State) : State :=
  let kept := fun (e : RepEnt) (t : TxMsg) => e.ids.contains t.id
  let tx := s.tx.filter fun t => decide (t.off < t.len) || s.allMods.any fun m =>
    let x := s.mod m
    x.rep.any (kept · t) || x.grants.any (kept · t) || x.stopped.any (kept · t)
  let rlog := s.twin.rlog.filter fun l => tx.any fun t => t.msg.stream == l.stream && t.msg.sseq == l.sseq
  { s with tx := tx, twin := { s.twin with rlog := rlog } }

/-- In Open mode the UCIe adapter, not this block, knows when a unit has arrived: the oldest unit of module m is no longer outstanding when a free
bit says so, at a slot (R81, R159; log entry 58). -/
def State.openFree (s : State) (m : Nat) : State :=
  let (gone, s) := s.draw
  s.when gone fun s => (s.updMod m fun x => { x with rep := x.rep.drop 1 }).reapTx

/-- The Open-mode unit of a module: the next DATA unit, or padding (R543, R544). The UCIe adapter retries it (R81), and until it has arrived the unit
counts as outstanding for R144 and R150 (R159). -/
def State.openSlot (s : State) (m : Nat) : State :=
  let unit := fun (type tc stream : Nat) (pay : List Byte) => leBytes 4 (flitHeader type tc stream 0 0).toNat ++ slice pay 0 240
  let s := (s.openFree m).updMod m fun x => { x with slots := (x.slots + 1) % 16, duty := if x.slots = 15 then 0 else x.duty }
  match s.pickTc m with
  | none => s.emit (.openUnit m (unit 0 0 0 []))
  | some (c, s) =>
    match s.fillData c with
    | none => s.emit (.openUnit m (unit 0 0 0 []))
    | some (stream, pay, f) =>
      let e : RepEnt := { seq := 0, tc := c, stream := stream, pay := pay, ids := f.ids, sent := 8 * s.now, retx := 0, owed := false, rpt := false }
      (({ s with tx := f.tx } : State).updMod m fun x => { x with rep := x.rep ++ [e], lastUse := s.now, duty := x.duty + b2n (c == 2) }).emit
        (.openUnit m (unit 1 c stream pay))

/-- FLIT_SLOT (R108): a slot of a module that carries flits, or of one that has ended phase 7 of its retrain (R104). It begins `frac` eighths into
the cc. -/
def execFlitSlot (m : Nat) (frac : BitVec 3) (s : State) : Host.Outcome State Fault Refusal :=
  liveWf (decide (m < 16)) s fun s =>
    let x := s.mod m
    let after7 := (x.retrain.map (·.phase7)).getD false
    if s.openMode then s.when x.carries (·.openSlot m)
    else s.when (x.carries || after7) (·.flitSlot m frac.toNat)

/-! ## Credit and flow timers (R114, R119, R545) -/

/-- A granted counter has grown by 16 since the last CREDIT. -/
def Flow.grown (f : Flow) : Bool :=
  decide (16 ≤ (f.graH + 65536 - f.sentH) % 65536) || decide (16 ≤ (f.graD + 65536 - f.sentD) % 65536)

/-- A CREDIT is due (R114). -/
def State.creditOwed (s : State) : Bool :=
  (List.range 4).any (fun c => (s.tc c).grown) || (s.credAt.map fun t => decide (t + 40 ≤ s.now)).getD false ||
    decide (s.credLast + 1024 ≤ s.now)

/-- CREDIT_TIMER (R114): a CREDIT flit becomes due, or in Open mode a CREDIT management function waits for admission (R545). -/
def execCreditTimer (s : State) : Host.Outcome State Fault Refusal :=
  live s fun s =>
    if s.onOff || s.linkDownNow || !s.creditOwed then s
    else if s.openMode then { (s.sendMgmt1 2 0 s.creditBytes).creditSent with credLast := s.now }
    else { s with credDue := true, credLast := s.now }

/-- FLOW_TIMER (R119, Table 3-9): on every active module each 32 cc while this end holds a class in XOFF, each 1,024 cc otherwise. -/
def execFlowTimer (s : State) : Host.Outcome State Fault Refusal :=
  live s fun s =>
    let every := if s.xoffBits = 0 then 1024 else 32
    if s.onOff && !s.openMode && decide (s.flowLast + every ≤ s.now) then { s with flowDue := s.active, flowLast := s.now }
    else s

/-! ## Admission (R111, R123, R142, R144, R236, R240, R253, R539) -/

/-- Read trackers in use (R240). -/
def State.trackers (s : State) : Nat := (s.ops.map fun o => o.trk.length).sum

/-- The oldest message of a stream that still has bytes to send or a flit outstanding lies less than 16,384 behind (R144). -/
def State.sseqRoom (s : State) (stream : Nat) : Bool :=
  match s.tx.find? fun t => t.msg.stream == stream && t.msg.mtype != 0x30 with
  | some t => decide (((s.strm stream).next + 65536 - t.msg.sseq) % 65536 < 16384)
  | none => true

/-- DIGEST and CREDIT take no credits (Table 13-8). -/
def freeOfCredit (m : Msg) : Bool := m.mtype == 0x30 && (fld m.arg 7 0 == 1 || fld m.arg 7 0 == 2)

/-- The own link admits messages of a class: some module carries flits and is not in Frost (R107, R151), and for TC0 to TC2 the
ends agree (R123, R539). -/
def State.linkAdmits (s : State) (c : Nat) : Bool :=
  (s.active.any fun m => c == 3 || !(s.mod m).txFrost) && s.modeOpen c && (c == 3 || !bit (s.rg 0x10C) 31)

/-- A stream whose traffic a twin takeover or rejoin holds (R451 to R463). -/
def State.streamOpen (s : State) (m : Msg) : Bool := m.mtype == 0x30 || !(s.strm m.stream).moving

/-- Header credits available to the sender of a class (R111). -/
def Flow.availH (f : Flow) : Nat := (f.rxH + 65536 - f.conH) % 65536

/-- Data credits available to the sender of a class (R111). -/
def Flow.availD (f : Flow) : Nat := (f.rxD + 65536 - f.conD) % 65536

/-- A response of R455: READ_DATA, COMPLETION, PG_DATA or PG_ATOMIC_RESP. -/
def isResp (m : Msg) : Bool := m.mtype == 0x03 || m.mtype == 0x05 || m.mtype == 0x21 || m.mtype == 0x23

/-- The response log is kept, in Equinox, and it is full (R455). -/
def State.logFull (s : State) : Bool := s.paired && s.twin.st == 1 && decide (8192 ≤ s.twin.rlog.length)

/-- The own link takes the message now: link and ends, credits or XON, and the SSEQ window; a DIGEST not before 16 cc after its Solstice
(R537). -/
def State.linkTakes (s : State) (m : Msg) : Bool :=
  let f := s.tc m.tc
  let flow := if s.onOff then !f.xoffRx
    else freeOfCredit m || (decide (1 ≤ f.availH) && decide (dataCredits m ≤ f.availD))
  s.linkAdmits m.tc && flow && (m.mtype == 0x30 || s.sseqRoom m.stream) &&
    !(m.mtype == 0x30 && fld m.arg 7 0 == 1 && decide (s.now < s.digestAt)) && !(isResp m && s.logFull)

/-- The message may enter the own link now, and its stream is not held. -/
def State.canAdmit (s : State) (m : Msg) : Bool := s.streamOpen m && s.linkTakes m

/-- The stream of an operation's next message is open to it: while a stream waits to move back, an operation that has sent messages on it is
completed, and only new ones wait (R463). -/
def State.opOpen (s : State) (o : Op) (m : Msg) : Bool := s.streamOpen m || (s.twin.moving && !o.sent.isEmpty)

/-- An admitted response joins the response log (R455); TWN_RLOG keeps the peak. -/
def State.logResp (s : State) (m : Msg) (src : Option (Nat × Nat)) : State :=
  let e : LogEnt := { stream := m.stream, sseq := m.sseq, msg := { m with data := if m.mtype = 0x23 then m.data else [] }, src := src }
  let s : State := { s with twin := { s.twin with rlog := s.twin.rlog ++ [e] } }
  s.setRf 0x9002C 29 16 (max s.twin.rlog.length (s.rf 0x9002C 29 16))

/-- A message enters the own link: its SSEQ and its credits, and the transmit queue (R111, R142). -/
def State.enterLink (s : State) (m : Msg) (src : Option (Nat × Nat)) : State :=
  let (i, s) := s.fresh
  let sq := if m.mtype = 0x30 then 0 else (s.strm m.stream).next
  let s := if m.mtype = 0x30 then s else s.updStrm m.stream fun x => { x with next := (x.next + 1) % 65536 }
  let s := if s.onOff || freeOfCredit m then s else s.updTc m.tc fun f =>
    { f with conH := (f.conH + 1) % 65536, conD := (f.conD + dataCredits m) % 65536 }
  let t : TxMsg := { id := i, msg := { m with sseq := sq }, off := 0 }
  let s : State := { s with tx := s.tx ++ [t] }
  s.when (s.paired && s.twin.st == 1 && isResp m) (·.logResp t.msg src)

/-- RINST of a Harvest message: the collecting instance. -/
def rinstOf (m : Msg) : BitVec 3 := BitVec.ofNat 3 (if m.mtype = 0x12 then fld m.arg 32 30 else fld m.arg 22 20)

/-- A Harvest contribution of any kind. -/
def isHv (m : Msg) : Bool := m.mtype == 0x10 || m.mtype == 0x11 || m.mtype == 0x12

/-- Where an issued message goes: none for no route, else whether the own link takes it and the instance named (R253); a contribution
to a sister of this die goes to the instance that RINST names (R308). Where the route names either twin of this pair, the twin that owns
the stream takes the message (R446). -/
def State.outlet (s : State) (m : Msg) : Option (Bool × BitVec 3) :=
  if isHv m && m.dst.toNat == s.die then some (false, rinstOf m)
  else (s.route m.dst.toNat).map fun i =>
    let i := if s.paired && (i == s.inst || i == s.sister) then (if s.owns m.stream then s.inst else s.sister) else i
    (i == s.inst, i)

/-- The read of the route that a message takes: its errors are logged (R498). -/
def State.readRoute (s : State) (m : Msg) : State :=
  if isHv m && m.dst.toNat == s.die then s else (s.eccRead 4 m.dst.toNat).2

/-- The message is to leave by the other twin's link, and not by the pass-through port to a sister of this die. -/
def State.toTwin (s : State) (m : Msg) (i : BitVec 3) : Bool := s.paired && i == s.sister && m.dst.toNat != s.die

/-- The multi-tick budget of an operation leaves room for a message's data (R262). -/
def State.budgetOk (s : State) (o : Op) (n : Nat) : Bool :=
  let b := s.rf 0x31000 15 0 * 1024
  o.mt.isNone || b == 0 || decide (o.tickBytes + n ≤ b)

/-- Bytes that a message moves: its data, or the length that a READ_REQ asks for. -/
def moved (m : Msg) : Nat := if m.mtype = 0x02 then fld m.arg 63 52 + 1 else m.data.length

/-- The next message of an operation may be admitted: route, budget and read tracker (R240, R253, R262). -/
def State.opMsgOk (s : State) (o : Op) (m : Msg) : Bool :=
  s.budgetOk o (moved m) && !(m.mtype == 0x02 && decide (512 ≤ s.trackers)) && !o.abort &&
    match s.outlet m with
    | some (true, _) => s.linkTakes m
    | _ => true

/-- The first message of an operation leaves its queue: the tracker of a READ_REQ, the multi-tick counts, and whether the
operation is now fully admitted. -/
def Op.pop (o : Op) (m : Msg) : Op :=
  let rd := m.mtype == 0x02
  { o with msgs := o.msgs.drop 1, sends := decide (1 < o.msgs.length) || o.phase != .result,
           trk := if rd then o.trk ++ (o.pieces.head?.map fun p => (o.rnum, p)).toList else o.trk,
           pieces := if rd then o.pieces.drop 1 else o.pieces,
           rnum := if rd then o.rnum + 1 else o.rnum,
           tickBytes := o.tickBytes + moved m, pos := if rd || o.mt.isNone then o.pos else o.pos + m.data.length }

/-- A message of this instance for itself (a return of COMBINE) reaches its own port, as one from a sister would (R255). -/
def State.ownRel (s : State) (m : Msg) : State :=
  let (n, s) := s.fresh
  { s with rel := s.rel ++ [{ ord := n, dom := 64 * (1 + s.inst.toNat) + m.stream, msg := m, due := none,
                              tick := s.tick.num, held := false, psn := false, err := false }] }

/-- Messages of an operation that are handed to the other twin at once: as many as its budget and the free read trackers let through
(R240, R262, R447). -/
def State.handChunk (s : State) : List Msg → Op → List Msg → Op × List Msg
  | [], o, done => (o, done)
  | m :: ms, o, done =>
    if s.budgetOk o (moved m) && !(m.mtype == 0x02 && decide (512 ≤ s.trackers + (done.filter fun k => k.mtype == 0x02).length)) then
      s.handChunk ms (o.pop m) (done ++ [m])
    else (o, done)

/-- An operation whose stream the other twin owns is handed to it over the twin bus (R447). -/
def State.handOver (s : State) (o : Op) : State :=
  let (o', ms) := s.handChunk o.msgs o []
  match ms with
  | [] => s
  | m :: _ => (s.setOp { o' with handed := true }).emit (.twin (.opRecord
      { tag := o.tag, orig := s.inst, opcode := o.iss.opcode, stream := m.stream, tc := m.tc, msgs := ms }))

/-- An operation's message is admitted: by the own link, by the pass-through port or the other twin, or with status NO_ROUTE when no
route exists any more; an operation whose last message found no route completes (R253, R254, R447). A twin keeps what it admitted until
the operation completes, to regenerate it (R458). -/
def State.admitOp (s : State) (o : Op) (m : Msg) : State :=
  let o' := { o.pop m with since := s.now }
  let s := s.readRoute m
  match s.outlet m with
  | some (true, _) =>
    let sq := (s.strm m.stream).next
    ((s.setOp (if s.paired then { o' with sent := o'.sent ++ [{ m with sseq := sq }] } else o')).enterLink m none).opCheck o.tag
  | some (false, i) =>
    if i = s.inst then (s.setOp o').ownRel m
    else if s.toTwin m i then s.handOver o
    else (s.setOp { o' with thru := o'.thru || m.mtype == 0x01 }).sendXpt i (.msg s.inst m)
  | none =>
    let o' := o'.fail 5 false 1
    let last := msgLast m
    (s.setOp { o' with trk := if m.mtype = 0x02 then o'.trk.dropLast else o'.trk,
                       await := if last then o'.await.erase m.dst.toNat else o'.await }).opCheck o.tag

/-- The first operation of a stream that is not fully admitted: it alone may admit (R236). -/
def State.headOp (s : State) (stream : Nat) : Option Op :=
  s.ops.find? fun o => o.sends && ((o.msgs.head?.map (·.stream)).getD o.iss.stream) == stream

/-- The first response of a stream and class that is ready; READ_DATA keep the order of their requests (R239). -/
def State.headRsp (s : State) (stream c : Nat) : Option Rsp :=
  let mine := s.rsp.filter fun r => r.msg.stream == stream && r.msg.tc == c && !r.msg.resend
  mine.find? fun r => r.ready &&
    !(r.msg.mtype == 0x03 && (s.rsp.find? fun q => q.msg.stream == stream && q.msg.mtype == 0x03).map (·.id) != some r.id)

/-- The message's stream belongs to the other twin, and no takeover or rejoin holds it. -/
def State.elsewhere (s : State) (m : Msg) : Bool :=
  s.paired && m.mtype != 0x30 && !s.owns m.stream && !(s.strm m.stream).moving

/-- The message of stream n that R457 re-sends next: the lowest SSEQ from the peer's E on. -/
def State.headResend (s : State) (n : Nat) : Option Msg :=
  let key := fun (m : Msg) => (m.sseq + 65536 - (s.strm n).next + 32768) % 65536
  (s.twin.resend.filter fun m => m.stream == n).foldl (fun b m => match b with
    | none => some m
    | some k => if key m < key k then some m else some k) none

/-- A re-sent message enters the own link under its old SSEQ, with RESEND, for credits of this link (R457). -/
def State.enterResent (s : State) (m : Msg) : State :=
  let (i, s) := s.fresh
  let s := if s.onOff then s else s.updTc m.tc fun f =>
    { f with conH := (f.conH + 1) % 65536, conD := (f.conD + dataCredits m) % 65536 }
  let t : TxMsg := { id := i, msg := { m with resend := true }, off := 0 }
  ({ s with tx := s.tx ++ [t], twin := { s.twin with resend := dropFirst (· == m) s.twin.resend, resendAt := s.now } } : State).count32 0x90020 1

/-- Admit what stream n has for class c, if anything: what R457 re-sends, a response, or the head operation's next message. -/
def State.admitStream (s : State) (c n : Nat) : Option State :=
  match s.headResend n with
  | some m =>
    let waits := s.rsp.any fun r => r.msg.resend && r.msg.stream == m.stream && r.msg.sseq == m.sseq
    if m.tc = c && !waits && s.canAdmit m then some (s.enterResent m) else none
  | none =>
    match s.headRsp n c with
    | some r =>
      let s' : State := { s with rsp := s.rsp.filter (·.id != r.id) }
      if s.elsewhere r.msg then some (s'.sendXpt s.sister (.msg s.inst r.msg))
      else if s.canAdmit r.msg then some (s'.enterLink r.msg (if r.msg.data.isEmpty then none else some (r.base, r.len))) else none
    | none =>
      match s.headOp n with
      | none => none
      | some o =>
        match o.msgs.head? with
        | some m => if m.tc = c && s.opOpen o m && s.opMsgOk o m then some (s.admitOp o m) else none
        | none => none

/-- The first transit message of class c whose stream and source have none before it that still waits (R138, R255). Of the 12 cc of a crossing the
block takes 8 (R591), which the model counts from the arrival at this adapter's port (log entry 58). -/
def State.headTransit (s : State) (c : Nat) : Option Transit :=
  s.transit.find? fun t => t.msg.tc == c && decide (t.since + 8 ≤ s.now) && (s.canAdmit t.msg || s.elsewhere t.msg) &&
    (s.transit.find? fun u => u.src == t.src && u.msg.stream == t.msg.stream) == some t

/-- A transit message is admitted, and numbered and stamped by this link (R253), or goes on to the twin that owns its stream (R446). -/
def State.admitTransit (s : State) (t : Transit) : State :=
  let s' : State := { s with transit := dropFirst (· == t) s.transit }
  if s.elsewhere t.msg then s'.sendXpt s.sister (.msg t.src t.msg) else s'.enterLink t.msg none

/-- A management function is admitted. -/
def State.admitMgmt (s : State) : State :=
  match s.mgmtQ.find? s.canAdmit with
  | some m => ({ s with mgmtQ := dropFirst (· == m) s.mgmtQ } : State).enterLink m none
  | none => s

/-- The streams in round-robin order after the one served last in class c (R236). -/
def State.rrStreams (s : State) (c : Nat) : List Nat := (List.range 64).map fun i => (s.rr.getD c 63 + 1 + i) % 64

/-- One admission for class c: transit first, then the streams in turn. -/
def State.admitNext (s : State) (c : Nat) : State :=
  let waits := s.rsp.any (fun r => r.ready && r.msg.tc == c) || s.transit.any fun t => isResp t.msg && t.msg.tc == c
  let s := s.when (s.logFull && waits) (·.twinEvent 4)
  if c = 3 && (s.mgmtQ.find? s.canAdmit).isSome then s.admitMgmt
  else match s.headTransit c with
    | some t => s.admitTransit t
    | none =>
      match (s.rrStreams c).findSome? fun n => (s.admitStream c n).map (n, ·) with
      | some (n, t) =>
        let rr := (List.range 4).map fun i => if i = c then n else s.rr.getD i 63
        { t with rr := rr }
      | none => s

/-- MESSAGE_ADMISSION (R111, R236). -/
def execMessageAdmission (tc : Nat) (s : State) : Host.Outcome State Fault Refusal :=
  liveWf (decide (tc < 4)) s (·.admitNext tc)

end Sys2Proof.Machine
end

