-- ==== Sys2Proof/Machine/Rpc.lean ====
section
/-! DEFINITION. The Remote Page Cache and the owner's records: page addresses, the tag store, fills, evictions, the atomic
operations of the home instance and the free ring (10, R404 to R414, R423 to R434, R440, R441). -/
namespace Sys2Proof.Machine

/-! ## Messages that no operation holds -/

/-- A message of the block goes toward its die: by the own link's queue, by the pass-through port, or nowhere, counted as R254
counts a return without a route. -/
def State.sendRouted (s : State) (m : Msg) : State :=
  let s := s.readRoute m
  match s.outlet m with
  | some (true, _) => s.respond m
  | some (false, i) => s.sendXpt i (.msg s.inst m)
  | none => (s.count32 0x20640 1).irq 1

/-- A page operation's message: by the operation record of R447 where the other twin owns its stream, and then its report is awaited. -/
def State.sendPaged (s : State) (tag : Nat) (m : Msg) : State :=
  match s.outlet m with
  | some (false, i) =>
    if s.toTwin m i then
      let op := ((s.op? tag).map (·.iss.opcode)).getD 0
      (s.updOp tag fun o => { o with handed := true }).emit (.twin (.opRecord
        { tag := tag, orig := s.inst, opcode := op, stream := m.stream, tc := m.tc, msgs := [m] }))
    else s.sendRouted m
  | _ => s.sendRouted m

/-! ## Pages (R404, R405) -/

/-- Owner die of a page id. -/
def pidDie (pid : Nat) : Nat := pid / 2 ^ 36 % 16
/-- Page index of a page id. -/
def pidIdx (pid : Nat) : Nat := pid % 2 ^ 36

/-- RPC_POOL[d] (Table 10-9). -/
def State.pool (s : State) (d : Nat) : W64 := s.rg64 (0x80100 + 8 * d)

/-- The page lies in its die's pool (R405). -/
def State.pageOk (s : State) (pid : Nat) : Bool :=
  let p := s.pool (pidDie pid)
  bit p 63 && decide (pidIdx pid < fld p 62 32)

/-- Local address of a page on its owner die (R405). -/
def State.pageAddr (s : State) (pid : Nat) : Nat := (fld (s.pool (pidDie pid)) 31 0 + pidIdx pid) * 65536 % 2 ^ 48

/-- Address of the owner record of a page index (R406). -/
def State.recordAddr (s : State) (pid : Nat) : Nat := ((s.rg64 0x80010).toNat / 8 * 8 + pidIdx pid * 8) % 2 ^ 48

/-- RPC_CFG.HOME. -/
def State.home (s : State) : BitVec 3 := BitVec.ofNat 3 (s.rf 0x80000 6 4)

/-- RPC_CFG.PSTREAM. -/
def State.pstream (s : State) : Nat := s.rf 0x80000 21 16

/-! ## Tag store (R423, R424) -/

/-- The set of a page id. -/
def rpcSet (pid : Nat) : Nat :=
  ((pid % 8192) ^^^ (pid / 2 ^ 13 % 8192) ^^^ (pid / 2 ^ 26 % 8192) ^^^ (pid / 2 ^ 39 % 2 * 4096)) % 8192

/-- RPC_CFG.WAYS. -/
def State.ways (s : State) : Nat := s.rf 0x80000 12 8

/-- RPC_CFG.EN. -/
def State.rpcOn (s : State) : Bool := bit (s.rg 0x80000) 0

/-- Tag-store entry e = set × 16 + way. -/
def State.tag (s : State) (e : Nat) : Tag := spGet {} s.tags e

/-- The state with an entry set. -/
def State.setTag (s : State) (e : Nat) (t : Tag) : State := { s with tags := spPut {} s.tags e t }

/-- Carve-out address of an entry's copy (R423). -/
def State.carve (s : State) (e : Nat) : Nat :=
  ((s.rg64 0x80008).toNat / 65536 * 65536 + (e % 16 * 8192 + e / 16) * 65536) % 2 ^ 48

/-- Entries of a set, by way. -/
def State.setEntries (s : State) (set : Nat) : List Nat := (List.range s.ways).map (set * 16 + ·)

/-- A set is read: an entry with an uncorrectable word becomes INVALID without an RDEC (Table 12-9). -/
def State.readSet (s : State) (set : Nat) : State :=
  s.each (s.setEntries set) fun s e =>
    let (a, s) := s.eccRead 6 (2 * e)
    let (b, s) := s.eccRead 6 (2 * e + 1)
    s.when (a || b) (·.setTag e {})

/-- The entry that matches a page id and a generation. -/
def State.findTag (s : State) (pid gen : Nat) : Option Nat :=
  (s.setEntries (rpcSet pid)).find? fun e => let t := s.tag e; t.st != 0 && t.pid == pid && t.gen == gen

/-- An entry moves to the top of its set's LRU order. -/
def State.touchTag (s : State) (e : Nat) : State :=
  let (i, s) := s.fresh
  s.setTag e { s.tag e with lru := i + 1 }

/-- Place of an entry in its set's LRU order: how many entries of the set were used after it (log entry 12). -/
def State.lruRank (s : State) (e : Nat) : Nat :=
  ((s.setEntries (e / 16)).filter fun f => (s.tag f).st != 0 && decide ((s.tag e).lru < (s.tag f).lru)).length

/-- PG_ATOMIC of Table 10-5. -/
def State.atomicMsg (s : State) (pid op pos optag gen cmp new_ : Nat) : Msg :=
  s.mkMsg 0x22 s.pstream 0 (pidDie pid) optag
    (bf 64 39 0 pid ||| bf 64 42 40 s.inst.toNat ||| bf 64 45 43 op ||| bf 64 57 46 pos)
    (leBytes 8 (gen % 2 ^ 24) ++ leBytes 4 cmp ++ leBytes 4 new_) false

/-- Both words of a tag-store entry are written (R497). -/
def State.tagWritten (s : State) (e : Nat) : State := (s.eccWritten 6 (2 * e)).eccWritten 6 (2 * e + 1)

/-- An entry leaves VALID: its reference is released with an RDEC (R425, R430). -/
def State.dropTag (s : State) (e : Nat) : State :=
  let t := s.tag e
  let s : State := { s with rdecs := s.rdecs ++ [t.pid] }
  ((s.setTag e {}).tagWritten e).sendRouted (s.atomicMsg t.pid 4 0 0 t.gen 0 0)

/-- An entry is evicted or flushed: counted in RPC_EVICT (R430). -/
def State.evictTag (s : State) (e : Nat) : State := (s.dropTag e).count32 0x8005C 1

/-- VALID, without a pin or a read hold. -/
def Tag.idle (t : Tag) : Bool := t.st == 2 && t.pin == 0 && t.hold == 0

/-- A VALID entry of a retired way is released once its PIN and read hold are 0 (R501). -/
def State.retireWay (s : State) (e : Nat) : State :=
  s.when (s.ecc.ways.contains e && (s.tag e).idle) (·.evictTag e)

/-- A write of ECC_RETIRE[k] (R501): stored, and with V at 1 its unit retires; a tag-store way that is idle is released at once. -/
def State.writeEccRetire (s : State) (k : Nat) (d : W32) : State :=
  let s := s.setRg (0xC0080 + 4 * k) (d &&& 0x8F0FFFFF)
  s.when (bit d 31) fun s => (s.retireUnit (fld d 27 24) (fld d 19 0)).when (fld d 27 24 == 6) (·.retireWay (fld d 19 0))

/-- ECC_RETIRE_WRITE (R501). -/
def execEccRetireWrite (k : Nat) (d : W32) (s : State) : Host.Outcome State Fault Refusal :=
  portCmdWf (decide (k < 8)) s (·.writeEccRetire k d)

/-- An entry that was FILLING when RPC_FLUSH.GO was set is flushed once its fill has ended and nothing pins or reads it (R432). -/
def State.flushNow (s : State) (e : Nat) : State :=
  match s.flushSet with
  | some es =>
    if es.contains e && ((s.tag e).idle || (s.tag e).st == 0) then
      ({ s with flushSet := some (es.filter (· != e)) } : State).when (s.tag e).idle (·.evictTag e)
    else s
  | none => s

/-- A read hold ends. -/
def State.unhold (s : State) (e : Nat) : State :=
  ((s.setTag e { s.tag e with hold := (s.tag e).hold - 1 }).retireWay e).flushNow e

/-- The way that a fill takes: the lowest INVALID one, else the least recently used VALID one that is idle (R428); retired ways are
never allocated (R501). -/
def State.victim (s : State) (set : Nat) : Option Nat :=
  let es := (s.setEntries set).filter fun e => !s.ecc.ways.contains e
  match es.find? fun e => (s.tag e).st == 0 with
  | some e => some e
  | none =>
    (es.filter fun e => (s.tag e).idle).foldl (fun b e =>
      match b with
      | none => some e
      | some f => if (s.tag e).lru < (s.tag f).lru then some e else some f) none

/-! ## Faults and outcomes (R437 to R441) -/

/-- RPC_FAULTLOG (R441). -/
def State.faultLog (s : State) (opcode tag cause pid : Nat) : State :=
  if bit (s.rg 0x8003C) 31 then s.setBit 0x8003C 30
  else
    (s.setRg64 0x80038 (bf 64 63 63 1 ||| bf 64 62 62 (s.rf 0x8003C 30 30) ||| bf 64 61 54 opcode ||| bf 64 53 46 tag |||
      bf 64 44 40 cause ||| bf 64 39 0 pid)).setRg64 0x80040 (BitVec.ofNat 64 s.tick.num) |>.hit 0x8003C 31 31 1

/-- The operation status of an outcome of Table 10-7, 0 for none (R440). -/
def outStatus (out : Nat) : Nat :=
  if out = 7 ∨ out = 8 ∨ out = 9 ∨ out = 10 then 0xA
  else if out = 11 then 3 else if out = 12 then 5 else if out = 13 then 1 else 0

/-- Entry k of a page operation has its outcome and its result value; a fault is counted, and a PAGE_FAULT logged. -/
def State.pageOut (s : State) (tag k out val : Nat) : State :=
  match s.op? tag with
  | none => s
  | some o =>
    let pid := ((o.ents[k]?).map (·.pid)).getD 0
    let st := outStatus out
    let ents := o.ents.mapIdx fun i e => if i = k then { e with out := some out, val := val, pend := false } else e
    let o := { o with ents := ents, psn := o.psn || out == 13 }
    let o := if st = 0 then o else o.fail st false 1
    let s := s.setOp o
    let s := s.when (out == 7) (·.count32 0x80060 1)
    s.when (st == 0xA) (·.faultLog o.iss.opcode.toNat tag out pid)

/-! ## Fills (R427 to R429) -/

/-- A fetch tracker is free. -/
def State.freeTrk (s : State) : Option Nat := (List.range 256).find? fun t => !s.fills.any fun f => f.trk == t

/-- PG_REQ of Table 10-5. -/
def State.pgReqMsg (s : State) (pid gen trk optag : Nat) : Msg :=
  s.mkMsg 0x20 s.pstream 0 (pidDie pid) optag
    (bf 64 39 0 pid ||| bf 64 42 40 s.inst.toNat ||| bf 64 50 43 trk) (leBytes 8 (gen % 2 ^ 24)) false

/-- PGPIN's effect on an entry that is FILLING or VALID: PIN + 1, or PIN_SAT. -/
def State.pinTag (s : State) (e : Nat) : Bool × State :=
  if (s.tag e).pin = 0xFFFF then (false, s) else (true, s.setTag e { s.tag e with pin := (s.tag e).pin + 1 })

/-- Pins counted in the result value of PGPIN. -/
def State.pinVal (s : State) (pin : Bool) (e : Nat) : Nat := if pin then (s.tag e).pin else 0

/-- FULL (R429): the miss is counted, and SETFULL raises irq[4]. -/
def State.setFull (s : State) : State := ((s.count32 0x80058 1).setBit 0x80004 9).irq 4

/-- The fill of entry k of an operation, as PGFETCH or PGPIN asks for it (R426 to R429, R437). -/
def State.fill (s : State) (tag k : Nat) (pin : Bool) : State :=
  match (s.op? tag).bind fun o => o.ents[k]? with
  | none => s
  | some x =>
    let s := s.readSet (rpcSet x.pid)
    match (if s.rpcOn then s.findTag x.pid x.gen else none) with
    | some e =>
      let (ok, s) := if pin then s.pinTag e else (true, s)
      if !ok then s.pageOut tag k 9 (s.tag e).pin
      else if (s.tag e).st = 2 then (s.touchTag e).pageOut tag k 0 (s.pinVal pin e)
      else
        let s := s.count32 0x80054 1
        { s with fills := s.fills.map fun f =>
            if f.set * 16 + f.way = e && !f.poison then { f with waiters := f.waiters ++ [(tag, k, true)] } else f }
    | none =>
      match s.freeTrk with
      | none => { s with fillWait := s.fillWait ++ [(tag, k)] }
      | some trk =>
        match (if s.rpcOn then s.victim (rpcSet x.pid) else none) with
        | none => (if s.rpcOn then s.setFull else s).pageOut tag k 3 0
        | some e =>
          let s := s.when ((s.tag e).st == 2) (·.evictTag e)
          let s := (s.setTag e { st := 1, pid := x.pid, gen := x.gen, pin := b2n pin, lru := 0 }).tagWritten e
          let f : Fill := { trk := trk, set := e / 16, way := e % 16, pid := x.pid, gen := x.gen, got := [], acked := [],
                            poison := false, waiters := [(tag, k, false)] }
          ({ s with fills := s.fills ++ [f] } : State).sendPaged tag (s.pgReqMsg x.pid x.gen trk tag)

/-- Entry k of a PGFETCH, PGPIN or PGGATHER FETCH (Table 10-7): LOCAL, RANGE, NO_ROUTE, or its fill. -/
def State.fetchEnt (s : State) (tag k : Nat) (pin : Bool) : State :=
  match (s.op? tag).bind fun o => o.ents[k]? with
  | none => s
  | some x =>
    if x.out.isSome then s
    else if pidDie x.pid = s.die then s.pageOut tag k 4 0
    else if !s.pageOk x.pid then s.pageOut tag k 11 0
    else if (s.route (pidDie x.pid)).isNone then s.pageOut tag k 12 0
    else s.fill tag k pin

/-- The operation pins what it fetches. -/
def Op.pins (o : Op) : Bool := o.iss.opcode == 0x71

/-- The waiter numbers from here on are reads of a page that a fill delays (R426). -/
def readWaiter : Nat := 0x10000

/-- A fill ends for one waiter: an entry's outcome, or a read's page. -/
def State.fillWaiter (s : State) (e out : Nat) (ok : Bool) (w : Nat × Nat × Bool) : State :=
  let (tag, k, joined) := w
  if readWaiter ≤ k then
    s.updOp tag fun o =>
      { o with pg := o.pg.map fun p => if p.j = k - readWaiter && p.loc = 3 then { p with loc := if ok then 4 else 0, entry := e } else p,
               held := if ok then o.held ++ [e] else o.held }
  else
    let pin := ((s.op? tag).map (·.pins)).getD false
    s.pageOut tag k (if ok then (if joined then 2 else 1) else out) (if ok then s.pinVal pin e else 0)

/-- What the end of a fill does to its entry and to those that wait for it. A refused fill holds no reference; a poisoned one releases it
(Table 10-4, R425). -/
def State.fillOut (s : State) (f : Fill) (out : Nat) : State :=
  let e := f.set * 16 + f.way
  let mine := (s.tag e).st == 1 && (s.tag e).pid == f.pid && (s.tag e).gen == f.gen
  let ok := out == 1 && mine
  let reads := (f.waiters.filter fun w => decide (readWaiter ≤ w.2.1)).length
  let s :=
    if ok then (((s.setTag e { s.tag e with st := 2, hold := (s.tag e).hold + reads }).tagWritten e).touchTag e).count32 0x80050 1
    else if mine then (if out = 13 then s.dropTag e else s.setTag e {})
    else s
  ((s.each f.waiters fun s w => s.fillWaiter e out ok w).retireWay e).flushNow e

/-- A fill gives its tracker back. The fetches that wait for one go on, in their order, as far as trackers are free. -/
def State.freeFill (s : State) (trk : Nat) : State :=
  let s : State := { s with fills := s.fills.filter fun g => g.trk != trk }
  let wait := s.fillWait
  ({ s with fillWait := [] } : State).each wait fun s w => s.fill w.1 w.2 (((s.op? w.1).map (·.pins)).getD false)

/-- A fill ends, refused or with every chunk written. -/
def State.fillEnd (s : State) (f : Fill) (out : Nat) : State :=
  (({ s with fills := s.fills.filter fun g => g.trk != f.trk } : State).fillOut f out).freeFill f.trk

/-- A fill ends once all 16 chunks are in and every one written is acknowledged; one that a poisoned chunk has discarded gives back its tracker. -/
def State.fillCheck (s : State) (trk : Nat) : State :=
  match s.fills.find? fun f => f.trk == trk with
  | none => s
  | some f =>
    if f.got.length = 16 && f.acked.length = f.got.length then (if f.poison then s.freeFill trk else s.fillEnd f 1) else s

/-- The state with a fill changed. -/
def State.updFill (s : State) (trk : Nat) (g : Fill → Fill) : State :=
  { s with fills := s.fills.map fun f => if f.trk = trk then g f else f }

/-- A chunk arrives poisoned, or its write fails: the entry is INVALID from now on (Table 10-4, R425), and those that wait for the fill go on. -/
def State.poisonFill (s : State) (trk : Nat) : State :=
  match s.fills.find? fun f => f.trk == trk && !f.poison with
  | none => s
  | some f => (s.updFill trk fun f => { f with poison := true, waiters := [] }).fillOut f 13

/-- A PG_DATA chunk (R427, R434): written to the carve-out, or a refusal, or a poisoned chunk. -/
def State.pgData (s : State) (r : Rel) : State :=
  let a := r.msg.arg
  let trk := fld a 47 40
  let c := fld a 54 51
  let out := fld a 59 56
  match s.fills.find? fun f => f.trk == trk && f.pid == fld a 39 0 with
  | none => s
  | some f =>
    if f.got.contains c then s
    else if out = 1 && r.msg.data.length = 4096 && !r.msg.poison && !f.poison then
      let s := s.updFill trk fun f => { f with got := f.got ++ [c] }
      s.writeMem (.fill trk c) (some r.dom) r.ord (s.carve (f.set * 16 + f.way) + 4096 * c) r.msg.data false
    else if out = 1 ∨ out = 13 then
      ((s.updFill trk fun f => { f with got := f.got ++ [c], acked := f.acked ++ [c] }).poisonFill trk).fillCheck trk
    else if f.poison then s.freeFill trk
    else s.fillEnd f out

/-! ## Owner records (R409 to R413) -/

/-- REFCNT of a record. -/
def recCount (r : W64) : Nat := fld r 31 0
/-- GEN of a record. -/
def recGen (r : W64) : Nat := fld r 55 32

/-- A record made of its fields. -/
def recMake (count gen : Nat) : W64 := bf 64 55 32 gen ||| bf 64 31 0 count

/-- DEC and CAS to a new count: GEN advances when it is 0 (R410). -/
def recDown (r : W64) (count : Nat) : W64 := recMake count (if count = 0 then (recGen r + 1) % 2 ^ 24 else recGen r)

/-- Table 10-2: outcome and the new record, none where nothing changes. OP 5 stands for the fill pin of a PG_REQ. -/
def recordOp (op gen cmp new_ : Nat) (r : W64) : Nat × Option W64 :=
  let ok := gen == recGen r && decide (0 < recCount r)
  match op with
  | 0 => (5, none)
  | 1 | 5 =>
    if !ok then (7, none)
    else if recCount r = 0xFFFFFFFF then (8, none)
    else (5, some (recMake (recCount r + 1) (recGen r)))
  | 2 | 4 => if ok then (5, some (recDown r (recCount r - 1))) else (7, none)
  | _ =>
    if !ok then (7, none)
    else if recCount r = cmp then (5, if recDown r new_ = r then none else some (recDown r new_))
    else (6, none)

/-- The operation code of a request: OP of a PG_ATOMIC, 5 for a PG_REQ. -/
def recOpcode (m : Msg) : Nat := if m.mtype = 0x20 then 5 else fld m.arg 45 43

/-- A request names a record: its page id. -/
def recPid (m : Msg) : Nat := fld m.arg 39 0

/-- The order that the writes of a request belong to: its stream in this direction of the link, or the source of the pass-through port;
none for one of the own instance (R241, R269). -/
def RecOp.dom (x : RecOp) (die : Nat) : Option Nat :=
  match x.src with
  | some i => some (64 * (1 + i.toNat) + x.msg.stream)
  | none => if x.msg.src.toNat = die then none else some x.msg.stream

/-- A request for a record that was released or received before an order has not reached the record's queue yet. -/
def State.recBefore (s : State) (pid ord : Nat) : Bool :=
  s.rel.any fun r => (r.msg.mtype == 0x20 || r.msg.mtype == 0x22) && recPid r.msg == pid && decide (r.ord < ord)

/-- Start the operation of each record that was released or received first, if none of the record has started (R411). -/
def State.startRecs (s : State) : State :=
  s.each s.recOps fun s x =>
    let pid := recPid x.msg
    let later := s.recOps.any fun y => recPid y.msg == pid && (y.started || decide (y.id < x.id))
    if x.started || later || s.recBefore pid x.id then s
    else
      let s : State := { s with recOps := s.recOps.map fun y => if y.id = x.id then { y with started := true } else y }
      s.read1 (.record x.id) (s.recordAddr (recPid x.msg), 8)

/-- A request joins the home instance's queue under its place in the order of releases; `src` is the sister that forwarded it. -/
def State.queueRec (s : State) (m : Msg) (src : Option (BitVec 3)) (i : Nat) : State :=
  ({ s with recOps := s.recOps ++ [{ id := i, msg := m, started := false, rec_ := none, wr := false, src := src }] } : State).startRecs

/-- The requesting instance's code: ORIG of PG_REQ and PG_ATOMIC. -/
def pgOrig (m : Msg) : Nat := fld m.arg 42 40

/-- PG_ATOMIC_RESP of Table 10-5. -/
def State.atomicResp (s : State) (m : Msg) (out : Nat) (r : W64) : Msg :=
  s.answer m 0x23 0 (bf 64 11 0 (fld m.arg 57 46) ||| bf 64 14 12 (pgOrig m) ||| bf 64 17 15 (recOpcode m) ||| bf 64 21 18 out)
    (leBytes 8 r.toNat) false

/-- PG_DATA of Table 10-5, on the TC of RPC_CFG.DTC. -/
def State.pgDataMsg (s : State) (m : Msg) (chunk out : Nat) (last : Bool) (data : List Byte) : Msg :=
  s.answer m 0x21 (s.rf 0x80000 23 22)
    (bf 64 39 0 (recPid m) ||| bf 64 47 40 (fld m.arg 50 43) ||| bf 64 50 48 (pgOrig m) ||| bf 64 54 51 chunk ||| bf 64 55 55 (b2n last) |||
      bf 64 59 56 out) data false

/-- A released PG_ATOMIC_RESP (R437, R442): the entry's outcome with the returned REFCNT; of an RDEC, anything but DONE is counted and
logged (R430). -/
def State.takeAtomicResp (s : State) (m : Msg) : State :=
  let out := fld m.arg 21 18
  if fld m.arg 17 15 = 4 then
    let d := m.src.toNat
    let pid := (s.rdecs.find? fun p => pidDie p == d).getD 0
    let s : State := { s with rdecs := dropFirst (fun p => pidDie p == d) s.rdecs }
    if out = 5 then s else (s.count32 0x80060 1).faultLog 0 0 out pid
  else
    s.pageOut m.optag.toNat (fld m.arg 11 0) out (recCount (BitVec.ofNat 64 (leAt m.data 0 8)))

/-- An answer of the home instance: to the own instance, to a sister of the die, or in the reverse direction of the link. -/
def State.answerRec (s : State) (src : Option (BitVec 3)) (m : Msg) (orig : Nat) : State :=
  if m.dst.toNat = s.die && orig = s.inst.toNat then s.takeAtomicResp m
  else if m.dst.toNat = s.die then s.sendXpt (BitVec.ofNat 3 orig) (.msg s.inst m)
  else match src with
    | some i => s.sendXpt i (.msg s.inst m)
    | none => s.respond m

/-- Append a freed page to the free ring (R410, R413); the write is one of the released message that freed the page (R269). -/
def State.freeRing (s : State) (dom : Option Nat) (ord pid gen : Nat) : State :=
  let size := 2 ^ s.rf 0x80020 4 0
  let head := s.rf 0x80024 31 0
  if (head + 2 ^ 32 - s.rf 0x80028 31 0) % 2 ^ 32 = size then (s.count32 0x80068 1).irq 1
  else
    let a := ((s.rg64 0x80018).toNat / 8 * 8 + head % size * 8) % 2 ^ 48
    (s.writeMem .ring dom ord a (leBytes 8 (pid + gen * 2 ^ 40)) false).setRg 0x80024 (BitVec.ofNat 32 (head + 1))

/-- The 16 reads and answers of a filled page (R427, R434). -/
def State.sendPage (s : State) (m : Msg) (via : Option (BitVec 3)) : State :=
  s.each (List.range 16) fun s c =>
    let (i, s) := s.fresh
    let base := s.pageAddr (recPid m) + 4096 * c
    let r : Rsp := { id := i, msg := s.pgDataMsg m c 1 (c == 15) [], ready := false, base := base, len := 4096, buf := [],
                     rdLeft := 1, since := s.now, via := via }
    ({ s with rsp := s.rsp ++ [r] } : State).read1 (.rsp i) (base, 4096)

/-- The home instance ends an operation: the free ring, the answer, R414's report, and the next operation on the record. -/
def State.endRec (s : State) (x : RecOp) (out : Nat) (r : W64) (new_ : Option W64) : State :=
  let s : State := { s with recOps := s.recOps.filter fun y => y.id != x.id }
  let m := x.msg
  let s := match new_ with
    | some n => s.when (recCount n == 0) (·.freeRing (x.dom s.die) x.id (recPid m) (recGen n))
    | none => s
  let s :=
    if m.mtype = 0x20 then
      if out = 5 then s.sendPage m x.src else s.answerRec x.src (s.pgDataMsg m 0 out true []) (pgOrig m)
    else s.answerRec x.src (s.atomicResp m out r) (pgOrig m)
  let s := match x.src with
    | some i => s.when (m.mtype == 0x22) (·.sendXpt i (.ack s.inst))
    | none => s
  s.startRecs

/-- The operation that a record's request names, applied to the record as read. -/
def recApply (m : Msg) (r : W64) : Nat × Option W64 :=
  recordOp (recOpcode m) (fld (BitVec.ofNat 64 (leAt m.data 0 8)) 23 0) (leAt m.data 8 4) (leAt m.data 12 4) r

/-- The record was read: the operation of Table 10-2, with a write when it changes the record (R411). -/
def State.recRead (s : State) (id : Nat) (bs : List Byte) : State :=
  match s.recOps.find? fun y => y.id == id with
  | none => s
  | some x =>
    let r : W64 := BitVec.ofNat 64 (leNat bs)
    match recApply x.msg r with
    | (out, none) => s.endRec x out r none
    | (_, some n) =>
      let s : State := { s with recOps := s.recOps.map fun y => if y.id = id then { y with rec_ := some r, wr := true } else y }
      s.writeMem (.record id) (x.dom s.die) id (s.recordAddr (recPid x.msg)) (leBytes 8 n.toNat) false

/-- The record's write is acknowledged: the operation ends. -/
def State.recAcked (s : State) (id : Nat) : State :=
  match s.recOps.find? fun y => y.id == id with
  | none => s
  | some x =>
    match x.rec_ with
    | none => s
    | some r => let (out, n) := recApply x.msg r; s.endRec x out r n

/-- A PG_ATOMIC or PG_REQ for this die's records: the home instance takes it, any other forwards it (R408, R414); a page out of
range is answered without a read (R405). -/
def State.takeRecord (s : State) (m : Msg) (src : Option (BitVec 3)) (ord : Nat) : State :=
  if s.home != s.inst then
    let s : State := { s with ackWait := s.ackWait + b2n (m.mtype == 0x22) }
    s.sendXpt s.home (.msg s.inst m)
  else if pidDie (recPid m) != s.die || !s.pageOk (recPid m) then
    let s := s.answerRec src (if m.mtype = 0x20 then s.pgDataMsg m 0 11 true [] else s.atomicResp m 11 0) (pgOrig m)
    match src with
    | some i => s.when (m.mtype == 0x22) (·.sendXpt i (.ack s.inst))
    | none => s
  else s.queueRec m src ord

end Sys2Proof.Machine
end

