-- ==== Sys2Proof/Machine/Far.lean ====
section
/-! DEFINITION. What a receiving instance does with the WRITEs of an operation: the writes of its memory port, and the page check of
PGCHECK (06, R241, R246, R251, R257 to R260). -/
namespace Sys2Proof.Machine

/-- The page id of a PGCHK WRITE. -/
def writePid (m : Msg) : Nat := leAt m.data 0 5

/-- The piece is written for its far operation. -/
def State.farPut (s : State) (m : Msg) (dom ord : Nat) : State :=
  let k := farKey m
  let f := s.farOp k
  let bs := writePiece m
  (s.setFar { f with wr := f.wr + writesOf (msgAddr m) bs.length }).writeMem (.far k) (some dom) ord (msgAddr m) bs m.poison

/-- A piece whose page has been checked is written, or refused with COW_REQUIRED (R259). -/
def State.farChecked (s : State) (m : Msg) (dom ord : Nat) (ok : Bool) : State :=
  if ok then s.farPut m dom ord else s.setFar ((s.farOp (farKey m)).fail 4 ord (b2n (!m.poison)))

/-- A PG_ATOMIC that this instance released before an order has not reached its record yet (R258). -/
def State.atomicBefore (s : State) (ord : Nat) : Bool :=
  s.rel.any fun r => r.msg.mtype == 0x22 && decide (r.dom < 64) && decide (r.ord < ord)

/-- The record reads that a PGCHECK still owes, once every PG_ATOMIC released here earlier is acknowledged (R258). -/
def State.startChecks (s : State) : State :=
  if s.ackWait != 0 || s.recOps.any (fun x => x.msg.mtype == 0x22) then s
  else s.each s.far fun s f0 =>
    let f := s.farOp f0.key
    s.each f.pend fun s p =>
      let pid := writePid p.1
      let f := s.farOp f0.key
      if f.reading.contains pid || s.atomicBefore p.2.2 then s
      else (s.setFar { f with reading := f.reading ++ [pid] }).read1 (.page f.key pid) (s.recordAddr pid, 8)

/-- A WRITE takes effect: its piece is written, refused, or waits for its page's record (R251, R257, R260). A poisoned one is a faulty
message, and each counts once (R267). -/
def State.takeWrite (s : State) (m : Msg) (dom ord : Nat) : State :=
  let k := farKey m
  let f := s.farOp k
  let s := s.setFar { f.fail 1 ord (b2n m.poison) with psn := f.psn || m.poison, last := f.last || bit m.arg 51 }
  let pid := writePid m
  let s :=
    if !bit m.arg 52 then s.farPut m dom ord
    else if pidDie pid != s.die || !s.pageOk pid then s.setFar ((s.farOp k).fail 3 ord (b2n (!m.poison)))
    else
      match f.pages.find? fun p => p.1 == pid with
      | some (_, ok) => s.farChecked m dom ord ok
      | none =>
        let f := s.farOp k
        (s.setFar { f with pend := f.pend ++ [(m, dom, ord)] }).startChecks
  s.farCheck k

/-- A page's record was read: 1 reference or fewer lets the operation's pieces for that page be written (R257, R258). -/
def State.pageChecked (s : State) (k : FarKey) (pid : Nat) (bs : List Byte) : State :=
  let ok := decide (recCount (BitVec.ofNat 64 (leNat bs)) ≤ 1)
  let f := s.farOp k
  let mine := f.pend.filter fun p => writePid p.1 == pid
  let s := s.setFar { f with pages := f.pages ++ [(pid, ok)], pend := f.pend.filter fun p => writePid p.1 != pid }
  (s.each mine fun s p => s.farChecked p.1 p.2.1 p.2.2 ok).farCheck k

end Sys2Proof.Machine
end

