-- ==== Sys2Proof/Machine/Formats.lean ====
section
/-! DEFINITION. Number formats and rounding: decoding, round_fp, block scaling, INT8, stochastic rounding, and binary32 arithmetic
(07, R272 to R289; 08, R350, R354). -/
namespace Sys2Proof.Machine

/-! ## Exact values -/

/-- m × 2^e in units of 2^q, as numerator and denominator. -/
def inUnits (m : Nat) (e q : Int) : Nat × Nat :=
  if q ≤ e then (m * 2 ^ (e - q).toNat, 1) else (m, 2 ^ (q - e).toNat)

/-- a / b rounded half to even. -/
def rhe (a b : Nat) : Nat :=
  let q := a / b
  let r := a % b
  if b < 2 * r ∨ (2 * r = b ∧ q % 2 = 1) then q + 1 else q

/-- a / b rounded by a 16-bit random number (R287): away from zero when it lies below the fraction's first 16 bits. -/
def rsr (a b rnd : Nat) : Nat :=
  let q := a / b
  let r := a % b
  if rnd < r * 65536 / b then q + 1 else q

/-- Half-even, or stochastic when a random number is given. -/
def rnd16 (a b : Nat) (rnd : Option Nat) : Nat :=
  match rnd with
  | none => rhe a b
  | some x => rsr a b x

/-- floor(log2(m × 2^e)) of a non-zero value. -/
def vlog2 (m : Nat) (e : Int) : Int := (Nat.log2 m : Int) + e

/-- a × 2^ea below b × 2^eb. -/
def magLt (a : Nat) (ea : Int) (b : Nat) (eb : Int) : Bool :=
  let q := min ea eb
  decide ((inUnits a ea q).1 < (inUnits b eb q).1)

/-- The exact order of two values, −0 below +0 (R304); an infinity lies beyond every finite value. -/
def valLt (x y : Val) : Bool :=
  match x, y with
  | .num n a ea, .num k b eb =>
    if n != k then n
    else if n then magLt b eb a ea else magLt a ea b eb
  | .inf n _ _, .inf k _ _ => n && !k
  | .inf n _ _, .num .. => n
  | .num .., .inf k _ _ => !k
  | _, _ => false

/-! ## Float formats (Table 7-1) -/

/-- A floating element format: widths, bias, the code of the largest finite magnitude, of infinity, and the canonical NaN. -/
structure Fp where
  eb : Nat
  mb : Nat
  bias : Nat
  maxc : Nat
  inf : Option Nat
  nan : Nat
deriving DecidableEq, Repr

/-- FP32. -/
def fp32f : Fp := ⟨8, 23, 127, 0x7F7FFFFF, some 0x7F800000, 0x7FC00000⟩
/-- BF16. -/
def bf16f : Fp := ⟨8, 7, 127, 0x7F7F, some 0x7F80, 0x7FC0⟩

/-- Element parameters of a floating FMT code; MXINT8 and INT8 are not floating. -/
def fpOf : Nat → Option Fp
  | 0x00 => some fp32f
  | 0x01 => some bf16f
  | 0x02 => some ⟨5, 10, 15, 0x7BFF, some 0x7C00, 0x7E00⟩
  | 0x03 | 0x08 => some ⟨4, 3, 7, 0x7E, none, 0x7F⟩
  | 0x04 | 0x09 => some ⟨5, 2, 15, 0x7B, some 0x7C, 0x7E⟩
  | 0x0A => some ⟨3, 2, 3, 0x1F, none, 0⟩
  | 0x0B => some ⟨2, 3, 1, 0x1F, none, 0⟩
  | 0x0C => some ⟨2, 1, 1, 0x7, none, 0⟩
  | _ => none

/-- emax_elem of R282. -/
def emaxElem : Nat → Nat
  | 0x08 => 8 | 0x09 => 15 | 0x0A => 4 | 0x0B => 2 | 0x0C => 2 | _ => 0

/-- The format carries numbers that Harvest takes: not BYTES, not U64. -/
def fmtNumeric (f : Nat) : Bool := (fpOf f).isSome || f == 0x0D || f == 0x10

/-- Smallest normal exponent. -/
def Fp.emin (p : Fp) : Int := 1 - (p.bias : Int)

/-- Mantissa and exponent of a finite magnitude code. -/
def Fp.mag (p : Fp) (c : Nat) : Nat × Int :=
  let ef := c / 2 ^ p.mb
  let mf := c % 2 ^ p.mb
  if ef = 0 then (mf, p.emin - p.mb) else (mf + 2 ^ p.mb, (ef : Int) - p.bias - p.mb)

/-- The exact value of a code; with FTZ a subnormal is a zero of its own sign (R272, R279). -/
def Fp.dec (p : Fp) (ftz : Bool) (code : Nat) : Val :=
  let neg := code / 2 ^ (p.eb + p.mb) % 2 == 1
  let c := code % 2 ^ (p.eb + p.mb)
  if c ≤ p.maxc then
    let (m, e) := p.mag c
    if ftz && c / 2 ^ p.mb == 0 then .num neg 0 e else .num neg m e
  else if p.inf = some c then let (m, e) := p.mag p.maxc; .inf neg m e
  else .nan

/-- A value times 2^k. -/
def Val.scale (k : Int) : Val → Val
  | .nan => .nan
  | .inf n m e => .inf n m (e + k)
  | .num n m e => .num n m (e + k)

/-- Magnitude code of n × 2^(e − mb) with e the exponent of its quantum, n at most 2^(mb + 1). -/
def Fp.magCode (p : Fp) (n : Nat) (e : Int) : Nat :=
  if n < 2 ^ p.mb then n
  else ((e + p.bias - 1).toNat) * 2 ^ p.mb + n

/-- round_fp (R280) with its encoding: the code, and whether it saturated. -/
def Fp.round (p : Fp) (satinf ftz : Bool) (rnd : Option Nat) (neg : Bool) (m : Nat) (e : Int) : Nat × Bool :=
  let sgnBit := if neg then 2 ^ (p.eb + p.mb) else 0
  if m = 0 then (sgnBit, false)
  else
    let ex := max (vlog2 m e) p.emin
    let (a, b) := inUnits m e (ex - p.mb)
    let c := p.magCode (rnd16 a b rnd) ex
    if p.maxc < c then (sgnBit + (if satinf then p.inf.getD p.maxc else p.maxc), true)
    else if ftz && decide (c < 2 ^ p.mb) then (sgnBit, false)
    else (sgnBit + c, false)

/-! ## Counts of a conversion (R277, R278) -/

/-- NaN inputs and saturations. -/
structure Cnt where
  nan : Nat := 0
  sat : Nat := 0
deriving DecidableEq, Repr

/-- Counts add. -/
def Cnt.add (a b : Cnt) : Cnt := { nan := a.nan + b.nan, sat := a.sat + b.sat }

/-- Options of a conversion: SATINF, FTZ. -/
structure Cvt where
  satinf : Bool
  ftz : Bool
deriving DecidableEq, Repr

/-- A value as an element of a floating format that is not MX (R277 to R281). -/
def Fp.out (p : Fp) (o : Cvt) (rnd : Option Nat) (v : Val) : Nat × Cnt :=
  match v with
  | .nan => (p.nan, { nan := 1 })
  | .inf n _ _ =>
    ((if n then 2 ^ (p.eb + p.mb) else 0) + (if o.satinf then p.inf.getD p.maxc else p.maxc), { sat := 1 })
  | .num n m e => let (c, s) := p.round o.satinf o.ftz rnd n m e; (c, { sat := b2n s })

/-- k saturated to 8 bits in two's complement, with whether it saturated. -/
def int8Sat (neg : Bool) (k : Nat) : Nat × Bool :=
  if neg then if 128 < k then (128, true) else ((256 - k) % 256, false)
  else if 127 < k then (127, true) else (k, false)

/-- A scale under which R286 states a quotient: finite and not zero. -/
def divides (scale : BitVec 32) : Bool := fld scale 30 23 != 255 && fld scale 30 0 != 0

/-- A value as INT8 of FMT 0x10 under a scale (R277, R278, R286). Under a scale that no descriptor of the format can have, which a WFMT can
bring, the quotient is free (log entry 59). -/
def int8Out (scale : BitVec 32) (v : Val) : Nat × Cnt :=
  let (sm, se) := fp32f.mag (scale.toNat % 2 ^ 31)
  match v with
  | .nan => (0, { nan := 1 })
  | .inf n _ _ => (if n then 129 else 127, { sat := 1 })
  | .num n m e =>
    let q := min e se
    let k : Int := (rhe (inUnits m e q).1 (max 1 (inUnits sm se q).1) : Nat)
    let k := if !divides scale then Config.int8Quot scale n m e else if n != bit scale 31 then -k else k
    let (c, s) := int8Sat (decide (k < 0)) k.natAbs
    (c, { sat := b2n s })

/-! ## Blocks of the MX formats (R282 to R284) -/

/-- The magnitude that R282 takes of an input. -/
def Val.magOf : Val → Nat × Int
  | .nan => (0, 0)
  | .inf _ m e => (m, e)
  | .num _ m e => (m, e)

/-- The scale exponent of a block. -/
def mxScale (f : Nat) (vs : List Val) : Int :=
  match (vs.map Val.magOf).filter (fun x => x.1 != 0) with
  | [] => -127
  | x :: xs => max (-127) (min 127 ((xs.foldl (fun a y => max a (vlog2 y.1 y.2)) (vlog2 x.1 x.2)) - emaxElem f))

/-- One element of a block under scale exponent x. -/
def mxElem (f : Nat) (o : Cvt) (x : Int) (rnd : Option Nat) (v : Val) : Nat × Cnt :=
  match fpOf f with
  | some p => p.out o rnd (v.scale (-x))
  | none =>
    match v with
    | .nan => (0, { nan := 1 })
    | .inf n _ _ => (if n then 129 else 127, { sat := 1 })
    | .num n m e =>
      let (a, b) := inUnits m (e - x) (-6)
      let (k, s) := int8Sat n (rnd16 a b rnd)
      (k, { sat := b2n s })

/-- An infinity. -/
def Val.isInf : Val → Bool
  | .inf .. => true
  | _ => false

/-- A block: element codes, scale byte, counts; one NaN makes the whole block NaN (R274, R284), and its infinite inputs count as any (R278). -/
def mxBlock (f : Nat) (o : Cvt) (rnds : List (Option Nat)) (vs : List Val) : List Nat × Nat × Cnt :=
  let nans := (vs.filter (· == Val.nan)).length
  if 0 < nans then (vs.map fun _ => 0, 255, { nan := nans, sat := (vs.filter Val.isInf).length })
  else
    let x := mxScale f vs
    let es := vs.mapIdx fun i v => mxElem f o x (rnds.getD i none) v
    (es.map (·.1), (x + 127).toNat, (es.map (·.2)).foldl Cnt.add {})

/-- Lists of 32. -/
def blocks32 {α : Type} : Nat → List α → List (List α)
  | 0, _ => []
  | fuel + 1, xs => if xs.isEmpty then [] else xs.take 32 :: blocks32 fuel (xs.drop 32)

/-- Values as elements of a format: codes, scale bytes and counts. -/
def cvtOut (f : Nat) (scale : BitVec 32) (o : Cvt) (rnds : List (Option Nat)) (vs : List Val) : List Nat × List Nat × Cnt :=
  if fmtMx f then
    let bs := (blocks32 (vs.length / 32 + 1) vs).mapIdx fun i b => mxBlock f o ((rnds.drop (32 * i)).take 32) b
    (bs.flatMap (·.1), bs.map (·.2.1), (bs.map (·.2.2)).foldl Cnt.add {})
  else
    let es := vs.mapIdx fun i v =>
      match fpOf f with
      | some p => p.out o (rnds.getD i none) v
      | none => int8Out scale v
    (es.map (·.1), [], (es.map (·.2)).foldl Cnt.add {})

/-! ## Packing (R182) -/

/-- Element codes packed at b bits each, least significant bit first. -/
def packBits (b : Nat) (cs : List Nat) : Nat := cs.foldr (fun c a => c % 2 ^ b + a * 2 ^ b) 0

/-- Codes as bytes. -/
def packBytes (b : Nat) (cs : List Nat) : List Byte := leBytes (ceilDiv (cs.length * b) 8) (packBits b cs)

/-- n codes of b bits each from bytes. -/
def unpackBits (b : Nat) : Nat → Nat → List Nat
  | 0, _ => []
  | n + 1, w => w % 2 ^ b :: unpackBits b n (w / 2 ^ b)

/-- n codes from bytes. -/
def unpackBytes (b n : Nat) (bs : List Byte) : List Nat := unpackBits b n (leNat bs)

/-- The exact value of an element code under its format, per-tensor scale and block scale byte (R272 to R275, R279). -/
def decElem (f : Nat) (scale : BitVec 32) (ftz : Bool) (sb code : Nat) : Val :=
  if fmtMx f && sb == 255 then .nan
  else
    let v := match fpOf f with
      | some p => p.dec ftz code
      | none =>
        let k := sgn 8 code
        if f = 0x0D then .num (decide (k < 0)) k.natAbs (-6)
        else
          let (m, e) := fp32f.mag (scale.toNat % 2 ^ 31)
          if fld scale 30 23 = 255 then fp32f.dec false (Config.int8Value scale k).toNat
          else .num (decide (k < 0) != bit scale 31) (k.natAbs * m) e
    if fmtMx f then v.scale ((sb : Int) - 127) else v

/-- n values from packed bytes and scale bytes. -/
def decVals (f : Nat) (scale : BitVec 32) (ftz : Bool) (n : Nat) (bs : List Byte) (scales : List Byte) : List Val :=
  (unpackBytes ((fmtBits f).getD 8) n bs).mapIdx fun i c =>
    decElem f scale ftz (scales.getD (i / 32) 0).toNat c

/-! ## Stochastic rounding (R287, R288) -/

/-- sr_mix. -/
def srMix (x : W64) : W64 :=
  let x := (x ^^^ (x >>> 31)) * 0x9A3B5C7D1E2F4A61
  let x := (x ^^^ (x >>> 29)) * 0xD6E8F2B47C193A55
  x ^^^ (x >>> 32)

/-- sr_random. -/
def srRandom (tick stream idx : Nat) : Nat :=
  let x := srMix (BitVec.ofNat 64 (tick % 2 ^ 48 + stream * 2 ^ 48))
  fld (srMix (x ^^^ BitVec.ofNat 64 (idx % 2 ^ 32))) 63 48

/-! ## Binary32 arithmetic (R350, R354, R397): codes as numbers -/

/-- Round-to-nearest-even, subnormals kept, overflow to infinity. -/
def f32Round (neg : Bool) (m : Nat) (e : Int) : Nat := (fp32f.round true false none neg m e).1

/-- A code's exact value. -/
def f32Dec (c : Nat) : Val := fp32f.dec false c

/-- The canonical NaN. -/
def f32Nan : Nat := 0x7FC00000

/-- The signed integer of a value in units of 2^q, q at most its exponent. -/
def signedIn (neg : Bool) (m : Nat) (e q : Int) : Int :=
  let a : Int := ((inUnits m e q).1 : Nat)
  if neg then -a else a

/-- A signed integer in units of 2^q, rounded; +0 for zero. -/
def f32OfInt (x : Int) (q : Int) : Nat := f32Round (decide (x < 0)) x.natAbs q

/-- Addition. -/
def f32Add (a b : Nat) : Nat :=
  match f32Dec a, f32Dec b with
  | .nan, _ | _, .nan => f32Nan
  | .inf n _ _, .inf k _ _ => if n = k then a else f32Nan
  | .inf .., _ => a
  | _, .inf .. => b
  | .num n m e, .num k m' e' =>
    let q := min e e'
    let s := signedIn n m e q + signedIn k m' e' q
    if s = 0 then (if n && k then 0x80000000 else 0) else f32OfInt s q

/-- Negation. -/
def f32Neg (a : Nat) : Nat := a ^^^ 0x80000000

/-- Multiplication. -/
def f32Mul (a b : Nat) : Nat :=
  match f32Dec a, f32Dec b with
  | .nan, _ | _, .nan => f32Nan
  | .inf n _ _, .inf k _ _ => if n = k then 0x7F800000 else 0xFF800000
  | .inf n _ _, .num k m _ | .num k m _, .inf n _ _ =>
    if m = 0 then f32Nan else if n = k then 0x7F800000 else 0xFF800000
  | .num n m e, .num k m' e' => f32Round (n != k) (m * m') (e + e')

/-- Division, correctly rounded: 64 quotient bits and a sticky bit. -/
def f32Div (a b : Nat) : Nat :=
  match f32Dec a, f32Dec b with
  | .nan, _ | _, .nan => f32Nan
  | .inf .., .inf .. => f32Nan
  | .inf n _ _, .num k _ _ => if n = k then 0x7F800000 else 0xFF800000
  | .num n _ _, .inf k _ _ => if n = k then 0 else 0x80000000
  | .num n m e, .num k m' e' =>
    if m' = 0 then (if m = 0 then f32Nan else if n = k then 0x7F800000 else 0xFF800000)
    else
      let sh := 64 + Nat.log2 m'
      let q := m * 2 ^ sh / m'
      let st := if m * 2 ^ sh % m' = 0 then 0 else 1
      f32Round (n != k) (2 * q + st) (e - e' - sh - 1)

/-- a below b, for codes that are no NaN. -/
def f32Lt (a b : Nat) : Bool :=
  match f32Dec a, f32Dec b with
  | .num _ 0 _, .num _ 0 _ => false
  | x, y => valLt x y

end Sys2Proof.Machine
end

