-- ==== Sys2Proof/Machine/Issue.lean ====
section
/-! DEFINITION. The issue of an engine instruction (format D): its checks in the order of R208, its tag, and its stall
(05, R186, R207 to R211, R221, R634). -/
namespace Sys2Proof.Machine

/-- What an engine instruction checks at issue: what it read, the descriptors it names, the die it targets, the capabilities and
profile it needs (`always`: whatever the target), the checks of its chapter with the descriptor each names, its own traps (code, INFO), and
the calibration entry whose GOFF it reads (`cal`, R299). -/
structure EngSpec where
  iss : Iss
  tds : List (Nat × Desc) := []
  target : Option Nat := none
  caps : List Nat := []
  always : List Nat := []
  profile : Nat := 1
  checks : List (Bool × Nat) := []
  own : List (Bool × Nat × Nat) := []
  cal : Option Nat := none

/-- The first descriptor that fails: Table 5-6 over each one named, then the conditions of the chapter in order. -/
def EngSpec.descFail (e : EngSpec) : Option Nat :=
  match e.tds.find? fun d => d.2.bad with
  | some d => some d.1
  | none => (e.checks.find? (·.1)).map (·.2)

/-- The profile that the formats of the named descriptors need, and the instruction. -/
def EngSpec.need (e : EngSpec) : Nat := (e.tds.map fun d => fmtProfile d.2.fmt).foldl max e.profile

/-- The checks of R208 after the reserved bits; none where they all hold. -/
def EngSpec.fail (e : EngSpec) (s : State) : Option (Nat × Nat) :=
  match s.capLack e.target e.need e.caps e.always with
  | some c => some (0x07, c)
  | none =>
    match e.descFail with
    | some n => some (0x06, n)
    | none =>
      let bad := e.own.filter (·.1)
      match bad with
      | [] => none
      | b :: _ => some (b.2.1, lowest ((bad.filter fun x => x.2.1 == b.2.1).map (·.2.2)))

/-- Offset of HV_CAL[n]. -/
def calOff (n : Nat) : Nat := 0x78000 + 8 * n

/-- GOFF of an entry, active copy. -/
def State.goff (s : State) (n : Nat) : Int := sgn 8 (s.rf (calOff n) 7 0)

/-- What the instruction takes along once its checks hold: with a calibration entry its GOFF, none where the entry is uncorrectable
(R208, R299, R504). -/
def State.readCal (s : State) (e : EngSpec) : Iss × State :=
  match e.cal with
  | none => (e.iss, s)
  | some n =>
    let (bad, s) := s.eccRead 5 (4096 + n)
    ({ e.iss with goff := if bad then none else some (s.goff n) }, s)

/-- An engine instruction of an opcode issues: it traps, takes a tag and starts, or stalls with what it read (R208, R210).
The descriptors are read with the registers, so an uncorrectable word of a named descriptor traps ECC_UNCORR before the capability check
(DESIGN CHOICE, log entry 75; R208 orders the checks but not this trap). -/
def State.engineIssue (s : State) (is : W64 → Bool) (offend : W64 → List Nat) (spec : State → W64 → EngSpec)
    (can : State → Iss → Bool) (start : State → Nat → Iss → State) : State :=
  s.issue is offend fun w s =>
    let e := spec s w
    let (ue, s) := s.descEcc (e.tds.map (·.1))
    match ue with
    | some info => s.trap 0x0A info
    | none =>
      match e.fail s with
      | some (code, info) => s.trap code info
      | none =>
        let (i, s) := s.readCal e
        match s.freeTag with
        | some t => if can s i then start s t i else s.stallOn i
        | none => s.stallOn i

/-- TDA of the word. -/
def fTda (w : W64) : Nat := fld w 39 32
/-- TDB of the word. -/
def fTdb (w : W64) : Nat := fld w 31 24

/-- Bits of OPT that shall be zero, and a TC of 3 (R634). An illegal value of an OPT field counts with the reserved bits, R208's
first check; illegal values in registers count with the instruction's own checks, the last (DESIGN CHOICE, log entry 75). -/
def offOpt (w : W64) (z : List Nat) : List Nat := z.filter (bit w ·) ++ (if fld w 1 0 = 3 then [0] else []) ++ ncBad w

/-- RA, RB and RC that shall name g0. -/
def offRegs (w : W64) : List Nat := zeros w 55 41

/-- The far die of a transfer lacks a valid TP_ROUTE entry. -/
def State.noRoute (s : State) (d : Desc) : Bool := d.die != s.die && (s.route d.die).isNone

/-- n, where 0 means the rest from a first position. -/
def countOf (n first all : Nat) : Nat := if n = 0 then all - first else n

/-- Staging units in use (R316): of reductions, merges, combines and carried tokens; `HV_STAGE` reads it. -/
def unitsOf (bytes : Nat) : Nat := ceilDiv bytes 4096

end Sys2Proof.Machine
end

