-- ==== Sys2Proof/Machine/Xfer.lean ====
section
/-! DEFINITION. How a transfer moves its rows: index lists, the page walk, the bitmaps of ZSKIP, the segments of rows, scales and
bitmaps, their pieces, and the messages and writes that carry them (06, R229 to R235, R251; 09, R365 to R370; 10, R415 to R419,
R426). -/
namespace Sys2Proof.Machine

/-! ## Option bits of Table 6-3 -/

/-- MT, of COPY. -/
def Iss.mtOn (i : Iss) : Bool := i.opcode == 0x2C && bit i.opt 4
/-- ZSKIP, of a transfer. -/
def Iss.zskip (i : Iss) : Bool := decide (0x28 ≤ i.opcode.toNat) && decide (i.opcode.toNat ≤ 0x2C) && bit i.opt 3
/-- PGCHECK, of SCATTER. -/
def Iss.pgcheck (i : Iss) : Bool := i.opcode == 0x2B && bit i.opt 2
/-- TC. -/
def Iss.tc (i : Iss) : Nat := fld i.opt 1 0
/-- The source is indexed (GATHER). -/
def Iss.isGather (i : Iss) : Bool := i.opcode == 0x2A
/-- The destination is indexed (SCATTER). -/
def Iss.isScatter (i : Iss) : Bool := i.opcode == 0x2B
/-- The instruction reads an index list. -/
def Iss.indexed (i : Iss) : Bool := i.isGather || i.isScatter

/-- n of Table 6-2, or every row of a COPY. -/
def Iss.count (i : Iss) : Nat :=
  if i.opcode = 0x2C then i.tda.rows
  else countOf i.rb.toNat i.ra.toNat (if i.indexed then i.tdc.dim0 else i.tda.rows)

/-- The rows that move when no index list names them (R229). -/
def Iss.plainMoves (i : Iss) : List (Nat × Nat) :=
  (List.range i.count).map fun k => if i.opcode = 0x2C then (k, k) else (i.ra.toNat + k, i.rc.toNat + k)

/-! ## Index lists (R230, R266) -/

/-- The row count that an index entry must stay below: that of the indexed tensor; a paged one has DIM1 × DIM2 rows too. -/
def Iss.indexedRows (i : Iss) : Nat := if i.isGather then i.tda.rows else i.tdb.rows

/-- What index position p gives: a move, nothing, or a fault. -/
inductive IdxOut where
  | move (row : Nat) | skip | range | poison
deriving DecidableEq, Repr

/-- Index entry p of the list, as read. -/
def idxEntry (i : Iss) (buf : List (Nat × Gran)) (p : Nat) : IdxOut :=
  let a := i.tdc.addr + 8 * p
  let e : W64 := BitVec.ofNat 64 (leNat (bufBytes buf a 8))
  if bufBad buf a 8 then .poison
  else if bit e 63 then .skip
  else if fld e 62 40 != 0 || decide (i.indexedRows ≤ fld e 39 0) then .range
  else .move (fld e 39 0)

/-- The operation after its index list: moves in position order, and its faults. -/
def Op.takeIndex (o : Op) : Op :=
  let i := o.iss
  let o := (List.range i.count).foldl (fun o k =>
    match idxEntry i o.buf (i.ra.toNat + k) with
    | .move r => { o with moves := o.moves ++ [if i.isGather then (r, k) else (k, r)] }
    | .skip => o
    | .range => o.fail 3 false 1
    | .poison => { o.fail 0 false 1 with psn := true }) o
  { o with buf := [] }

/-! ## Pages (R416, R418, R426) -/

/-- The paged descriptor of a transfer, if it names one. -/
def Iss.paged (i : Iss) : Option Desc := if i.tda.paged then some i.tda else if i.tdb.paged then some i.tdb else none

/-- Logical byte offset of row r in a paged tensor. -/
def Desc.rowOff (d : Desc) (r : Nat) : Nat := r / d.dim1 * d.stride2 + r % d.dim1 * d.stride1

/-- A list without repeats, ascending. -/
def sortU (xs : List Nat) : List Nat := (xs.foldl (fun m x => spPut 0 m x 1) ([] : Sp Nat)).map (·.1)

/-- The logical pages that an operation needs: those of its rows, or the range of a PGGATHER. -/
def Op.needs (o : Op) : List Nat :=
  match o.iss.paged with
  | none => []
  | some d =>
    if o.iss.opcode = 0x74 then
      (List.range (countOf o.iss.rb.toNat 0 (o.iss.tdb.dim0 - 1))).map (o.iss.ra.toNat + ·)
    else sortU (o.moves.map fun mv => d.rowOff (if o.iss.tda.paged then mv.1 else mv.2) / 65536)

/-- Address of the page table's header. -/
def Op.tableAt (o : Op) : Nat := ((o.iss.paged).map (·.addr)).getD 0

/-- Begin the walk, or an attempt of it: the header (R418). -/
def State.walkHeader (s : State) (tag : Nat) : State :=
  match s.op? tag with
  | some o => (s.setOp { o with phase := .walkHdr, buf := [] }).opRead tag o.tableAt 8
  | none => s

/-- LENGTH and VERSION of a header. -/
def hdrVersion (h : W64) : Nat := fld h 31 0
/-- LENGTH. -/
def hdrLength (h : W64) : Nat := fld h 63 32

/-- An attempt failed: retry after 16 × WALK_RETRY cc, at most twice (R418). -/
def State.walkFailed (s : State) (o : Op) (torn : State → Op → State) : State :=
  if o.attempt < 2 then
    (s.count 0x80064 15 0 1).setOp
      { o with attempt := o.attempt + 1, phase := .walkWait, retryAt := s.now + 16 * s.rf 0x80000 27 24 }
  else
    torn ((s.count 0x80064 31 16 1).faultLog o.iss.opcode.toNat o.tag 0x10 0) (o.fail 0xA false 1)

/-- One phase of the walk whose reads have returned (R418): header, the entries needed, the version again. -/
def State.walkNext (s : State) (o : Op) (done torn : State → Op → State) : State :=
  match o.phase with
  | .walkHdr =>
    let h : W64 := BitVec.ofNat 64 (leNat (bufBytes o.buf o.tableAt 8))
    if hdrVersion h % 2 = 1 then s.walkFailed o torn
    else
      let js := o.needs.filter fun j => decide (j < hdrLength h)
      let grans := sortU (js.map fun j => (o.tableAt + 8 + 8 * j) / 64)
      let s := s.setOp { o with hdr := h, phase := .walkEnt, psn := o.psn || bufBad o.buf o.tableAt 8 }
      s.each grans fun s g => s.opRead o.tag (64 * g) 64
  | .walkEnt =>
    let snap := o.needs.map fun j =>
      if j < hdrLength o.hdr then (j, BitVec.ofNat 64 (leNat (bufBytes o.buf (o.tableAt + 8 + 8 * j) 8)))
      else (j, 0xFFFFFFFFFFFFFFFF)
    let bad := o.needs.any fun j => decide (j < hdrLength o.hdr) && bufBad o.buf (o.tableAt + 8 + 8 * j) 8
    (s.setOp { o with snap := snap, phase := .walkVer, buf := [], psn := o.psn || bad }).opRead o.tag o.tableAt 4
  | .walkVer =>
    if leNat (bufBytes o.buf o.tableAt 4) = hdrVersion o.hdr then done s { o with buf := [] } else s.walkFailed o torn
  | _ => s

/-- PAGE_WALK_RETRY (R418): the next attempt of a walk whose wait is over. -/
def execPageWalkRetry (tag : Nat) (s : State) : Host.Outcome State Fault Refusal :=
  live s fun s =>
    match s.op? tag with
    | some o => if o.phase = .walkWait && decide (o.retryAt ≤ s.now) then s.walkHeader tag else s
    | none => s

/-- How a row on logical page j is served, for a source or a destination (R405, R416, R426); a VALID entry is held, and a FILLING one
is waited for. -/
def State.locate (s : State) (tag : Nat) (source : Bool) (len j : Nat) (e : W64) : PgLoc × State :=
  let pid := fld e 39 0
  let gen := fld e 63 40
  let x : PgLoc := { j := j, pid := pid, gen := gen, loc := 0, entry := 0 }
  if len ≤ j || !s.pageOk pid then ({ x with loc := 5 }, s)
  else if pidDie pid = s.die then ({ x with loc := 1 }, s)
  else
    let s := if source && s.rpcOn then s.readSet (rpcSet pid) else s
    match (if source && s.rpcOn then s.findTag pid gen else none) with
    | some t =>
      if (s.tag t).st = 2 then
        let s := (s.setTag t { s.tag t with hold := (s.tag t).hold + 1 }).touchTag t
        ({ x with loc := 2, entry := t }, s.updOp tag fun o => { o with held := o.held ++ [t] })
      else
        ({ x with loc := 3, entry := t }, { s with fills := s.fills.map fun f =>
            if f.set * 16 + f.way = t then { f with waiters := f.waiters ++ [(tag, readWaiter + j, true)] } else f })
    | none => if (s.route (pidDie pid)).isNone then ({ x with loc := 6 }, s) else (x, s)

/-- Every page of the snapshot is located. -/
def State.locateAll (s : State) (o : Op) : State :=
  s.each o.snap fun s e =>
    let (x, s) := s.locate o.tag o.iss.tda.paged (hdrLength o.hdr) e.1 e.2
    s.updOp o.tag fun o => { o with pg := o.pg ++ [x] }

/-- The located page of a row. -/
def Op.pageOf (o : Op) (d : Desc) (r : Nat) : Option PgLoc := o.pg.find? fun p => p.j == d.rowOff r / 65536

/-! ## Where rows lie -/

/-- Die and address of a row of a descriptor, with its page id when it is paged; none when the row moves nothing. -/
def State.rowLoc (s : State) (o : Op) (d : Desc) (r : Nat) : Option (Nat × Nat × Option Nat) :=
  if !d.paged then some (d.die, d.rowAddr r, none)
  else
    match o.pageOf d r with
    | none => none
    | some p =>
      let off := d.rowOff r % 65536
      if p.loc = 0 then some (pidDie p.pid, s.pageAddr p.pid + off, some p.pid)
      else if p.loc = 1 then some (s.die, s.pageAddr p.pid + off, some p.pid)
      else if p.loc = 2 ∨ p.loc = 4 then some (s.die, s.carve p.entry + off, some p.pid)
      else none

/-- The fault of a row that its page leaves out: RANGE or NO_ROUTE. -/
def Op.rowFault (o : Op) (d : Desc) (r : Nat) : Nat :=
  if !d.paged then 0
  else match o.pageOf d r with
    | none => 3
    | some p => if p.loc = 5 then 3 else if p.loc = 6 then 5 else 0

/-! ## Zero blocks (R365 to R370) -/

/-- Bytes of a 32-element block. -/
def Desc.blockBytes (d : Desc) : Nat := 4 * d.b

/-- The source's bitmap names skipped blocks. -/
def Iss.byMap (i : Iss) : Bool := i.zskip && i.tda.bmap

/-- Skipped blocks are found in the data. -/
def Iss.byData (i : Iss) : Bool := i.zskip && !i.tda.bmap

/-- Where the engine keeps the bytes of a far row that it reads to find its zero blocks: an address of its own above memory's. -/
def farAt (die a : Nat) : Nat := 2 ^ 48 * (1 + die) + a

/-- Every granule of a range is in a buffer. -/
def bufHas (buf : List (Nat × Gran)) (a n : Nat) : Bool := (List.range n).all fun i => (spFind buf ((a + i) / 64)).isSome

/-- Die and address of a source row's bytes: where they lie, or, for a far row whose zero blocks are found in its data, where the engine
holds them; none where the row moves nothing, or its bytes never came. -/
def State.srcLoc (s : State) (o : Op) (r : Nat) : Option (Nat × Nat) :=
  match s.rowLoc o o.iss.tda r with
  | none => none
  | some (die, a, _) =>
    if !o.iss.byData || die == s.die then some (die, a)
    else if bufHas o.buf (farAt die a) o.iss.tda.rowBytes then some (s.die, farAt die a) else none

/-- Block k of source row r is skipped (R366). -/
def State.skipped (s : State) (o : Op) (r k : Nat) : Bool :=
  let d := o.iss.tda
  if o.iss.byMap then
    let b := r * d.rowBlocks + k
    !bit (bufByte o.buf (d.bmapAt + b / 8)) (b % 8)
  else if o.iss.byData then
    match s.srcLoc o r with
    | some (_, a) => (bufBytes o.buf (a + k * d.blockBytes) d.blockBytes).all (· == 0)
    | none => false
  else false

/-- Runs of consecutive unskipped blocks: first block and length. -/
def blockRuns (n : Nat) (skip : Nat → Bool) : List (Nat × Nat) :=
  (List.range n).foldl (fun rs k =>
    if skip k then rs
    else match rs.getLast? with
      | some (a, l) => if a + l = k then rs.dropLast ++ [(a, l + 1)] else rs ++ [(k, 1)]
      | none => rs ++ [(k, 1)]) []

/-! ## Segments and pieces (R233, R235, R369) -/

/-- The runs of a source row: the whole row, or its unskipped blocks. -/
def State.runsOf (s : State) (o : Op) (find : Bool) (r : Nat) : List (Nat × Nat) :=
  let d := o.iss.tda
  if o.iss.zskip && (find || o.iss.byMap) then blockRuns d.rowBlocks (s.skipped o r) else [(0, d.rowBlocks)]

/-- A segment of source and destination bytes. -/
def seg (sdie saddr ddie daddr len : Nat) (pid : Option Nat) : Piece :=
  { sdie := sdie, saddr := saddr, ddie := ddie, daddr := daddr, len := len, lit := none, pid := pid, ans := false }

/-- A segment of bytes that the engine makes. -/
def litSeg (ddie daddr : Nat) (bs : List Byte) : Piece :=
  { sdie := 0, saddr := 0, ddie := ddie, daddr := daddr, len := bs.length, lit := some bs, pid := none, ans := false }

/-- Row segments of one move. -/
def State.rowSegs (s : State) (o : Op) (find : Bool) (mv : Nat × Nat) : List Piece :=
  let a := o.iss.tda
  match s.srcLoc o mv.1, s.rowLoc o o.iss.tdb mv.2 with
  | some (sd, sa), some (dd, da, pid) =>
    if !o.iss.zskip then [seg sd sa dd da a.rowBytes pid]
    else (s.runsOf o find mv.1).map fun run =>
      let off := run.1 * a.blockBytes
      seg sd (sa + off) dd (da + off) (min (run.2 * a.blockBytes) (a.rowBytes - off)) pid
  | _, _ => []

/-- Scale segments of one move (R233, R367). -/
def State.scaleSegs (s : State) (o : Op) (find : Bool) (mv : Nat × Nat) : List Piece :=
  let a := o.iss.tda
  let b := o.iss.tdb
  if !fmtMx a.fmt then []
  else (s.runsOf o find mv.1).map fun run =>
    seg a.die (a.side + mv.1 * a.rowBlocks + run.1) b.die (b.side + mv.2 * b.rowBlocks + run.1) run.2 none

/-- The destination bitmap bytes of one move, none of a row that does not move (R367). -/
def State.mapSegs (s : State) (o : Op) (mv : Nat × Nat) : List Piece :=
  let a := o.iss.tda
  let b := o.iss.tdb
  if !o.iss.zskip || (s.srcLoc o mv.1).isNone || (s.rowLoc o b mv.2).isNone then []
  else
    let bytes := (List.range (a.rowBlocks / 8)).map fun j =>
      BitVec.ofNat 8 (((List.range 8).map fun i => if s.skipped o mv.1 (8 * j + i) then 0 else 2 ^ i).sum)
    [litSeg b.die (b.bmapAt + mv.2 * b.rowBlocks / 8) bytes]

/-- All segments in order: rows, scales, bitmaps. -/
def State.segs (s : State) (o : Op) (find : Bool) : List Piece :=
  (o.moves.flatMap (s.rowSegs o find ·)) ++ (o.moves.flatMap (s.scaleSegs o find ·)) ++
    (if find then o.moves.flatMap (s.mapSegs o ·) else [])

/-- Two segments make one: contiguous at both ends, or both of the engine and contiguous at the destination. -/
def joinSeg (p q : Piece) : Option Piece :=
  if p.ddie != q.ddie || p.daddr + p.len != q.daddr || p.pid != q.pid then none
  else
    match p.lit, q.lit with
    | some a, some b => some { p with len := p.len + q.len, lit := some (a ++ b) }
    | none, none => if p.sdie = q.sdie && p.saddr + p.len = q.saddr then some { p with len := p.len + q.len } else none
    | _, _ => none

/-- Maximal contiguous segments. -/
def joinSegs : List Piece → List Piece
  | [] => []
  | p :: ps =>
    match joinSegs ps with
    | [] => [p]
    | q :: qs =>
      match joinSeg p q with
      | some r => r :: qs
      | none => p :: q :: qs

/-- Cut a segment at 4 KiB boundaries of either end and at the largest piece (R235). -/
def cutSeg (most : Nat) : Nat → Piece → List Piece
  | 0, _ => []
  | fuel + 1, p =>
    if p.len = 0 then []
    else
      let k := min (min p.len most) (4096 - p.daddr % 4096)
      let k := if p.lit.isSome then k else min k (4096 - p.saddr % 4096)
      { p with len := k, lit := p.lit.map (·.take k) } ::
        cutSeg most fuel { p with saddr := p.saddr + k, daddr := p.daddr + k, len := p.len - k, lit := p.lit.map (·.drop k) }

/-- The pieces of segments, at most `most` bytes each. -/
def cutSegs (most : Nat) (ps : List Piece) : List Piece := (joinSegs ps).flatMap fun p => cutSeg most (p.len / 512 + 4) p

/-- The pieces of a transfer. -/
def State.piecesOf (s : State) (o : Op) (find : Bool) : List Piece :=
  cutSegs (if o.iss.pgcheck then 4088 else 4096) (s.segs o find)

/-! ## Messages of pieces (R237, R238) -/

/-- The WRITE of a piece; LAST is set afterwards. -/
def State.writeMsg (s : State) (o : Op) (p : Piece) (bs : List Byte) (psn : Bool) : Msg :=
  let chk := o.iss.pgcheck
  let data := (if chk then leBytes 8 (p.pid.getD 0) else []) ++ bs
  s.mkMsg 0x01 o.iss.stream o.iss.tc p.ddie o.tag
    (bf 64 47 0 p.daddr ||| bf 64 50 48 s.inst.toNat ||| bf 64 52 52 (b2n chk)) data psn

/-- The READ_REQ of a piece. -/
def State.readMsg (s : State) (o : Op) (p : Piece) : Msg :=
  s.mkMsg 0x02 o.iss.stream o.iss.tc p.sdie o.tag
    (bf 64 47 0 p.saddr ||| bf 64 50 48 s.inst.toNat ||| bf 64 63 52 (p.len - 1)) [] false

/-- LAST on the last message of each type toward each die. -/
def markLast : List Msg → List Msg
  | [] => []
  | m :: ms =>
    let last := !ms.any fun k => k.dst == m.dst && k.mtype == m.mtype
    { m with arg := if last then setFld m.arg 51 51 1 else m.arg } :: markLast ms

/-- A piece's bytes in hand. -/
def Op.pieceBytes (o : Op) (p : Piece) : List Byte :=
  match p.lit with
  | some bs => bs
  | none => bufBytes o.buf p.saddr p.len

/-- A piece's bytes were read with an error or poison indication. -/
def Op.pieceBad (o : Op) (p : Piece) : Bool := p.lit.isNone && bufBad o.buf p.saddr p.len

/-- The messages of pieces toward far dies, in piece order. -/
def State.pieceMsgs (s : State) (o : Op) (ps : List Piece) : List Msg :=
  markLast (ps.filterMap fun p =>
    if p.lit.isNone && p.sdie != s.die then some (s.readMsg o p)
    else if p.ddie != s.die then some (s.writeMsg o p (o.pieceBytes p) (o.pieceBad p))
    else none)

/-- Send and write the pieces of an operation whose source bytes are in hand: near writes, a local page check, messages. The operation
then waits for its COMPLETIONs, answers and acknowledgements. -/
def State.sendPieces (s : State) (o : Op) (ps : List Piece) : State :=
  let ps := if o.abort then [] else ps
  let far := s.pieceMsgs o ps
  let reqs := ps.filter fun p => p.lit.isNone && p.sdie != s.die
  let near := ps.filter fun p => (p.lit.isSome || p.sdie == s.die) && p.ddie == s.die
  let bad := ps.any fun p => (p.lit.isSome || p.sdie == s.die) && o.pieceBad p
  let chk := o.iss.pgcheck
  let await := ((far.filter fun m => m.mtype == 0x01).map (·.dst.toNat) ++ (if chk && !near.isEmpty then [s.die] else [])).eraseDups
  let nlen := (near.map (·.len)).sum
  let s := s.setOp { o with msgs := far, sends := !far.isEmpty, pieces := reqs, await := await, psn := o.psn || bad, phase := .result,
                            buf := [], total := (ps.map (·.len)).sum, pos := if o.iss.tda.die = s.die then nlen else 0, held := [],
                            since := s.now }
  let s :=
    if chk then
      s.each (markLast (near.map fun p => s.writeMsg o p (o.pieceBytes p) (o.pieceBad p))) fun s m =>
        let (n, s) := s.fresh
        s.takeWrite m (1024 + o.iss.stream) n
    else s.each near fun s p => s.opWrite o.tag p.daddr (o.pieceBytes p) (o.pieceBad p)
  let s := s.each o.held (·.unhold ·)
  s.opCheck o.tag

/-! ## Phases of a transfer -/

/-- Source pieces that the near memory port reads. -/
def State.nearReads (s : State) (o : Op) : List Piece :=
  (s.piecesOf o false).filter fun p => p.lit.isNone && p.sdie == s.die && decide (p.saddr < 2 ^ 48)

/-- Destination bitmap bytes of the rows that an operation moves. -/
def Op.mapBytes (o : Op) : Nat := if o.iss.zskip then o.moves.length * (o.iss.tda.rowBlocks / 8) else 0

/-- Bytes that an operation moves as long as no zero block is known: rows, scale bytes, bitmap bytes (R263). -/
def Op.wholeBytes (o : Op) : Nat :=
  let d := o.iss.tda
  o.moves.length * (d.rowBytes + if fmtMx d.fmt then d.rowBlocks else 0) + o.mapBytes

/-- Read the near source bytes; with none to read, go on at once. Rows that their page leaves out are counted (R405, R232), and rows
read from a page by where they came from (R426). -/
def State.xferSource (s : State) (o : Op) : State :=
  let d := o.iss.tda
  let o := o.moves.foldl (fun o mv =>
    let f := if o.rowFault d mv.1 != 0 then o.rowFault d mv.1 else o.rowFault o.iss.tdb mv.2
    if f = 0 then o else o.fail f false 1) o
  let kinds := if d.paged then o.moves.filterMap fun mv => (o.pageOf d mv.1).map (·.loc) else []
  let n := fun k => (kinds.filter (· == k)).length
  let s := ((s.count32 0x80048 (n 2)).count32 0x80054 (n 4)).count32 0x8004C (n 0)
  let reads := s.nearReads o
  let s := s.setOp { o with phase := .src, total := ((s.segs o false).map (·.len)).sum + o.mapBytes }
  s.each reads fun s p => s.opRead o.tag p.saddr p.len

/-- The far rows of an operation that looks for zero blocks in their data (R366): a paged source's rows that no cache entry serves. Each
with the engine's own address for its bytes. -/
def State.farRows (s : State) (o : Op) : List Piece :=
  if !o.iss.byData then []
  else
    cutSegs 4096 (o.moves.filterMap fun mv =>
      match s.rowLoc o o.iss.tda mv.1, s.rowLoc o o.iss.tdb mv.2 with
      | some (die, a, _), some _ => if die == s.die then none else some (seg die a 16 (farAt die a) o.iss.tda.rowBytes none)
      | _, _ => none)

/-- Read the source bitmap when ZSKIP uses it: by the memory port, or by READ_REQs whose data comes to the engine (R369). Far rows without a
bitmap come to the engine in the same way, which finds their zero blocks. -/
def State.xferMap (s : State) (o : Op) : State :=
  let d := o.iss.tda
  let far := s.farRows o
  if !far.isEmpty then s.setOp { o with phase := .bmap, msgs := markLast (far.map (s.readMsg o ·)), pieces := far, since := s.now }
  else if !o.iss.byMap then s.xferSource o
  else
    let segs := o.moves.map fun mv => seg d.die (d.bmapAt + mv.1 * d.rowBlocks / 8) 16 (d.bmapAt + mv.1 * d.rowBlocks / 8) (d.rowBlocks / 8) none
    let ps := cutSegs 4096 segs
    if d.die = s.die then
      let s := s.setOp { o with phase := .bmap }
      s.each ps fun s p => s.opRead o.tag p.saddr p.len
    else
      s.setOp { o with phase := .bmap, msgs := ps.map (s.readMsg o ·), pieces := ps, since := s.now }

/-- The rows to move are known: walk the page table of a paged side first. -/
def State.xferMoves (s : State) (o : Op) : State :=
  if o.moves.isEmpty then
    if o.iss.indexed && decide (0 < o.iss.count) then (s.setOp { o with phase := .result, sends := false }).opCheck o.tag
    else s.setOp { o with phase := .result, sends := false, doneAt := some (s.now + 2) }
  else
    let o := { o with total := o.wholeBytes }
    match o.iss.paged with
    | some _ => (s.setOp o).walkHeader o.tag
    | none => s.xferMap o

/-- Skipped blocks are counted (R370). -/
def State.countSkips (s : State) (o : Op) : State :=
  if !o.iss.zskip then s
  else
    let n := o.moves.foldl (fun n mv => n + ((List.range o.iss.tda.rowBlocks).filter (s.skipped o mv.1)).length) 0
    s.count32 0x3101C n

/-- A walk that found its table torn: the operation moves no row (R418, R440). -/
def State.xferTorn (s : State) (o : Op) : State := (s.setOp { o with phase := .result, sends := false, moves := [], buf := [] }).opCheck o.tag

/-- One phase of a transfer whose reads have returned. -/
def State.xferNext (s : State) (o : Op) : State :=
  if 0 < o.rdLeft then s else
  match o.phase with
  | .index => s.xferMoves o.takeIndex
  | .walkHdr | .walkEnt | .walkVer =>
    s.walkNext o (fun s o => (s.setOp { o with phase := .run }).locateAll o) State.xferTorn
  | .run =>
    if o.pg.any (fun p => p.loc == 3) then s else s.xferMap o
  | .bmap =>
    if o.msgs.isEmpty && o.trk.isEmpty then s.xferSource { o with psn := o.psn || o.buf.any (·.2.bad) } else s
  | .src => (s.countSkips o).sendPieces o (s.piecesOf o true)
  | _ => s

/-- Phases of a transfer as long as none has to wait. -/
def State.xferGo : Nat → State → Nat → State
  | 0, s, _ => s
  | fuel + 1, s, tag =>
    match s.op? tag with
    | none => s
    | some o => if o.phase = .result then s else State.xferGo fuel (s.xferNext o) tag

/-! ## Issue of a transfer -/

/-- Multi-tick slots in use. -/
def State.mtUsed (s : State) : List Nat := s.ops.filterMap (·.mt)

/-- The free multi-tick slot that a COPY takes. -/
def State.mtFree (s : State) : Option Nat := (List.range 4).find? fun k => !s.mtUsed.contains k

/-- A transfer may issue: fewer than 64 operations not fully admitted, and a slot for a multi-tick COPY (R261, R271). -/
def canXfer (s : State) (i : Iss) : Bool := decide (s.unadmitted < 64) && (!i.mtOn || s.mtFree.isSome)

/-- A transfer takes its tag and begins: with its index list, or with its rows. Until its messages are known it counts as not fully admitted,
and no later operation of its stream passes it (R236, R271). -/
def startXfer (s : State) (tag : Nat) (i : Iss) : State :=
  let o := { newOp s tag i .index with sends := true, mt := if i.mtOn then s.mtFree else none }
  let s := s.takeTag o
  match s.op? tag with
  | none => s
  | some o =>
    if i.indexed && decide (0 < i.count) then s.opRead tag (i.tdc.addr + 8 * i.ra.toNat) (8 * i.count)
    else State.xferGo 8 (s.xferMoves { o with moves := i.plainMoves }) tag

/-- R417: a paged descriptor that its rules refuse. -/
def State.pagedBad (s : State) (d : Desc) : Bool :=
  d.paged && (d.die != s.die || d.addr % 8 != 0 || fmtMx d.fmt || d.bmap || decide (65536 < d.rowBytes) ||
    (decide (1 < d.dim1) && (decide (d.stride1 < d.rowBytes) || decide (65536 < d.stride1) || 2 ^ Nat.log2 d.stride1 != d.stride1)) ||
    (decide (1 < d.dim2) && d.stride2 % 65536 != 0))

/-- Table 6-4, with R365 and R417, in order: each condition and the descriptor it names. -/
def State.xferChecks (s : State) (i : Iss) (na nb nc : Nat) : List (Bool × Nat) :=
  let a := i.tda
  let b := i.tdb
  let c := i.tdc
  let farA := a.die != s.die
  let farB := b.die != s.die
  let op := i.opcode.toNat
  let n := i.count
  let ra := i.ra.toNat
  let rc := i.rc.toNat
  let pull := op == 0x29
  let plain := op == 0x28 || pull
  [((op == 0x28 || op == 0x2B) && farA, na), (pull && !farA && !a.paged, na),
   (op == 0x28 && !farB, nb), ((pull || op == 0x2A) && farB, nb), (op == 0x2C && farA && farB, nb),
   (s.noRoute a, na), (s.noRoute b, nb),
   (a.fmt != b.fmt || a.dim0 != b.dim0, nb),
   (plain && decide (a.rows < ra + n), na), (plain && decide (b.rows < rc + n), nb),
   (i.indexed && decide (c.dim0 < ra + n), nc),
   (i.isGather && decide (b.rows < n), nb), (i.isScatter && decide (a.rows < n), na),
   (op == 0x2C && a.rows != b.rows, nb),
   (i.indexed && (!c.v || c.fmt != 0x21 || c.die != s.die || c.paged || c.dim1 != 1 || c.dim2 != 1), nc),
   (a.tooHigh, na), (b.tooHigh, nb), (i.indexed && c.tooHigh, nc),
   (a.paged && !(pull || i.isGather), na), (b.paged && !i.isScatter, nb),
   (b.bmap && !i.zskip, nb), (i.pgcheck && !b.paged, nb),
   (i.zskip && !b.bmap, nb), (i.zskip && a.dim0 % 256 != 0, na), (i.zskip && b.dim0 % 256 != 0, nb),
   (i.zskip && farA && !a.bmap, na), (s.pagedBad a, na), (s.pagedBad b, nb)]

/-- What a transfer checks. -/
def xferSpec (s : State) (w : W64) : EngSpec :=
  let i := s.issOf w
  let x := fld i.rc 7 0
  let i := if i.indexed then { i with tdc := s.desc x } else i
  let far := if i.tda.die != s.die then some i.tda.die else if i.tdb.die != s.die then some i.tdb.die else none
  { iss := i, tds := [(fTda w, i.tda), (fTdb w, i.tdb)] ++ (if i.indexed then [(x, i.tdc)] else []), target := far,
    caps := if i.zskip then [9] else [], always := if i.pgcheck then [10] else [], profile := 0,
    checks := s.xferChecks i (fTda w) (fTdb w) x }

/-- A transfer row: bits of OPT that its opcode does not allow trap (R231). -/
def State.xfer (s : State) (op : Nat) (off : W64 → List Nat) : State :=
  s.engineIssue (opIs op) off xferSpec canXfer startXfer

/-- PUSH. -/
def execPush (s : State) : Host.Outcome State Fault Refusal :=
  live s (·.xfer 0x28 fun w => offOpt w [2, 4, 5, 6, 7, 8, 9, 10, 11])

/-- PULL. -/
def execPull (s : State) : Host.Outcome State Fault Refusal :=
  live s (·.xfer 0x29 fun w => offOpt w [2, 4, 5, 6, 7, 8, 9, 10, 11])

/-- GATHER. -/
def execGather (s : State) : Host.Outcome State Fault Refusal :=
  live s (·.xfer 0x2A fun w => offOpt w [2, 4, 5, 6, 7, 8, 9, 10, 11])

/-- SCATTER. -/
def execScatter (s : State) : Host.Outcome State Fault Refusal :=
  live s (·.xfer 0x2B fun w => offOpt w [4, 5, 6, 7, 8, 9, 10, 11])

/-- COPY: RA, RB and RC shall name g0. -/
def execCopy (s : State) : Host.Outcome State Fault Refusal :=
  live s (·.xfer 0x2C fun w => offOpt w [2, 5, 6, 7, 8, 9, 10, 11] ++ offRegs w)

/-! ## Multi-tick COPY (R263, R264) -/

/-- The operation in multi-tick slot k. -/
def State.mtOp (s : State) (k : Nat) : Option Op := s.ops.find? fun o => o.mt == some k

/-- A write of 1 to XE_MT_STAT[k].ABORT (R264): no further message is admitted, and the status is ABORTED. When WRITEs went to a sister over
the pass-through port, the cc in which the last of them has completed is free: no message tells it (log entry 32). -/
def State.mtAbort (s : State) (k : Nat) : State :=
  match s.mtOp k with
  | some o =>
    if o.abort then s
    else
      let wait := if o.msgs.isEmpty then o.await else []
      let till := if o.thru && !o.msgs.isEmpty then some (s.now + (Config.freeWord s.free).toNat) else o.doneAt
      let s : State := { s with free := s.free + 1 }
      (s.setOp { o.fail 6 false 0 with abort := true, msgs := [], pieces := [], sends := false, await := wait, doneAt := till }).opCheck o.tag
  | none => s

/-- XE_MT_STAT_ABORT. -/
def execXeMtStatAbort (k : Nat) (s : State) : Host.Outcome State Fault Refusal :=
  portCmdWf (decide (k < 4)) s (·.mtAbort k)

end Sys2Proof.Machine
end

