-- ==== Sys2Proof/Machine/Harvest.lean ====
section
/-! DEFINITION. CONVERT, and what every Harvest instruction shares: rows as values, results as pieces, counts, completions of
contributions and the staging buffer (07, R276 to R293, R316, R319). -/
namespace Sys2Proof.Machine

/-! ## Rows as values -/

/-- Bytes of row r in a buffer of granules. -/
def rowBuf (d : Desc) (buf : List (Nat × Gran)) (r : Nat) : List Byte := bufBytes buf (d.rowAddr r) d.rowBytes

/-- Scale bytes of row r. -/
def rowScales (d : Desc) (buf : List (Nat × Gran)) (r : Nat) : List Byte :=
  if fmtMx d.fmt then bufBytes buf (d.side + r * d.rowBlocks) d.rowBlocks else []

/-- The values of row r (R272 to R276, R279). -/
def rowVals (d : Desc) (ftz : Bool) (buf : List (Nat × Gran)) (r : Nat) : List Val :=
  decVals d.fmt d.scale ftz d.dim0 (rowBuf d buf r) (rowScales d buf r)

/-- Block k of row r was read with an error or poison indication, its scale byte included (R266). -/
def blockBad (d : Desc) (buf : List (Nat × Gran)) (r k : Nat) : Bool :=
  let off := k * 4 * d.b
  bufBad buf (d.rowAddr r + off) (min (4 * d.b) (d.rowBytes - off)) ||
    (fmtMx d.fmt && bufBad buf (d.side + r * d.rowBlocks + k) 1)

/-- Read rows [a, a + n) of a near descriptor with their scale bytes. -/
def State.readRows (s : State) (tag : Nat) (d : Desc) (a n : Nat) : State :=
  let rows := (List.range n).map (a + ·)
  let ps := rows.map (fun r => seg d.die (d.rowAddr r) d.die (d.rowAddr r) d.rowBytes none) ++
    (if fmtMx d.fmt then rows.map fun r =>
      seg d.die (d.side + r * d.rowBlocks) d.die (d.side + r * d.rowBlocks) d.rowBlocks none else [])
  s.each (cutSegs 4096 ps) fun s p => s.opRead tag p.saddr p.len

/-- NaN inputs and saturations are counted, and an operation records NAN_IN (R277, R278). -/
def State.hvCount (s : State) (tag : Nat) (c : Cnt) : State :=
  let s := (s.count32 0x70010 c.nan).count32 0x70014 c.sat
  s.when (decide (0 < c.nan)) (·.updOp tag fun o => o.fail 8 false 0)

/-! ## Results as pieces -/

/-- A destination byte range that is to be written poisoned. -/
def touches (bad : List (Nat × Nat)) (a n : Nat) : Bool := bad.any fun b => decide (b.1 < a + n) && decide (a < b.1 + b.2)

/-- The pieces of rows that the engine made: rows first, then scale bytes; each written poisoned where a bad range meets it. -/
def outPieces (d : Desc) (rows : List (Nat × List Byte)) (scales : List (Nat × List Byte)) (bad : List (Nat × Nat)) : List Piece :=
  let ps := cutSegs 4096 (rows.map (fun x => litSeg d.die (d.rowAddr x.1) x.2) ++
    scales.map fun x => litSeg d.die (d.side + x.1 * d.rowBlocks) x.2)
  ps.map fun p => { p with ans := touches bad p.daddr p.len }

/-- Values of rows as bytes in a descriptor's format. -/
def outRows (d : Desc) (o : Cvt) (rows : List (Nat × List Val × List (Option Nat))) :
    List (Nat × List Byte) × List (Nat × List Byte) × Cnt :=
  let xs := rows.map fun x => (x.1, cvtOut d.fmt d.scale o x.2.2 x.2.1)
  (xs.map fun x => (x.1, packBytes d.b x.2.1), if fmtMx d.fmt then xs.map fun x => (x.1, x.2.2.1.map (BitVec.ofNat 8)) else [],
    (xs.map (·.2.2.2)).foldl Cnt.add {})

/-- Send made pieces of an operation: near writes or WRITE messages; it then waits for what it sent. -/
def State.sendMade (s : State) (o : Op) (ps : List Piece) : State :=
  let far := ps.filter fun p => p.ddie != s.die
  let near := ps.filter fun p => p.ddie == s.die
  let msgs := markLast (far.map fun p => s.writeMsg o p (p.lit.getD []) p.ans)
  let s := s.setOp { o with msgs := msgs, sends := !msgs.isEmpty, await := (far.map (·.ddie)).eraseDups, phase := .result,
                            psn := o.psn || ps.any (·.ans), buf := [], since := s.now }
  (s.each near fun s p => s.opWrite o.tag p.daddr (p.lit.getD []) p.ans).opCheck o.tag

/-! ## CONVERT (R290 to R293) -/

/-- FTZ and SATINF of CONVERT. -/
def Iss.cvtOpt (i : Iss) : Cvt := { satinf := bit i.opt 3, ftz := bit i.opt 4 }

/-- Row k of a CONVERT: its values with their random numbers (R287, R288). -/
def convRow (i : Iss) (buf : List (Nat × Gran)) (k : Nat) : Nat × List Val × List (Option Nat) :=
  (i.rc.toNat + k, rowVals i.tda (bit i.opt 4) buf (i.ra.toNat + k),
    if bit i.opt 2 then (List.range i.tda.dim0).map fun e => some (srRandom i.tick i.stream (k * i.tda.dim0 + e)) else [])

/-- Destination ranges of row k whose source was bad. -/
def convBad (i : Iss) (buf : List (Nat × Gran)) (k : Nat) : List (Nat × Nat) :=
  let b := i.tdb
  let r := i.rc.toNat + k
  ((List.range i.tda.rowBlocks).filter (blockBad i.tda buf (i.ra.toNat + k))).flatMap fun j =>
    (b.rowAddr r + j * 4 * b.b, 4 * b.b) :: (if fmtMx b.fmt then [(b.side + r * b.rowBlocks + j, 1)] else [])

/-- The source of a CONVERT is in: convert and send. -/
def State.convNext (s : State) (o : Op) : State :=
  if o.phase != .src || decide (0 < o.rdLeft) then s
  else
    let i := o.iss
    let ks := List.range i.count
    let (rows, scales, c) := outRows i.tdb i.cvtOpt (ks.map (convRow i o.buf))
    let s := s.hvCount o.tag c
    s.sendMade ((s.op? o.tag).getD o) (outPieces i.tdb rows scales (ks.flatMap (convBad i o.buf)))

/-- CONVERT begins with its source rows. -/
def startConvert (s : State) (tag : Nat) (i : Iss) : State :=
  let s := s.takeTag (newOp s tag i .src)
  if i.count = 0 then s.updOp tag fun o => { o with phase := .result, doneAt := some (s.now + 2) }
  else (s.updOp tag fun o => { o with sends := i.tdb.die != s.die }).readRows tag i.tda i.ra.toNat i.count

/-- What CONVERT checks (R291, R292). -/
def convSpec (s : State) (w : W64) : EngSpec :=
  let i := s.issOf w
  let a := i.tda
  let b := i.tdb
  let na := fTda w
  let nb := fTdb w
  { iss := i, tds := [(na, a), (nb, b)], target := if b.die != s.die then some b.die else none,
    profile := if bit w 2 then 3 else 1,
    checks := [(a.die != s.die, na), (s.noRoute b, nb), (a.dim0 != b.dim0, nb),
      (decide (a.rows < i.ra.toNat + i.count), na), (decide (b.rows < i.rc.toNat + i.count), nb),
      (!fmtNumeric a.fmt, na), (!fmtNumeric b.fmt, nb), (a.paged || a.bmap, na), (b.paged || b.bmap, nb)] }

/-- The engines take an operation while the Transfer Engine holds fewer than 64 not fully admitted (R271). -/
def canConvert (s : State) (_ : Iss) : Bool := decide (s.unadmitted < 64)

/-- CONVERT. -/
def execConvert (s : State) : Host.Outcome State Fault Refusal :=
  live s (·.engineIssue (opIs 0x40) (fun w => offOpt w [5, 6, 7, 8, 9, 10, 11]) convSpec canConvert startConvert)

/-! ## Contributions -/

/-- A COMPLETION for a contribution: toward SRC_DIE on its stream and TC0, routed by TP_ROUTE, or to the sister that ORIG names
(R319, R362). -/
def State.answerContrib (s : State) (m : Msg) (orig st : Nat) (psn : Bool) (ecount : Nat) : State :=
  let c := s.mkMsg 0x05 m.stream 0 m.src.toNat m.optag.toNat (completionArg st psn ecount (BitVec.ofNat 3 orig)) [] false
  if m.src.toNat = s.die then
    if orig = s.inst.toNat then s.takeCompletion m.optag.toNat s.die st psn ecount
    else s.sendXpt (BitVec.ofNat 3 orig) (.msg s.inst c)
  else s.sendRouted c

/-- a is older than b among 8-bit tags (R310). -/
def tagOlder (a b : Nat) : Bool := let d := (b + 256 - a) % 256; decide (1 ≤ d) && decide (d ≤ 128)

/-- A released message leaves its port: its credits and buffer space return (R113). -/
def State.takeRel (s : State) (r : Rel) : State :=
  let s : State := { s with rel := s.rel.filter fun x => x.ord != r.ord }
  s.when (decide (r.dom < 64)) (·.grant r.msg)

/-- A message whose bytes are written through the memory port leaves its port; its credits return when its data has left the buffer (R113). -/
def State.takeWritten (s : State) (r : Rel) : State :=
  { s with rel := s.rel.filter (fun x => x.ord != r.ord),
           owed := if r.dom < 64 then s.owed ++ [(r.ord, r.msg)] else s.owed }

/-- Every byte of a released message has gone to the memory port: no write of it waits for its acceptance or for its data beats, nor a piece of
it for the check of its page. -/
def State.writtenOut (s : State) (ord : Nat) : Bool :=
  !(s.wrq.any fun w => w.stream.isSome && w.ord == ord && !(w.took && !s.wd.any fun b => some b.wire == w.wire)) &&
    !(s.far.any fun f => f.pend.any fun p => p.2.2 == ord)

/-- Messages whose data has left the receive buffer return their credits (R113). -/
def State.payOwed (s : State) : State :=
  let done := s.owed.filter fun o => s.writtenOut o.1
  ({ s with owed := s.owed.filter fun o => !s.writtenOut o.1 } : State).each done fun s o => s.grant o.2

/-- A message is held at its port, and its stream with it (R302); one held for a slot that is not open yet is counted once (R310). -/
def State.holdRel (s : State) (r : Rel) (count : Bool) : State :=
  let s := s.when (count && !r.held) (·.count32 0x70020 1)
  { s with rel := s.rel.map fun x => if x.ord = r.ord then { x with held := true } else x }

/-- Messages of a kind that are held, oldest first. -/
def State.heldRels (s : State) (mtype : BitVec 8) : List Rel := s.rel.filter fun r => r.held && r.msg.mtype == mtype

/-! ## Staging units (R316, R331) -/

/-- Units of a reduction. -/
def redUnits (x : Red) : Nat := if x.busy then unitsOf (8 * x.tdb.elems) + 2 else 0
/-- Units of a merge (R344). -/
def mrgUnits (x : Mrg) : Nat := if x.busy then unitsOf ((x.k + 1) * x.rows * (8 + 4 * x.d)) + 2 else 0
/-- Units of a combine (R393). -/
def cmbUnits (x : Cmb) (d : Nat) : Nat := if x.busy && x.opened then unitsOf (x.expect * 4 * d) + 2 else 0
/-- Bytes of a carried token. -/
def carriedBytes (c : Carried) : Nat := c.row.length + c.scales.length + 8 * c.route.length + 8
/-- Units of a dispatch slot's carried tokens, 4 KiB units on demand (R381). -/
def dslUnits (x : Dsl) : Nat := unitsOf ((x.carried.map carriedBytes).sum)

/-- DIM0 of the result of the operation that holds a combine slot. -/
def State.cmbDim (s : State) (x : Cmb) : Nat := ((s.op? x.tag).map (·.iss.tdb.dim0)).getD 0

/-- Units in use. -/
def State.stageUse (s : State) : Nat :=
  (s.red.map fun e => redUnits e.2).sum + (s.mrg.map fun e => mrgUnits e.2).sum +
    (s.cmb.map fun e => cmbUnits e.2 (s.cmbDim e.2)).sum + (s.dsl.map fun e => dslUnits e.2).sum

/-- HV_STAGE.PEAK follows the use. -/
def State.stagePeak (s : State) : State := s.setRf 0x70024 26 16 (max (s.rf 0x70024 26 16) s.stageUse)

/-- Units are free for a need; retired units that no spare replaces are not (R501). -/
def State.stageFree (s : State) (need : Nat) : Bool := decide (s.stageUse + need ≤ 1024)

end Sys2Proof.Machine
end

