-- ==== Sys2Proof/Machine/Fold.lean ====
section
/-! DEFINITION. FOLD: contributions and exact reduction, and the calibration table (07, R294 to R326). -/
namespace Sys2Proof.Machine

/-! ## Operands (Tables 7-4, 7-5) -/

/-- CIDX. -/
def Iss.cidx (i : Iss) : Nat := fld i.ra 15 0
/-- RID, the slot. -/
def Iss.rid (i : Iss) : Nat := fld i.ra 19 16
/-- RINST. -/
def Iss.rinst (i : Iss) : Nat := fld i.ra 22 20
/-- RTAG. -/
def Iss.rtag (i : Iss) : Nat := fld i.ra 31 24
/-- K. -/
def Iss.foldK (i : Iss) : Nat := fld i.rb 16 0
/-- GFIX. -/
def Iss.gfix (i : Iss) : Int := sgn 8 (fld i.rb 31 24)
/-- WFMT as an FMT code. -/
def Iss.wfmt (i : Iss) : Nat := if fld i.rc 5 0 = 0x3F then i.tda.fmt else fld i.rc 5 0
/-- GMODE. -/
def Iss.gmode (i : Iss) : Nat := fld i.opt 7 6
/-- OP: 0 SUM, 1 MAX, 2 MIN. -/
def Iss.foldOp (i : Iss) : Nat := fld i.opt 5 4
/-- LOCAL. -/
def Iss.isLocal (i : Iss) : Bool := bit i.opt 3
/-- FTZ and SATINF of FOLD, MERGE and COMBINE. -/
def Iss.hvOpt (i : Iss) : Cvt := { satinf := bit i.opt 8, ftz := bit i.opt 9 }

/-- Lists of at most n. -/
def chunks {α : Type} (n : Nat) : Nat → List α → List (List α)
  | 0, _ => []
  | fuel + 1, xs => if xs.isEmpty || n = 0 then [] else xs.take n :: chunks n fuel (xs.drop n)

/-! ## SEND (R308, Tables 7-6, 7-7) -/

/-- Codes, scale bytes and counts of the whole contribution in its wire format. -/
def foldWire (i : Iss) (buf : List (Nat × Gran)) : List Nat × List Nat × Cnt :=
  let xs := (List.range i.tda.rows).map fun r => cvtOut i.wfmt i.tdb.scale i.hvOpt [] (rowVals i.tda i.hvOpt.ftz buf r)
  (xs.flatMap (·.1), xs.flatMap (·.2.1), (xs.map (·.2.2)).foldl Cnt.add {})

/-- Element e was read with an error or poison indication. -/
def elemBad (d : Desc) (buf : List (Nat × Gran)) (e : Nat) : Bool := blockBad d buf (e / d.dim0) (e % d.dim0 / 32)

/-- Some element of [e, e + n) was. -/
def elemsBad (d : Desc) (buf : List (Nat × Gran)) (e n : Nat) : Bool := (List.range n).any fun j => elemBad d buf (e + j)

/-- Emax of a grid block (R300): none where it has no finite non-zero value. -/
def emaxOf (vs : List Val) : Option Int :=
  vs.foldl (fun a v =>
    match v with
    | .num _ m e => if m = 0 then a else some (max (a.getD (vlog2 m e)) (vlog2 m e))
    | _ => a) none

/-- Emax as its 16 bits. -/
def emaxCode : Option Int → Nat
  | none => 0x8000
  | some x => unsgn 16 x

/-- The Emax that 16 bits spell. -/
def emaxDec (c : Nat) : Option Int := if c = 0x8000 then none else some (sgn 16 c)

/-- ARG of HV_CONTRIB. -/
def contribArg (i : Iss) (orig : BitVec 3) (last : Bool) (ph eoff : Nat) : W64 :=
  bf 64 15 0 i.cidx ||| bf 64 19 16 i.rid ||| bf 64 22 20 i.rinst ||| bf 64 25 23 orig.toNat ||| bf 64 26 26 (b2n last) |||
    bf 64 27 27 ph ||| bf 64 33 28 i.wfmt ||| bf 64 55 34 eoff ||| bf 64 63 56 i.rtag

/-- The HV_CONTRIB messages of data chunks, each with its first element and its poison. -/
def State.contribMsgs (s : State) (tag : Nat) (i : Iss) (ph : Nat) (xs : List (Nat × List Byte × Bool)) : List Msg :=
  xs.mapIdx fun k x =>
    s.mkMsg 0x10 i.stream i.tc i.tdb.die tag (contribArg i s.inst (ph == 1 && k + 1 == xs.length) ph x.1) x.2.1 x.2.2

/-- Phase-0 data: the Emax values of every grid block, 2,048 a message. -/
def foldPhase0 (i : Iss) (buf : List (Nat × Gran)) : List (Nat × List Byte × Bool) :=
  let (codes, scales, _) := foldWire i buf
  let vs := codes.mapIdx fun e c => decElem i.wfmt i.tdb.scale i.hvOpt.ftz (scales.getD (e / 32) 0) c
  let es := (blocks32 (vs.length / 32 + 1) vs).map emaxOf
  (chunks 2048 (es.length / 2048 + 1) es).mapIdx fun k c =>
    (65536 * k, c.flatMap fun x => leBytes 2 (emaxCode x), elemsBad i.tda buf (65536 * k) (32 * c.length))

/-- Elements that one phase-1 message carries at most (Table 7-7). -/
def wireElems (f : Nat) : Nat :=
  let b := (fmtBits f).getD 8
  if fmtMx f then 32 * (4096 / (1 + 4 * b)) else 4096 * 8 / b

/-- The MX blocks of a contribution on the wire: element count, scale byte, codes. Blocks run along DIM0 (R184, R282), so with a DIM0 that is no
multiple of 32 the last block of a row is short, and it travels as its scale byte and the elements it has (log entry 59). -/
def wireBlocks (i : Iss) (buf : List (Nat × Gran)) : List (Nat × List Byte) :=
  let (codes, scales, _) := foldWire i buf
  let b := (fmtBits i.wfmt).getD 8
  let bs := (chunks i.tda.dim0 (i.tda.rows + 1) codes).flatMap fun r => blocks32 (r.length / 32 + 1) r
  bs.mapIdx fun j x => (x.length, BitVec.ofNat 8 (scales.getD j 0) :: packBytes b x)

/-- Groups of blocks with their first element, from element e on. -/
def blockMsgs (d : Desc) (buf : List (Nat × Gran)) : Nat → List (List (Nat × List Byte)) → List (Nat × List Byte × Bool)
  | _, [] => []
  | e, g :: gs =>
    let n := (g.map (·.1)).sum
    (e, g.flatMap (·.2), elemsBad d buf e n) :: blockMsgs d buf (e + n) gs

/-- Phase-1 data: packed elements, or scale byte and elements of each block. -/
def foldPhase1 (i : Iss) (buf : List (Nat × Gran)) : List (Nat × List Byte × Bool) :=
  let n := wireElems i.wfmt
  if fmtMx i.wfmt then
    let bs := wireBlocks i buf
    blockMsgs i.tda buf 0 (chunks (n / 32) (bs.length + 1) bs)
  else
    let codes := (foldWire i buf).1
    (chunks n (codes.length / max 1 n + 1) codes).mapIdx fun k c =>
      (n * k, packBytes ((fmtBits i.wfmt).getD 8) c, elemsBad i.tda buf (n * k) c.length)

/-- A pass of a SEND over its source is in: in PRE mode the first gives the Emax values, and the source is read again (R301, R308). -/
def State.foldSendNext (s : State) (o : Op) : State :=
  if o.phase != .src || decide (0 < o.rdLeft) then s
  else
    let i := o.iss
    if i.gmode = 1 && o.attempt = 0 then
      let xs := foldPhase0 i o.buf
      (s.setOp { o with msgs := s.contribMsgs o.tag i 0 xs, attempt := 1, buf := [], since := s.now,
                        psn := o.psn || xs.any (·.2.2) }).readRows o.tag i.tda 0 i.tda.rows
    else
      let xs := foldPhase1 i o.buf
      let s := s.hvCount o.tag (foldWire i o.buf).2.2
      s.updOp o.tag fun o =>
        { o with msgs := o.msgs ++ s.contribMsgs o.tag i 1 xs, phase := .result, buf := [], since := s.now, await := [i.tdb.die],
                 psn := o.psn || xs.any (·.2.2) }

/-- A SEND begins with its source rows. -/
def startFoldSend (s : State) (tag : Nat) (i : Iss) : State :=
  ((s.takeTag (newOp s tag i .src)).updOp tag fun o => { o with sends := true }).readRows tag i.tda 0 i.tda.rows

/-! ## Checks (R306, R307) -/

/-- Conditions on a descriptor that FOLD, MERGE and COMBINE take no numbers from. -/
def hvBad (d : Desc) : Bool := !fmtNumeric d.fmt || d.paged || d.bmap

/-- The target of a SEND cannot be reached, or is this instance itself. -/
def State.hvNoTarget (s : State) (d : Desc) (rinst : Nat) : Bool := s.noRoute d || (d.die == s.die && rinst == s.inst.toNat)

/-- Units that a REDUCE needs (R316). -/
def foldNeed (d : Desc) : Nat := unitsOf (8 * d.elems) + 2

/-- What FOLD checks: first the conditions of both roles, in the order of R306. -/
def foldSpec (send : Bool) (s : State) (w : W64) : EngSpec :=
  let i := s.issOf w
  let a := i.tda
  let b := i.tdb
  let na := fTda w
  let nb := fTdb w
  let useA := send || i.isLocal
  { iss := i, tds := (if useA then [(na, a)] else []) ++ [(nb, b)],
    target := if send && b.die != s.die then some b.die else none, caps := if send then [8] else [],
    profile := if send then max 1 (fmtProfile i.wfmt) else 1, cal := if !send && i.foldOp == 0 && i.gmode == 0 then some b.cal else none,
    checks :=
      [(useA && hvBad a, na), (hvBad b, nb), (useA && (a.dim0 != b.dim0 || a.rows != b.rows), nb),
       (i.gmode == 1 && b.dim0 % 32 != 0, nb)] ++
      (if send then
        [(a.die != s.die, na), (s.hvNoTarget b i.rinst, nb), (!fmtNumeric i.wfmt, na)]
      else
        [(b.die != s.die, nb), (i.isLocal && a.die != s.die, na),
         (i.foldK == 0 || decide (65536 < i.foldK) || (i.foldOp != 0 && i.gmode != 0), nb), (decide (1024 < foldNeed b), nb)]) }

/-- Reserved values of FOLD: bits [11:10], GMODE 3, OP 3, LOCAL of a SEND, and the TDA of a REDUCE without LOCAL (R207): R208's first
check (DESIGN CHOICE, log entry 75). -/
def foldOff (send : Bool) (w : W64) : List Nat :=
  offOpt w ([10, 11] ++ (if send then [3] else [])) ++ (if !send && !bit w 3 then zeros w 39 32 else []) ++
    (if fld w 7 6 = 3 then [6] else []) ++ (if fld w 5 4 = 3 then [4] else [])

/-- The word is a FOLD of a role. -/
def isFold (reduce : Bool) (w : W64) : Bool := opIs 0x41 w && bit w 2 == reduce

/-- FOLD_SEND. -/
def execFoldSend (s : State) : Host.Outcome State Fault Refusal :=
  live s (·.engineIssue (isFold false) (foldOff true) (foldSpec true) canConvert startFoldSend)

/-! ## Calibration (R299, R322, R323; Table 12-9) -/

/-- MAXEXP of an entry. -/
def State.calMax (s : State) (n : Nat) : Int := sgn 9 (s.rf (calOff n) 24 16)

/-- What one message's alignments leave in the counters of an entry, and in the tick's own record. -/
def State.calNote (s : State) (n : Nat) (mx : Option Int) (ovf ufl : Nat) : State :=
  let s := match mx with
    | some x =>
      let s : State := { s with cc := { s.cc with cal := spPut (-256) s.cc.cal n (max x (spGet (-256) s.cc.cal n)) } }
      s.setRf (calOff n) 24 16 (unsgn 9 (max x (s.calMax n)))
    | none => s
  let s := (s.count (calOff n + 4) 15 0 ovf).count (calOff n + 4) 31 16 ufl
  match s.calTick.find? fun e => e.1 == n with
  | some (_, x, sat) =>
    let e := (n, max x (mx.getD x), sat || decide (0 < ovf))
    { s with calTick := s.calTick.map fun y => if y.1 = n then e else y }
  | none =>
    if mx.isNone && ovf = 0 then s
    else { s with calTick := s.calTick ++ [(n, mx.getD (-256), decide (0 < ovf))] }

/-- The update of one entry at a Solstice (R324, R325): the new GOFF. -/
def calNext (goff hyst e : Int) (sat : Bool) : Int :=
  let t := max (-128) (min 127 (e - 37))
  if goff < t then t else if t < goff - hyst && !sat then goff - 1 else goff

/-- Step 3 of a Solstice (R324 to R326, R504): entries that the commit wrote are left alone, and the shadow follows unless software
wrote it since the last commit. `written` is what the commit applied. -/
def State.calSolstice (s : State) (written : List Nat) : State :=
  let s :=
    if !bit (s.rg 0x70004) 8 then s
    else s.each s.calTick fun s e =>
      let o := calOff e.1
      if !bit (s.rg o) 8 || e.2.1 = -256 || written.contains e.1 then s
      else
        let g := unsgn 8 (calNext (s.goff e.1) (s.rf 0x70004 3 0) e.2.1 e.2.2)
        let s := s.setRf o 7 0 g
        if s.calDirty.contains e.1 then s else s.setSh o (setFld (s.sh o) 7 0 g)
  { s with calTick := [] }

/-- A clear of one entry's counters, before any update that reaches it in the same cc (R323). -/
def State.calClear1 (s : State) (n : Nat) : State :=
  let o := calOff n + 4
  let new_ := fun hi => min 0xFFFF ((s.hits.filter fun h => h.off == o && h.hi == hi).map (·.n)).sum
  (s.setRf (calOff n) 24 16 (unsgn 9 (spGet (-256) s.cc.cal n))).setRg o (bf 32 15 0 (new_ 15) ||| bf 32 31 16 (new_ 31))

/-- A write of HV_CAL_CLR: FIRST and COUNT are stored (COUNT 0 stores 1); GO clears the range, and DONE waits for its command. -/
def State.writeCalClr (s : State) (d : W32) : State :=
  let s := (s.setRf 0x70008 24 12 (max 1 (fld d 24 12))).setRf 0x70008 11 0 (fld d 11 0)
  if !bit d 31 then s
  else
    let first := s.rf 0x70008 11 0
    let n := min (s.rf 0x70008 24 12) (4096 - first)
    let s := s.each ((List.range n).map (first + ·)) State.calClear1
    { s.setRf 0x70008 30 30 0 with calClr := some (first, n, s.now) }

/-- HV_CAL_CLR_GO. -/
def execHvCalClrGo (d : W32) (s : State) : Host.Outcome State Fault Refusal := portCmd s (·.writeCalClr d)

/-- HV_CAL_CLR_DONE: within COUNT + 16 cc of GO. -/
def execHvCalClrDone (s : State) : Host.Outcome State Fault Refusal :=
  live s fun s =>
    match s.calClr with
    | some _ => { s.setRf 0x70008 30 30 1 with calClr := none }
    | none => s

/-! ## Reductions: accumulation (R294 to R298, R300, R304) -/

/-- 2^39 − 1. -/
def gridMax : Nat := 0x7FFFFFFFFF

/-- Reduction slot r. -/
def State.redAt (s : State) (r : Nat) : Red := spGet {} s.red r

/-- The state with a reduction slot set. -/
def State.setRed (s : State) (r : Nat) (x : Red) : State := { s with red := spPut {} s.red r x }

/-- The grid exponent of element e. -/
def Red.gAt (x : Red) (e : Nat) : Int := if x.gmode = 1 then x.g.getD (e / 32) 0 else x.g.getD 0 0

/-- What an alignment counts: largest exponent, saturations, underflow losses, NaN and infinite inputs. -/
structure AlignCnt where
  mx : Option Int := none
  ovf : Nat := 0
  ufl : Nat := 0
  nan : Nat := 0
  inf : Nat := 0
deriving DecidableEq, Repr

/-- A value aligned to grid exponent g (R294, R298): the signed integer, and the counts. -/
def alignVal (g : Int) (v : Val) (c : AlignCnt) : Int × AlignCnt :=
  match v with
  | .nan => (0, { c with nan := c.nan + 1 })
  | .inf n _ _ => (if n then -(gridMax : Int) else (gridMax : Int), { c with ovf := c.ovf + 1, inf := c.inf + 1 })
  | .num n m e =>
    if m = 0 then (0, c)
    else
      let (a, b) := inUnits m e g
      let q := rhe a b
      let c := { c with mx := some (max (c.mx.getD (vlog2 m e)) (vlog2 m e)), ufl := c.ufl + b2n (q == 0),
                        ovf := c.ovf + b2n (decide (gridMax < q)) }
      let q : Int := (min q gridMax : Nat)
      (if n then -q else q, c)

/-- MAX or MIN of what an element holds and a value (R304). Of two equal infinities the one from the format of the larger finite values stays,
so that the scale that R282 takes from it does not depend on which came first (R329). -/
def pickVal (op : Nat) (best : Option Val) (v : Val) : Option Val :=
  match best, v with
  | none, _ => some v
  | some (.inf n m e), .inf k m' e' =>
    if n = k then some (if magLt m e m' e' then v else .inf n m e)
    else if op = 1 then some (if n then v else .inf n m e) else some (if k then v else .inf n m e)
  | some w, _ => if op = 1 then (if valLt w v then some v else some w) else (if valLt v w then some v else some w)

/-- One value enters its element. -/
def Red.add (x : Red) (e : Nat) (v : Val) (c : AlignCnt) : Red × AlignCnt :=
  let a := spGet {} x.acc e
  let put := fun (a : Acc) => { x with acc := spPut {} x.acc e a }
  if v = .nan then (put { a with nan := true }, { c with nan := c.nan + 1 })
  else if x.op = 0 then
    let (q, c) := alignVal (x.gAt e) v c
    (put { a with sum := a.sum + q }, c)
  else
    (put { a with best := pickVal x.op a.best v },
      match v with
      | .inf .. => { c with inf := c.inf + 1 }
      | _ => c)

/-- Values of consecutive elements enter. -/
def Red.addAll (x : Red) (e : Nat) : List Val → AlignCnt → Red × AlignCnt
  | [], c => (x, c)
  | v :: vs, c => let (x, c) := x.add e v c; x.addAll (e + 1) vs c

/-- The values of a contributor enter slot r (R294 to R298, R323): the counters of the block and of the calibration entry. -/
def State.redAdd (s : State) (r e : Nat) (vs : List Val) (psn : Bool) : State :=
  let (x, c) := (s.redAt r).addAll e vs {}
  let x := { x with poison := x.poison || psn, gsat := x.gsat || decide (0 < c.ovf), nan := x.nan || decide (0 < c.nan),
                    first := if x.first = 0 && decide (0 < c.nan) then 8 else x.first }
  let s := s.setRed r x
  let s := ((s.count32 0x70010 c.nan).count32 0x70014 c.inf).count32 0x70018 c.ovf
  if x.op = 0 && !x.calBad then s.calNote x.tdb.cal c.mx c.ovf c.ufl else s

/-! ## Reductions: results (R295, R304, R318, R321) -/

/-- The exact result of element e. -/
def Red.result (x : Red) (e : Nat) : Val :=
  let a := spGet {} x.acc e
  if a.nan then .nan
  else if x.op = 0 then .num (decide (a.sum < 0)) a.sum.natAbs (x.gAt e)
  else a.best.getD (.num false 0 0)

/-- Infinite results that their conversion counts; they were counted as inputs before (R278). -/
def infCount (vs : List Val) : Nat :=
  (vs.filter Val.isInf).length

/-- Every contributor's LAST is taken and the grid is fixed: the accumulators are converted once and written (R295, R318). -/
def State.redCheck (s : State) (r : Nat) : State :=
  let x := s.redAt r
  if !x.busy || x.converted || !x.gfinal || decide (x.done.length < x.k) then s
  else
    let d := x.tdb
    let vals := fun row => (List.range d.dim0).map fun i => x.result (row * d.dim0 + i)
    let infs := ((List.range d.rows).map fun row => infCount (vals row)).sum
    let (rows, scales, c) := outRows d { satinf := x.satinf, ftz := x.ftz } ((List.range d.rows).map fun row => (row, vals row, []))
    let (hit, s) := s.memHit 7
    let bad := x.poison || x.calBad || hit
    let s := (s.setRed r { x with converted := true }).count32 0x70014 (c.sat - infs)
    let st := if x.gsat then 7 else x.first
    match s.op? x.tag with
    | none => s
    | some o =>
      let o := { o.fail st false x.drops with psn := o.psn || bad }
      s.sendMade o ((outPieces d rows scales []).map fun p => { p with ans := bad })

/-- Phase 0 of contributor c from block b on (R301): once all K have sent theirs, the grid is final. -/
def State.redPhase0 (s : State) (r c b : Nat) (es : List (Option Int)) (psn : Bool) : State :=
  let x := s.redAt r
  let em := (es.mapIdx fun i e => (b + i, e)).foldl (fun m e =>
    match e.2 with
    | none => m
    | some v => spPut (-65536) m e.1 (max v (spGet (-65536) m e.1))) x.emax
  let p0 := spPut 0 x.p0 c (spGet 0 x.p0 c + es.length)
  let n := x.tdb.elems / 32
  let full := decide (x.k ≤ (p0.filter fun e => decide (n ≤ e.2)).length)
  let g := (List.range n).map fun j => let v := spGet (-65536) em j; if v = -65536 then 0 else v - 37
  s.setRed r { x with emax := em, p0 := p0, poison := x.poison || psn, g := if full && !x.gfinal then g else x.g, gfinal := x.gfinal || full }

/-! ## Contributions received (R309 to R315, R319) -/

/-- Faults and poison that R313 found in a contributor's messages. -/
def Red.cfOf (x : Red) (c : Nat) : Nat × Bool := ((x.cf.find? fun e => e.1 == c).map (·.2)).getD (0, false)

/-- The record of a contributor changed. -/
def Red.setCf (x : Red) (c : Nat) (v : Nat × Bool) : Red := { x with cf := x.cf.filter (fun e => e.1 != c) ++ [(c, v)] }

/-- ORIG of a contribution. -/
def contribOrig (m : Msg) : Nat := fld m.arg 25 23

/-- A stale message leaves its port (R311, R312): counted, and a dropped LAST answered. -/
def State.dropStale (s : State) (r : Rel) (last : Bool) (orig st : Nat) : State :=
  let s := (s.takeRel r).count32 0x70044 1
  s.when last (·.answerContrib r.msg orig st r.msg.poison (b2n (1 < st)))

/-- The values of MX blocks from element e of rows of d elements on; none where the bytes are not whole blocks. -/
def blockVals (f d : Nat) (ftz : Bool) : Nat → Nat → List Byte → Option (List Val)
  | 0, _, _ => some []
  | fuel + 1, e, bs =>
    if bs.isEmpty then some []
    else
      let n := min 32 (d - e % max 1 d)
      let u := 1 + ceilDiv (n * (fmtBits f).getD 8) 8
      if bs.length < u then none
      else (blockVals f d ftz fuel (e + n) (bs.drop u)).map (decVals f 0 ftz n (slice bs 1 (u - 1)) (bs.take 1) ++ ·)

/-- The values in the data of a contribution; none where it is not whole elements, or whole blocks that begin where a block begins. -/
def contribVals (x : Red) (m : Msg) : Option (List Val) :=
  let f := fld m.arg 33 28
  let e := fld m.arg 55 34
  let b := (fmtBits f).getD 8
  let n := m.data.length
  if fmtMx f then
    if e % max 1 x.tdb.dim0 % 32 != 0 then none else blockVals f x.tdb.dim0 x.ftz n e m.data
  else if n % (b / 8) != 0 then none
  else some (decVals f x.tdb.scale x.ftz (n / (b / 8)) m.data [])

/-- The Emax values of a phase-0 message. -/
def contribEmax (m : Msg) : List (Option Int) := (List.range (m.data.length / 2)).map fun j => emaxDec (leAt m.data (2 * j) 2)

/-- A message that R313 drops, of a reduction in slot r. A dropped LAST of an index below K counts as that index's LAST, so that the
reduction and the SEND complete (DEDUCED from R318 and R319). -/
def State.redFault (s : State) (r : Nat) (rel : Rel) : State :=
  let m := rel.msg
  let c := fld m.arg 15 0
  let x := s.redAt r
  let (n, p) := x.cfOf c
  let last := bit m.arg 26
  let done := if last && decide (c < x.k) && !x.done.contains c then x.done ++ [c] else x.done
  let x := { x.setCf c (n + 1, p || m.poison) with
    drops := x.drops + 1, first := if x.first = 0 then 9 else x.first, done := done }
  let s := ((s.takeRel rel).count32 0x7001C 1).setRed r x
  let s := s.when x.converted (·.updOp x.tag fun o => o.fail 9 false 1)
  (s.when last (·.answerContrib m (contribOrig m) 9 (p || m.poison) (n + 1))).redCheck r

/-- A contribution of the reduction in slot r is taken, dropped, or held for GFINAL (R302, R313, R315, R319). -/
def State.redTake (s : State) (r : Nat) (rel : Rel) : State :=
  let m := rel.msg
  let x := s.redAt r
  let c := fld m.arg 15 0
  let ph := fld m.arg 27 27
  let f := fld m.arg 33 28
  let e := fld m.arg 55 34
  let numeric := fmtNumeric f && decide (fmtProfile f ≤ s.profile)
  let off := decide (x.k ≤ c) || x.done.contains c || !numeric
  if ph = 0 then
    let es := contribEmax m
    if off || x.gmode != 1 || m.data.length % 2 != 0 || e % 32 != 0 || decide (x.tdb.elems < e + 32 * es.length) then s.redFault r rel
    else (((s.takeRel rel).setRed r (x.setCf c ((x.cfOf c).1, (x.cfOf c).2 || m.poison))).redPhase0 r c (e / 32) es m.poison).redCheck r
  else
    match (if off then none else contribVals x m) with
    | none => s.redFault r rel
    | some vs =>
      if x.tdb.elems < e + vs.length then s.redFault r rel
      else if !x.gfinal then s.holdRel rel false
      else
        let (n, p) := x.cfOf c
        let p := p || m.poison
        let last := bit m.arg 26
        let x := { x.setCf c (n, p) with done := if last then x.done ++ [c] else x.done }
        let s := ((s.takeRel rel).setRed r x).redAdd r e vs m.poison
        (s.when last (·.answerContrib m (contribOrig m) (if 0 < n then 9 else 0) p n)).redCheck r

/-- A contribution at its port: held for its slot, stale, or the slot's (R310, R311). -/
def State.contribAt (s : State) (rel : Rel) : State :=
  let m := rel.msg
  let r := fld m.arg 19 16
  let t := fld m.arg 63 56
  let x := s.redAt r
  if !x.busy || tagOlder x.rtag t then s.holdRel rel true
  else if x.rtag != t then s.dropStale rel (bit m.arg 26) (contribOrig m) 9
  else s.redTake r rel

/-- The held contributions of a slot are looked at again, oldest first. -/
def State.retryContribs (s : State) (r : Nat) : State :=
  s.each ((s.heldRels 0x10).filter fun x => fld x.msg.arg 19 16 == r) fun s x =>
    if tagOlder (s.redAt r).rtag (fld x.msg.arg 63 56) then s else s.contribAt x

/-- The first message of a kind on a stream that its port can take now: no earlier one of its order is held, or of a kind that Harvest
takes (R302). -/
def State.nextHv (s : State) (mtype : BitVec 8) (stream : Nat) : Option Rel :=
  s.rel.find? fun r => r.msg.mtype == mtype && r.msg.stream == stream &&
    !s.rel.any fun x => x.dom == r.dom && decide (x.ord < r.ord) && (x.held || isHv x.msg)

/-- A contribution, partial record or return that names another instance of the die goes there over the pass-through port (R309, R346,
R396); one for the lost twin is discarded and counted, and answered where it owes a COMPLETION (R461). -/
def State.hvForward (s : State) (rel : Rel) : Option State :=
  let m := rel.msg
  let i := rinstOf m
  if i = s.inst then none
  else if s.sisterGone && i == s.sister then
    let last := if m.mtype = 0x12 then bit m.arg 36 else bit m.arg 26
    let orig := if m.mtype = 0x12 then fld m.arg 35 33 else contribOrig m
    some (((s.takeRel rel).count32 0x90028 1).when last (·.answerContrib m orig 6 m.poison 1))
  else some ((s.takeRel rel).sendXpt i (.msg s.inst m))

/-- The local contribution: its values, and in PRE mode first its Emax values (R317). A value pass waits for GFINAL in phase `list`. -/
def State.foldRedNext (s : State) (o : Op) : State :=
  let i := o.iss
  let r := i.rid
  if decide (0 < o.rdLeft) then s
  else
    let bad := elemsBad i.tda o.buf 0 i.tda.elems
    let vals := (List.range i.tda.rows).flatMap (rowVals i.tda i.hvOpt.ftz o.buf ·)
    match o.phase with
    | .src =>
      if i.gmode = 1 && o.attempt = 0 then
        let es := (blocks32 (vals.length / 32 + 1) vals).map emaxOf
        let s := (s.setOp { o with attempt := 1, buf := [] }).readRows o.tag i.tda 0 i.tda.rows
        s.redPhase0 r i.cidx 0 es bad |>.retryContribs r
      else s.setOp { o with phase := .list }
    | .list =>
      let x := s.redAt r
      if !x.gfinal then s
      else
        let s := (s.setOp { o with phase := .run, buf := [] }).setRed r
          { x with done := if x.done.contains i.cidx then x.done else x.done ++ [i.cidx] }
        (s.redAdd r 0 vals bad).redCheck r
    | _ => s

/-- HV_CONTRIB. Taking phase 0 of the last contributor frees the messages that waited for the grid (R302). -/
def execHvContrib (stream : Nat) (s : State) : Host.Outcome State Fault Refusal :=
  liveWf (decide (stream < 64)) s fun s =>
    match s.nextHv 0x10 stream with
    | none => s
    | some rel =>
      match s.hvForward rel with
      | some s => s
      | none =>
        let r := fld rel.msg.arg 19 16
        let was := (s.redAt r).gfinal
        let s := s.contribAt rel
        if was || !(s.redAt r).gfinal then s
        else
          let s := s.retryContribs r
          match s.op? (s.redAt r).tag with
          | some o => s.foldRedNext o
          | none => s

/-! ## REDUCE (R316, R317) -/

/-- A REDUCE may issue: its slot is free, and its units (R316, R317). -/
def canReduce (s : State) (i : Iss) : Bool := decide (s.unadmitted < 64) && !(s.redAt i.rid).busy && s.stageFree (foldNeed i.tdb)

/-- A REDUCE opens its slot with the grid it read at its issue (R208, R299, Table 12-9); held messages of older tags are dropped and its own taken
(R310, R311). -/
def startReduce (s : State) (tag : Nat) (i : Iss) : State :=
  let g := if i.gmode = 2 then i.gfix else i.goff.getD 0
  let x : Red := { busy := true, tag := tag, rtag := i.rtag, gmode := i.gmode, op := i.foldOp, ftz := i.hvOpt.ftz,
                   satinf := i.hvOpt.satinf, k := i.foldK, tdb := i.tdb, g := if i.gmode = 1 then [] else [g],
                   gfinal := i.gmode != 1, calBad := i.goff.isNone }
  let s := ((s.takeTag (newOp s tag i (if i.isLocal then .src else .run))).setRed i.rid x).stagePeak
  let s := s.retryContribs i.rid
  if i.isLocal then s.readRows tag i.tda 0 i.tda.rows else s

/-- FOLD_REDUCE. -/
def execFoldReduce (s : State) : Host.Outcome State Fault Refusal :=
  live s (·.engineIssue (isFold true) (foldOff false) (foldSpec false) canReduce startReduce)

end Sys2Proof.Machine
end

