-- ==== Sys2Proof/Machine/Merge.lean ====
section
/-! DEFINITION. MERGE: partial records, the exp unit, and the fold of a group (08, R332 to R364). -/
namespace Sys2Proof.Machine

/-! ## The exp unit (R350, R351, Table 8-5) -/

/-- Square root, rounded down, found bit by bit. -/
def isqrtGo (n : Nat) : Nat → Nat → Nat
  | 0, r => r
  | b + 1, r => if (r + 2 ^ b) * (r + 2 ^ b) ≤ n then isqrtGo n b (r + 2 ^ b) else isqrtGo n b r

/-- Square root, rounded down. -/
def isqrt (n : Nat) : Nat := isqrtGo n (Nat.log2 n / 2 + 1) 0

/-- 2^(j/256) × 2^b, rounded down. -/
def root256 (j b : Nat) : Nat := Nat.repeat isqrt 8 (2 ^ (j + 256 * b))

/-- 2^(j/256) rounded to the nearest multiple of 2^(−b). -/
def pow256 (j b : Nat) : Nat := (root256 j (b + 1) + 1) / 2

/-- T32[j]: an FP32 code. -/
def t32 (j : Nat) : Nat := f32Round false (pow256 j 23) (-23)

/-- T48[j], in units of 2^−48. -/
def t48 (j : Nat) : Nat := pow256 j 48

/-- a / b rounded half to even, for a signed a. -/
def rheInt (a : Int) (b : Nat) : Int := if a < 0 then -(rhe a.natAbs b : Int) else (rhe a.natAbs b : Int)

/-- A finite FP32 code in units of 2^−149. -/
def f32Units (c : Nat) : Int :=
  match f32Dec c with
  | .num n m e => signedIn n m e (-149)
  | _ => 0

/-- EXP1: profiles 1 and 2. -/
def exp1 (mi m : Nat) : Nat :=
  let t := f32Mul (f32Add mi (f32Neg m)) 0x3FB8AA3B
  match f32Dec t with
  | .num .. =>
    let u := f32Units t
    if u ≤ -(152 * (2 ^ 149 : Nat) : Int) then 0
    else
      let k := u / ((2 ^ 149 : Nat) : Int)
      let f := (u % ((2 ^ 149 : Nat) : Int)).toNat
      let j := f / 2 ^ 141
      let r := f32Round false (f % 2 ^ 141) (-149)
      let p := f32Add (f32Mul 0x3D635847 r) 0x3E75FDF0
      let p := f32Add (f32Mul p r) 0x3F317218
      let p := f32Add (f32Mul p r) 0x3F800000
      match f32Dec (f32Mul (t32 j) p) with
      | .num _ m e => f32Round false m (e + k)
      | _ => 0
  | _ => 0

/-- EXP3: profile 3. The products carry 40, 48 and 96 fraction bits. -/
def exp3 (mi m : Nat) : Nat :=
  let t := rheInt ((f32Units mi - f32Units m) * 0x171547652B830) (2 ^ 157)
  if t ≤ -(152 * (2 ^ 40 : Nat) : Int) then 0
  else
    let k := t / ((2 ^ 40 : Nat) : Int)
    let u := (t % ((2 ^ 40 : Nat) : Int)).toNat
    let j := u / 2 ^ 32
    let r := u % 2 ^ 32
    let p := rhe (0x3D7F7BFF058B * 2 ^ 40 + r * 0xE35846B8250) (2 ^ 40)
    let p := rhe (0xB17217F7D1CF * 2 ^ 40 + r * p) (2 ^ 40)
    let p := rhe (2 ^ 88 + r * p) (2 ^ 40)
    f32Round false (t48 j * p) (k - 96)

/-! ## Folding one head (R353, R354, Table 8-6) -/

/-- −∞, the m of a masked record (R333). -/
def negInf : BitVec 32 := 0xFF800000

/-- Infinities of o count as the largest FP32. -/
def clipInf (c : Nat) : Nat := if c = 0x7F800000 then 0x7F7FFFFF else if c = 0xFF800000 then 0xFF7FFFFF else c

/-- NaN of an FP32 code. -/
def isNan32 (c : Nat) : Bool := f32Dec c == .nan

/-- A record of Table 8-6 that makes its head NaN: by a NaN, or by an invalid m or l. -/
def recNan (r : PRec) : Bool := isNan32 r.m.toNat || isNan32 r.l.toNat
/-- m = +∞, or l negative or infinite. -/
def recBad (r : PRec) : Bool :=
  r.m == 0x7F800000 || r.l == 0x7F800000 || (bit r.l 31 && fld r.l 30 0 != 0)

/-- What the fold of a head gives: all masked, NaN, or m*, l and o. -/
inductive HeadOut where
  | masked
  | nan
  | done (m l : Nat) (o : List Nat)
deriving DecidableEq, Repr

/-- Status and counts of a fold. -/
structure FoldCnt where
  nan : Nat := 0
  inf : Nat := 0
  bad : Bool := false
  allmask : Nat := 0
deriving DecidableEq, Repr

/-- The larger of two FP32 codes. -/
def f32Max (a b : Nat) : Nat := if f32Lt a b then b else a

/-- The fold of a head's unmasked records, in contributor order. Table 8-6 classifies every one of them, the elements of its valid records too
where another record makes the head NaN (R353). -/
def foldHead (e3 : Bool) (d : Nat) (rs : List PRec) (c : FoldCnt) : HeadOut × FoldCnt :=
  match rs with
  | [] => (.masked, { c with allmask := c.allmask + 1 })
  | r0 :: _ =>
    let nans := (rs.filter recNan).length
    let bads := rs.any fun r => !recNan r && recBad r
    let os := (rs.filter fun r => !recNan r && !recBad r).flatMap (·.o)
    let c := { c with nan := c.nan + nans + (os.filter (isNan32 ·.toNat)).length, bad := c.bad || bads,
                      inf := c.inf + (os.filter fun x => fld x 30 0 == 0x7F800000).length }
    if 0 < nans || bads then (.nan, c)
    else
      let mx := rs.foldl (fun a r => f32Max a r.m.toNat) r0.m.toNat
      let (l, o) := rs.foldl (fun (a : Nat × List Nat) r =>
        let w := if e3 then exp3 r.m.toNat mx else exp1 r.m.toNat mx
        (f32Add a.1 (f32Mul w (if fld r.l 30 0 = 0 then 0 else r.l.toNat)),
          a.2.mapIdx fun i y => f32Add y (f32Mul w (clipInf (r.o.getD i 0).toNat)))) (0, List.replicate d 0)
      if l = 0 ∨ l = 0x7F800000 then (.nan, { c with bad := true }) else (.done mx l o, c)

/-! ## Operands (Tables 8-1, 8-2) -/

/-- MID. -/
def Iss.mid (i : Iss) : Nat := fld i.ra 18 16
/-- K of MERGE. -/
def Iss.mrgK (i : Iss) : Nat := fld i.rb 6 0
/-- GSIZE. -/
def Iss.gsize (i : Iss) : Nat := fld i.rb 12 8
/-- OUTP. -/
def Iss.outp (i : Iss) : Bool := bit i.opt 7
/-- EMPTY. -/
def Iss.isEmpty (i : Iss) : Bool := bit i.opt 6
/-- CUTOFF, in units of 16 cc. -/
def Iss.cutoff (i : Iss) : Nat := fld i.rc 15 0

/-! ## SEND (R339 to R342) -/

/-- Read the records of a near partial descriptor: rows, and their m and l words (R332). -/
def State.readRecs (s : State) (tag : Nat) (d : Desc) : State :=
  let rows := List.range d.rows
  let ps := rows.map (fun r => seg d.die (d.rowAddr r) d.die (d.rowAddr r) d.rowBytes none) ++
    rows.map fun r => seg d.die (d.side + 8 * r) d.die (d.side + 8 * r) 8 none
  s.each (cutSegs 4096 ps) fun s p => s.opRead tag p.saddr p.len

/-- Record r as a SEND reads it in wire format f: m, l, the codes of o, and the counts of the conversion; a masked record's o is not
counted (R333). -/
def recRow (d : Desc) (f : Nat) (o : Cvt) (buf : List (Nat × Gran)) (r : Nat) : Nat × Nat × List Nat × Cnt :=
  let m := leNat (bufBytes buf (d.side + 8 * r) 4)
  let l := leNat (bufBytes buf (d.side + 8 * r + 4) 4)
  let (codes, _, c) := cvtOut f 0 o [] (rowVals d o.ftz buf r)
  (m, l, codes, if m = negInf.toNat then {} else c)

/-- Record r was read with an error or poison indication. -/
def recBadRead (d : Desc) (buf : List (Nat × Gran)) (r : Nat) : Bool :=
  bufBad buf (d.rowAddr r) d.rowBytes || bufBad buf (d.side + 8 * r) 8

/-- Runs of rows, one message each (R342). -/
def recRuns (rows gsize bytes : Nat) : List (List Nat) :=
  let n := 4096 / (gsize * bytes) * gsize
  let all := List.range rows
  if 0 < n then chunks n (rows + 1) all
  else (chunks gsize (rows + 1) all).flatMap fun g => chunks (4096 / bytes) (gsize + 1) g

/-- ARG of HV_PARTIAL (Table 8-4). -/
def partialArg (i : Iss) (orig : BitVec 3) (last empty : Bool) (roff : Nat) : W64 :=
  bf 64 15 0 i.cidx ||| bf 64 18 16 i.mid ||| bf 64 22 20 i.rinst ||| bf 64 25 23 orig.toNat ||| bf 64 26 26 (b2n last) |||
    bf 64 27 27 (b2n empty) ||| bf 64 28 28 (i.wfmt % 2) ||| bf 64 36 29 (i.tdb.dim0 - 1) ||| bf 64 40 37 (i.gsize - 1) |||
    bf 64 55 41 roff ||| bf 64 63 56 i.rtag

/-- The messages of a SEND whose records are in. -/
def State.partialMsgs (s : State) (o : Op) : List Msg :=
  let i := o.iss
  let w := if i.wfmt = 0 then 32 else 16
  let runs := recRuns i.tda.rows i.gsize (8 + i.tda.dim0 * (w / 8))
  runs.mapIdx fun k rows =>
    let data := rows.flatMap fun r =>
      let (m, l, codes, _) := recRow i.tda i.wfmt i.hvOpt o.buf r
      leBytes 4 m ++ leBytes 4 l ++ packBytes w codes
    s.mkMsg 0x11 i.stream i.tc i.tdb.die o.tag (partialArg i s.inst (k + 1 == runs.length) false (rows.headD 0)) data
      (rows.any (recBadRead i.tda o.buf ·))

/-- The records of a SEND are in: convert and send. -/
def State.mergeSendNext (s : State) (o : Op) : State :=
  if o.phase != .src || decide (0 < o.rdLeft) then s
  else
    let i := o.iss
    let msgs := s.partialMsgs o
    let c := ((List.range i.tda.rows).map fun r => (recRow i.tda i.wfmt i.hvOpt o.buf r).2.2.2).foldl Cnt.add {}
    (s.hvCount o.tag c).updOp o.tag fun o =>
      { o with msgs := msgs, phase := .result, buf := [], since := s.now, await := [i.tdb.die], psn := o.psn || msgs.any (·.poison) }

/-- A SEND begins with its records, or sends its one EMPTY message. -/
def startMergeSend (s : State) (tag : Nat) (i : Iss) : State :=
  let s := (s.takeTag (newOp s tag i .src)).updOp tag fun o => { o with sends := true }
  if i.isEmpty then
    s.updOp tag fun o =>
      { o with msgs := [s.mkMsg 0x11 i.stream i.tc i.tdb.die tag (partialArg i s.inst true true 0) [] false], phase := .result,
               since := s.now, await := [i.tdb.die] }
  else s.readRecs tag i.tda

/-! ## Checks (R337, R338, Table 8-3) -/

/-- A descriptor that R332 does not admit as partial records. -/
def notPartial (d : Desc) : Bool := !(d.fmt == 0 || d.fmt == 1) || decide (256 < d.dim0) || d.paged || d.bmap

/-- Units that a MERGE needs (R344). -/
def mergeNeed (i : Iss) : Nat := unitsOf ((i.mrgK + 1) * i.tdb.rows * (8 + 4 * i.tdb.dim0)) + 2

/-- What MERGE checks. -/
def mergeSpec (send : Bool) (s : State) (w : W64) : EngSpec :=
  let i := s.issOf w
  let a := i.tda
  let b := i.tdb
  let na := fTda w
  let nb := fTdb w
  let useA := if send then !i.isEmpty else i.isLocal
  let rows := fun (d : Desc) => (i.gsize != 0 && d.rows % i.gsize != 0) || decide (32768 < d.rows)
  let wf := fld i.rc 5 0
  { iss := i, tds := (if useA then [(na, a)] else []) ++ [(nb, b)],
    target := if send && b.die != s.die then some b.die else none, caps := if send then [8] else [],
    always := if send then [] else [8], profile := 1,
    checks :=
      [(useA && notPartial a, na), (useA && (a.dim0 != b.dim0 || a.rows != b.rows), nb), (useA && rows a, na), (rows b, nb)] ++
      (if send then
        [(useA && a.die != s.die, na), (s.hvNoTarget b i.rinst, nb)]
      else
        [(b.die != s.die, nb), (i.isLocal && a.die != s.die, na), (!i.outp && hvBad b, nb), (i.outp && notPartial b, nb),
         (decide (1024 < mergeNeed i), nb)]),
    own :=
      [(i.gsize == 0 || decide (16 < i.gsize), 0x02, 0x100 + 64 + 8)] ++
      (if send then [(!(wf == 0 || wf == 1 || wf == 0x3F), 0x02, 0x100 + 128)]
       else [(i.mrgK == 0 || decide (64 < i.mrgK), 0x02, 0x100 + 64)]) }

/-- Bits of OPT that shall be zero in a role, and the TDA of a collector without LOCAL or of an EMPTY sender (R207). -/
def mergeOff (send : Bool) (w : W64) : List Nat :=
  offOpt w ([4, 5, 10, 11] ++ (if send then [3, 7] else [6])) ++
    (if (if send then bit w 6 else !bit w 3) then zeros w 39 32 else [])

/-- The word is a MERGE of a role. -/
def isMerge (collect : Bool) (w : W64) : Bool := opIs 0x48 w && bit w 2 == collect

/-- MERGE_SEND. -/
def execMergeSend (s : State) : Host.Outcome State Fault Refusal :=
  live s (·.engineIssue (isMerge false) (mergeOff true) (mergeSpec true) canConvert startMergeSend)

/-! ## Collecting (R344 to R348, R359 to R363) -/

/-- Merge slot n. -/
def State.mrgAt (s : State) (n : Nat) : Mrg := spGet {} s.mrg n

/-- The state with a merge slot set. -/
def State.setMrg (s : State) (n : Nat) (x : Mrg) : State := { s with mrg := spPut {} s.mrg n x }

/-- The LAST of every contributor is taken. -/
def Mrg.allLast (x : Mrg) : Bool := (List.range x.k).all (x.last.contains ·)

/-- Contributor c counts as masked for row r: EMPTY, cut off, or past its LAST without a record of the row (R340, R360). -/
def Mrg.maskedAt (x : Mrg) (c r : Nat) : Bool :=
  x.masked.contains c || (x.cut && !x.last.contains c) ||
    (x.last.contains c && !x.recs.any fun e => e.1 == c && e.2.row == r)

/-- The record of contributor c for row r. -/
def Mrg.recAt (x : Mrg) (c r : Nat) : Option PRec := (x.recs.find? fun e => e.1 == c && e.2.row == r).map (·.2)

/-- Every contributor's record of row r is staged or masked. -/
def Mrg.rowReady (x : Mrg) (r : Nat) : Bool := (List.range x.k).all fun c => x.maskedAt c r || (x.recAt c r).isSome

/-- Rows of group g. -/
def Mrg.groupRows (x : Mrg) (g : Nat) : List Nat := (List.range x.gsize).map (g * x.gsize + ·)

/-- Groups of the merge. -/
def Mrg.groups (x : Mrg) : Nat := x.rows / max 1 x.gsize

/-- Unmasked records of a head in contributor order. -/
def Mrg.head (x : Mrg) (r : Nat) : List PRec :=
  (List.range x.k).filterMap fun c =>
    if x.maskedAt c r then none else (x.recAt c r).bind fun p => if p.m = negInf then none else some p

/-- STATUS of a merge (R363). -/
def Mrg.stat (x : Mrg) : Nat := if x.cut then 0xC else if x.bad then 0xB else if x.contribErr then 9 else if x.nan then 8 else 0

/-- Read requests of an operation that no longer waits for their data. -/
def State.orphanReads (s : State) (tag : Nat) : State :=
  { s with rdq := s.rdq.map fun r => if r.owner = .op tag then { r with owner := .op 0x10000 } else r }

/-- Every LAST is taken, or CUT is set, and every group is written: the merge completes once its writes are acknowledged (R361); a cut one does not
wait for the reads of its local contributor. -/
def State.mrgCheck (s : State) (n : Nat) : State :=
  let x := s.mrgAt n
  if x.busy && (x.allLast || x.cut) && x.written.length == x.groups then
    match s.op? x.tag with
    | some o =>
      if o.phase != .run && !(o.phase == .src && x.cut) then s
      else
        let s := s.when (o.phase == .src) (·.orphanReads x.tag)
        (s.setOp { o.collect x.stat x.drops with phase := .result, rdLeft := 0, psn := o.psn || !x.badRows.isEmpty }).opCheck x.tag
    | none => s
  else s

/-- FP32 results of a head as exact values for the output conversion, whose inputs FTZ takes as R279 says (R355). -/
def headVals (ftz : Bool) (d : Nat) : HeadOut → List Val
  | .masked => List.replicate d (.num false 0 0)
  | .nan => List.replicate d .nan
  | .done _ l o => o.map fun x => fp32f.dec ftz (f32Div x l)

/-- A merged record: m word, l word and o as FP32 codes (R357). -/
def headRec (d : Nat) : HeadOut → Nat × Nat × List Nat
  | .masked => (negInf.toNat, 0, List.replicate d 0)
  | .nan => (f32Nan, f32Nan, List.replicate d f32Nan)
  | .done m l o => (m, l, o)

/-- The result rows of a group, as pieces, with the saturations of the conversion; the o of a merged record is written to an FP32 TDB as it
stands (R355, R357). -/
def mergePieces (x : Mrg) (heads : List (Nat × HeadOut)) : List Piece × Nat :=
  let t := x.tdb
  let cv : Cvt := { satinf := x.satinf, ftz := x.ftz }
  let bad := (heads.filter fun h => x.badRows.contains h.1).flatMap fun h =>
    (t.rowAddr h.1, t.rowBytes) ::
      (if x.outp then [(t.side + 8 * h.1, 8)] else if fmtMx t.fmt then [(t.side + h.1 * t.rowBlocks, t.rowBlocks)] else [])
  let vals := heads.map fun h =>
    (h.1, if x.outp then (headRec x.d h.2).2.2.map f32Dec else headVals x.ftz x.d h.2, ([] : List (Option Nat)))
  let (rows, scales, c) :=
    if x.outp && t.fmt == 0 then (heads.map fun h => (h.1, packBytes 32 (headRec x.d h.2).2.2), [], {}) else outRows t cv vals
  let ps := outPieces t rows scales bad
  let ml := if x.outp then
    (cutSegs 4096 (heads.map fun h =>
      let (m, l, _) := headRec x.d h.2
      litSeg t.die (t.side + 8 * h.1) (leBytes 4 m ++ leBytes 4 l))).map fun p => { p with ans := touches bad p.daddr p.len }
    else []
  (ps ++ ml, c.sat)

/-- The fold of one group: Table 8-6's counts, the output conversion, the writes (R353 to R357, R359). -/
def State.foldGroup (s : State) (n g : Nat) : State :=
  let x := s.mrgAt n
  let (heads, c) := (x.groupRows g).foldl (fun (a : List (Nat × HeadOut) × FoldCnt) r =>
    let (h, c) := foldHead x.exp3 x.d (x.head r) a.2
    (a.1 ++ [(r, h)], c)) ([], {})
  let (hit, s) := s.memHit 7
  let x := { x with badRows := if hit then x.badRows ++ x.groupRows g else x.badRows }
  let (ps, sat) := mergePieces x heads
  let x := { x with written := x.written ++ [g], nan := x.nan || decide (0 < c.nan), bad := x.bad || c.bad,
                    allmask := x.allmask || decide (0 < c.allmask) }
  let s := (((s.setMrg n x).count32 0x70010 c.nan).count32 0x70014 (c.inf + sat)).count32 0x70028 c.allmask
  (s.each ps fun s p => s.opWrite x.tag p.daddr (p.lit.getD []) p.ans).mrgCheck n

/-- MERGE_GROUP_FOLD: a group whose records are all present or masked. -/
def execMergeGroupFold (slot group : Nat) (s : State) : Host.Outcome State Fault Refusal :=
  liveWf (decide (slot < 8)) s fun s =>
    let x := s.mrgAt slot
    if x.busy && decide (group < x.groups) && !x.written.contains group && (x.groupRows group).all x.rowReady then s.foldGroup slot group
    else s

/-- MERGE_CUTOFF (R360). -/
def execMergeCutoff (slot : Nat) (s : State) : Host.Outcome State Fault Refusal :=
  liveWf (decide (slot < 8)) s fun s =>
    let x := s.mrgAt slot
    match x.cutoffAt, s.op? x.tag with
    | some t, some o =>
      if x.busy && !x.cut && !x.allLast && decide (t ≤ s.now) then
        (s.setMrg slot { x with cut := true, lastAt := t - o.issuedAt }).mrgCheck slot
      else s
    | _, _ => s

/-- A LAST of contributor c is taken: HV_MRG_WAIT counts to it (R361). -/
def State.mrgLast (s : State) (n c : Nat) : State :=
  let x := s.mrgAt n
  if x.last.contains c || decide (x.k ≤ c) then s
  else
    let at_ := ((s.op? x.tag).map (·.issuedAt)).getD s.now
    s.setMrg n { x with last := x.last ++ [c], lastAt := s.now - at_ }

/-- Faults and poison found in a contributor's messages. -/
def Mrg.cfOf (x : Mrg) (c : Nat) : Nat × Bool := ((x.cf.find? fun e => e.1 == c).map (·.2)).getD (0, false)

/-- The record of a contributor changed. -/
def Mrg.setCf (x : Mrg) (c : Nat) (v : Nat × Bool) : Mrg := { x with cf := x.cf.filter (fun e => e.1 != c) ++ [(c, v)] }

/-- A message that R348 drops. A dropped LAST is answered (R362), and is not taken: its contributor stays without one (R360, R361). -/
def State.mrgFault (s : State) (n : Nat) (rel : Rel) : State :=
  let m := rel.msg
  let c := fld m.arg 15 0
  let x := s.mrgAt n
  let (k, p) := x.cfOf c
  let p := p || m.poison
  let last := bit m.arg 26
  let x := { x.setCf c (k + 1, p) with drops := x.drops + 1, contribErr := true }
  let s := ((s.takeRel rel).count32 0x7001C 1).setMrg n x
  let s := s.updOp x.tag fun o => if o.phase = .result then o.collect x.stat 1 else o
  (s.when last (·.answerContrib m (contribOrig m) (if x.cut then 0xC else 9) p (k + 1))).mrgCheck n

/-- Record j of a message: D elements of o, widened to FP32. -/
def partialRec (d ofmt roff : Nat) (data : List Byte) (j : Nat) : PRec :=
  let w := if ofmt = 0 then 4 else 2
  let at_ := j * (8 + d * w)
  { row := roff + j, m := BitVec.ofNat 32 (leAt data at_ 4), l := BitVec.ofNat 32 (leAt data (at_ + 4) 4),
    o := (List.range d).map fun e => BitVec.ofNat 32 (leAt data (at_ + 8 + e * w) w * (if ofmt = 0 then 1 else 65536)) }

/-- An unmasked record with a NaN, in m, l or an element. -/
def PRec.hasNan (p : PRec) : Bool := p.m != negInf && (recNan p || p.o.any (isNan32 ·.toNat))

/-- A record of a contributor replaces what was staged for its row; HV_MRG shows a NaN that was taken (Table 8-9). -/
def Mrg.stage (x : Mrg) (c : Nat) (p : PRec) : Mrg :=
  { x with nanIn := x.nanIn || p.hasNan, recs := x.recs.filter (fun e => !(e.1 == c && e.2.row == p.row)) ++ [(c, p)] }

/-- A message of the open merge in slot n: dropped under R348, or staged. No operand of MERGE names a wire width, and R358 keeps the order of
arrival out of the result: the width that an OFMT may disagree with is that of the contributor's own earlier messages (log entry 60). -/
def State.mrgTake (s : State) (n : Nat) (rel : Rel) : State :=
  let m := rel.msg
  let x := s.mrgAt n
  let a := m.arg
  let c := fld a 15 0
  let f := fld a 28 28
  let roff := fld a 55 41
  let bytes := 8 + x.d * (if f = 0 then 4 else 2)
  let k := m.data.length / bytes
  let empty := bit a 27
  let width := ((x.ofmt.find? fun e => e.1 == c).map (·.2)).getD f
  if decide (x.k ≤ c) || x.localIdx == some c || x.last.contains c || x.cut || fld a 36 29 + 1 != x.d || fld a 40 37 + 1 != x.gsize ||
      f != width || decide (x.rows < roff + k) || m.data.length % bytes != 0 ||
      (empty && (!m.data.isEmpty || x.recs.any (·.1 == c))) then s.mrgFault n rel
  else
    let (nf, p) := x.cfOf c
    let p := p || m.poison
    let x := (List.range k).foldl (fun x j => x.stage c (partialRec x.d f roff m.data j)) (x.setCf c (nf, p))
    let x := { x with ofmt := if empty then x.ofmt else x.ofmt ++ [(c, f)], masked := if empty then x.masked ++ [c] else x.masked,
                      badRows := if m.poison then x.badRows ++ (List.range k).map (roff + ·) else x.badRows }
    let s := (s.takeRel rel).setMrg n x
    if bit a 26 then ((s.mrgLast n c).answerContrib m (contribOrig m) (if 0 < nf then 9 else 0) p nf).mrgCheck n else s

/-- A partial record at its port (R346, R347). -/
def State.partialAt (s : State) (rel : Rel) : State :=
  let m := rel.msg
  let n := fld m.arg 18 16
  let t := fld m.arg 63 56
  let x := s.mrgAt n
  if !x.busy || tagOlder x.rtag t then s.holdRel rel true
  else if x.rtag != t then
    let s := (s.takeRel rel).count32 0x7002C 1
    s.when (bit m.arg 26) (·.answerContrib m (contribOrig m) 0xC m.poison 1)
  else s.mrgTake n rel

/-- HV_PARTIAL. -/
def execHvPartial (stream : Nat) (s : State) : Host.Outcome State Fault Refusal :=
  liveWf (decide (stream < 64)) s fun s =>
    match s.nextHv 0x11 stream with
    | none => s
    | some rel => (s.hvForward rel).getD (s.partialAt rel)

/-- The local contributor's records are in (R345): taken with WFMT 0x3F, without any message. -/
def State.mergeNext (s : State) (o : Op) : State :=
  let i := o.iss
  let n := i.mid
  if o.phase != .src || decide (0 < o.rdLeft) then s
  else if (s.mrgAt n).cut then (s.setOp { o with phase := .run, buf := [] }).mrgCheck n
  else
    let rows := List.range i.tda.rows
    let rs := rows.map fun r => (r, recRow i.tda i.tda.fmt i.hvOpt o.buf r)
    let bad := rows.filter (recBadRead i.tda o.buf ·)
    let widen := if i.tda.fmt = 0 then 1 else 65536
    let x := rs.foldl (fun x e =>
      x.stage i.cidx { row := e.1, m := BitVec.ofNat 32 e.2.1, l := BitVec.ofNat 32 e.2.2.1,
                       o := e.2.2.2.1.map fun c => BitVec.ofNat 32 (c * widen) }) (s.mrgAt n)
    let c := (rs.map (·.2.2.2.2)).foldl Cnt.add {}
    let x := { x with badRows := x.badRows ++ bad, nan := x.nan || decide (0 < c.nan) }
    let s := ((s.setMrg n x).count32 0x70010 c.nan).count32 0x70014 c.sat
    ((s.setOp { o with phase := .run, buf := [] }).mrgLast n i.cidx).mrgCheck n

/-- A MERGE may issue: its slot is free, and its units (R344, R345). -/
def canMerge (s : State) (i : Iss) : Bool := decide (s.unadmitted < 64) && !(s.mrgAt i.mid).busy && s.stageFree (mergeNeed i)

/-- A MERGE opens its slot; held messages of older tags are dropped and its own taken (R346, R347). -/
def startMerge (s : State) (tag : Nat) (i : Iss) : State :=
  let x : Mrg := { busy := true, tag := tag, rtag := i.rtag, k := i.mrgK, gsize := i.gsize, d := i.tdb.dim0, rows := i.tdb.rows,
                   exp3 := i.profile == 3, outp := i.outp, ftz := i.hvOpt.ftz, satinf := i.hvOpt.satinf,
                   localIdx := if i.isLocal then some i.cidx else none, tdb := i.tdb,
                   cutoffAt := if i.cutoff = 0 then none else some (i.at_ + 16 * i.cutoff) }
  let s := ((s.takeTag (newOp s tag i (if i.isLocal then .src else .run))).setMrg i.mid x).stagePeak
  let s := s.each ((s.heldRels 0x11).filter fun r => fld r.msg.arg 18 16 == i.mid) fun s r =>
    if tagOlder i.rtag (fld r.msg.arg 63 56) then s else s.partialAt r
  if i.isLocal then s.readRecs tag i.tda else s

/-- MERGE_COLLECT. -/
def execMergeCollect (s : State) : Host.Outcome State Fault Refusal :=
  live s (·.engineIssue (isMerge true) (mergeOff false) (mergeSpec false) canMerge startMerge)

end Sys2Proof.Machine
end

