-- ==== Sys2Proof/Machine/Sparse.lean ====
section
/-! DEFINITION. DISPATCH and COMBINE: the expert map, placement under capacity, the outcome table, and the fold of returns (09, R371 to
R403). -/
namespace Sys2Proof.Machine

/-! ## Expert map (R371, R372, Table 9-10) -/

/-- The active SX_MAP; an entry with an uncorrectable word acts as V 0 (Table 12-9). -/
def State.sxMap (s : State) : List W64 :=
  (List.range 16).map fun n => if s.uncorr 4 (64 + n) then 0 else s.rg64 (0x70300 + 8 * n)

/-- The reads of SX_MAP at an issue: their errors are logged (R498). -/
def State.readMap (s : State) : State := s.eccReads 4 ((List.range 16).map (64 + ·))

/-- FIRST. -/
def mapFirst (w : W64) : Nat := fld w 19 0
/-- COUNT. -/
def mapCount (w : W64) : Nat := fld w 40 20
/-- DIE. -/
def mapDie (w : W64) : Nat := fld w 51 48

/-- Valid entries. -/
def mapValid (ms : List W64) : List W64 := ms.filter (bit · 63)

/-- Die and local index of an expert; none when it is unmapped. -/
def mapFind (ms : List W64) (x : Nat) : Option (Nat × Nat) :=
  ((mapValid ms).find? fun w => decide (mapFirst w ≤ x) && decide (x < mapFirst w + mapCount w)).map fun w => (mapDie w, x - mapFirst w)

/-- The largest COUNT among valid entries (R375). -/
def mapMost (ms : List W64) : Nat := ((mapValid ms).map mapCount).foldl max 0

/-! ## Dispatch buffers (R375, R376, Table 9-3) -/

/-- Row of the n-th token that a source places with local expert e. -/
def bufRow (nsrc cap e src n : Nat) : Nat := (e * nsrc + src) * cap + n

/-- The next 64-byte boundary. -/
def up64 (a : Nat) : Nat := ceilDiv a 64 * 64

/-- Address of the count part of a dispatch buffer. -/
def countAt (d : Desc) : Nat := up64 (d.side + (if fmtMx d.fmt then d.rows * d.rowBlocks else 0))

/-- Address of the tag part. -/
def tagAt (d : Desc) (experts nsrc : Nat) : Nat := up64 (countAt d + 4 * experts * nsrc)

/-- A tag. -/
def tagWord (token k : Nat) (late : Bool) (die : Nat) (orig : BitVec 3) (dslot tick : Nat) : W64 :=
  bf 64 23 0 token ||| bf 64 26 24 k ||| bf 64 27 27 (b2n late) ||| bf 64 31 28 die ||| bf 64 34 32 orig.toNat ||| bf 64 36 35 dslot |||
    bf 64 47 40 tick

/-! ## Operands of DISPATCH (Tables 9-1, 9-2) -/

/-- First token row. -/
def Iss.tokFirst (i : Iss) : Nat := fld i.ra 23 0
/-- Token count. -/
def Iss.tokCount (i : Iss) : Nat := countOf (fld i.rb 23 0) i.tokFirst i.tda.rows
/-- DSLOT of DISPATCH. -/
def Iss.dslot (i : Iss) : Nat := fld i.rc 17 16
/-- SRC. -/
def Iss.srcIdx (i : Iss) : Nat := fld i.rc 23 18
/-- NSRC of DISPATCH. -/
def Iss.nsrc (i : Iss) : Nat := fld i.rc 30 24
/-- CAP. -/
def Iss.cap (i : Iss) : Nat := fld i.rc 47 32
/-- FTZ and SATINF of DISPATCH. -/
def Iss.dispOpt (i : Iss) : Cvt := { satinf := bit i.opt 3, ftz := bit i.opt 2 }

/-- Dispatch slot d. -/
def State.dslAt (s : State) (d : Nat) : Dsl := spGet {} s.dsl d

/-- The state with a dispatch slot set. -/
def State.setDsl (s : State) (d : Nat) (x : Dsl) : State := { s with dsl := spPut {} s.dsl d x }

/-- Combine slot d. -/
def State.cmbAt (s : State) (d : Nat) : Cmb := spGet {} s.cmb d

/-- The state with a combine slot set. -/
def State.setCmb (s : State) (d : Nat) (x : Cmb) : State := { s with cmb := spPut {} s.cmb d x }

/-! ## Placement (R379 to R384) -/

/-- A token as a DISPATCH takes it: the converted row of a carried one, or the row of an own one. -/
structure Tok where
  token : Nat
  route : List W64
  late : Bool
  carries : Nat
  held : Option Carried
deriving DecidableEq, Repr

/-- A row that is placed: its die, its row in the buffer, the routing entry, and what is written. -/
structure Placed where
  die : Nat
  row : Nat
  k : Nat
  token : Nat
  late : Bool
  data : Carried
deriving DecidableEq, Repr

/-- What placement keeps as it goes: pairs per expert, all pairs, the carried tokens not yet taken and those kept, the rows, the outcome
entries, and the statuses of dropped tokens. -/
structure Place where
  cnt : Sp Nat := []
  pairs : Nat := 0
  rest : List Carried := []
  kept : List Carried := []
  rows : List Placed := []
  outs : List TokEnt := []
  drops : List Nat := []
  conv : Cnt := {}
deriving DecidableEq, Repr

/-- Pairs of a token: entry number and routing word. -/
def pairsOf (route : List W64) : List (Nat × W64) := (route.mapIdx fun k w => (k, w)).filter fun p => !bit p.2 63

/-- KMASK. -/
def kmaskOf (route : List W64) : Nat := ((pairsOf route).map fun p => 2 ^ p.1).sum

/-- The status that drops a token by its pairs: the first offending pair decides. -/
def pairFault (ms : List W64) (route : List W64) : Option Nat :=
  (pairsOf route).findSome? fun p =>
    if fld p.2 62 20 != 0 then some 3 else if (mapFind ms (fld p.2 19 0)).isNone then some 0xE else none

/-- Counts after the pairs of a token, none where one finds no room (R380). -/
def takeRoom (cap : Nat) : List Nat → Sp Nat → Option (Sp Nat)
  | [], c => some c
  | x :: xs, c => if spGet 0 c x < cap then takeRoom cap xs (spPut 0 c x (spGet 0 c x + 1)) else none

/-- The rows that a token's pairs take, in entry order. -/
def placeRows (i : Iss) (t : Tok) (data : Carried) : List (Nat × W64) → Sp Nat → List Placed
  | [], _ => []
  | p :: ps, c =>
    let x := fld p.2 19 0
    let n := spGet 0 c x
    let (die, e) := (mapFind i.maps x).getD (0, 0)
    { die := die, row := bufRow i.nsrc i.cap e i.srcIdx n, k := p.1, token := t.token, late := t.late, data := data } ::
      placeRows i t data ps (spPut 0 c x (n + 1))

/-- The row of a token in TDB's format (R381), with the counts of its conversion. -/
def tokData (i : Iss) (buf : List (Nat × Gran)) (t : Tok) : Carried × Cnt :=
  match t.held with
  | some c => (c, {})
  | none =>
    let (codes, scales, c) := cvtOut i.tdb.fmt i.tdb.scale i.dispOpt [] (rowVals i.tda i.dispOpt.ftz buf t.token)
    ({ token := t.token, route := t.route, carries := t.carries, row := packBytes i.tdb.b codes, scales := scales.map (BitVec.ofNat 8),
       fmt := i.tdb.fmt, dim0 := i.tdb.dim0, psn := elemsBad i.tda buf (t.token * i.tda.dim0) i.tda.dim0 }, c)

/-- The outcome entry of a token. -/
def Tok.ent (t : Tok) (st : Nat) : TokEnt :=
  { token := t.token, state := st, late := t.late, carries := t.carries, kmask := kmaskOf t.route }

/-- A token is dropped with a status. -/
def Place.drop (p : Place) (t : Tok) (st : Nat) : Place := { p with outs := p.outs ++ [t.ent 3], drops := p.drops ++ [st] }

/-- One token (R379 to R383). `room` are the staging units that carried tokens of the slot may take in all. -/
def placeTok (i : Iss) (buf : List (Nat × Gran)) (pmax maxCarry room : Nat) (p : Place) (t : Tok) : Place :=
  let pairs := pairsOf t.route
  if pairs.isEmpty then { p with outs := p.outs ++ [t.ent 4] }
  else
    match pairFault i.maps t.route with
    | some st => p.drop t st
    | none =>
      let xs := pairs.map fun q => fld q.2 19 0
      match (if p.pairs + pairs.length ≤ pmax then takeRoom i.cap xs p.cnt else none) with
      | some cnt =>
        let stale := (t.held.map fun c => c.fmt != i.tdb.fmt || c.dim0 != i.tdb.dim0).getD false
        if stale then p.drop t 0xD
        else
          let (d, c) := tokData i buf t
          { p with cnt := cnt, pairs := p.pairs + pairs.length, rows := p.rows ++ placeRows i t d pairs p.cnt,
                   outs := p.outs ++ [t.ent 1], conv := p.conv.add c }
      | none =>
        if maxCarry ≤ t.carries || decide (1024 ≤ p.rest.length + p.kept.length) then p.drop t 0xD
        else
          let (d, c) := tokData i buf t
          let d := { d with carries := t.carries + 1 }
          if room < unitsOf (((p.rest ++ p.kept ++ [d]).map carriedBytes).sum) then p.drop t 0xD
          else { p with kept := p.kept ++ [d], outs := p.outs ++ [t.ent 2], conv := p.conv.add c }

/-- The carried tokens first, oldest first, then the own ones in row order (R379). -/
def placeAll (i : Iss) (buf : List (Nat × Gran)) (pmax maxCarry room : Nat) (carried : List Carried) (own : List Tok) : Place :=
  let p := carried.foldl (fun (p : Place) c =>
    placeTok i buf pmax maxCarry room { p with rest := p.rest.drop 1 }
      { token := c.token, route := c.route, late := true, carries := c.carries, held := some c }) { rest := carried }
  own.foldl (placeTok i buf pmax maxCarry room) p

/-- The routing entries of a row as read; one from a bad granule routes nothing (R266). -/
def routeOf (d : Desc) (buf : List (Nat × Gran)) (r : Nat) : List W64 :=
  (List.range d.dim0).map fun k =>
    let a := d.rowAddr r + 8 * k
    if bufBad buf a 8 then 0x8000000000000000 else BitVec.ofNat 64 (leNat (bufBytes buf a 8))

/-- The bytes of an outcome entry (Table 9-4). -/
def entWord (e : TokEnt) : W64 :=
  bf 64 23 0 e.token ||| bf 64 26 24 e.state ||| bf 64 27 27 (b2n e.late) ||| bf 64 31 28 e.carries ||| bf 64 39 32 e.kmask

/-- What a DISPATCH writes (R385, R386): rows, scale bytes, tags, the count words of its source, and its outcome table, in maximal pieces (R235);
a piece that carries bytes of a token read poisoned is poisoned. -/
def State.dispPieces (s : State) (i : Iss) (p : Place) : List Piece :=
  let d := i.tdb
  let rowOf := fun (x : Placed) => litSeg x.die (d.rowAddr x.row) x.data.row
  let scaleOf := fun (x : Placed) => litSeg x.die (d.side + x.row * d.rowBlocks) x.data.scales
  let tagOf := fun (x : Placed) => litSeg x.die (tagAt d (mapMost i.maps) i.nsrc + 8 * x.row)
    (leBytes 8 (tagWord x.token x.k x.late s.die s.inst i.dslot (i.tick % 256)).toNat)
  let made := fun (ps : List Placed) => ps.map rowOf ++ (if fmtMx d.fmt then ps.map scaleOf else []) ++ ps.map tagOf
  let bad := made (p.rows.filter (·.data.psn))
  let counts := (mapValid i.maps).flatMap fun w => (List.range (mapCount w)).map fun e =>
    litSeg (mapDie w) (countAt d + 4 * (e * i.nsrc + i.srcIdx)) (leBytes 4 (spGet 0 p.cnt (mapFirst w + e)))
  let head : W64 := bf 64 23 0 p.outs.length ||| bf 64 47 24 p.pairs ||| bf 64 55 48 (i.tick % 256)
  let table := litSeg s.die i.tdd.addr (leBytes 8 head.toNat ++ p.outs.flatMap fun e => leBytes 8 (entWord e).toNat)
  (cutSegs 4096 (made p.rows ++ counts ++ [table])).map fun q =>
    { q with ans := touches ((bad.filter fun b => b.ddie == q.ddie).map fun b => (b.daddr, b.len)) q.daddr q.len }

/-- The routing and token rows are in: place, convert, write (R379 to R387). -/
def State.dispNext (s : State) (o : Op) : State :=
  if o.phase != .index || decide (0 < o.rdLeft) then s
  else
    let i := o.iss
    let x := s.dslAt i.dslot
    let d := max 1 i.tda.dim0
    let most := 1022 * 1024 / d
    let lim := s.rf (0x70380 + 0x10 * i.dslot) 19 0
    let pmax := if lim = 0 then most else min lim most
    let own : List Tok := (List.range i.tokCount).map fun n =>
      { token := i.tokFirst + n, route := routeOf i.tdc o.buf (i.tokFirst + n), late := false, carries := 0, held := none }
    let room := 1024 - (s.stageUse - dslUnits x)
    let p := placeAll i o.buf pmax (s.rf 0x70034 3 0) room x.carried own
    let is := fun n => (p.outs.filter fun e => e.state == n).length
    let x := { x with carried := p.kept, placed := is 1, ncarried := is 2, dropped := is 3,
                      late := (p.outs.filter fun e => e.state == 1 && e.late).length }
    let badRoute := (List.range i.tokCount).any fun n =>
      bufBad o.buf (i.tdc.rowAddr (i.tokFirst + n)) (8 * i.tdc.dim0)
    let o := p.drops.foldl (fun (o : Op) st => o.fail st false 1) o
    let s := ((s.setOp { o with psn := o.psn || badRoute }).setDsl i.dslot x).stagePeak.hvCount o.tag p.conv
    s.sendMade ((s.op? o.tag).getD o) (s.dispPieces i p)

/-- A DISPATCH may issue: its slot holds no incomplete one (R378). -/
def canDispatch (s : State) (i : Iss) : Bool := !(s.dslAt i.dslot).busy && decide (s.unadmitted < 64)

/-- A DISPATCH reads its routing rows and its token rows; with no own token it goes on at once (Table 9-1). -/
def startDispatch (s : State) (tag : Nat) (i : Iss) : State :=
  let s := (s.readMap.takeTag (newOp s tag i .index)).updOp tag fun o => { o with sends := true }
  let s := s.setDsl i.dslot { s.dslAt i.dslot with busy := true, tag := tag, placed := 0, late := 0, ncarried := 0, dropped := 0 }
  let s := s.each ((List.range i.tokCount).map (i.tokFirst + ·)) fun s r => s.opRead tag (i.tdc.rowAddr r) (8 * i.tdc.dim0)
  let s := s.readRows tag i.tda i.tokFirst i.tokCount
  match s.op? tag with
  | some o => s.dispNext o
  | none => s

/-- A routing or outcome descriptor that R377 refuses. -/
def State.notU64 (s : State) (d : Desc) : Bool := d.die != s.die || d.fmt != 0x21 || d.paged || d.dim2 != 1

/-- What DISPATCH checks (R377). -/
def dispSpec (s : State) (w : W64) : EngSpec :=
  let i := s.issOf w
  let nc := fld i.rc 7 0
  let nd := fld i.rc 15 8
  let i := { i with tdc := s.desc nc, tdd := s.desc nd, maps := s.sxMap }
  let a := i.tda
  let b := i.tdb
  let na := fTda w
  let nb := fTdb w
  let dies := (mapValid i.maps).map mapDie
  { iss := i, tds := [(na, a), (nb, b), (nc, i.tdc), (nd, i.tdd)], target := dies.find? s.ownLink, caps := [9], profile := 1,
    checks :=
      [(a.die != s.die, na), (hvBad a, na), (hvBad b, nb), (a.dim0 != b.dim0, nb), (decide (a.rows < i.tokFirst + i.tokCount), na),
       (s.notU64 i.tdc, nc), (s.notU64 i.tdd, nd), (decide (i.tdc.rows < a.rows) || decide (8 < i.tdc.dim0), nc),
       (i.tdd.dim1 != 1 || decide (i.tdd.dim0 < i.tokCount + 1025), nd), (decide (b.rows < mapMost i.maps * i.nsrc * i.cap), nb),
       (dies.any fun d => d != s.die && (s.route d).isNone, nb)],
    own := [(i.nsrc == 0 || decide (64 < i.nsrc), 0x02, 0x100 + 128 + 24), (decide (i.nsrc ≤ i.srcIdx), 0x02, 0x100 + 128 + 18),
            (i.cap == 0, 0x02, 0x100 + 128 + 32)] }

/-- DISPATCH. -/
def execDispatch (s : State) : Host.Outcome State Fault Refusal :=
  live s (·.engineIssue (opIs 0x60) (fun w => offOpt w [4, 5, 6, 7, 8, 9, 10, 11]) dispSpec canDispatch startDispatch)

/-- A write of 1 to SX_DSLOT.FLUSH (R384). -/
def State.flushDslot (s : State) (d : Nat) : State :=
  let x := s.dslAt d
  if x.busy then s.setDsl d { x with flush := true }
  else (s.count32 0x7003C x.carried.length).setDsl d { x with carried := [] }

/-- SX_DSLOT_FLUSH. -/
def execSxDslotFlush (k : Nat) (s : State) : Host.Outcome State Fault Refusal := portCmdWf (decide (k < 4)) s (·.flushDslot k)

/-! ## COMBINE SEND (R389 to R392) -/

/-- NSRC of COMBINE. -/
def Iss.cmbNsrc (i : Iss) : Nat := fld i.rc 6 0
/-- First local expert. -/
def Iss.expFirst (i : Iss) : Nat := fld i.ra 19 0
/-- Local experts. -/
def Iss.expCount (i : Iss) : Nat := fld i.rb 20 0
/-- The regions (expert, source) that a SEND returns. -/
def Iss.regions (i : Iss) : List (Nat × Nat) :=
  (List.range i.expCount).flatMap fun e => (List.range i.cmbNsrc).map fun c => (i.expFirst + e, c)

/-- Address of a region's count word. -/
def Iss.countWord (i : Iss) (r : Nat × Nat) : Nat := countAt i.tdb + 4 * (r.1 * i.cmbNsrc + r.2)

/-- Address of a row's tag. -/
def Iss.tagOf (i : Iss) (row : Nat) : Nat := tagAt i.tdb (mapMost i.maps) i.cmbNsrc + 8 * row

/-- The rows that the count words name, region by region; a count read bad names none (R266). -/
def Iss.validRows (i : Iss) (buf : List (Nat × Gran)) : List Nat :=
  i.regions.flatMap fun r =>
    let a := i.countWord r
    let n := if bufBad buf a 4 then 0 else min (leNat (bufBytes buf a 4)) i.cap
    (List.range n).map fun j => bufRow i.cmbNsrc i.cap r.1 r.2 j

/-- The messages of one output row (R390, R391, Table 9-7): parts of whole blocks. -/
def State.expertRow (s : State) (o : Op) (row : Nat) : List Msg :=
  let i := o.iss
  let a := i.tda
  let t : W64 := BitVec.ofNat 64 (leNat (bufBytes o.buf (i.tagOf row) 8))
  let mx := fmtMx a.fmt
  let n := 4096 / (4 * a.b + b2n mx)
  let bytes := rowBuf a o.buf row
  let scales := rowScales a o.buf row
  (chunks n (a.rowBlocks + 1) (List.range a.rowBlocks)).map fun bs =>
    let k := bs.headD 0
    let len := min (bs.length * 4 * a.b) (a.rowBytes - k * 4 * a.b)
    let data := slice bytes (k * 4 * a.b) len ++ (if mx then slice scales k bs.length else [])
    let arg : W64 := bf 64 26 0 (fld t 26 0) ||| bf 64 29 28 (fld t 36 35) ||| bf 64 32 30 (fld t 34 32) ||| bf 64 35 33 s.inst.toNat |||
      bf 64 42 37 a.fmt ||| bf 64 55 43 k ||| bf 64 63 56 (fld t 47 40)
    s.mkMsg 0x12 i.stream i.tc (fld t 31 28) o.tag arg data (bs.any fun b => blockBad a o.buf row b)

/-- The collector that a return goes to. -/
def collectorOf (m : Msg) : Nat × BitVec 3 := (m.dst.toNat, rinstOf m)

/-- LAST on the last message toward each collector. -/
def markLastHv : List Msg → List Msg
  | [] => []
  | m :: ms =>
    { m with arg := if ms.any fun k => collectorOf k == collectorOf m then m.arg else setFld m.arg 36 36 1 } :: markLastHv ms

/-- A phase of a COMBINE SEND whose reads are in: the count words, then tags and rows. -/
def State.cmbSendNext (s : State) (o : Op) : State :=
  if 0 < o.rdLeft then s
  else
    let i := o.iss
    match o.phase with
    | .header =>
      let rows := i.validRows o.buf
      let bad := i.regions.any fun r => bufBad o.buf (i.countWord r) 4
      if rows.isEmpty then
        s.setOp { o with phase := .result, sends := false, buf := [], psn := o.psn || bad, doneAt := some (s.now + 2) }
      else
        let s := s.setOp { o with phase := .src, psn := o.psn || bad, moves := rows.map fun r => (r, r) }
        let s := s.each rows fun s r => s.opRead o.tag (i.tagOf r) 8
        s.each rows fun s r => s.readRows o.tag i.tda r 1
    | .src =>
      let rows := (o.moves.map (·.1)).filter fun r => !bufBad o.buf (i.tagOf r) 8
      let msgs := markLastHv (rows.flatMap (s.expertRow o ·))
      let await := ((msgs.map collectorOf).eraseDups).map (·.1)
      (s.setOp { o with msgs := msgs, sends := !msgs.isEmpty, phase := .result, buf := [], await := await, since := s.now,
                        psn := o.psn || decide (rows.length < o.moves.length) || msgs.any (·.poison) }).opCheck o.tag
    | _ => s

/-- A COMBINE SEND begins with its count words. -/
def startCmbSend (s : State) (tag : Nat) (i : Iss) : State :=
  let s := (s.readMap.takeTag (newOp s tag i .header)).updOp tag fun o => { o with sends := true }
  if i.regions.isEmpty then s.updOp tag fun o => { o with phase := .result, sends := false, doneAt := some (s.now + 2) }
  else s.each i.regions fun s r => s.opRead tag (i.countWord r) 4

/-! ## COMBINE COLLECT (R393 to R400) -/

/-- DSLOT of COMBINE. -/
def Iss.cmbSlot (i : Iss) : Nat := fld i.ra 9 8

/-- What COMBINE checks (R395). -/
def cmbSpec (send : Bool) (s : State) (w : W64) : EngSpec :=
  let i := s.issOf w
  let nd := fld i.ra 7 0
  let i := if send then { i with maps := s.sxMap } else { i with tdd := s.desc nd }
  let a := i.tda
  let b := i.tdb
  let na := fTda w
  let nb := fTdb w
  let both := [(a.paged || a.bmap, na), (b.paged || b.bmap, nb)]
  { iss := i, tds := [(na, a), (nb, b)] ++ (if send then [] else [(nd, i.tdd)]),
    target := if send then (List.range 16).find? s.ownLink else none, caps := if send then [8] else [],
    always := if send then [] else [8], profile := 1,
    checks := both ++
      (if send then
        [(a.die != s.die, na), (b.die != s.die, nb), (a.rows != b.rows, nb), (!fmtNumeric a.fmt, na),
         (decide (b.rows < (i.expFirst + i.expCount) * i.cmbNsrc * i.cap), nb)]
      else
        [(i.tdd.paged || i.tdd.bmap, nd), (a.die != s.die || !(a.fmt == 0 || a.fmt == 1) || decide (8 < a.dim0), na),
         (b.die != s.die || !fmtNumeric b.fmt || a.rows != b.rows, nb),
         (s.notU64 i.tdd || i.tdd.dim1 != 1 || decide (i.tdd.dim0 < 1025), nd)]) }

/-- Reserved bits of COMBINE; RC of a COLLECT shall name g0. -/
def cmbOff (send : Bool) (w : W64) : List Nat := offOpt w [3, 4, 5, 6, 7, 10, 11] ++ (if send then [] else zeros w 45 41)

/-- The word is a COMBINE of a role. -/
def isCombine (collect : Bool) (w : W64) : Bool := opIs 0x50 w && bit w 2 == collect

/-- COMBINE_SEND. -/
def execCombineSend (s : State) : Host.Outcome State Fault Refusal :=
  live s (·.engineIssue (isCombine false) (cmbOff true) (cmbSpec true) canConvert startCmbSend)

/-- STATUS of a combine (R400); STAGE_LIMIT is recorded apart. -/
def Cmb.stat (x : Cmb) : Nat := if x.cut then 0xC else if x.drop then 0xD else if x.contribErr then 9 else if x.nan then 8 else 0

/-- Returns that a token expects. -/
def TokEnt.ks (e : TokEnt) : List Nat := if e.state = 1 then (List.range 8).filter fun k => e.kmask.testBit k else []

/-- Tokens whose result row this COMBINE writes. -/
def Cmb.writes (x : Cmb) : List TokEnt := x.toks.filter fun e => e.state == 1 || e.state == 3 || e.state == 4

/-- Every expected return is taken. -/
def Cmb.allTaken (x : Cmb) : Bool := x.toks.all fun e => e.ks.all fun k => x.taken.contains (e.token, k)

/-- The combine completes once every return is taken or CUT is set, every row is written, and the writes are acknowledged. -/
def State.cmbCheck (s : State) (d : Nat) : State :=
  let x := s.cmbAt d
  if x.ready && (x.allTaken || x.cut) && x.writes.all fun e => x.written.contains e.token then
    match s.op? x.tag with
    | some o =>
      if o.phase != .run then s
      else
        let drops := x.drops + (x.toks.filter fun e => e.state == 3).length
        (s.setOp { o.collect x.stat drops with phase := .result, psn := o.psn || !x.badToks.isEmpty }).opCheck x.tag
    | none => s
  else s

/-- Elements of a return, as FP32 codes by element. -/
def Cmb.yOf (x : Cmb) (t k d : Nat) : List Nat :=
  let mine := x.parts.filter fun p => p.1 == t && p.2.1 == k
  (List.range d).map fun e => ((mine.find? fun p => p.2.2.1 == e).map (·.2.2.2.toNat)).getD 0

/-- The fold of a token, and its NaN gates (R397). -/
def Cmb.foldTok (x : Cmb) (d : Nat) (e : TokEnt) : List Nat × Nat :=
  let g := ((x.gates.find? fun y => y.1 == e.token).map (·.2)).getD []
  let ks := e.ks.filter fun k => x.taken.contains (e.token, k) && decide (k < g.length)
  let acc := ks.foldl (fun (acc : List Nat) k =>
    let gk := (g.getD k 0).toNat
    (x.yOf e.token k d).mapIdx fun i y => f32Add (acc.getD i 0) (f32Mul gk y)) (List.replicate d 0)
  (acc, (ks.filter fun k => isNan32 (g.getD k 0).toNat).length)

/-- The result row of a token is written: its fold, or +0 for a DROPPED or SKIPPED one (R397, R398). -/
def State.cmbWrite (s : State) (d : Nat) (e : TokEnt) : State :=
  let x := s.cmbAt d
  match s.op? x.tag with
  | none => s
  | some o =>
    let b := o.iss.tdb
    let (acc, nans) := if e.state = 1 then x.foldTok b.dim0 e else (List.replicate b.dim0 0, 0)
    let (rows, scales, c) := outRows b o.iss.hvOpt [(e.token, acc.map f32Dec, [])]
    let (hit, s) := if e.state = 1 then s.memHit 7 else (false, s)
    let bad := hit || x.badToks.contains e.token
    let x := { x with written := x.written ++ [e.token], nan := x.nan || decide (0 < nans),
                      badToks := if hit then x.badToks ++ [e.token] else x.badToks }
    let s := ((s.setCmb d x).count32 0x70010 nans).count32 0x70014 c.sat
    s.each (outPieces b rows scales []) fun s p => s.opWrite x.tag p.daddr (p.lit.getD []) bad

/-- Tokens that can be folded now are folded: all their returns are taken, or CUT is set (R397, R399). -/
def State.cmbFold (s : State) (d : Nat) : State :=
  let x := s.cmbAt d
  let due := x.writes.filter fun e => !x.written.contains e.token &&
    (x.cut || e.ks.all fun k => x.taken.contains (e.token, k))
  (s.each due fun s e => s.cmbWrite d e).cmbCheck d

/-- ORIG of an HV_EXPERT. -/
def expertOrig (m : Msg) : Nat := fld m.arg 35 33

/-- Who a return comes from. -/
def expertFrom (m : Msg) : BitVec 4 × Nat × BitVec 8 := (m.src, expertOrig m, m.optag)

/-- Faults and poison found in a sender's messages. -/
def Cmb.cfOf (x : Cmb) (k : BitVec 4 × Nat × BitVec 8) : Nat × Bool := ((x.cf.find? fun e => e.1 == k).map (·.2)).getD (0, false)

/-- The record of a sender changed. -/
def Cmb.setCf (x : Cmb) (k : BitVec 4 × Nat × BitVec 8) (v : Nat × Bool) : Cmb :=
  { x with cf := x.cf.filter (fun e => e.1 != k) ++ [(k, v)] }

/-- The COMPLETION after a sender's LAST (R362). -/
def State.cmbAnswer (s : State) (x : Cmb) (m : Msg) : State :=
  let (n, p) := x.cfOf (expertFrom m)
  s.when (bit m.arg 36) (·.answerContrib m (expertOrig m) (if 0 < n then 9 else 0) p n)

/-- A return that R396 drops. -/
def State.cmbFault (s : State) (d : Nat) (rel : Rel) : State :=
  let m := rel.msg
  let x := s.cmbAt d
  let (n, p) := x.cfOf (expertFrom m)
  let x := { x.setCf (expertFrom m) (n + 1, p || m.poison) with drops := x.drops + 1, contribErr := true }
  let s := ((s.takeRel rel).count32 0x7001C 1).setCmb d x
  let s := s.updOp x.tag fun o => if o.phase = .result then o.collect x.stat 1 else o
  (s.cmbAnswer x m).cmbCheck d

/-- Values of a return's data, none where it is not whole blocks. An INT8 return carries no scale, and the spec names none: one free scale
serves all the returns of a COMBINE, by its operands alone (R402, log entry 2). -/
def expertVals (f off d : Nat) (scale : BitVec 32) (data : List Byte) : Option (List Val) :=
  let b := (fmtBits f).getD 8
  if !fmtNumeric f then none
  else if fmtMx f then
    let u := 4 * b + 1
    if data.length % u != 0 then none
    else
      let n := data.length / u
      some (decVals f 0 false (32 * n) (data.take (4 * b * n)) (data.drop (4 * b * n)))
  else
    let n := data.length * 8 / b
    if data.length * 8 % b != 0 || (n % 32 != 0 && 32 * off + n != d) then none
    else some (decVals f scale false n data [])

/-- A return of the open combine in slot d (R396). -/
def State.cmbTake (s : State) (d : Nat) (rel : Rel) : State :=
  let m := rel.msg
  let x := s.cmbAt d
  let a := m.arg
  let t := fld a 23 0
  let k := fld a 26 24
  let off := fld a 55 43
  let dim := s.cmbDim x
  let want := x.toks.any fun e => e.token == t && e.ks.contains k
  match (if want && !x.taken.contains (t, k) then expertVals (fld a 42 37) off dim x.scale m.data else none) with
  | none => s.cmbFault d rel
  | some vs =>
    if dim < 32 * off + vs.length then s.cmbFault d rel
    else
      let sat := bit ((s.op? x.tag).map (·.iss.opt) |>.getD 0) 8
      let es := vs.map fun v => fp32f.out { satinf := sat, ftz := false } none v
      let c := (es.map (·.2)).foldl Cnt.add {}
      let fresh := es.mapIdx fun i e => (t, k, 32 * off + i, BitVec.ofNat 32 e.1)
      let parts := x.parts.filter (fun p => !fresh.any fun q => p.1 == q.1 && p.2.1 == q.2.1 && p.2.2.1 == q.2.2.1) ++ fresh
      let full := decide (dim ≤ (parts.filter fun p => p.1 == t && p.2.1 == k).length)
      let (n, p) := x.cfOf (expertFrom m)
      let x := x.setCf (expertFrom m) (n, p || m.poison)
      let x := { x with parts := parts, taken := if full then x.taken ++ [(t, k)] else x.taken, nan := x.nan || decide (0 < c.nan),
                        badToks := if m.poison then x.badToks ++ [t] else x.badToks }
      let s := (((s.takeRel rel).setCmb d x).count32 0x70010 c.nan).count32 0x70014 c.sat
      (s.cmbAnswer x m).cmbFold d

/-- A return at its port: held for its slot, stale, cut off, or the slot's (R346, R347, R399). -/
def State.expertAt (s : State) (rel : Rel) : State :=
  let m := rel.msg
  let d := fld m.arg 29 28
  let t := fld m.arg 63 56
  let x := s.cmbAt d
  if !x.opened || tagOlder x.rtag t then s.holdRel rel true
  else if x.rtag != t || x.cut then
    let s := (s.takeRel rel).count32 0x7002C 1
    s.when (bit m.arg 36) (·.answerContrib m (expertOrig m) 0xC m.poison 1)
  else if !x.ready then s.holdRel rel false
  else s.cmbTake d rel

/-- HV_EXPERT. -/
def execHvExpert (stream : Nat) (s : State) : Host.Outcome State Fault Refusal :=
  liveWf (decide (stream < 64)) s fun s =>
    match s.nextHv 0x12 stream with
    | none => s
    | some rel => (s.hvForward rel).getD (s.expertAt rel)

/-- The held returns of a slot are looked at again. -/
def State.retryExperts (s : State) (d : Nat) : State :=
  s.each ((s.heldRels 0x12).filter fun r => fld r.msg.arg 29 28 == d) fun s r =>
    if tagOlder (s.cmbAt d).rtag (fld r.msg.arg 63 56) then s else s.expertAt r

/-- An expected return is missing: some of the header's pairs, or, once the outcome table is read, of its tokens. -/
def Cmb.missing (x : Cmb) : Bool := if x.ready then !x.allTaken else x.opened && decide (0 < x.expect)

/-- COMBINE_CUTOFF (R399): at its time, or as soon as the header says what is expected. Returns that wait for the table are then late. -/
def execCombineCutoff (slot : Nat) (s : State) : Host.Outcome State Fault Refusal :=
  liveWf (decide (slot < 4)) s fun s =>
    let x := s.cmbAt slot
    match x.cutoffAt with
    | some t =>
      if !x.cut && x.missing && decide (t ≤ s.now) then
        let s := s.setCmb slot { x with cut := true }
        if x.ready then s.cmbFold slot else s.retryExperts slot
      else s
    | none => s

/-- The header is in (R393): STAGE_LIMIT ends the combine; otherwise, once the units are free, the slot opens and the sequencer goes on.
The outcome entries are read next. -/
def State.cmbOpen (s : State) (o : Op) : State :=
  let i := o.iss
  let d := i.cmbSlot
  let h : W64 := o.hdr
  let pairs := fld h 47 24
  let need := unitsOf (pairs * 4 * i.tdb.dim0) + 2
  let go := fun (s : State) => ({ s with seq := { s.seq with stall := none } } : State).advance 2
  if 1024 < need then
    ((go s).setOp { o.fail 0xF false 0 with phase := .result, sends := false }).opCheck o.tag
  else if !s.stageFree need then s
  else
    let n := min (fld h 23 0) (i.tdd.dim0 - 1)
    let x := { s.cmbAt d with opened := true, rtag := fld h 55 48, expect := pairs }
    let s := ((go s).setCmb d x).stagePeak
    let s := s.setOp { o with phase := .outcome, total := n }
    let s := s.retryExperts d
    s.opRead o.tag (i.tdd.addr + 8) (8 * n)

/-- A phase of a COMBINE COLLECT whose reads are in: the header, the outcome entries, the gates. -/
def State.cmbNext (s : State) (o : Op) : State :=
  if 0 < o.rdLeft then s
  else
    let i := o.iss
    let d := i.cmbSlot
    match o.phase with
    | .header =>
      let o := { o with hdr := BitVec.ofNat 64 (leNat (bufBytes o.buf i.tdd.addr 8)), psn := o.psn || bufBad o.buf i.tdd.addr 8,
                        phase := .walkWait, buf := [] }
      (s.setOp o).cmbOpen o
    | .outcome =>
      let at_ := fun j => i.tdd.addr + 8 + 8 * j
      let js := (List.range o.total).filter fun j => !bufBad o.buf (at_ j) 8
      let toks := js.map fun j =>
        let w : W64 := BitVec.ofNat 64 (leNat (bufBytes o.buf (at_ j) 8))
        ({ token := fld w 23 0, state := fld w 26 24, late := bit w 27, carries := fld w 31 28, kmask := fld w 39 32 } : TokEnt)
      let x := s.cmbAt d
      let s := s.setCmb d { x with toks := toks, drop := toks.any fun e => e.state == 3 }
      let s := s.setOp { o with phase := .list, buf := [], psn := o.psn || decide (js.length < o.total) }
      s.each (toks.filter fun e => e.state == 1) fun s e => s.opRead o.tag (i.tda.rowAddr e.token) i.tda.rowBytes
    | .list =>
      let x := s.cmbAt d
      let w := if i.tda.fmt = 0 then 4 else 2
      let toks := x.toks.filter fun e => e.state == 1
      let gates := toks.map fun e => (e.token, (List.range i.tda.dim0).map fun k =>
        BitVec.ofNat 32 (leNat (bufBytes o.buf (i.tda.rowAddr e.token + w * k) w) * (if w = 4 then 1 else 65536)))
      let bad := (toks.filter fun e => bufBad o.buf (i.tda.rowAddr e.token) i.tda.rowBytes).map (·.token)
      let s := (s.setCmb d { x with gates := gates, ready := true, badToks := x.badToks ++ bad }).setOp { o with phase := .run, buf := [] }
      (s.retryExperts d).cmbFold d
    | _ => s

/-- A COMBINE COLLECT may issue: its slot holds no incomplete one. -/
def canCollect (s : State) (i : Iss) : Bool := decide (s.unadmitted < 64) && !(s.cmbAt i.cmbSlot).busy

/-- A COMBINE COLLECT takes its tag and reads its header; the sequencer stalls (R393). -/
def startCollect (s : State) (tag : Nat) (i : Iss) : State :=
  let o := newOp s tag i .header
  let s : State := { s with ops := s.ops ++ [{ o with uid := s.ord }], ord := s.ord + 1,
                            seq := { s.seq with lastTag := tag, stall := some i } }
  let c := fld i.rb 15 0
  let s := s.setCmb i.cmbSlot { busy := true, tag := tag, cutoffAt := if c = 0 then none else some (i.at_ + 16 * c),
                                scale := Config.returnScale i.opt.toNat i.ra i.rb i.rc }
  s.opRead tag i.tdd.addr 8

/-- COMBINE_COLLECT. -/
def execCombineCollect (s : State) : Host.Outcome State Fault Refusal :=
  live s (·.engineIssue (isCombine true) (cmbOff false) (cmbSpec false) canCollect startCollect)

end Sys2Proof.Machine
end

