-- ==== Sys2Proof/Machine/Pages.lean ====
section
/-! DEFINITION. The page instructions, the page messages at their ports, and the controls of the Remote Page Cache (10, R409 to R411,
R427, R432 to R442). -/
namespace Sys2Proof.Machine

/-! ## The page instructions (R435, R436) -/

/-- RES. -/
def Iss.res (i : Iss) : Bool := bit i.opt 5
/-- FETCH. -/
def Iss.pgFetch (i : Iss) : Bool := bit i.opt 4
/-- OP of PGATOMIC. -/
def Iss.pgOp (i : Iss) : Nat := fld i.opt 2 0
/-- The instruction is PGGATHER. -/
def Iss.isPgGather (i : Iss) : Bool := i.opcode == 0x74
/-- Entries of a page instruction, or logical pages of PGGATHER. -/
def Iss.pgCount (i : Iss) : Nat :=
  if i.isPgGather then countOf i.rb.toNat 0 (i.tdb.dim0 - 1) else countOf i.rb.toNat i.ra.toNat i.tda.dim0

/-- A near U64 list (R436). -/
def State.notList (s : State) (d : Desc) : Bool :=
  d.die != s.die || d.fmt != 0x21 || d.paged || d.bmap || d.dim1 != 1 || d.dim2 != 1

/-- What a page instruction checks. The dies of its pages are not known at issue: the page capability is that of the own link to any die
(R209, R530). -/
def pgSpec (s : State) (w : W64) : EngSpec :=
  let i := s.issOf w
  let a := i.tda
  let b := i.tdb
  let na := fTda w
  let nb := fTdb w
  let n := i.pgCount
  { iss := i, tds := (na, a) :: (if i.res || i.isPgGather then [(nb, b)] else []), always := [10],
    profile := 0,
    checks :=
      if i.isPgGather then
        [(!a.paged || s.pagedBad a, na), (s.notList b, nb), (decide (b.dim0 < n + 1) || decide (4095 < n), nb)]
      else
        [(s.notList a, na), (i.res && s.notList b, nb), (decide (a.dim0 < i.ra.toNat + n) || decide (4096 < n), na),
         (i.res && decide (b.dim0 < n), nb)] }

/-- Reserved bits: those of OPT, OP where it is not allowed or above 3, and RC where it shall name g0: R208's first check
(DESIGN CHOICE, log entry 75). For an OP that is not allowed INFO names the field's lowest bit, 0, as R634 has it for an OP value of 3; whether R634
counts such an OP as reserved bits that are set is left open (DESIGN CHOICE, log entry 76). -/
def pgOff (w : W64) : List Nat :=
  let op := fld w 63 56
  let atomic := op == 0x73
  ([3, 6, 7, 8, 9, 10, 11] ++ (if op = 0x74 then [5] else [4])).filter (bit w ·) ++
    (if (if atomic then decide (3 < fld w 2 0) else fld w 2 0 != 0) then [0] else []) ++ ncBad w ++
    (if atomic && fld w 2 0 == 3 then [] else zeros w 45 41) ++ (if op != 0x74 && !bit w 5 then zeros w 31 24 else [])

/-- PGUNPIN of entry k (R437): PIN − 1, or NOT_RESIDENT. -/
def State.unpinEnt (s : State) (tag k : Nat) (x : PgEnt) : State :=
  if pidDie x.pid = s.die then s.pageOut tag k 4 0
  else if !s.pageOk x.pid then s.pageOut tag k 11 0
  else
    let s := s.readSet (rpcSet x.pid)
    match s.findTag x.pid x.gen with
    | some e =>
      let t := s.tag e
      if t.pin = 0 then s.pageOut tag k 10 0
      else ((s.setTag e { t with pin := t.pin - 1 }).retireWay e).pageOut tag k 5 (t.pin - 1)
    | none => s.pageOut tag k 10 0

/-- PGATOMIC of entry k: one PG_ATOMIC, to the near die's home instance or to the owner (R431, R437). -/
def State.atomicEnt (s : State) (o : Op) (k : Nat) (x : PgEnt) : State :=
  let cmp := if o.iss.pgOp = 3 then fld o.iss.rc 31 0 else 0
  let new_ := if o.iss.pgOp = 3 then fld o.iss.rc 63 32 else 0
  let m := s.atomicMsg x.pid o.iss.pgOp k o.tag x.gen cmp new_
  if pidDie x.pid = s.die then (s.fresh.2).takeRecord m none s.fresh.1
  else if !s.pageOk x.pid then s.pageOut o.tag k 11 0
  else if (s.route (pidDie x.pid)).isNone then s.pageOut o.tag k 12 0
  else s.sendPaged o.tag m

/-- The effect of entry k of the list (R437). -/
def State.pgEnt (s : State) (o : Op) (k : Nat) : State :=
  match (s.op? o.tag).bind fun p => p.ents[k]? with
  | none => s
  | some x =>
    if x.out.isSome then s
    else match o.iss.opcode.toNat with
      | 0x72 => s.unpinEnt o.tag k x
      | 0x73 => s.atomicEnt o k x
      | _ => s.fetchEnt o.tag k (o.iss.opcode == 0x71)

/-- The entries of a list as read; one from a bad granule has the outcome POISONED and no effect (R266). -/
def pgList (d : Desc) (buf : List (Nat × Gran)) (first n : Nat) : List (PgEnt × Bool) :=
  (List.range n).map fun k =>
    let a := d.addr + 8 * (first + k)
    let w : W64 := BitVec.ofNat 64 (leNat (bufBytes buf a 8))
    ({ pid := fld w 39 0, gen := fld w 63 40, out := none, val := 0, pend := true }, bufBad buf a 8)

/-- The result word of an entry (R438). -/
def PgEnt.word (x : PgEnt) : W64 := bf 64 3 0 (x.out.getD 0) ||| bf 64 63 32 x.val

/-- The snapshot of a PGGATHER: the header, then its entries (R439). -/
def snapBytes (o : Op) : List Byte := leBytes 8 o.hdr.toNat ++ o.snap.flatMap fun e => leBytes 8 e.2.toNat

/-- PGGATHER's walk is done: the snapshot is written, and with FETCH its far pages are filled (R439). -/
def State.gatherDone (s : State) (o : Op) : State :=
  let far := o.snap.filter fun e => decide (e.1 < hdrLength o.hdr) && pidDie (fld e.2 39 0) != s.die
  let ents : List PgEnt := if o.iss.pgFetch then far.map fun e =>
    { pid := fld e.2 39 0, gen := fld e.2 63 40, out := none, val := 0, pend := true } else []
  let o := { o with phase := .run, ents := ents, buf := [] }
  let s := (s.setOp o).opWrite o.tag o.iss.tdb.addr (snapBytes o) o.psn
  s.each (List.range ents.length) fun s k => s.fetchEnt o.tag k false

/-- One phase of a page instruction: its list, its walk, its outcomes, its results. -/
def State.pgNext (s : State) (o : Op) : State :=
  if 0 < o.rdLeft then s
  else
    let i := o.iss
    match o.phase with
    | .list =>
      let xs := pgList i.tda o.buf i.ra.toNat i.pgCount
      let s := s.setOp { o with phase := .run, ents := xs.map (·.1), buf := [] }
      s.each (xs.mapIdx fun k x => (k, x.2)) fun s e =>
        if e.2 then s.pageOut o.tag e.1 13 0 else s.pgEnt o e.1
    | .walkHdr | .walkEnt | .walkVer =>
      s.walkNext o (fun s o => s.gatherDone o) fun s o => (s.setOp { o with phase := .result, buf := [] }).opCheck o.tag
    | .run =>
      if o.ents.any (·.out.isNone) then s
      else
        let s := s.setOp { o with phase := .result }
        let s := if i.res then s.opWrite o.tag i.tdb.addr (o.ents.flatMap fun x => leBytes 8 x.word.toNat) false else s
        s.opCheck o.tag
    | _ => s

/-- Operations that wait for fills or page answers go on: page instructions, and transfers whose rows a fill delayed (R426, R442). -/
def State.pagePump (s : State) : State :=
  s.each (s.ops.map (·.tag)) fun s tag =>
    match s.op? tag with
    | none => s
    | some o =>
      if o.phase != .run then s
      else if decide (0x28 ≤ o.iss.opcode.toNat) && decide (o.iss.opcode.toNat ≤ 0x2C) then State.xferGo 8 s tag
      else if decide (0x70 ≤ o.iss.opcode.toNat) && decide (o.iss.opcode.toNat ≤ 0x74) then s.pgNext o
      else s

/-- A page instruction may issue (R271). -/
def canPage (s : State) (_ : Iss) : Bool := decide (s.unadmitted < 64)

/-- A page instruction begins with its list, or with the walk of its table. -/
def startPage (s : State) (tag : Nat) (i : Iss) : State :=
  let s := s.takeTag (newOp s tag i .list)
  if i.isPgGather then s.walkHeader tag
  else if i.pgCount = 0 then s.updOp tag fun o => { o with phase := .result, doneAt := some (s.now + 2) }
  else s.opRead tag (i.tda.addr + 8 * i.ra.toNat) (8 * i.pgCount)

/-- A page instruction of an opcode. -/
def State.pageIssue (s : State) (op : Nat) : State := s.engineIssue (opIs op) pgOff pgSpec canPage startPage

/-- PGFETCH. -/
def execPgfetch (s : State) : Host.Outcome State Fault Refusal := live s (·.pageIssue 0x70)
/-- PGPIN. -/
def execPgpin (s : State) : Host.Outcome State Fault Refusal := live s (·.pageIssue 0x71)
/-- PGUNPIN. -/
def execPgunpin (s : State) : Host.Outcome State Fault Refusal := live s (·.pageIssue 0x72)
/-- PGATOMIC. -/
def execPgatomic (s : State) : Host.Outcome State Fault Refusal := live s (·.pageIssue 0x73)
/-- PGGATHER. -/
def execPggather (s : State) : Host.Outcome State Fault Refusal := live s (·.pageIssue 0x74)

/-! ## Page messages at their ports -/

/-- The first released message of a kind on a stream: none of its kind, and none that is held, stands before it in its order. -/
def State.nextRel (s : State) (stream : Nat) (is : Msg → Bool) (kind : BitVec 8) : Option Rel :=
  s.rel.find? fun r => is r.msg && r.msg.stream == stream && !r.held &&
    !s.rel.any fun x => x.dom == r.dom && decide (x.ord < r.ord) && (x.held || x.msg.mtype == kind)

/-- The sister that a unit came from, none for a message of the link. -/
def Rel.sister (r : Rel) : Option (BitVec 3) := if r.dom < 64 then none else some (BitVec.ofNat 3 (r.dom / 64 - 1))

/-- A PG_REQ or PG_ATOMIC leaves its port for the record of its page, behind every earlier request for that record (R408, R411). -/
def State.recordPort (s : State) (stream : Nat) (kind : BitVec 8) (is : Msg → Bool) : State :=
  match s.nextRel stream is kind with
  | some r => if s.recBefore (recPid r.msg) r.ord then s else ((s.takeRel r).takeRecord r.msg r.sister r.ord).startChecks
  | none => s

/-- PG_REQ: the owner's home instance pins the page and returns it, or refuses (R427, Table 10-2). -/
def execPgReq (stream : Nat) (s : State) : Host.Outcome State Fault Refusal :=
  liveWf (decide (stream < 64)) s (·.recordPort stream 0x20 (·.mtype == 0x20))

/-- PG_ATOMIC of an operation code. -/
def isAtomic (op : Nat) (m : Msg) : Bool := m.mtype == 0x22 && fld m.arg 45 43 == op

/-- PG_ATOMIC READ. -/
def execPgAtomicRead (stream : Nat) (s : State) : Host.Outcome State Fault Refusal :=
  liveWf (decide (stream < 64)) s (·.recordPort stream 0x22 (isAtomic 0))
/-- PG_ATOMIC INC. -/
def execPgAtomicInc (stream : Nat) (s : State) : Host.Outcome State Fault Refusal :=
  liveWf (decide (stream < 64)) s (·.recordPort stream 0x22 (isAtomic 1))
/-- PG_ATOMIC DEC. -/
def execPgAtomicDec (stream : Nat) (s : State) : Host.Outcome State Fault Refusal :=
  liveWf (decide (stream < 64)) s (·.recordPort stream 0x22 (isAtomic 2))
/-- PG_ATOMIC CAS. -/
def execPgAtomicCas (stream : Nat) (s : State) : Host.Outcome State Fault Refusal :=
  liveWf (decide (stream < 64)) s (·.recordPort stream 0x22 (isAtomic 3))
/-- PG_ATOMIC RDEC. -/
def execPgAtomicRdec (stream : Nat) (s : State) : Host.Outcome State Fault Refusal :=
  liveWf (decide (stream < 64)) s (·.recordPort stream 0x22 (isAtomic 4))

/-- A response whose ORIG names another instance of the die goes there over the pass-through port (R244, R434); one for the lost twin is
discarded and counted (R461). -/
def State.respForward (s : State) (r : Rel) (orig : Nat) : Option State :=
  if orig = s.inst.toNat then none
  else if s.sisterGone && orig == s.sister.toNat then some ((s.takeRel r).count32 0x90028 1)
  else some ((s.takeRel r).sendXpt (BitVec.ofNat 3 orig) (.msg s.inst r.msg))

/-- PG_DATA: a chunk of a fill (R427). -/
def execPgData (stream : Nat) (s : State) : Host.Outcome State Fault Refusal :=
  liveWf (decide (stream < 64)) s fun s =>
    match s.nextRel stream (·.mtype == 0x21) 0x21 with
    | some r => (s.respForward r (fld r.msg.arg 50 48)).getD ((s.takeWritten r).pgData r).payOwed.pagePump
    | none => s

/-- PG_ATOMIC_RESP: the outcome of an entry, or of an RDEC (R430, R442). -/
def execPgAtomicResp (stream : Nat) (s : State) : Host.Outcome State Fault Refusal :=
  liveWf (decide (stream < 64)) s fun s =>
    match s.nextRel stream (·.mtype == 0x23) 0x23 with
    | some r => (s.respForward r (fld r.msg.arg 14 12)).getD ((s.takeRel r).takeAtomicResp r.msg).pagePump
    | none => s

/-! ## Controls (R432, R433, Tables 10-8, 10-10) -/

/-- Listed entries of a state. -/
def State.tagsIn (s : State) (st : Nat) : List Nat := (s.tags.filter fun e => e.2.st == st).map (·.1)

/-- Idle VALID entries of a list leave the cache. -/
def State.flushTags (s : State) (es : List Nat) : State := s.each es fun s e => s.when (s.tag e).idle (·.evictTag e)

/-- RPC_FLUSH.GO (R432): the VALID entries leave now, and those FILLING once their fill has ended. -/
def State.flushGo (s : State) : State :=
  if s.flushSet.isSome then s
  else
    let filling := s.tagsIn 1
    let s := s.flushTags (s.tagsIn 2)
    { s with flushSet := some filling }.setRf 0x80030 30 30 0

/-- RPC_FLUSH_GO. -/
def execRpcFlushGo (s : State) : Host.Outcome State Fault Refusal := portCmd s (·.flushGo)

/-- RPC_FLUSH_DONE: every set is visited, once no entry that was FILLING at GO still is. -/
def execRpcFlushDone (s : State) : Host.Outcome State Fault Refusal :=
  live s fun s =>
    match s.flushSet with
    | none => s
    | some es =>
      if es.any fun e => (s.tag e).st == 1 then s
      else { s.flushTags es with flushSet := none }.setRf 0x80030 30 30 1

/-- A write of RPC_CFG (R433, Table 10-8). -/
def State.writeRpcCfg (s : State) (d : W32) : State :=
  let on := s.rpcOn
  let s := s.setRf 0x80000 27 24 (max 1 (fld d 27 24))
  let s := s.when (!on) (·.setRf 0x80000 12 8 (max 2 (min 16 (fld d 12 8))))
  let busy := s.tags.any fun e => e.2.st != 0
  let s := if bit d 0 then s.setRf 0x80000 0 0 1 else if busy then s else s.setRf 0x80000 0 0 0
  if s.solNow then s.holdShadow 0x80000 d else s.shadowWrite 0x80000 d

/-- RPC_CFG_WRITE. -/
def execRpcCfgWrite (d : W32) (s : State) : Host.Outcome State Fault Refusal := portCmd s (·.writeRpcCfg d)

end Sys2Proof.Machine
end

