-- ==== Sys2Proof/Machine/Sync.lean ====
section
/-! DEFINITION. The sync instructions: WAIT, FENCE, TICKWAIT and SIGNAL, with the events that end their waits
(05, R201 to R206; 06, R247, R248). -/
namespace Sys2Proof.Machine

/-- The sequencer blocks (class Q: at least 2 cc). -/
def State.block (s : State) (x : WaitSt) : State :=
  { s with seq := { s.seq with st := .waiting, wait := some x, nextAt := s.now + 2,
                               op := BitVec.ofNat 8 (fld (s.pmWord s.seq.pc) 63 56) } }

/-! ## WAIT -/

/-- A wait that ends with its target reached: EV_ERROR when TRAPERR asks for it (R203), else the flag (R202). -/
def State.waitReached (s : State) (ev : Nat) (fl : Option Nat) (trapErr : Bool) : State :=
  let c := s.evc ev
  if trapErr && (bit c 32 || bit c 33) then s.trap 0x09 ev
  else ((match fl with | some p => s.setFlag p true | none => s) : State).unblock

/-- WAIT (R201): tests once with POLL, else blocks with a timeout of TIMEOUT × 16 cc when TIMEOUT is not 0. -/
def execWait (s : State) : Host.Outcome State Fault Refusal :=
  live s (·.issue (opIs 0x21) (fun w => zeros w 45 41 ++ (if bit w 40 then pdBad w else zeros w 55 51)) fun w s =>
    let t := (fld (s.greg (fRa w)) 31 0 + fld w 31 16) % 0x100000000
    let ev := fld w 37 32
    let fl := if bit w 40 then some (fRd w) else none
    let until_ := if fld w 15 0 = 0 then none else some (s.now + 16 * fld w 15 0)
    let s := s.block (.ev ev (BitVec.ofNat 32 t) until_ fl (bit w 38))
    if evReached (s.evc ev) t then s.waitReached ev fl (bit w 38)
    else if bit w 39 then s.waitMissed fl
    else s)

/-- WAIT_RESUME (R201 to R203): the counter has reached the target. -/
def execWaitResume (s : State) : Host.Outcome State Fault Refusal :=
  live s fun s =>
    let s := s.settle
    match s.seq.wait with
    | some (.ev ev t _ fl te) | some (.timed ev t fl te) => if evReached (s.evc ev) t.toNat then s.waitReached ev fl te else s
    | _ => s

/-- WAIT_TIMEOUT (R201): TIMEOUT × 16 cc have passed and the target is not reached. An increment of this very cc that stands later in the queue
still counts: the wait ends without its target when the next instruction issues, or when the cc is over. -/
def execWaitTimeout (s : State) : Host.Outcome State Fault Refusal :=
  live s fun s =>
    let s := s.settle
    match s.seq.wait with
    | some (.ev ev t (some u) fl te) =>
      if !evReached (s.evc ev) t.toNat && decide (u ≤ s.now) then { s with seq := { s.seq with wait := some (.timed ev t fl te) } } else s
    | _ => s

/-! ## FENCE -/

/-- The operations in a FENCE's scope (R204). -/
def State.fenceScope (s : State) (all onStream : Bool) (stream : Nat) : List Nat :=
  (s.ops.filter fun o => o.orig.isNone && (all || o.serial == s.seq.serial) && (!onStream || o.iss.stream == stream)).map (·.uid)

/-- FENCE (R204). -/
def execFence (s : State) : Host.Outcome State Fault Refusal :=
  live s (·.issue (opIs 0x22) (fun w => zeros w 55 41 ++ zeros w 38 38 ++ zeros w 31 0) fun w s =>
    let sc := s.fenceScope (bit w 39) (bit w 40) (fld w 37 32)
    let s := s.block (.fence sc)
    if sc.isEmpty then s.unblock else s)

/-- FENCE_RESUME (R204): the last operation in the scope has completed. -/
def execFenceResume (s : State) : Host.Outcome State Fault Refusal :=
  live s fun s =>
    let s := s.settle
    match s.seq.wait with
    | some (.fence sc) => if s.ops.any (fun o => sc.contains o.uid) then s else s.unblock
    | _ => s

/-! ## TICKWAIT -/

/-- TICKWAIT (R205): blocks until 4 cc after the next Solstice, at which Solstice ends it. -/
def execTickwait (s : State) : Host.Outcome State Fault Refusal :=
  live s (·.issue (opIs 0x02) (fun w => zeros w 55 0) fun _ s => s.block .tick)

/-! ## SIGNAL -/

/-- Reserved bits of format G; RA shall be 0 when REG is 0 (R206). -/
def offG (w : W64) : List Nat := zeros w 50 41 ++ zeros w 35 24 ++ (if bit w 40 then [] else zeros w 55 51)

/-- What a SIGNAL reads at issue: the amount in ra, the counter in ev, the die in far; it has no local count (R247). -/
def State.sigIss (s : State) (w : W64) : Iss :=
  { s.issOf w with ra := if bit w 40 then BitVec.ofNat 64 (fld (s.greg (fRd w)) 31 0) else BitVec.ofNat 64 (fld w 11 0),
                   rb := 0, rc := 0, nc := true, opt := 0, tda := default, tdb := default, far := some (fld w 39 36) }

/-- The SIGNAL message of Table 6-5, on TC0 (Table 4-3). -/
def State.sigMsg (s : State) (tag : Nat) (i : Iss) : Msg :=
  s.mkMsg 0x04 i.stream 0 (i.far.getD 0) tag
    (bf 64 5 0 i.ev ||| bf 64 47 16 i.ra.toNat ||| bf 64 50 48 s.inst.toNat) [] false

/-- A SIGNAL may issue while the engine holds fewer than 64 operations not fully admitted (R271). -/
def canSignal (s : State) (_ : Iss) : Bool := decide (s.unadmitted < 64)

/-- SIGNAL takes its tag: a message to a far die, or a local increment behind the operations of its stream (R248). -/
def startSignal (s : State) (tag : Nat) (i : Iss) : State :=
  if i.far = some s.die then
    let before := (s.ops.filter fun o => o.orig.isNone && o.iss.stream == i.stream).map (·.uid)
    s.takeTag { newOp s tag i .run with fence := before }
  else
    s.takeTag { newOp s tag i .result with msgs := [s.sigMsg tag i], sends := true, since := s.now,
                                           await := [i.far.getD 0] }

/-- SIGNAL (R206): class E. -/
def execSignal (s : State) : Host.Outcome State Fault Refusal :=
  live s (·.issue (opIs 0x20) offG fun w s =>
    let i := s.sigIss w
    match s.freeTag with
    | some t => if canSignal s i then startSignal s t i else s.stallOn i
    | none => s.stallOn i)

/-- LOCAL_SIGNAL_APPLY (R248): the increment, once every earlier operation of the stream has completed. -/
def execLocalSignalApply (tag : Nat) (s : State) : Host.Outcome State Fault Refusal :=
  live s fun s =>
    match s.op? tag with
    | none => s
    | some o =>
      if o.iss.opcode = 0x20 && o.phase = .run && !s.ops.any (fun p => o.fence.contains p.uid) then
        (s.evAdd o.iss.ev (fld o.iss.ra 31 0) false false).finish tag
      else s

end Sys2Proof.Machine
end

