-- ==== Sys2Proof/Machine/Engine.lean ====
section
/-! DEFINITION. The engines' operations as their memory data comes in, and the end of an engine stall (05, R208, R210; 06 to 10). -/
namespace Sys2Proof.Machine

/-- One phase of an operation, by its opcode and role. -/
def State.opNext (s : State) (o : Op) : State :=
  match o.iss.opcode.toNat with
  | 0x28 | 0x29 | 0x2A | 0x2B | 0x2C => s.xferNext o
  | 0x40 => s.convNext o
  | 0x41 => if bit o.iss.opt 2 then s.foldRedNext o else s.foldSendNext o
  | 0x48 => if bit o.iss.opt 2 then s.mergeNext o else s.mergeSendNext o
  | 0x50 => if bit o.iss.opt 2 then s.cmbNext o else s.cmbSendNext o
  | 0x60 => s.dispNext o
  | 0x70 | 0x71 | 0x72 | 0x73 | 0x74 => s.pgNext o
  | _ => s

/-- Phases of an operation as long as none has to wait. -/
def State.pumpOp : Nat → State → Nat → State
  | 0, s, _ => s
  | fuel + 1, s, tag =>
    match s.op? tag with
    | none => s
    | some o => if o.phase = .result || 0 < o.rdLeft then s else State.pumpOp fuel (s.opNext o) tag

/-- Every operation goes on as far as it can. -/
def State.pump (s : State) : State := s.each (s.ops.map (·.tag)) fun s tag => State.pumpOp 8 s tag

/-- What a stalled instruction waits for beside a tag, by its opcode and role. -/
def canStart (s : State) (i : Iss) : Bool :=
  match i.opcode.toNat with
  | 0x20 => canSignal s i
  | 0x28 | 0x29 | 0x2A | 0x2B | 0x2C => canXfer s i
  | 0x41 => if bit i.opt 2 then canReduce s i else canConvert s i
  | 0x48 => if bit i.opt 2 then canMerge s i else canConvert s i
  | 0x50 => if bit i.opt 2 then canCollect s i else canConvert s i
  | 0x60 => canDispatch s i
  | 0x70 | 0x71 | 0x72 | 0x73 | 0x74 => canPage s i
  | _ => canConvert s i

/-- A stalled instruction starts with what it read at its checks. -/
def startStalled (s : State) (tag : Nat) (i : Iss) : State :=
  match i.opcode.toNat with
  | 0x20 => startSignal s tag i
  | 0x28 | 0x29 | 0x2A | 0x2B | 0x2C => startXfer s tag i
  | 0x41 => if bit i.opt 2 then startReduce s tag i else startFoldSend s tag i
  | 0x48 => if bit i.opt 2 then startMerge s tag i else startMergeSend s tag i
  | 0x50 => if bit i.opt 2 then startCollect s tag i else startCmbSend s tag i
  | 0x60 => startDispatch s tag i
  | 0x70 | 0x71 | 0x72 | 0x73 | 0x74 => startPage s tag i
  | _ => startConvert s tag i

/-- The COMBINE that holds the sequencer until its units are free (R393). -/
def State.waitingCombine (s : State) : Option Op := s.ops.find? fun o => o.iss.opcode == 0x50 && o.phase == .walkWait

/-- A COMBINE whose header read still holds the sequencer (R393). -/
def State.readingCombine (s : State) : Bool := s.ops.any fun o => o.iss.opcode == 0x50 && bit o.iss.opt 2 && o.phase == .header

/-- ENGINE_STALL_RESUME (R208, R210): the stalled instruction takes the tag, slot, input or units that it waited for. -/
def execEngineStallResume (s : State) : Host.Outcome State Fault Refusal :=
  live s fun s =>
    match s.seq.stall with
    | none => s
    | some i =>
      if s.seq.st != .running || s.readingCombine then s
      else match s.waitingCombine with
        | some o => (s.cmbOpen o).pump
        | none =>
          match s.freeTag with
          | some t => if canStart s i then startStalled s t i else s
          | none => s

end Sys2Proof.Machine
end

