-- ==== Sys2Proof/Machine/Module.lean ====
section
/-! DEFINITION. One module's life: the sideband, spare maps and widths, retrains, going down, and what each training sets
(02, R67 to R80; 03, R98, R101 to R107; 04, R134, R151 to R158; 13, R524, R525). -/
namespace Sys2Proof.Machine

/-! ## Native sideband (R524, R525) -/

/-- Bytes that the sideband CRC covers: header [31:0] and the data words. -/
def sbBytes (hdr : W64) (ws : List W64) : List Byte := leBytes 4 (fld hdr 31 0) ++ ws.flatMap fun w => leBytes 8 w.toNat

/-- A sideband message of a code about a module. -/
def sbMake (code m : Nat) (ws : List W64) : SbMsg :=
  let h : W64 := bf 64 7 0 code ||| bf 64 11 8 ws.length ||| bf 64 15 12 m
  { hdr := h ||| bf 64 63 32 (crcStd (sbBytes h ws)).toNat, words := ws }

/-- CODE, LEN and MODULE of a header. -/
def sbCode (x : SbMsg) : Nat := fld x.hdr 7 0
/-- MODULE. -/
def sbModule (x : SbMsg) : Nat := fld x.hdr 15 12
/-- Data word n. -/
def sbWord (x : SbMsg) (n : Nat) : W64 := x.words.getD n 0

/-- The message is well formed, carries the code, and its CRC holds (R525). -/
def sbOk (code len : Nat) (x : SbMsg) : Bool :=
  sbCode x == code && fld x.hdr 11 8 == x.words.length && decide (len ≤ x.words.length) && decide (x.words.length ≤ 8) &&
    fld x.hdr 63 32 == (crcStd (sbBytes x.hdr x.words)).toNat

/-- A sideband message leaves on module m's sideband. -/
def State.sendSb (s : State) (m code : Nat) (ws : List W64) : State := s.emit (.sideband m (sbMake code m ws))

/-- A training message about module m has just gone out: it is repeated 2,400 cc later (R525). -/
def State.sbSent (s : State) (m : Nat) : State := s.updMod m fun x => { x with sbNext := s.now + s.dur 2400 }

/-- The sideband takes messages: not in reset, and not before the sweep (R513). -/
def State.sbLive (s : State) : Bool := s.sweepDone && s.fuseAddr.isNone

/-! ## Spare maps (R67 to R70, Table 2-11) -/

/-- The four spares of a map, padded. -/
def spare4 (xs : List Spare) : List Spare := (List.range 4).map fun j => xs.getD j {}

/-- A map as PA_SPARE_MAP has it: [7] valid, [6] FUSE, [5:0] lane. -/
def spareWord (xs : List Spare) : Nat :=
  leNat ((spare4 xs).map fun p => if p.valid then BitVec.ofNat 8 (128 + 64 * b2n p.fuse + p.lane % 64) else 0)

/-- A map as a REPAIR flit carries it: [6] reserved (Table 2-8). -/
def spareBytes (xs : List Spare) : List Byte :=
  (spare4 xs).map fun p => if p.valid then BitVec.ofNat 8 (128 + p.lane % 64) else 0

/-- The map that REPAIR bytes spell; an entry that was FUSE with the same lane stays FUSE. -/
def spareOf (old : List Spare) (bs : List Byte) : List Spare :=
  (List.range 4).map fun j =>
    let b := bs.getD j 0
    let o := (spare4 old).getD j {}
    if bit b 7 then { valid := true, fuse := o.valid && o.fuse && o.lane == fld b 5 0, lane := fld b 5 0 } else {}

/-- Spares of a direction that are neither assigned nor failing. -/
def freeSpares (n : Nat) (map : List Spare) (bad : List Nat) : List Nat :=
  (List.range n).filter fun j => !((spare4 map).getD j {}).valid && !bad.contains (64 + j)

/-- Spares of module m whose PRBS value reaches HM_THR_LANE: they count as failing under R70 (Table 12-2). -/
def State.badSpares (s : State) (m : Nat) : List Nat :=
  (List.range (spareLanes s.member)).filter fun j => decide (s.rf 0xA0010 31 0 ≤ spGet 0 s.hm.prbs (m * 68 + 64 + j))

/-- Physical receive lanes of module m that are known to fail while it runs: found by its last training, or spares whose
PRBS23 value reaches HM_THR_LANE (R70, R476). -/
def State.badRx (s : State) (m : Nat) : List Nat := (s.mod m).failRx ++ (s.badSpares m).map (64 + ·)

/-- Good unassigned spares of the receive direction. -/
def State.freeRx (s : State) (m : Nat) : List Nat := freeSpares (spareLanes s.member) (s.mod m).spRx (s.badRx m)

/-- Good unassigned spares of the transmit direction, as far as the peer's lane maps tell. -/
def State.freeTx (s : State) (m : Nat) : List Nat := freeSpares (spareLanes s.member) (s.mod m).spTx (s.mod m).failTx

/-- The spare that carries logical lane l. Where the map has two, because a FUSE entry is permanent and its spare fails or was replaced, the one
that does not fail and is not FUSE carries it, and the lowest-numbered of several alike (log entry 57). -/
def carrier (mp : List Spare) (bad : List Nat) (l : Nat) : Option Nat :=
  let on := (List.range 4).filter fun j => let p := (spare4 mp).getD j {}; p.valid && p.lane == l
  let fuse := fun j => ((spare4 mp).getD j {}).fuse
  let good := fun j => !bad.contains (64 + j)
  match on.find? fun j => good j && !fuse j with
  | some j => some j
  | none => match on.find? good with
    | some j => some j
    | none => on.head?

/-- The physical receive lane that carries byte i of a flit: width, half and spare map (R63). -/
def State.physLane (s : State) (m i : Nat) : Nat :=
  let x := s.mod m
  let w := s.lanes m
  let l := laneOf w i + (if x.width = 2 then w else 0)
  ((carrier x.spRx x.failRx l).map (64 + ·)).getD l

/-- The failed data lanes of a half (or of full width) that a direction's spares must replace. -/
def failsIn (lanes : Nat) (fails : List Nat) (width : Nat) : List Nat :=
  (List.range lanes).filter fun l => fails.contains l &&
    (width == 0 || (width == 1 && decide (l < lanes / 2)) || (width == 2 && decide (lanes / 2 ≤ l)))

/-- The entries of a map that stay until the next cold reset (R70). -/
def fuseKeep (old : List Spare) : List Spare := (spare4 old).map fun p => if p.valid && p.fuse then p else {}

/-- The failed lanes of a width that no good FUSE spare replaces already. -/
def laneNeed (lanes : Nat) (old : List Spare) (fails : List Nat) (width : Nat) : List Nat :=
  (failsIn lanes fails width).filter fun l =>
    !(List.range 4).any fun j => let p := (fuseKeep old).getD j {}; p.valid && p.lane == l && !fails.contains (64 + j)

/-- A width is covered in one direction: the spares that are good and not held by FUSE entries replace every failed lane that remains (R70, R77). -/
def covered (lanes spares : Nat) (old : List Spare) (fails : List Nat) (width : Nat) : Bool :=
  decide ((laneNeed lanes old fails width).length ≤ (freeSpares spares (fuseKeep old) fails).length)

/-- The width of R77 for a module from the map and the failed lanes of each direction: full, else the low half, else the high half. -/
def chooseWidth (lanes spares : Nat) (tx rx : List Spare × List Nat) (from_ : Nat) : Option Nat :=
  ((List.range 3).filter fun w => decide (from_ ≤ w)).find? fun w =>
    covered lanes spares tx.1 tx.2 w && covered lanes spares rx.1 rx.2 w

/-- The spare map that training makes for a width: fuse entries stay in place, and the failed lanes that remain take the
lowest-numbered good spares; a lane that either end's fuses list is FUSE (R69, R70). -/
def trainMap (lanes spares : Nat) (old : List Spare) (fails fuses : List Nat) (width : Nat) : List Spare :=
  ((laneNeed lanes old fails width).zip (freeSpares spares (fuseKeep old) fails)).foldl
    (fun mp e => mp.set e.2 { valid := true, fuse := fuses.contains e.1, lane := e.1 }) (fuseKeep old)

/-- Lanes of a direction that a map replaces. -/
def mapped (mp : List Spare) : List Nat := ((spare4 mp).filter (·.valid)).map (·.lane)

/-- The physical lanes whose bit is 1. -/
def lanesOf (w : BitVec 68) : List Nat := (List.range 68).filter fun n => w.getLsbD n

/-- Failed lanes of the receive direction of module m: found, listed by the own fuses, or by the peer's (R69). -/
def State.rxFails (s : State) (m : Nat) : List Nat :=
  ((s.mod m).failRx ++ (s.mod m).fuseRx ++ lanesOf (Config.peerFuse true m)).eraseDups

/-- Failed lanes of the transmit direction of module m: named by the peer's LANEMAP, or listed by the own fuses. -/
def State.txFails (s : State) (m : Nat) : List Nat := ((s.mod m).failTx ++ (s.mod m).fuseTx).eraseDups

/-- The same with the lanes that runtime repairs have replaced since, as both ends know them. -/
def State.rxFailsNow (s : State) (m : Nat) : List Nat := (s.rxFails m ++ mapped (s.mod m).spRx).eraseDups
/-- The same for the transmit direction. -/
def State.txFailsNow (s : State) (m : Nat) : List Nat := (s.txFails m ++ mapped (s.mod m).spTx).eraseDups

/-- The receive map of module m that failed lanes ask for at a width (R69, R70). -/
def State.rxMap (s : State) (m : Nat) (fails : List Nat) (w : Nat) : List Spare :=
  trainMap (dataLanes s.member) (spareLanes s.member) (s.mod m).spRx fails ((s.mod m).fuseRx ++ lanesOf (Config.peerFuse true m)) w

/-- The transmit map of module m at a width. -/
def State.txMap (s : State) (m : Nat) (fails : List Nat) (w : Nat) : List Spare :=
  trainMap (dataLanes s.member) (spareLanes s.member) (s.mod m).spTx fails ((s.mod m).fuseTx ++ lanesOf (Config.peerFuse false m)) w

/-- The width that R77 finds for module m from a receive direction's failed lanes and the known ones of the other, from `from_` on. -/
def State.widthFor (s : State) (m : Nat) (rx tx : List Nat) (from_ : Nat) : Option Nat :=
  chooseWidth (dataLanes s.member) (spareLanes s.member) ((s.mod m).spTx, tx) ((s.mod m).spRx, rx) from_

/-! ## What a training sets (R98, R134, R158) -/

/-- LL_MOD_NAKHOLD: both PA_LAT values plus 3 cc, rounded up to a whole cc (R98). -/
def nakHoldOf (lat8 peer8 : Nat) : Nat := ceilDiv (lat8 + peer8 + 24) 8

/-- LL_LAT_MIN over the active modules (R134). -/
def State.latMin (s : State) (ms : List Nat) : Nat :=
  ms.foldl (fun a m => let x := s.mod m
    max a (ceilDiv (x.lat8 + 8 * x.nakHold + s.flitTimes8 m 10 + 200) 8)) 0

/-- LL_LAT_MIN is set, and LAT_SHORT when it exceeds LL_FIXED_LAT (R158). A value beyond the 12 bits of the register stores 4,095, which R134 and
Table 4-10 leave open (DESIGN CHOICE, log entry 57). -/
def State.setLatMin (s : State) : State :=
  let ms := s.active
  if ms.isEmpty then s else
  let s := s.setRf 0x20044 11 0 (min (s.latMin ms) 4095)
  if s.rf 0x20040 11 0 < s.rf 0x20044 11 0 then
    (s.setBit 0x20058 4).when (bit (s.rg 0x2005C) 1) (·.irq 2)
  else s

/-! ## Down and link down (R106, R107) -/

/-! ## A twin's link that fails (R449, R453, R469) -/

/-- Twin state changed. -/
def State.updTwin (s : State) (f : Twin → Twin) : State := { s with twin := f s.twin }

/-- Streams that a role owns in Equinox, ascending. -/
def roleStreams (role : Nat) : List Nat := (List.range 64).filter (roleStream role)

/-- Half-modules of a module (R469): two at full width, one at half; none down, retired, in Midwinter, in training, or in Frost for a retrain. -/
def Mod.halves (x : Mod) : Nat :=
  let counts := x.st == .active || x.st == .fallow || (x.st == .frost && ((x.frost.map fun f => f.kind == 1 || f.kind == 5).getD false))
  if counts && x.retrain.isNone then (if x.width = 0 then 2 else 1) else 0

/-- The active half-module count of the own link. -/
def State.halves (s : State) : Nat := (s.allMods.map fun m => (s.mod m).halves).sum

/-- The own link fails under R449; a link asleep, or on its way out of Midwinter, does not (R490). -/
def State.linkFails (s : State) : Bool :=
  !s.asleep && s.pwr.st != 4 && (s.linkDownNow || (s.rf 0x90000 5 0 != 0 && decide (s.halves < s.rf 0x90000 5 0)))

/-- LINK_OK: up, and not failed under R449. -/
def State.linkOk (s : State) : Bool := !s.linkDownNow && !s.linkFails && !s.twin.failed

/-- From the report on, messages of the moving streams wait at admission, and their held messages stay held (R453). -/
def State.freeze (s : State) (ns : List Nat) (hold : Bool) : State :=
  s.each ns fun s n => s.updStrm n fun x => { x with moving := true, stopped := x.stopped || hold }

/-- The own link is declared failed: its streams stop (R449, R453). The survivor's heartbeats then tell the target (log entry 20). -/
def State.failOwn (s : State) : State :=
  let k : Shake := { target := s.tickPlus 2, mine := false, echoed := false, nextSend := s.now, arg := s.role }
  let s := s.updTwin fun x => { x with failed := true, st := 2, take := some k }
  (s.freeze (roleStreams s.role) true).twinEvent 0

/-- What a survivor's heartbeat says of the takeover that it runs (log entry 20). -/
def State.pendingTake (s : State) : Option Pending :=
  match s.twin.take with
  | some k => if k.arg = s.role then none else some { target := if k.echoed then some k.target else none, lost := s.twin.lost }
  | none => none

/-- A heartbeat goes out. -/
def State.sendHeartbeat (s : State) : State :=
  (s.updTwin fun x => { x with nextHb := s.now + 64 }).emit
    (.twin (.heartbeat s.linkOk s.halves { waking := s.pwr.wakeSent || s.pwr.st == 4, take := s.pendingTake }))

/-- An instance in Equinox declares its link failed at once, and reports it (R449). -/
def State.twinCheck (s : State) : State :=
  if s.paired && s.twin.st == 1 && !s.twin.failed && s.linkFails then s.failOwn.sendHeartbeat else s

/-- A link that was declared failed while no twin could take its streams over is repaired, and its traffic goes on (R468, the last row of
Table 11-3). -/
def State.twinRepaired (s : State) : State :=
  let t := s.twin
  if t.failed && !s.linkFails && (t.st == 5 || (t.st == 2 && !(t.alive && t.sisOk))) then
    (s.each (List.range 64) fun s n => s.updStrm n fun x => { x with moving := false, stopped := false }).updTwin fun x =>
      { x with failed := false, take := none, st := if x.st = 5 then 5 else 1 }
  else s

/-- The link is down when no module keeps it up: LINK_DOWN and irq[0], once; a twin declares its link failed (R449). -/
def State.linkCheck (s : State) : State :=
  (if s.linkDownNow && !s.trn.linkDown then
    ({ s with trn := { s.trn with linkDown := true } }.setBit 0x20034 2).irq 0
  else s).twinCheck

/-- Flits that a module holds when it begins a retrain or goes down are late from now on, as are those that the peer has outstanding, which it
repeats (R141, R153). -/
def Mod.markLate (x : Mod) (now : Nat) : Mod :=
  { x with after := true, lateFrom := now, lateOld := false,
           reord := x.reord.map fun e => (e.1, { e.2 with retrained := true }) }

/-- The own phase 7 is over: what the peer granted before now it held through the retrain (R102, R141). Stamps of more than 255 ticks ago may have
come round again. -/
def Mod.cutLate (x : Mod) (now period : Nat) : Mod :=
  if x.after then { x with lateFrom := now, lateOld := decide (x.lateFrom + 255 * period ≤ now) } else x

/-- A spare swap that has begun and has not sent its SWITCH takes effect at once where the module leaves the Frost of R75 for another reason:
the map that was echoed replaces the own one in full (R74). -/
def Mod.swapNow (x : Mod) : Mod :=
  match x.swapTx with
  | some r =>
    if r.width = x.width then
      { x with spTx := r.map, swapTx := none, frost := if (x.frost.map (·.kind == 1)).getD false then none else x.frost }
    else x
  | none => x

/-- LL_GAP.ACTIVE clears at Thaw, once no module is in a Frost sequence that retrains, or still to be in that of a plan; a plan that software
requested is done with it (Table 4-10). -/
def State.gapThaw (s : State) : State :=
  if s.allMods.any (fun m => let x := s.mod m
      ((x.frost.map fun f => f.kind != 1).getD false) || ((x.retrain.map (·.planned)).getD false) || (s.planRun && x.planRate.isSome)) then s
  else
    let s : State := { s.setRf 0x20074 31 31 0 with gapEnd := none }
    s.when s.planRun fun s => { s.setRf 0x20060 30 28 1 with planRun := false }

/-- On/off mode takes every TC as XOFF from a link-up until its first FLOW flit (R121). -/
def State.linkUp (s : State) : State :=
  s.when s.onOff fun s => s.each (List.range 4) fun s c => s.updTc c fun f => { f with xoffRx := true }

/-- The XOFF state of every class under what holds now (R117). -/
def State.flowAll (s : State) : State := s.each (List.range 4) (·.flowCheck ·)

/-- A repair that changes the width of module m has taken effect: DEGRADE, irq[4], and RESULT of one that this end asked for (R77, Table 2-12). -/
def State.widthDone (s : State) (m : Nat) : State :=
  let s := (s.setBit (0x1001C + 0x1000 * m) 5).irq 4
  let s := s.when (s.mod m).swapRx.isSome fun s => s.setRf (0x10010 + 0x1000 * m) 30 28 1
  s.updMod m fun x => { x with swapRx := none }

/-- A module goes down (R106); its outstanding flits stay in its replay buffer. A planned width or rate that it had not reached holds for its next
training, and a repair of the width is over with it (DESIGN CHOICE, log entry 78). -/
def State.modDown (s : State) (m : Nat) : State :=
  let wide := (s.mod m).planWidth.isSome
  let s := s.updMod m fun x =>
    { x.swapNow.markLate s.now with
      st := .down, retrain := none, frost := none, fallowReq := false, width := x.planWidth.getD x.width, rate := x.planRate.getD x.rate,
      planWidth := none, planRate := none }
  let s := s.when wide (·.widthDone m)
  (((s.setBit 0x20034 1).irq 0).linkCheck.gapThaw).flowAll

/-! ## Retrain (R102, R103) -/

/-- The request of a retrain: RETRAIN_REQ on the lowest other active module, else the sideband message (R103). -/
def State.sendRetrainReq (s : State) (m reason : Nat) : State :=
  match s.otherActive m with
  | some k => s.queueCtl k (leBytes 1 5 ++ leBytes 1 m ++ leBytes 1 reason)
  | none => s.sendSb m 0x16 [BitVec.ofNat 64 reason]

/-- How long until the request is repeated: 64 cc as a control flit, 2,400 cc on the sideband (R103, R525). -/
def State.retrainGap (s : State) (m : Nat) : Nat := if (s.otherActive m).isSome then 64 else s.dur 2400

/-- A module enters a retrain: its state, the counters, LL_EVENT.RETRAIN when it is unplanned, and the marks of R141. A link that was down is
up again with it (R107, R121). -/
def State.enterRetrain (s : State) (m reason : Nat) (mine planned : Bool) : State :=
  let gap := s.retrainGap m
  let s := if s.linkDownNow then { s.linkUp with trn := { s.trn with linkDown := false, fcLast := some s.onOff } } else s
  let s := (s.bistServe m).updMod m fun x =>
    let x := x.swapNow.markLate s.now
    { x with st := .training, tphase := 3, laneGot := false, laneSent := false, palGot := false, palSent := false,
             retrain := some { since := s.now, limitFrom := if mine then none else some s.now, mine := mine,
                               reason := BitVec.ofNat 8 reason, answered := !mine, nextReq := s.now + gap, phase7 := false,
                               gotFlit := false, planned := planned } }
  let s := (s.flowAll.count (0x20114 + 0x20 * m) 31 16 1).twinCheck
  if planned then s else (s.setBit 0x20034 0).irq 0

/-- This end decides on a retrain of a module: it enters it and sends the request (R103). A module already in one stays in it. -/
def State.requestRetrain (s : State) (m reason : Nat) : State :=
  if (s.mod m).retrain.isSome || s.openMode then s
  else (s.sendRetrainReq m reason).enterRetrain m reason true false

/-- A flit would need a fifth retransmission (R101): a retrain with reason 0x01, or the module down on probation (R105). -/
def State.replayLimit (s : State) (m : Nat) : State :=
  if (s.mod m).retrain.isSome then s
  else if (s.mod m).prob.isSome then s.modDown m
  else s.requestRetrain m 1

/-- In Open mode a Health Monitor lane or margin decision is a UCIe retrain of the module (R546). -/
def State.ucieRetrain (s : State) (m : Nat) : State := s.emit (.ucieRetrain m)

/-! ## The rate of a planned change (R521) -/

/-- PHASE on module m's sideband at the start of a planned retrain: the own LL_PLAN.RATE (R521; that PHASE with phase 2 carries it is a DESIGN
CHOICE, log entry 62). -/
def State.sendRate (s : State) (m rate : Nat) : State :=
  (s.sendSb m 0x15 [bf 64 3 0 2 ||| bf 64 7 4 rate ||| bf 64 8 8 1]).sbSent m

/-- The peer's LL_PLAN.RATE for module m: the lower of the two holds; one that comes again is answered (R521, R525). -/
def State.hearRate (s : State) (m rate : Nat) : State :=
  let x := s.mod m
  match x.planRate with
  | none => s
  | some r =>
    let low := min r rate
    let runs := (x.retrain.map (·.newRate)).getD false
    let s := s.updMod m fun x => { x with planRate := some low, rateGot := true, rate := if runs then low else x.rate }
    s.when (runs && x.rateGot) (·.sendRate m low)

/-! ## Gaps (R157) -/

/-- The figure of R156 in cc: Frost entry and a retrain. -/
def State.gapCc (s : State) : Nat := 480 + s.dur 3600

/-- LL_GAP is set at a Frost sequence's first Solstice: kind, length, start. -/
def State.setGap (s : State) (kind ticks : Nat) : State :=
  let s := s.setRg64 0x20070 (bf 64 63 63 1 ||| bf 64 59 56 kind ||| bf 64 55 48 ticks ||| bf 64 47 0 s.tick.num)
  { s with gapEnd := some (s.tickPlus ticks) }

/-- The gap length when none was declared: ⌈G / TICK_PERIOD⌉. -/
def State.gapTicks (s : State) : Nat := ceilDiv s.gapCc (max 1 s.period)

/-- A module enters Frost at a Solstice, in the directions given, for a sequence of a kind of LL_GAP; one that retrains ends a swap's. -/
def State.enterFrost (s : State) (m kind : Nat) (tx rx : Bool) : State :=
  (s.updMod m fun x =>
    let x := if kind = 1 then x else x.swapNow
    if x.carries then
      { x with st := .frost,
               frost := some { since := s.now, kind := kind, tx := tx || ((x.frost.map (·.tx)).getD false),
                               rx := rx || ((x.frost.map (·.rx)).getD false), switched := false } }
    else x).twinCheck

end Sys2Proof.Machine
end

