-- ==== Sys2Proof/Machine/LinkRx.lean ====
section
/-! DEFINITION. The receive side of the link: what a received flit does to acknowledgement, sequence and flow state, and how its
message area becomes messages released at their time (02, R54, R59, R63, R64, R627, R629; 03, R86 to R99, R119 to R121, R631; 04,
R126 to R146; 13, R535, R543, R544). -/
namespace Sys2Proof.Machine

/-! ## Lock and acceptance -/

/-- The set of lanes in use holds forwarded-clock and framing lock. -/
def Mod.rxLock (x : Mod) : Bool := if x.altSel then x.clkA && x.frmA else x.clkP && x.frmP

/-- A set of lanes loses lock. -/
def Mod.loseLock (x : Mod) (alt clk : Bool) : Mod :=
  if alt then { x with clkA := x.clkA && !clk, frmA := false } else { x with clkP := x.clkP && !clk, frmP := false }

/-- The other set holds both locks. -/
def Mod.otherLock (x : Mod) : Bool := if x.altSel then x.clkP && x.frmP else x.clkA && x.frmA

/-- A set of lanes of module m loses lock (R79): a loss on the set in use is an event, and moves the receiver to the other set when ALT_AUTO is 1
and that set holds both; otherwise the loss begins. A member without the alternate set has the primary one alone (R48). -/
def State.lockLoss (s : State) (m : Nat) (alt clk : Bool) : State :=
  if alt && !altSet s.member then s
  else
    let x := (s.mod m).loseLock alt clk
    let s := s.setMod m { x with vldGood := 0, vldBad := 0 }
    if alt != x.altSel then s
    else
      let s := s.setBit (0x1001C + 0x1000 * m) 0
      if bit (s.rg (0x10004 + 0x1000 * m)) 16 && x.otherLock then
        (s.updMod m fun x => { x with altSel := !x.altSel }).setBit (0x1001C + 0x1000 * m) 2
      else s.updMod m fun x => { x with lostAt := some (x.lostAt.getD s.now), clkLost := x.clkLost || clk }

/-- A set of lanes of module m holds framing lock again, and with `clk` the forwarded clock too (R628): after a loss of framing alone the module
resumes; after a loss of the forwarded clock a retrain with reason 0x04 is requested. A set that regains lock while the one in use holds
none is moved to under R79. -/
def State.lockRegain (s : State) (m : Nat) (alt clk : Bool) : State :=
  if alt && !altSet s.member then s
  else
    let s := s.updMod m fun x =>
      if alt then { x with clkA := x.clkA || clk, frmA := true, vldGood := 0, vldBad := 0 }
      else { x with clkP := x.clkP || clk, frmP := true, vldGood := 0, vldBad := 0 }
    let x := s.mod m
    if x.lostAt.isNone then s
    else
      let move := alt != x.altSel
      if move && !bit (s.rg (0x10004 + 0x1000 * m)) 16 then s
      else
        let s := s.when move fun s =>
          (s.updMod m fun x => { x with altSel := alt }).setBit (0x1001C + 0x1000 * m) 2
        let s := s.updMod m fun x => { x with lostAt := none, clkLost := false }
        s.when (x.clkLost && x.carries) (·.requestRetrain m 4)

/-- A flit with the correct VLD pattern on the set in use (R49): the fourth in a row gives framing lock back to a receiver that has lost it
alone. -/
def State.vldSeen (s : State) (m : Nat) : State :=
  let x := s.mod m
  let clk := if x.altSel then x.clkA else x.clkP
  if x.rxLock then s.updMod m fun x => { x with vldGood := 0, vldBad := 0 }
  else if !clk then s
  else if 3 ≤ x.vldGood then s.lockRegain m x.altSel false
  else s.updMod m fun x => { x with vldGood := x.vldGood + 1, vldBad := 0 }

/-- A flit with an incorrect VLD pattern on the set in use (R49): the fourth in a row loses framing lock. -/
def State.vldMissed (s : State) (m : Nat) : State :=
  let x := s.mod m
  if x.rxLock && decide (3 ≤ x.vldBad) then s.lockLoss m x.altSel false
  else s.updMod m fun x => { x with vldBad := if x.rxLock then x.vldBad + 1 else 0, vldGood := 0 }

/-- The module's receiver takes flits: it carries flits or is in a retrain (R104), and holds lock (R627). -/
def Mod.receives (x : Mod) : Bool := (x.carries || x.retrain.isSome) && x.rxLock

/-- A flit accepted on module m: corrected bytes, corrected positions, the seed that verified (R59). -/
def State.rxGood (s : State) (m : Nat) (f : List Byte) : Option (List Byte × List Nat × Nat) :=
  let x := s.mod m
  if !x.receives || s.openMode then none else
  match rxClass f x.p x.n with
  | .good g fixed seed => some (g, fixed, seed)
  | _ => none

/-- A failed slot: counted at an offset of the module and by the Health Monitor; U grows to at most 8 (R96, R474). -/
def State.failSlot (s : State) (m off : Nat) : State :=
  let old := s.mod m
  let s := (s.count32 (off + 0x1000 * m) 1).updHm fun h => { h with nCrc := spAdd h.nCrc m 1 }
  s.updMod m fun x => Mod.noteHdr old { x with u := min 8 (x.u + 1) } s.now

/-- The module has slots, and holds no lock. -/
def State.noLock (s : State) (m : Nat) : Bool :=
  let x := s.mod m
  (x.carries || x.retrain.isSome) && !x.rxLock && !s.openMode

/-- A flit that finds no lock: it shows its framing (R49), and its slot is a failed one (R627). -/
def State.lockless (s : State) (m : Nat) : State := (s.vldSeen m).failSlot m 0x10020

/-- A flit reaches module m: one that is accepted acts; the slot of one that finds no lock fails. -/
def State.rxFlit (s : State) (m : Nat) (f : List Byte) (act : List Byte → List Nat → Nat → State → State) : State :=
  match s.rxGood m f with
  | some (g, fixed, seed) => act g fixed seed s
  | none => s.when (s.noLock m) (·.lockless m)

/-- Operands that a flit receipt can carry. -/
def flitWf (m : Nat) (f : List Byte) : Bool := decide (m < 16) && f.length == 256

/-! ## What every accepted flit does (R63, R92, R94, R99) -/

/-- Corrected bytes are charged to their physical lanes (R63). -/
def State.chargeLanes (s : State) (m : Nat) (fixed : List Nat) : State :=
  s.each fixed fun s i =>
    let n := s.physLane m i
    (s.count (0x10100 + 0x1000 * m + 4 * n) 15 0 1).updHm fun h => { h with nLane := spAdd h.nLane (68 * m + n) 1 }

/-- The next sequence of module m that has not left it. -/
def Mod.unsent (x : Mod) : Nat := (x.next + 4096 - x.grants.length % 4096) % 4096

/-- An ACK value frees every outstanding flit up to it, and probation counts those that were sent since the retrain (R94, R105); one that names a
sequence not yet sent is a protocol error. In the retrain that returns a retired module to service it tells where the numbering goes on (R83,
log entry 21). -/
def State.takeAck (s : State) (m a : Nat) : State :=
  let x := s.mod m
  if x.wasRetired && x.retrain.isSome then s.updMod m fun x => { x with next := (a + 1) % 4096 }
  else if (a + 4096 - x.unsent) % 4096 < 2048 then s.protoErr
  else
    let freed := x.rep.filter fun e => decide ((a + 4096 - e.seq) % 4096 < 2048)
    let rest := x.rep.filter fun e => !decide ((a + 4096 - e.seq) % 4096 < 2048)
    if freed.isEmpty then s else
    let since := (freed.filter fun e => !e.rpt).length
    let prob := x.prob.bind fun k => if k ≤ since then none else some (k - since)
    (s.updMod m fun x => { x with rep := rest, prob := prob, lastUse := s.now }).reapTx

/-- One NAK bit, for sequence q: acted on when q is outstanding and its latest transmission lies LL_MOD_NAKHOLD cc back (R99). -/
def State.takeNak (s : State) (m q : Nat) : State :=
  let x := s.mod m
  match x.rep.find? fun e => e.seq == q with
  | none => s
  | some e =>
    if e.owed || decide (8 * s.now < e.sent + 8 * x.nakHold) then s
    else if 4 ≤ e.retx then s.replayLimit m
    else s.updMod m fun x => { x with rep := x.rep.map fun r => if r.seq = q then { r with owed := true, wait := 0 } else r }

/-- The header of an accepted flit: ACK always, NAK outside a retrain (R102). -/
def State.takeHeader (s : State) (m : Nat) (g : List Byte) : State :=
  let a := flitAck g
  let s := s.takeAck m a
  if (s.mod m).retrain.isSome then s
  else s.each ((List.range 8).filter fun i => flitNak g / 2 ^ i % 2 == 1) fun s i =>
    if (s.mod m).retrain.isSome then s else s.takeNak m ((a + 1 + i) % 4096)

/-- Every accepted flit: lanes, header, and the mark that ends a retrain (R104): any flit accepted since the own entry to it counts, also one that
the peer launched before its own (DESIGN CHOICE, log entry 57). -/
def State.rxCommon (s : State) (m : Nat) (g : List Byte) (fixed : List Nat) : State :=
  let s := (s.vldSeen m).updMod m fun x => { x with retrain := x.retrain.map fun r => { r with gotFlit := true } }
  (s.chargeLanes m fixed).takeHeader m g

/-- The link flags of an IDLE or CTRL flit: ACKREQ advances A (R92). -/
def State.takeFlags (s : State) (m : Nat) (g : List Byte) : State :=
  s.when (bit (g.getD 5 0) 0) fun s => s.updMod m (·.ackNow s.now)

/-- An accepted CTRL flit of a subtype: its common effects, and then its own. -/
def State.rxCtrl (s : State) (m : Nat) (f : List Byte) (sub : Nat) (act : List Byte → State → State) : State :=
  s.rxFlit m f fun g fixed _ s =>
    if flitType g = 3 && (g.getD 4 0).toNat = sub then act g ((s.rxCommon m g fixed).takeFlags m g) else s

/-! ## Fragments and messages (R126 to R132, R143) -/

/-- The grant of a flit stamped with a tick's low bits and an offset, in the own time, and the latency active then (R130); none when that tick had
no Solstice here. -/
def State.stampOf (s : State) (tick off : Nat) : Option (Nat × Nat) :=
  let t := (s.tick.num + tickMod - (s.tick.num % 256 + 256 - tick) % 256) % tickMod
  (s.tick.hist.find? fun h => h.num == t).map fun h => (h.sol + off, h.lat)

/-- The due time of a stamped flit (R130). -/
def State.dueOf (s : State) (tick off : Nat) : Option Nat := (s.stampOf tick off).map fun p => p.1 + p.2

/-- Bytes [0, k) that fragments cover without a hole, from 0. -/
def coveredTo : Nat → List Frag → Nat → Nat
  | 0, _, k => k
  | fuel + 1, fs, k =>
    match fs.find? fun f => decide (f.moff ≤ k) && decide (k < f.moff + f.bytes.length) with
    | some f => coveredTo fuel fs (f.moff + f.bytes.length)
    | none => k

/-- The bytes that fragments spell from 0 to k. -/
def fragBytes (fs : List Frag) (k : Nat) : List Byte :=
  (List.range k).map fun i =>
    match fs.find? fun f => decide (f.moff ≤ i) && decide (i < f.moff + f.bytes.length) with
    | some f => f.bytes.getD (i - f.moff) 0
    | none => 0

/-- The bytes [a, b) already lie in the fragments. -/
def rangeHeld (fs : List Frag) (a b : Nat) : Bool := decide (b ≤ coveredTo (fs.length + 1) fs a)

/-- The total length of a held message, once its header is there. -/
def heldLen (fs : List Frag) : Option Nat :=
  if 16 ≤ coveredTo (fs.length + 1) fs 0 then some (16 + hdrLen (fragBytes fs 16)) else none

/-- Every byte of the message is held. -/
def wholeHeld (fs : List Frag) : Bool :=
  match heldLen fs with
  | some k => decide (k ≤ coveredTo (fs.length + 1) fs 0)
  | none => false

/-- The fragment holds byte 1 of its message, with RESEND set (Table 4-2). -/
def Frag.resend (f : Frag) : Bool := decide (f.moff ≤ 1) && bit (f.bytes.getD (1 - f.moff) 0) 1

/-- A fragment reaches the transport layer: held by SSEQ, or dropped as part of a duplicate message (R143). A duplicate message
is counted by the fragment that holds its first byte. A second sending of a message of which only a part is held gives that message the bytes
that it lacks, and is no duplicate (DESIGN CHOICE, log entry 57). -/
def State.placeFrag (s : State) (stream tc sseq : Nat) (f : Frag) : State :=
  let x := s.strm stream
  let dup := fun (s : State) => s.when (f.moff == 0) (·.count32 0x20500 1)
  if 32768 ≤ (sseq + 65536 - x.e) % 65536 || s.twin.sisHeld.contains (stream, sseq) then dup s
  else
    match x.held.find? fun h => h.sseq == sseq with
    | some h =>
      let again := !wholeHeld h.frags && (h.resent || f.resend)
      let s := s.when again (·.updStrm stream fun x =>
        { x with held := x.held.map fun h => if h.sseq = sseq then { h with resent := true } else h })
      if rangeHeld h.frags f.moff (f.moff + f.bytes.length) then (if again then s else dup s)
      else
        let s := s.updTc tc fun c => { c with buf := c.buf + f.bytes.length }
        (s.updStrm stream fun x =>
          { x with held := x.held.map fun h => if h.sseq = sseq then { h with frags := h.frags ++ [f] } else h }).flowCheck tc
    | none =>
      let s := s.updTc tc fun c => { c with buf := c.buf + f.bytes.length }
      (s.updStrm stream fun x => { x with held := x.held ++ [{ sseq := sseq, tc := tc, frags := [f], resent := f.resend }] }).flowCheck tc

/-- A stub of 3 bytes shows the low byte of its SSEQ. -/
def Stub.shows (b : Stub) (q : Nat) : Bool := b.frag.bytes.length != 3 || (b.frag.bytes.getD 2 0).toNat == q % 256

/-- The stub that begins the message of SSEQ q of a class, whose other bytes begin at offset k: of that class, after a message before q, the
latest such. It belongs to q when q is next in the stream's order, so that no message of the class lies between, or when q is the number behind. -/
def Stream.stubFor (x : Stream) (tc q k : Nat) : Option Stub :=
  let back := fun (b : Stub) => (q + 65536 - b.prev) % 65536
  let fits := fun (b : Stub) => b.tc == tc && decide (k ≤ b.frag.bytes.length) && b.shows q &&
    (back b == 1 || (x.e == q && decide (1 ≤ back b ∧ back b < 32768)))
  (x.stubs.filter fits).foldl (fun o b => match o with
    | none => some b
    | some c => if back b < back c then some b else some c) none

/-- A held message that lacks its first bytes takes the stub that holds them (R128). -/
def Stream.join (x : Stream) (h : Held) : Stream :=
  let k := (h.frags.map (·.moff)).foldl min 65536
  if k = 0 ∨ 3 < k then x
  else match x.stubFor h.tc h.sseq k with
    | none => x
    | some b =>
      { x with stubs := x.stubs.erase b,
               held := x.held.map fun g => if g.sseq = h.sseq then { g with frags := g.frags ++ [b.frag], resent := g.resent || b.frag.resend }
                                         else g }

/-- The held messages of a stream take the stubs that are theirs. -/
def State.joinStub (s : State) (stream : Nat) : State := s.updStrm stream fun x => x.held.foldl Stream.join x

/-- The message that a stub begins has been released: a message of its class behind the one before it has (R143). -/
def Stream.stubDead (x : Stream) (b : Stub) : Bool :=
  decide (32768 ≤ (b.prev + 65536 - x.e) % 65536) &&
    x.lastRel.any fun l => l.1 == b.tc && decide (1 ≤ (l.2 + 65536 - b.prev) % 65536) && decide ((l.2 + 65536 - b.prev) % 65536 < 32768)

/-- A header cut short before its SSEQ: that of the next message of its class behind `prev`. It waits for its message, or joins it where its number
is known; one of a released message is a duplicate (R143). -/
def State.placeStub (s : State) (stream : Nat) (b : Stub) : State :=
  let x := s.strm stream
  let q := (b.prev + 1) % 65536
  if x.stubDead b then s.count32 0x20500 1
  else if x.held.any fun h => h.sseq == q && h.tc == b.tc then s.placeFrag stream b.tc q b.frag
  else
    let s := s.updTc b.tc fun c => { c with buf := c.buf + b.frag.bytes.length }
    (s.updStrm stream fun x => { x with stubs := x.stubs ++ [b] }).flowCheck b.tc

/-- Stubs leave the buffer of their class. -/
def State.dropStubs (s : State) (stream : Nat) (gone : Stub → Bool) : State :=
  let bs := (s.strm stream).stubs.filter gone
  let s := s.updStrm stream fun x => { x with stubs := x.stubs.filter (!gone ·) }
  s.each bs fun s b => (s.updTc b.tc fun c => { c with buf := c.buf - b.frag.bytes.length }).flowCheck b.tc

/-- Held messages leave a stream unreleased, and the buffer of their class (R117). -/
def State.dropHeld (s : State) (stream : Nat) (gone : Held → Bool) : State :=
  let hs := (s.strm stream).held.filter gone
  let s := s.updStrm stream fun x => { x with held := x.held.filter (!gone ·) }
  s.each hs fun s h => (s.updTc h.tc fun c => { c with buf := c.buf - (h.frags.map fun f => f.bytes.length).sum }).flowCheck h.tc

/-- A management function that a receiver keeps: a known FN, and for DIGEST LEN 12 (R535, R636). -/
def mgmtOk (m : Msg) : Bool :=
  let fn := fld m.arg 7 0
  (fn == 1 && m.data.length == 12) || fn == 2 || (decide (0x40 ≤ fn) && decide (fn ≤ 0x43)) || fn == 0x50

/-- The MGMT messages of an area of stream 0 and TC3, from their DATA flit: each whole, or discarded and counted (R535). -/
def State.placeMgmt : Nat → State → List Byte → Frag → State
  | 0, s, _, _ => s
  | fuel + 1, s, area, f =>
    if area.isEmpty then s
    else
      let len := 16 + hdrLen area
      if area.length < 16 ∨ area.length < len then s.tpErr
      else
        let m := msgOf 0 3 (area.take len)
        let x : MgmtIn := { msg := m, untimed := f.untimed, rdy := f.rdy, released := false, mod := f.mod, due := f.due, retrained := f.retrained,
                            flit := f.flit }
        let s := s.when (!freeOfCredit m) (·.updTc 3 fun c => { c with buf := c.buf + len })
        let s := if m.mtype = 0x30 && mgmtOk m then { s with mgmtRx := s.mgmtRx ++ [x] }
          else if freeOfCredit m then s.tpErr else s.tpErr.grant m
        State.placeMgmt fuel s (area.drop len) f

/-- The messages packed after CEND, back to back (R128). A header cut short before its SSEQ waits for the flit that names it. -/
def State.placeRest : Nat → State → Nat → Nat → Nat → List Byte → (Nat → List Byte → Frag) → State
  | 0, s, _, _, _, _, _ => s
  | fuel + 1, s, stream, tc, prev, area, fr =>
    if area.isEmpty then s
    else if area.length < 4 then
      s.placeStub stream { tc := tc, prev := prev, frag := fr 0 area }
    else
      let sq := leAt area 2 2
      let k := if 16 ≤ area.length then min (16 + hdrLen area) area.length else area.length
      State.placeRest fuel (s.placeFrag stream tc sq (fr 0 (area.take k))) stream tc sq (area.drop k) fr

/-- A flit's payload enters the transport layer (R126); `rdy` is when its receive path ends (R136). -/
def State.takeArea (s : State) (m stream tc : Nat) (pay : List Byte) (retrained : Bool) (rdy : Nat) : State :=
  let cend := (pay.getD 8 0).toNat
  let used := (pay.getD 9 0).toNat
  let w := leAt pay 6 2
  let moff := w % 8192
  let untimed := w / 8192 % 2 == 1
  let area := slice pay 12 228
  if cend = 0 ∨ 228 < cend ∨ used = 0 ∨ 228 < used ∨ used < cend then s.tpErr
  else
    let id := s.nextFlit
    let s : State := { s with nextFlit := id + 1 }
    let due := if untimed then none else s.dueOf (pay.getD 3 0).toNat (leAt pay 0 3)
    let fr := fun (o : Nat) (bs : List Byte) =>
      ({ mod := m, moff := o, bytes := bs, due := due, untimed := untimed, retrained := retrained, flit := id, rdy := rdy,
         released := false } : Frag)
    let mseq := leAt pay 4 2
    let rest := (area.take used).drop cend
    if stream = 0 && tc = 3 then
      if moff = 0 then State.placeMgmt 16 s (area.take used) (fr 0 []) else State.placeMgmt 16 s.tpErr rest (fr 0 [])
    else (State.placeRest 20 (s.placeFrag stream tc mseq (fr moff (area.take cend))) stream tc mseq rest fr).joinStub stream

/-! ## Sequence state (R88 to R92) -/

/-- Accepted flits leave the reorder slots in sequence order, and P advances over each (R90). A slot with an uncorrectable word
returns its sequence to the missing set (Table 12-9). The receive path of R136 is counted from here: a flit ends it 8 cc on, and one whose own bytes
were corrected 9 cc later, whether it waited in a slot or not; no other flit waits for it (DESIGN CHOICE, log entry 70). -/
def State.deliver : Nat → State → Nat → State
  | 0, s, _ => s
  | fuel + 1, s, m =>
    let x := s.mod m
    let q := (x.p + 1) % 4096
    match spFind x.reord q with
    | none => s
    | some f =>
      let (ue, s) := s.eccRead 0xB (m * 96 + q % 96)
      if ue then s.updMod m fun x => { x with reord := spErase x.reord q, missing := x.missing ++ [q] }
      else
        let s := s.updMod m fun x =>
          { x with p := q, reord := spErase x.reord q }
        State.deliver fuel (s.takeArea m f.stream f.tc f.pay f.retrained (s.now + 8 + 9 * b2n f.fixed)) m

/-- P has moved: A follows at 16 or starts its timer (R92). -/
def Mod.pMoved (x : Mod) (now : Nat) : Mod :=
  if 16 ≤ (x.p + 4096 - x.a) % 4096 then { x with a := x.p, ackAt := none }
  else if x.p != x.a then { x with ackAt := some (x.ackAt.getD now) }
  else x

/-- The receiver's sequence state changes, delivery follows, and what the header advertises is noted (R92, R97). -/
def State.seqStep (s : State) (m : Nat) (f : Mod → Mod) : State :=
  let old := s.mod m
  let s := State.deliver 97 (s.updMod m f) m
  s.updMod m fun x => Mod.noteHdr old (x.pMoved s.now) s.now

/-- An accepted sequenced flit as its reorder slot holds it. -/
def rxFlitOf (g : List Byte) (fixed late : Bool) : RxFlit :=
  { tc := flitTc g, stream := flitStream g, pay := flitPay g, retrained := late, fixed := fixed }

/-- Sequences from N through q − 1 (R88). -/
def skipped (n q : Nat) : List Nat := seqRun n ((q + 4096 - n) % 4096)

/-- A flit of a payload was outstanding when its module began its last retrain or went down (R141): one that comes before the own phase 7 ends, or
was granted before that, as its stamp tells, since the peer grants nothing in the retrain (R102) and ends it later than the own phase 7. A stamp
that may have come round again, or that names no tick of this instance, tells nothing until a later grant is seen (log entry 58). -/
def State.grantedBefore (s : State) (m : Nat) (pay : List Byte) : Bool :=
  let x := s.mod m
  (x.retrain.map (!·.phase7)).getD false ||
    match s.stampOf (pay.getD 3 0).toNat (leAt pay 0 3) with
    | some p => decide (p.1 ≤ x.lateFrom) || (x.after && x.lateOld)
    | none => x.after

/-- A DATA flit that verified under q (R88). The first one that was granted after a retrain is the mark of R141. -/
def Mod.takeData (x : Mod) (q : Nat) (f : RxFlit) (now : Nat) : Mod :=
  { x with missing := x.missing ++ skipped x.n q, n := (q + 1) % 4096, u := 0, after := x.after && f.retrained, rxUse := now,
           reord := spIns (spErase x.reord q) q f }

/-- DATA (R88); the reorder slot of its sequence is written (R497). -/
def execData (m : Nat) (f : List Byte) (s : State) : Host.Outcome State Fault Refusal :=
  liveWf (flitWf m f) s (·.rxFlit m f fun g fixed q s =>
    if flitType g = 1 then
      let late := s.grantedBefore m (flitPay g)
      ((s.rxCommon m g fixed).eccWritten 0xB (m * 96 + q % 96)).seqStep m (·.takeData q (rxFlitOf g (!fixed.isEmpty) late) s.now)
    else s)

/-- A RETX flit that verified under q (R89): a missing sequence, one at or after N, or a duplicate (none). -/
def Mod.takeRetx (x : Mod) (q : Nat) (f : RxFlit) (now : Nat) : Option Mod :=
  let x := { x with rxUse := now }
  if x.missing.contains q then
    some { x with missing := x.missing.filter (· != q), reord := spIns (spErase x.reord q) q f }
  else if (q + 4096 - x.n) % 4096 < (x.p + 97 + 4096 - x.n) % 4096 then
    some { x with missing := x.missing ++ skipped x.n q, n := (q + 1) % 4096, u := x.u - ((q + 1 + 4096 - x.n) % 4096),
                  reord := spIns (spErase x.reord q) q f }
  else none

/-- RETX (R89); a duplicate is counted and dropped, its header used (R91). -/
def execRetx (m : Nat) (f : List Byte) (s : State) : Host.Outcome State Fault Refusal :=
  liveWf (flitWf m f) s (·.rxFlit m f fun g fixed q s =>
    if flitType g = 2 then
      let late := s.grantedBefore m (flitPay g)
      let s := s.rxCommon m g fixed
      match (s.mod m).takeRetx q (rxFlitOf g (!fixed.isEmpty) late) s.now with
      | some x => (s.eccWritten 0xB (m * 96 + q % 96)).seqStep m fun _ => x
      | none => s.count (0x20114 + 0x20 * m) 15 0 1
    else s)

/-- IDLE (R64): header and link flags. -/
def execIdle (m : Nat) (f : List Byte) (s : State) : Host.Outcome State Fault Refusal :=
  liveWf (flitWf m f) s (·.rxFlit m f fun g fixed _ s =>
    if flitType g = 0 && (g.getD 4 0).toNat = 0 then (s.rxCommon m g fixed).takeFlags m g else s)

/-- A slot whose flit the receiver could not find: without lock, or with lock and an incorrect framing pattern (R49, R627; log entry 57). -/
def State.blindSlot (s : State) (m : Nat) : State := (s.vldMissed m).failSlot m 0x10020

/-- FAILED_SLOT (R54, R626, R627): uncorrectable, under no allowed seed, or without lock. -/
def execFailedSlot (m : Nat) (f : Option (List Byte)) (s : State) : Host.Outcome State Fault Refusal :=
  liveWf (decide (m < 16) && (f.map fun g => g.length == 256).getD true) s fun s =>
    let x := s.mod m
    if !(x.carries || x.retrain.isSome) || s.openMode then s
    else
      match f with
      | none => s.blindSlot m
      | some g =>
        if s.noLock m then s.lockless m
        else match rxClass g x.p x.n with
          | .uncorrectable => (s.vldSeen m).failSlot m 0x10020
          | .crcFail _ => (s.vldSeen m).failSlot m 0x10024
          | .good .. => s

/-- RESERVED_TYPE_FLIT (R54): counted, its ACK and NAK used; U and the NAK field stay. -/
def execReservedTypeFlit (m : Nat) (f : List Byte) (s : State) : Host.Outcome State Fault Refusal :=
  liveWf (flitWf m f) s (·.rxFlit m f fun g fixed _ s => if 4 ≤ flitType g then (s.rxCommon m g fixed).protoErr else s)

/-- RESERVED_SUBTYPE_FLIT (R629): counted, ACK and NAK used, link flags ignored. -/
def execReservedSubtypeFlit (m : Nat) (f : List Byte) (s : State) : Host.Outcome State Fault Refusal :=
  liveWf (flitWf m f) s (·.rxFlit m f fun g fixed _ s =>
    let sub := (g.getD 4 0).toNat
    if (flitType g = 3 && (sub == 0 || decide (6 ≤ sub))) || (flitType g = 0 && sub != 0) then (s.rxCommon m g fixed).protoErr
    else s)

/-! ## CREDIT and FLOW (R120, R123, R631) -/

/-- A cumulative counter is taken only when it is ahead (R631). -/
def ahead (held carried : Nat) : Nat :=
  let d := (carried + 65536 - held) % 65536
  if 1 ≤ d ∧ d ≤ 32767 then carried else held

/-- The granted counters of 16 bytes laid out as bytes 6 to 21 of the CREDIT flit. -/
def State.takeCredits (s : State) (bs : List Byte) : State :=
  if s.onOff then s else
  s.each (List.range 4) fun s c => s.updTc c fun f =>
    { f with rxH := ahead f.rxH (leAt bs (4 * c) 2), rxD := ahead f.rxD (leAt bs (4 * c + 2) 2) }

/-- CREDIT (R631); ignored in on/off mode (R123). -/
def execCredit (m : Nat) (f : List Byte) (s : State) : Host.Outcome State Fault Refusal :=
  liveWf (flitWf m f) s (·.rxCtrl m f 2 fun g s => s.takeCredits (slice g 6 16))

/-- The XOFF bits of a FLOW flit (R120); ignored in credit mode (R123). -/
def State.takeFlow (s : State) (b : Byte) : State :=
  if !s.onOff then s else s.each (List.range 4) fun s c => s.updTc c fun f => { f with xoffRx := bit b c }

/-- FLOW (R120). -/
def execFlow (m : Nat) (f : List Byte) (s : State) : Host.Outcome State Fault Refusal :=
  liveWf (flitWf m f) s (·.rxCtrl m f 3 fun g s => s.takeFlow (g.getD 6 0))

/-! ## Open mode (R543, R544) -/

/-- Operands that an Open-mode unit can carry. -/
def unitWf (m : Nat) (u : List Byte) : Bool := decide (m < 16) && u.length == 244

/-- OPEN_DATA_UNIT (R544): prefix and area as of a DATA flit, released at its ready time (R159). -/
def execOpenDataUnit (m : Nat) (u : List Byte) (s : State) : Host.Outcome State Fault Refusal :=
  liveWf (unitWf m u) s fun s =>
    if s.openMode && (s.mod m).carries && flitType u = 1 then
      let pay := slice u 4 240
      let pay := pay.set 7 (pay.getD 7 0 ||| 0x20)
      s.takeArea m (flitStream u) (flitTc u) pay false (s.now + 8)
    else s

/-- OPEN_PADDING_UNIT (R544): discarded. -/
def execOpenPaddingUnit (m : Nat) (u : List Byte) (s : State) : Host.Outcome State Fault Refusal :=
  liveWf (unitWf m u) s fun s => s

/-- OPEN_RESERVED_UNIT (R544): discarded and counted in LL_PROTO_ERR. -/
def execOpenReservedUnit (m : Nat) (u : List Byte) (s : State) : Host.Outcome State Fault Refusal :=
  liveWf (unitWf m u) s fun s =>
    if s.openMode && (s.mod m).carries && decide (2 ≤ flitType u) then s.protoErr else s

end Sys2Proof.Machine
end

