-- ==== Sys2Proof/Machine/Release.lean ====
section
/-! DEFINITION. Release: fragments at their time, messages whole in their stream's order, the transit of messages for other dies, and
the transfer messages at their user ports (04, R129 to R148; 06, R239 to R248, R253 to R255, R265 to R269; 13, R531). -/
namespace Sys2Proof.Machine

/-! ## Messages that cannot go on (R254, R531) -/

/-- The record of an operation's messages that this instance turns away toward a die. -/
def transitKey (m : Msg) : FarKey := { farKey m with stream := m.stream + 64 * (1 + m.dst.toNat) }

/-- A return toward SRC_DIE: to the sister that ORIG names on the own die, or by the route. -/
def State.sendReturn (s : State) (m : Msg) (orig : BitVec 3) : State :=
  if m.dst.toNat = s.die then s.sendXpt orig (.msg s.inst m) else s.sendRouted m

/-- R254: an unroutable message is discarded and counted; the last WRITE of an operation and a SIGNAL are answered with a COMPLETION, a
READ_REQ with a READ_DATA, of status NO_ROUTE. -/
def State.unroutable (s : State) (m : Msg) : State :=
  let s := (s.count32 0x20640 1).irq 1
  let k := transitKey m
  let done := fun (s : State) (f : FarOp) => (s.dropFar k).sendReturn
    (s.answer m 0x05 0 (completionArg 5 f.psn f.ecount (origOf m)) [] false) (origOf m)
  match m.mtype.toNat with
  | 0x01 =>
    let f := { (s.farOp k).fail 5 s.ord 1 with psn := (s.farOp k).psn || m.poison }
    if bit m.arg 51 then done s f else s.setFar f
  | 0x04 => done s ((s.farOp k).fail 5 s.ord 1)
  | 0x02 =>
    let f := s.farOp k
    let s := if bit m.arg 51 then s.dropFar k else s.setFar { f with rnum := (f.rnum + 1) % 4096 }
    s.sendReturn (s.answer m 0x03 m.tc (bf 64 11 0 f.rnum ||| bf 64 14 12 (origOf m).toNat ||| bf 64 15 15 (b2n (bit m.arg 51)) |||
      bf 64 19 16 5) [] false) (origOf m)
  | _ => s

/-- The capability that a message type needs, if any (R527, R531). -/
def msgCap (m : Msg) : Option Nat :=
  if isHv m then some 8
  else if (decide (0x20 ≤ m.mtype.toNat) && decide (m.mtype.toNat ≤ 0x23)) || (m.mtype == 0x01 && bit m.arg 52) then some 10
  else none

/-- A transit message reaches the pass-through port (R138, R254): the sister that the route names takes it, or the twin that owns its
stream (R446). It leaves this link, so its mark of a second sending does not go on. -/
def State.transitOut (s : State) (m : Msg) : State :=
  let s := s.readRoute m
  match s.outlet m with
  | some (false, i) => s.sendXpt i (.msg s.inst { m with resend := false })
  | _ => s.unroutable m

/-! ## Fragments (R131, R137, R139, R141) -/

/-- The fragment is released at its ready time: untimed, or counted under R141. -/
def State.fragOpen (s : State) (h : Held) (f : Frag) : Bool :=
  f.untimed || !s.locked || s.openMode || f.due.isNone || f.retrained || h.resent

/-- The fragment's release time has come (R131). -/
def State.fragReady (s : State) (h : Held) (f : Frag) : Bool :=
  !f.released && decide (f.rdy ≤ s.now) && (s.fragOpen h f || decide (f.due.getD 0 ≤ s.now))

/-- The fragment of the lowest offset. -/
def lowFrag (fs : List Frag) : Option Frag :=
  fs.foldl (fun b f => match b with
    | none => some f
    | some g => if f.moff < g.moff then some f else some g) none

/-- A flit is counted once for its lateness, in the tick in which that is first seen. -/
def State.lateOnce (s : State) (flit : Nat) (f : State → State) : State :=
  if s.lateFlits.any fun e => e.1 == flit then s else f { s with lateFlits := s.lateFlits ++ [(flit, s.tick.num)] }

/-- A flit released after its due time (R139): counted once, and its largest lateness in the tick that counts it. -/
def State.slip (s : State) (flit late : Nat) : State :=
  let s := s.lateOnce flit fun s => { s with slipN := s.slipN + 1 }
  s.when (s.lateFlits.contains (flit, s.tick.num)) fun s => { s with slipMax := max s.slipMax late }

/-- A flit has no timing (R130, R137). -/
def State.fragUntimed (s : State) (untimed : Bool) (due : Option Nat) : Bool := untimed || !s.locked || s.openMode || due.isNone

/-- The record that a release from a flit makes: UNTIMED, RETRAIN_LATE, or slip (R130, R137, R139, R141). -/
def State.noteFlit (s : State) (untimed : Bool) (due : Option Nat) (retrained : Bool) (flit : Nat) : State :=
  let open_ := s.fragUntimed untimed due
  let s := s.when open_ (·.setBit 0x20058 3)
  if retrained then s.lateOnce flit fun s => (s.count32 0x20078 1).setBit 0x20058 1
  else s.when (!open_ && decide (due.getD 0 < s.now)) (·.slip flit (s.now - due.getD 0))

/-- The record that a fragment's release makes; a message with RESEND counts as one (R141). -/
def State.noteFrag (s : State) (h : Held) (f : Frag) : State :=
  if h.resent then
    (s.when (s.fragUntimed f.untimed f.due) (·.setBit 0x20058 3)).when (!h.late) fun s => (s.count32 0x20078 1).setBit 0x20058 1
  else s.noteFlit f.untimed f.due f.retrained f.flit

/-- The due time of a whole message: the latest of its timed fragments, none for one that R137 or R141 takes out. -/
def State.heldDue (s : State) (h : Held) : Option Nat :=
  if h.frags.any (s.fragOpen h) then none else some ((h.frags.map fun f => f.due.getD 0).foldl max 0)

/-- Message types of Table 4-3 that a stream carries. -/
def mtypeKnown (m : Msg) : Bool :=
  let t := m.mtype.toNat
  (decide (1 ≤ t) && decide (t ≤ 5)) || (decide (0x10 ≤ t) && decide (t ≤ 0x12)) || (decide (0x20 ≤ t) && decide (t ≤ 0x23))

/-- A message of this die goes to its user port. A SIGNAL takes the stream's sticky flags with it (R269). -/
def State.toPort (s : State) (n : Nat) (m : Msg) (due : Option Nat) : State :=
  let sig := m.mtype == 0x04
  let x := s.strm n
  let (i, s) := s.fresh
  let r : Rel := { ord := i, dom := n, msg := m, due := due, tick := s.tick.num, held := false,
                   psn := sig && x.psn, err := sig && x.err }
  let s := s.when sig (·.updStrm n fun x => { x with psn := false, err := false })
  { s with rel := s.rel ++ [r] }

/-- A message released in full (R129, R132, R138, R269); with POISON where its bytes were uncorrectable in the receive buffer
(Table 12-9). A SIGNAL clears the stream's sticky flags, one for another die too. -/
def State.releaseMsg (s : State) (n : Nat) (m : Msg) (due : Option Nat) : State :=
  let (hit, s) := s.memHit 8
  let m := { m with poison := m.poison || hit }
  if !mtypeKnown m then s.tpErr.grant m
  else
    let s := s.when m.poison (·.updStrm n fun x => { x with psn := true })
    if m.dst.toNat != s.die then
      ((s.grant m).when (m.mtype == 0x04) (·.updStrm n fun x => { x with psn := false, err := false })).transitOut m
    else s.toPort n m due

/-- The stubs of a message that has been released: those of its class behind a message before it (R143). They are duplicates, unless a second
sending of the message gave it bytes. -/
def State.releasedStubs (s : State) (n : Nat) (h : Held) : State :=
  let gone := fun (b : Stub) => b.tc == h.tc && decide (1 ≤ (h.sseq + 65536 - b.prev) % 65536) &&
    decide ((h.sseq + 65536 - b.prev) % 65536 < 32768)
  let k := ((s.strm n).stubs.filter gone).length
  let s := s.updStrm n fun x => { x with lastRel := x.lastRel.filter (·.1 != h.tc) ++ [(h.tc, h.sseq)] }
  (s.when (!h.resent && decide (0 < k)) (·.count32 0x20500 k)).dropStubs n gone

/-- The marks of late flits of which nothing is held any more are forgotten. -/
def State.forgetLate (s : State) : State :=
  let live := (s.streams.flatMap fun x =>
    (x.2.held.flatMap fun g => (g.frags.filter (!·.released)).map (·.flit)) ++ x.2.stubs.map (·.frag.flit)) ++
    (s.mgmtRx.filter (!·.released)).map (·.flit)
  { s with lateFlits := s.lateFlits.filter fun e => live.contains e.1 }

/-- A held message of stream n whose last byte is released leaves the stream, and E moves on (R143). Bytes that a second sending
brought twice leave the buffer with it. -/
def State.heldDone (s : State) (n : Nat) (h : Held) : State :=
  let fs := h.frags.filter (·.released)
  match heldLen fs with
  | none => s
  | some k =>
    if coveredTo (fs.length + 1) fs 0 < k then s
    else
      let m := msgOf n h.tc (fragBytes fs k)
      let due := s.heldDue h
      let extra := (h.frags.map fun f => f.bytes.length).sum - k
      let s := (s.updStrm n fun x => { x with e := (x.e + 1) % 65536, held := x.held.filter fun g => g.sseq != h.sseq }).updTc h.tc
        fun c => { c with buf := c.buf - extra }
      (s.releasedStubs n h).forgetLate.releaseMsg n m due

/-- The stream releases fragments: it does not stop, or the message of its turn stands before the E that the other twin has (R454). -/
def Stream.flows (x : Stream) : Bool := !x.stopped || (x.runTo.map (· != x.e)).getD false

/-- The next fragment of stream n's turn, if its time has come: on a stream that has gone to the other twin its ready time (R454). -/
def State.releaseFrag (s : State) (n : Nat) : State :=
  let s := s.joinStub n
  let x := s.strm n
  if !x.flows || s.rel.any (fun r => r.held && r.dom == n) then s else
  match x.held.find? fun h => h.sseq == x.e with
  | none => s
  | some h =>
    match lowFrag (h.frags.filter fun f => if x.stopped then !f.released && decide (f.rdy ≤ s.now) else s.fragReady h f) with
    | none => s
    | some f =>
      let s := s.noteFrag h f
      let h' := { h with late := h.late || h.resent,
                         frags := h.frags.map fun g => if g.moff = f.moff && g.flit = f.flit then { g with released := true } else g }
      (s.updStrm n fun x => { x with held := x.held.map fun g => if g.sseq = h.sseq then h' else g }).heldDone n h'

/-- The phase of a management function is one that its table names (Tables 11-2, 12-3, 13-8). -/
def mgmtPhaseOk (m : Msg) : Bool :=
  let fn := fld m.arg 7 0
  if fn = 0x50 then decide (1 ≤ fld m.arg 10 8) && decide (fld m.arg 10 8 ≤ 4)
  else if fn = 0x40 ∨ fn = 0x42 ∨ fn = 0x43 then fld m.arg 9 8 == 1 || fld m.arg 9 8 == 2
  else true

/-- The oldest management function whose ready time has come is released, outside R143 (R535), with the record of its flit (R137, R139, R141); one of
no phase is let go. -/
def State.releaseMgmt (s : State) : State :=
  match s.mgmtRx.findIdx? fun x => !x.released && decide (x.rdy ≤ s.now) with
  | none => s
  | some i =>
    match s.mgmtRx[i]? with
    | some x =>
      let s := s.noteFlit x.untimed x.due x.retrained x.flit
      if mgmtPhaseOk x.msg then { s with mgmtRx := s.mgmtRx.modify i fun x => { x with released := true } }.forgetLate
      else ({ s with mgmtRx := s.mgmtRx.eraseIdx i } : State).forgetLate.grant x.msg
    | none => s

/-- FRAGMENT_RELEASE of a stream, or of the management functions. -/
def execFragmentRelease (stream : Option Nat) (s : State) : Host.Outcome State Fault Refusal :=
  liveWf ((stream.map fun n => decide (n < 64)).getD true) s fun s =>
    match stream with
    | some n => s.releaseFrag n
    | none => s.releaseMgmt

/-! ## User ports of the transfer messages -/

/-- Some write of an earlier message of the same order is not acknowledged yet (R147, R239). -/
def State.writesBefore (s : State) (r : Rel) : Bool :=
  s.wrq.any (fun w => w.stream == some r.dom && decide (w.ord < r.ord)) ||
    s.rel.any (fun x => x.dom == r.dom && decide (x.ord < r.ord) &&
      (x.msg.mtype == 0x01 || x.msg.mtype == 0x03 || (decide (0x20 ≤ x.msg.mtype.toNat) && decide (x.msg.mtype.toNat ≤ 0x22)))) ||
    s.far.any (fun f => f.pend.any fun p => p.2.1 == r.dom && decide (p.2.2 < r.ord)) ||
    s.recOps.any (fun x => x.src.isNone && x.msg.src.toNat != s.die && x.msg.stream == r.dom && decide (x.id < r.ord))

/-- WRITE_RELEASE (R251, R257). -/
def execWriteRelease (stream : Nat) (s : State) : Host.Outcome State Fault Refusal :=
  liveWf (decide (stream < 64)) s fun s =>
    match s.nextRel stream (·.mtype == 0x01) 0x01 with
    | some r => ((s.takeWritten r).takeWrite r.msg r.dom r.ord).payOwed
    | none => s

/-- The answer that a READ_REQ prepares, before its data is in (R237, R239, R243). -/
def State.readAnswer (s : State) (m : Msg) (rnum : Nat) : Msg :=
  s.answer m 0x03 m.tc (bf 64 11 0 rnum ||| bf 64 14 12 (origOf m).toNat ||| bf 64 15 15 (b2n (bit m.arg 51))) [] false

/-- A READ_REQ reads its source (R239). -/
def State.takeReadReq (s : State) (m : Msg) : State :=
  let k := farKey m
  let f := s.farOp k
  let n := fld m.arg 63 52 + 1
  let a := msgAddr m
  let s := if bit m.arg 51 then s.dropFar k else s.setFar { f with rnum := (f.rnum + 1) % 4096 }
  let (i, s) := s.fresh
  let q : Rsp := { id := i, msg := s.readAnswer m f.rnum, ready := false, base := a, len := n, buf := [],
                   rdLeft := (reqSpans a n).length, since := s.now }
  ({ s with rsp := s.rsp ++ [q] } : State).readMem (.rsp i) a n

/-- READ_REQ_RELEASE (R239). -/
def execReadReqRelease (stream : Nat) (s : State) : Host.Outcome State Fault Refusal :=
  liveWf (decide (stream < 64)) s fun s =>
    match s.nextRel stream (·.mtype == 0x02) 0x02 with
    | some r => if s.writesBefore r then s else (s.takeRel r).takeReadReq r.msg
    | none => s

/-- Bytes put into a granule buffer. -/
def bufPut (buf : List (Nat × Gran)) (a : Nat) (bs : List Byte) (bad : Bool) : List (Nat × Gran) :=
  let gs := (List.range (ceilDiv (a % 64 + bs.length) 64)).map (a / 64 + ·)
  gs.foldl (fun buf g =>
    let old : Gran := (spFind buf g).getD { data := List.replicate 64 0, bad := false }
    let data := (List.range 64).map fun i =>
      if a ≤ g * 64 + i ∧ g * 64 + i < a + bs.length then bs.getD (g * 64 + i - a) 0 else old.data.getD i 0
    (buf.filter fun e => e.1 != g) ++ [(g, { data := data, bad := old.bad || bad })]) buf

/-- A READ_DATA of an operation (R240, R266, R267): it answers the first request toward its die that has none, whose bytes are written to
near memory, or taken by the engine for a bitmap; a status other than OK and POISON ends the request. -/
def State.takeReadData (s : State) (m : Msg) (dom ord : Nat) : State :=
  let tag := m.optag.toNat
  match s.op? tag with
  | none => s
  | some o =>
    let mine := o.trk.find? fun t => !t.2.ans && t.2.sdie == m.src.toNat
    match (match mine with | some t => some t | none => o.trk.find? fun t => !t.2.ans) with
    | none => s
    | some (k, p) =>
      let st := fld m.arg 19 16
      let free := o.trk.filter fun t => t.1 != k
      if 2 ≤ st then (s.setOp { o.fail st true 1 with trk := free }).opCheck tag |>.pump
      else
        let psn := m.poison || st == 1
        let bs := slice m.data 0 p.len
        let o := { (if psn then o.fail 1 true 1 else o) with psn := o.psn || psn }
        if p.ddie = 16 then (s.setOp { o with trk := free, buf := bufPut o.buf p.daddr bs psn }).pump
        else
          let trk := o.trk.map fun t => if t.1 = k then (t.1, { t.2 with ans := true }) else t
          (s.setOp { o with trk := trk }).writeMem (.near tag k) (some dom) ord p.daddr bs psn

/-- A response to an operation that this twin runs for its sister (R447): its outcome counts for the report, and its last one from a die
for the operation's end. -/
def State.noteForeign (s : State) (r : Rel) (orig st : Nat) (psn : Bool) (ecount : Nat) (last : Bool) : State :=
  let tag := 256 + r.msg.optag.toNat
  match s.op? tag with
  | none => s
  | some o =>
    if orig != s.sister.toNat || orig = s.inst.toNat then s
    else if last then s.takeCompletion tag r.msg.src.toNat st psn ecount
    else s.setOp { o.fail st true ecount with psn := o.psn || psn, farPsn := o.farPsn || psn }

/-- READ_DATA_RELEASE (R240, R244). -/
def execReadDataRelease (stream : Nat) (s : State) : Host.Outcome State Fault Refusal :=
  liveWf (decide (stream < 64)) s fun s =>
    match s.nextRel stream (·.mtype == 0x03) 0x03 with
    | some r =>
      let a := r.msg.arg
      let s := s.noteForeign r (fld a 14 12) (fld a 19 16) (r.msg.poison || fld a 19 16 == 1) (b2n (r.msg.poison || fld a 19 16 != 0)) (bit a 15)
      (s.respForward r (fld a 14 12)).getD ((s.takeWritten r).takeReadData r.msg r.dom r.ord).payOwed
    | none => s

/-- A SIGNAL takes effect (R147, R246, R247, R269). -/
def State.takeSignal (s : State) (r : Rel) : State :=
  let m := r.msg
  let late := (r.due.map fun d => decide (d < s.now)).getD false
  let s := s.when late fun s => (s.count32 0x2007C 1).setBit 0x20058 2
  let s := s.evAdd (fld m.arg 5 0) (fld m.arg 47 16) r.err r.psn
  s.respond (s.answer m 0x05 0 (completionArg 0 false 0 (origOf m)) [] false)

/-- SIGNAL_RELEASE. -/
def execSignalRelease (stream : Nat) (s : State) : Host.Outcome State Fault Refusal :=
  liveWf (decide (stream < 64)) s fun s =>
    match s.nextRel stream (·.mtype == 0x04) 0x04 with
    | some r => if s.writesBefore r then s else (s.takeRel r).takeSignal r
    | none => s

/-- COMPLETION_RELEASE (R244, R245, R267, R268). -/
def execCompletionRelease (stream : Nat) (s : State) : Host.Outcome State Fault Refusal :=
  liveWf (decide (stream < 64)) s fun s =>
    match s.nextRel stream (·.mtype == 0x05) 0x05 with
    | some r =>
      let a := r.msg.arg
      let s := s.noteForeign r (origOf r.msg).toNat (fld a 3 0) (bit a 4) (fld a 31 8) true
      (s.respForward r (origOf r.msg).toNat).getD
        ((s.takeRel r).takeCompletion r.msg.optag.toNat r.msg.src.toNat (fld a 3 0) (bit a 4) (fld a 31 8))
    | none => s

/-! ## The pass-through port (R253, R255, R414, R531) -/

/-- A unit of the pass-through port: a message of this die to its user port, one for another die to this link, or a report of R414. -/
def State.takeUnit (s : State) : XptUnit → State
  | .ack _ => ({ s with ackWait := s.ackWait - 1 } : State).startChecks
  | .msg src m =>
    if m.dst.toNat = s.die then
      let (i, s) := s.fresh
      { s with rel := s.rel ++ [{ ord := i, dom := 64 * (1 + src.toNat) + m.stream, msg := m, due := none,
                                  tick := s.tick.num, held := false, psn := false, err := false }] }
    else if ((msgCap m).map fun c => !s.cap c).getD false then s.unroutable m
    else { s with transit := s.transit ++ [{ msg := m, src := src, since := s.now }] }

/-- Operands that a unit can carry: a stream and a class of the link. -/
def unitOk : XptUnit → Bool
  | .ack _ => true
  | .msg _ m => decide (m.stream < 64) && decide (m.tc < 4) && decide (m.data.length ≤ 4096)

/-- PASS_THROUGH_UNIT. -/
def execPassThroughUnit (u : XptUnit) (s : State) : Host.Outcome State Fault Refusal := 
  liveWf (unitOk u) s fun s => s.when (!s.blank) (·.takeUnit u)

end Sys2Proof.Machine
end

