-- ==== Sys2Proof/Machine/Retrain.lean ====
section
/-! DEFINITION. Retrains of one module, lock loss, Frost that retrains, and the planned rate change (02, R68, R79, R80, R628; 03,
R103 to R105, R630; 04, R153 to R157). -/
namespace Sys2Proof.Machine

/-- A module that a retrain may take: trained once, present, and not already in a retrain or asleep (R103, R106, R466). -/
def State.canRetrain (s : State) (m : Nat) : Bool :=
  let x := s.mod m
  decide (m < modules s.member) && x.retrain.isNone && s.trn.st == 5 && x.st != .midwinter && x.st != .training

/-- A retrain that this end wants; a module in Fallow is woken first (R486). -/
def State.wantRetrain (s : State) (m reason : Nat) : State :=
  if !s.canRetrain m then s
  else if s.openMode then s.ucieRetrain m
  else if (s.mod m).st = .fallow then s.updMod m fun x =>
    { x with wantRetrain := some reason, wantWake := true }
  else s.requestRetrain m reason

/-- The peer's request: the module enters the retrain, and RETRAIN answers on its sideband (R103). -/
def State.joinRetrain (s : State) (m reason : Nat) : State :=
  if s.canRetrain m && !s.openMode then (s.enterRetrain m reason false false).sendSb m 0x16 [BitVec.ofNat 64 reason] else s

/-- RETRAIN_REQ (R103): a reserved reason counts as 0x02 (Table 3-5). -/
def execRetrainReq (m : Nat) (f : List Byte) (s : State) : Host.Outcome State Fault Refusal :=
  liveWf (flitWf m f) s (·.rxCtrl m f 5 fun g s =>
    let r := (g.getD 7 0).toNat
    s.joinRetrain (g.getD 6 0).toNat (if 1 ≤ r ∧ r ≤ 4 then r else 2))

/-- RETRAIN (R103): the answer stops the requester's repetition and starts its limit (R630); otherwise it is a request. -/
def execRetrain (m : Nat) (x : SbMsg) (s : State) : Host.Outcome State Fault Refusal :=
  liveWf (decide (m < 16)) s fun s =>
    if !(s.sbLive && sbOk 0x16 1 x) then s else
    let k := sbModule x
    match (s.mod k).retrain with
    | some r =>
      if r.mine && !r.answered then
        s.updMod k fun y => { y with retrain := some { r with answered := true, limitFrom := some s.now } }
      else s
    | none => let r := fld (sbWord x 0) 7 0; s.joinRetrain k (if 1 ≤ r ∧ r ≤ 4 then r else 2)

/-- RETRAIN_REQ_RESEND (R103). -/
def execRetrainReqResend (m : Nat) (s : State) : Host.Outcome State Fault Refusal :=
  liveWf (decide (m < 16)) s fun s =>
    match (s.mod m).retrain with
    | some r =>
      if r.mine && !r.answered && decide (r.nextReq ≤ s.now) then
        let gap := s.retrainGap m
        (s.sendRetrainReq m r.reason.toNat).updMod m fun y => { y with retrain := some { r with nextReq := s.now + gap } }
      else s
    | none => s

/-- Every outstanding flit is to be repeated in ascending order, with its count at zero (R104). -/
def Mod.repeatAll (x : Mod) : Mod :=
  { x with rep := x.rep.map fun e => { e with owed := true, rpt := true, retx := 0, wait := 0 } }

/-- A module is back in service after a training or retrain: ACTIVE, LL_LAT_MIN (R134), in on/off mode a FLOW flit due (R119). The mode of
flow control in force while the link is up is kept for R124. The set of lanes that holds lock at the end is taken without a move, and raises no
ALT_SWITCH (DESIGN CHOICE, log entry 68). -/
def State.modUp (s : State) (m : Nat) : State :=
  let s := s.when s.linkDownNow (·.linkUp)
  let s := s.updMod m fun x =>
    { x with st := .active, retrain := none, frost := none, tphase := 0, lostAt := none, clkLost := false,
             altSel := altSet s.member && !(x.clkP && x.frmP), retiring := x.wasRetired, lastUse := s.now, rxUse := s.now, vldGood := 0, vldBad := 0 }
  let s : State := { s with trn := { s.trn with linkDown := false, fcLast := some s.onOff } }
  let s := s.setLatMin.flowAll
  (s.when s.onOff fun s => { s with flowDue := s.active, flowLast := s.now }).twinRepaired

/-- The end of a Frost sequence on a module (R154); after a width's, DEGRADE and the result of the repair. A rate or width that its retrain did not
bring stays planned. -/
def State.thaw (s : State) (m : Nat) (r : Retrain) : State :=
  let s := s.updMod m fun x =>
    { x with frost := none, planRate := if r.newRate then none else x.planRate, planWidth := if r.newWidth then none else x.planWidth }
  s.when r.newWidth (·.widthDone m)

/-- A rate or width that came due while the module was in another retrain or in Fallow has its Frost now (R74, R155). -/
def State.lateFrost (s : State) (m : Nat) : State :=
  match (s.mod m).planWidth, (s.mod m).planRate with
  | some _, _ => (s.enterFrost m 2 true true).setGap 2 s.gapTicks
  | none, some _ => s.enterFrost m 3 true true
  | none, none => s

/-- A module that has been retrained in the exit of Midwinter waits in Frost for Thaw (Table 12-6). -/
def State.exitHold (s : State) (m : Nat) : State :=
  let f : Frost := { since := s.now, kind := 5, tx := true, rx := true, switched := true }
  s.updMod m fun x => { x with st := .frost, retrain := none, tphase := 0, frost := some f }

/-- RETRAIN_END (R104, R105): phase 7 done and a flit accepted; outstanding flits are repeated, and probation begins. -/
def execRetrainEnd (m : Nat) (s : State) : Host.Outcome State Fault Refusal :=
  liveWf (decide (m < 16)) s fun s =>
    match (s.mod m).retrain with
    | some r =>
      if r.phase7 && r.gotFlit && s.pwr.st == 4 then s.exitHold m
      else if r.phase7 && r.gotFlit then
        let s := (s.when r.planned (·.thaw m r)).updMod m fun x => { x.repeatAll with prob := some 65536 }
        ((s.modUp m).gapThaw).lateFrost m
      else s
    | none => s

/-- RETRAIN_TIMEOUT (R630): 7,200 cc (at 2.4 GHz) after the limit's start, the module is declared down. -/
def execRetrainTimeout (m : Nat) (s : State) : Host.Outcome State Fault Refusal :=
  liveWf (decide (m < 16)) s fun s =>
    match (s.mod m).retrain.bind (·.limitFrom) with
    | some t => if t + s.dur 7200 ≤ s.now then s.modDown m else s
    | none => s

/-- LL_MOD_CTRL_RETRAIN (R103): reason 0x02. -/
def execLlModCtrlRetrain (m : Nat) (s : State) : Host.Outcome State Fault Refusal :=
  portCmdWf (decide (m < 16)) s (·.wantRetrain m 2)

/-! ## Lock (R79, R80, R628) -/

/-- LOCK_LOSS (R79). -/
def execLockLoss (m : Nat) (alt clk : Bool) (s : State) : Host.Outcome State Fault Refusal :=
  liveWf (decide (m < 16)) s (·.lockLoss m alt clk)

/-- LOCK_TIMEOUT (R80): lock lost on every available set of lanes for longer than PA_CFG.LOCK_TIMEOUT. With ALT_AUTO at 0 the receiver moves to no
other set, and the one in use is the only available one (DEDUCED, log entry 57). -/
def execLockTimeout (m : Nat) (s : State) : Host.Outcome State Fault Refusal :=
  liveWf (decide (m < 16)) s fun s =>
    match (s.mod m).lostAt with
    | some t =>
      if t + s.rf (0x10004 + 0x1000 * m) 15 0 < s.now && !(s.mod m).rxLock && (s.mod m).carries then
        ((s.setBit (0x1001C + 0x1000 * m) 1).irq 0).modDown m
      else s
    | none => s

/-- LOCK_REGAIN (R628): a set of lanes holds both locks again. -/
def execLockRegain (m : Nat) (alt : Bool) (s : State) : Host.Outcome State Fault Refusal :=
  liveWf (decide (m < 16)) s (·.lockRegain m alt true)

/-- PRBS23 is checked on an unassigned spare and on a replaced lane (R68, Table 12-1). -/
def State.prbsWatched (s : State) (m lane : Nat) : Bool :=
  let mp := spare4 (s.mod m).spRx
  hasLane s.member lane && if 64 ≤ lane then !(mp.getD (lane - 64) {}).valid else mp.any fun p => p.valid && p.lane == lane

/-- SPARE_PRBS_ERROR (R68): PRBS23 errors on an unassigned spare or a replaced lane of the receive direction. -/
def execSparePrbsError (m lane count : Nat) (s : State) : Host.Outcome State Fault Refusal :=
  liveWf (decide (m < 16) && decide (lane < 68)) s fun s =>
    if s.prbsWatched m lane && decide (0 < count) && decide (m < modules s.member) then
      let s := (s.count (0x10300 + 0x1000 * m + 4 * lane) 15 0 count).setBit (0x1001C + 0x1000 * m) 6
      s.updHm fun h => { h with nPrbs := spAdd h.nPrbs (68 * m + lane) count }
    else s

/-! ## Frost that retrains (R153, R155 to R157) -/

/-- The direction is drained: nothing granted or outstanding, and no fragment from the module unreleased, in a reorder slot or delivered (R153). -/
def State.drained (s : State) (m : Nat) : Bool :=
  (s.mod m).rep.isEmpty && (s.mod m).grants.isEmpty && (s.mod m).reord.isEmpty &&
    (s.mgmtRx.all fun x => x.released || x.mod != m) &&
    s.streams.all fun e => (e.2.stubs.all fun b => b.frag.mod != m) && e.2.held.all fun h => h.frags.all fun f => f.released || f.mod != m

/-- FROST_ENTRY_COMPLETE (R153): drained, or Solstice + 480 cc; the planned retrain begins, at the new width or rate. Under
Midwinter the module only drains (R489). -/
def execFrostEntryComplete (m : Nat) (s : State) : Host.Outcome State Fault Refusal :=
  liveWf (decide (m < 16)) s fun s =>
    match (s.mod m).frost with
    | some f =>
      if f.kind = 1 || (s.mod m).retrain.isSome || !(s.drained m || decide (f.since + 480 ≤ s.now)) then s
      else if f.kind = 5 then s.updMod m fun x => { x with frost := some { f with switched := true } }
      else
        let x := s.mod m
        let mark := fun (x : Mod) => { x with retrain := x.retrain.map fun r =>
          { r with newRate := x.planRate.isSome, newWidth := x.planWidth.isSome } }
        let s := s.updMod m fun x => { x with width := x.planWidth.getD x.width, rate := x.planRate.getD x.rate }
        if f.kind = 4 then ((s.sendRetrainReq m 3).enterRetrain m 3 true true).updMod m mark
        else ((s.enterRetrain m 0 false true).updMod m mark).when (s.planRun && x.planRate.isSome) (·.sendRate m (s.mod m).rate)
    | none => s

/-- GAP_OVER (R156): Thaw has not come by the end of the declared gap. -/
def execGapOver (s : State) : Host.Outcome State Fault Refusal :=
  live s fun s =>
    match s.gapEnd with
    | some t =>
      if bit (s.rg 0x20074) 31 && !future t s.tick.num then { s.setBit 0x20058 5 with gapEnd := none } else s
    | none => s

/-- A write of LL_PLAN (Table 4-10): RATE is limited to the member's maximum (R522), GAP_TICKS 0 stores 1; GO is refused when the tick is not LOCKED
or LL_PLAN_TICK is not in the future, and else waits for its Solstice, with the modules in Fallow woken for it (R486). A GO while a request waits
takes its place, unless it is refused: the older one then waits on (DESIGN CHOICE, log entry 57). In Open mode no rate changes under Frost (Table
13-11), and GO does nothing. -/
def State.writePlan (s : State) (d : W32) : State :=
  let rate := min (fld d 23 20) (maxRate s.member)
  let gap := max 1 (fld d 15 8)
  let s := (s.setRf 0x20060 23 20 rate).setRf 0x20060 15 8 gap
  let t := (s.rg64 0x20068).toNat % tickMod
  if !bit d 31 || s.openMode then s
  else if !s.locked then s.setRf 0x20060 30 28 4
  else if !future t s.tick.num then s.setRf 0x20060 30 28 2
  else
    let s := s.each s.allMods fun s m => s.updMod m fun x => { x with wantWake := x.wantWake || x.st == .fallow }
    { s.setRf 0x20060 30 28 0 with plan := some (t, rate, gap) }

/-- LL_PLAN_GO (R155). -/
def execLlPlanGo (d : W32) (s : State) : Host.Outcome State Fault Refusal := portCmd s (·.writePlan d)

/-- Every module of the link enters Frost for a retrain at a rate. One still in Fallow is woken for it, and one in another retrain has it after
that (R155, R486). -/
def State.frostAll (s : State) (kind : Nat) (rate : Option Nat) : State :=
  let ms := s.allMods.filter fun m => let x := s.mod m
    x.carries || (rate.isSome && (x.st == .fallow || x.retrain.isSome))
  s.each ms fun s m => (s.enterFrost m kind true true).updMod m fun x =>
    { x with planRate := rate, rateGot := false, wantWake := x.wantWake || (rate.isSome && x.st == .fallow) }

/-- The planned rate change at its target Solstice: refused with 4 or 3, or begun (R155, R156); a target that the count passed
without a Solstice is refused LATE. -/
def State.planSolstice (s : State) : State :=
  match s.plan with
  | none => s
  | some (t, rate, gap) =>
    if future t s.tick.num then s
    else
      let s : State := { s with plan := none }
      if s.openMode then s
      else if t != s.tick.num then s.setRf 0x20060 30 28 2
      else if !s.locked then s.setRf 0x20060 30 28 4
      else if gap * s.period < s.gapCc then s.setRf 0x20060 30 28 3
      else { (s.frostAll 3 (some rate)).setGap 3 gap with planRun := true }

end Sys2Proof.Machine
end

