-- ==== Sys2Proof/Machine/Mgmt.lean ====
section
/-! DEFINITION. Management functions as received: DIGEST, CREDIT, and the retirement of modules (04, R150; 11, R464 to R467; 13, R535 to
R539, R545, R636). -/
namespace Sys2Proof.Machine

/-- FN of a management message. -/
def mgmtFn (m : Msg) : Nat := fld m.arg 7 0
/-- The target tick that a management function names. -/
def mgmtTick (m : Msg) : Nat := fld m.arg 63 16

/-- The oldest released management function of a kind is taken; its credits return unless it took none (Table 13-8). -/
def State.takeMgmt (s : State) (is : Msg → Bool) (act : MgmtIn → State → State) : State :=
  match s.mgmtRx.findIdx? fun x => x.released && is x.msg with
  | none => s
  | some i =>
    match s.mgmtRx[i]? with
    | none => s
    | some x =>
      let s : State := { s with mgmtRx := s.mgmtRx.eraseIdx i }
      act x (s.when (!freeOfCredit x.msg) (·.grant x.msg))

/-- A function of a number and a phase in [9:8]. -/
def mgmtIs (fn phase : Nat) (m : Msg) : Bool := mgmtFn m == fn && fld m.arg 9 8 == phase

/-! ## DIGEST (R538, R539) -/

/-- Bits of Table 13-9 in which two digest inputs differ. -/
def digestDiff (a b : List Byte) : Nat :=
  let b7 := fun (x : List Byte) => (x.getD 7 0).toNat
  b2n (leAt a 0 4 != leAt b 0 4) + 2 * b2n (leAt a 4 2 != leAt b 4 2) + 4 * b2n (a.getD 6 0 != b.getD 6 0) +
    8 * b2n (b7 a % 2 != b7 b % 2) + 16 * b2n (b7 a / 2 % 2 != b7 b / 2 % 2) + 32 * b2n (b7 a / 4 % 4 != b7 b / 4 % 4)

/-- The own values that a DIGEST is compared with: those of the tick it names, when both ends were LOCKED in Native mode; none for an
older or a later tick. -/
def State.digestRef (s : State) (x : MgmtIn) : Option (List Byte) :=
  let n := mgmtTick x.msg
  let own := s.digestInput false
  if !s.locked || s.openMode || x.untimed then some own
  else if n = s.tick.num then some own
  else if (n + 1) % tickMod = s.tick.num && !s.digPrev.isEmpty then some s.digPrev
  else none

/-- The comparison: a difference blocks TC0 to TC2 and is reported, a match unblocks. It shows the peer's FC_MODE, which R123 compares. -/
def State.takeDigest (s : State) (x : MgmtIn) : State :=
  match s.digestRef x with
  | none => s
  | some own =>
    let s : State := { s with trn := { s.trn with peerFc := (x.msg.data.getD 7 0).toNat / 2 % 2 == 1 } }
    let d := digestDiff (x.msg.data.take 8) own
    if d = 0 then s.setRf 0x10C 31 31 0
    else (((s.setRf 0x10C 31 31 1).setRf 0x10C 5 0 d).setBit 0x10C 16).irq 1

/-- DIGEST (R538, R539). -/
def execDigest (s : State) : Host.Outcome State Fault Refusal :=
  live s (·.takeMgmt (fun m => mgmtFn m == 1) fun x s => s.takeDigest x)

/-- MGMT_CREDIT (R545): the counters of a CREDIT flit; only on an Open-mode link. -/
def execMgmtCredit (s : State) : Host.Outcome State Fault Refusal :=
  live s (·.takeMgmt (fun m => mgmtFn m == 2) fun x s => s.when s.openMode (·.takeCredits (slice x.msg.data 0 16)))

/-! ## Retirement of a module (R150, R464 to R467) -/

/-- A RETIRE function of a phase about module m. -/
def State.sendRetire (s : State) (phase m target : Nat) : State :=
  s.sendMgmt 0x42 (bf 64 9 8 phase ||| bf 64 63 16 target) (BitVec.ofNat 8 m :: List.replicate 7 0)

/-- The module of a RETIRE function. -/
def retireMod (m : Msg) : Nat := (m.data.getD 0 0).toNat

/-- The later of two ticks (R21). -/
def laterTick (a b : Nat) : Nat := if future a b then a else b

/-- A handshake after the other end's REQUEST of tick t: the later target of the two; an own REQUEST that awaits its ECHO still does, and else the
target is fixed (R452, R464, R481). -/
def metBy (k : Option Shake) (t now arg : Nat) : Shake :=
  { target := (k.map fun k => laterTick k.target t).getD t, mine := (k.map (·.mine)).getD false,
    echoed := !(k.map fun k => k.mine && !k.echoed).getD false, nextSend := now + 256, arg := arg }

/-- A handshake after an ECHO of tick t: fixed. An ECHO of a tick before the one asked for answers an older REQUEST, and fixes nothing. -/
def Shake.fixedAt (k : Shake) (t : Nat) : Shake := if laterTick k.target t = t then { k with target := t, echoed := true } else k

/-- LL_RETIRE.GO (Table 11-8): MODULE is stored; a module that the member has and that is not retired yet is to be retired. -/
def State.writeRetire (s : State) (d : W32) : State :=
  let m := fld d 3 0
  let s := s.setRf 0x20080 3 0 m
  let ok := decide (m < modules s.member) && (s.mod m).st != .retired
  let s := if bit d 31 && ok then (s.startRetire m false).setRf 0x20080 31 31 1 else s
  if bit d 30 && ok then
    let k : Shake := { target := s.tickPlus 1, mine := true, echoed := true, nextSend := s.now, arg := 0 }
    (s.dropRepair m).updMod m fun x => { x with retire := some k, retiring := true }
  else s

/-- LL_RETIRE_GO (R464). -/
def execLlRetireGo (d : W32) (s : State) : Host.Outcome State Fault Refusal := portCmd s (·.writeRetire (d &&& 0x8000000F))
/-- LL_RETIRE_FORCE (R467). -/
def execLlRetireForce (d : W32) (s : State) : Host.Outcome State Fault Refusal := portCmd s (·.writeRetire (d &&& 0x4000000F))

/-- RETIRE_REQUEST (R464): answered with an ECHO, and armed; with a REQUEST of its own pending an end takes the later target. An end whose module is
RETIRED already answers too, so that a peer that lost the ECHO retires it as well. -/
def execRetireRequest (s : State) : Host.Outcome State Fault Refusal :=
  live s (·.takeMgmt (mgmtIs 0x42 1) fun x s =>
    let m := retireMod x.msg
    if modules s.member ≤ m then s
    else if (s.mod m).st = .retired then s.sendRetire 2 m (mgmtTick x.msg)
    else
      let k := metBy (s.mod m).retire (mgmtTick x.msg) s.now (((s.mod m).retire.map (·.arg)).getD 0)
      ((s.dropRepair m).updMod m fun x => { x with retire := some k, retiring := true }).sendRetire 2 m k.target)

/-- RETIRE_ECHO (R464): the target is fixed. -/
def execRetireEcho (s : State) : Host.Outcome State Fault Refusal :=
  live s (·.takeMgmt (mgmtIs 0x42 2) fun x s =>
    s.updMod (retireMod x.msg) fun y =>
      { y with retire := y.retire.map (·.fixedAt (mgmtTick x.msg)) })

/-- Module m is retired: out of the striping, its messages with outstanding flits sent again whole, and LL_LAT_MIN anew (R150, R465). Its
replay buffer empties (R106), its receiver holds nothing after P, and the numbering goes on where the peer's P stands when software returns it to
service (R83, R466; log entry 21). -/
def State.retireNow (s : State) (m : Nat) : State :=
  let ids := ((s.mod m).rep ++ (s.mod m).grants ++ (s.mod m).stopped).flatMap (·.ids)
  let s := s.dropRepair m
  let s : State := { s with tx := s.tx.map fun t => if ids.contains t.id then { t with off := 0, msg := { t.msg with resend := true } } else t,
                            hm := { s.hm with retired := s.hm.retired + 1 } }
  let now := s.now
  let s := s.updMod m fun x =>
    { x with st := .retired, outAt := if x.st == .fallow then x.outAt else now, wasRetired := true,
             retire := none, retrain := none, frost := none,
             swapRx := none, swapTx := none, planWidth := none, planRate := none, hmReq := false, rep := [], grants := [], stopped := [],
             n := (x.p + 1) % 4096, u := 0, a := x.p, oldAck := x.p, oldNak := 0, ackAt := none, hdrAt := none, missing := [],
             reord := [], fallowReq := false, wantWake := false, wakeAt := none, wantRetrain := none, prob := none, after := false, lateOld := false }
  let s := (s.when (s.rf 0x20080 3 0 == m) (·.setRf 0x20080 31 31 0)).setLatMin
  s.gapThaw.linkCheck.flowAll

/-- The retirement of module m at a Solstice: an agreed one whose target has come takes place; one that no ECHO has fixed takes a new
target (log entry 21). A module back from retirement joins the striping (R466). -/
def State.retireSolstice (s : State) (m : Nat) : State :=
  let x := s.mod m
  match x.retire with
  | some k =>
    if future k.target s.tick.num then s
    else if k.echoed then s.retireNow m
    else
      let t := s.tickPlus 2
      (s.updMod m fun x => { x with retire := some { k with target := t, nextSend := s.now + 256 } }).sendRetire 1 m t
  | none =>
    if x.wasRetired && x.st == .active then s.updMod m fun x => { x with wasRetired := false, retiring := false } else s

end Sys2Proof.Machine
end

