-- ==== Sys2Proof/Machine/SeqCtl.lean ====
section
/-! DEFINITION. Programs and their ticks: the slot lookup, overruns and their policies, deferred starts, SEQ_CTRL and the
program-memory check (01, R32 to R36, R625; 05, R161 to R169, R225, R633). -/
namespace Sys2Proof.Machine

/-! ## Overruns (R35, R36, Table 1-7) -/

/-- An operation counts against its program's work: issued by it, and no multi-tick COPY (R35). -/
def State.workLeft (s : State) (p : Prog) : Bool :=
  s.ops.any fun o => o.serial == p.serial && o.orig.isNone && o.mt.isNone

/-- The programs whose deadline is tick n, or was passed on the way to it (R30), with no overrun recorded yet: the running one, ended ones, and one
that still waits under DEFER (R33). -/
def State.dueProgs (s : State) (n : Nat) : List Prog :=
  (s.seq.past ++ s.seq.prog.toList ++ s.seq.defer.toList).filter fun p => !p.judged && !future p.deadline n

/-- The overrun of a program that is due at tick n is recorded. -/
def Prog.judge (p : Prog) (n : Nat) : Prog := { p with judged := p.judged || !future p.deadline n }

/-- A program that has not executed END: the running one, or one that waits. -/
def State.unended (s : State) (p : Prog) : Bool := s.seq.prog == some p || s.seq.defer == some p

/-- A program that runs or waits misses the deadline n. -/
def State.progLate (s : State) (n : Nat) : Bool := (s.dueProgs n).any s.unended

/-- Operations of a program due at tick n are incomplete. -/
def State.workLate (s : State) (n : Nat) : Bool := (s.dueProgs n).any s.workLeft

/-- Some program's work is incomplete at its deadline n. -/
def State.late (s : State) (n : Nat) : Bool := s.progLate n || s.workLate n

/-- The overruns of a deadline are recorded: OVERRUN, OVR_PROG, OVR_WORK, the count, one for each program whose work is not complete, and
irq[2]; under HALT the sequencer stops at its next instruction boundary (R36, R164). They are recorded once for a program. -/
def State.overrun (s : State) (n : Nat) : State :=
  if s.seq.ovrAt = some n || !s.late n then s else
  let pl := s.progLate n
  let wl := s.workLate n
  let k := ((s.dueProgs n).filter fun p => s.unended p || s.workLeft p).length
  let s := ((s.setBit 0x2010 5).count 0x2014 15 0 k).irq 2
  let q := s.seq
  let s : State := { s with
    tick := { s.tick with ovrProg := pl, ovrWork := wl },
    seq := { q with ovrAt := some n, past := q.past.map (·.judge n), prog := q.prog.map (·.judge n), defer := q.defer.map (·.judge n) } }
  s.when (s.rf 0x2000 5 4 = 2) (·.askStop true false none)

/-- OVERRUN (R36): at the deadline's Solstice cc, before the Solstice's later steps. -/
def execOverrun (s : State) : Host.Outcome State Fault Refusal :=
  live s fun s =>
    let s := s.settle
    s.when s.solNow (·.overrun s.nextTick)

/-! ## Program starts (R22, R168) -/

/-- A program starts: g30, g31, the call stack and PC; SEQ_LAST_START; its first instruction issues at a cc. -/
def State.startProg (s : State) (p : Prog) (at_ : Nat) : State :=
  let s := (s.setGreg 30 (BitVec.ofNat 64 p.tick)).setGreg 31 (BitVec.ofNat 64 p.slot)
  let s := s.setRg64 0x30018 (bf 64 63 16 p.tick ||| bf 64 13 0 p.entry)
  { s with seq := { s.seq with st := .running, pc := p.entry % 16384, stack := [], prog := some p, serial := p.serial, nextAt := at_,
                               wait := none, stall := none, defer := none, pcEnd := false } }

/-- The active slot entry at an index; an uncorrectable word acts as V 0 and is counted as a skipped program (Table 12-9). -/
def State.slotEntry (s : State) (i : Nat) : Option W32 × State :=
  let (ue, s) := s.eccRead 3 (128 + i / 2)
  if ue then (none, s.skip)
  else if bit (s.rg (0x2400 + 4 * i)) 31 then (some (s.rg (0x2400 + 4 * i)), s) else (none, s)

/-- The program that a slot entry names at tick n (R32, R33). -/
def State.progOf (s : State) (n i : Nat) (e : W32) : Prog :=
  { tick := n, slot := i, entry := fld e 13 0, deadline := (n + fld e 23 20 + 1) % tickMod, serial := s.seq.serial + 1 }

/-- The program of this tick waits under DEFER; one that waited before it is skipped (Table 1-7). -/
def State.deferProg (s : State) (p : Prog) : State :=
  let s := s.when s.seq.defer.isSome (·.skip)
  { s with seq := { s.seq with defer := some p, deferAt := s.now + 4 } }

/-- Step 5 of Table 1-2 at the Solstice of tick n in cc t: which program starts, waits or is skipped, under a policy.
The state is the one that the commands queued before SOLSTICE left: a START accepted in this cc out of HALTED or TRAPPED makes it IDLE, and a
START accepted in the Solstice's own cc starts no entry (R163), so nothing is counted as skipped (DESIGN CHOICE, log entry 72). -/
def State.slotLookup (s : State) (n t policy : Nat) (wasLate : Bool) : State :=
  let running := s.seq.st == .running || s.seq.st == .waiting
  let before := (s.seq.prog.map fun p => future p.deadline n).getD false
  if running && before then s                                    -- R34
  else
    let i := n % max 1 (s.rf 0x201C 8 0)
    let (e, s) := s.slotEntry i
    match e with
    | none => s
    | some w =>
      let p := s.progOf n i w
      match s.seq.st with
      | .stopped => s
      | .halted | .trapped => s.skip                             -- R167
      | .idle =>
        if s.seq.defer.isSome then s.deferProg p
        else if wasLate && policy != 0 then s.skip
        else if (s.seq.startAt.map fun u => decide (u < t)).getD true then s.startProg p (s.now + 4)   -- R163
        else s
      | .running | .waiting =>
        if policy = 0 then s.deferProg p else s.skip

/-- A TICKWAIT ends 4 cc after the Solstice in cc t, and is blocked until then (R205). A TICKWAIT that issued in
that same cc, and stands before SOLSTICE in the queue, takes this Solstice as its next one (DESIGN CHOICE, log entry 74). -/
def State.tickwaitEnd (s : State) (t : Nat) : State :=
  match s.seq.wait with
  | some .tick => { s with seq := { s.seq with wait := some (.tickEnd (t + 4)) } }
  | _ => s

/-- Ended programs whose deadline has been judged are forgotten. -/
def State.forgetProgs (s : State) (n : Nat) : State :=
  { s with seq := { s.seq with past := s.seq.past.filter fun p => future p.deadline n } }

/-- DEFERRED_PROGRAM_START (R28, R36): 4 cc after the running program's END, and not before its own Solstice + 4 cc. -/
def execDeferredProgramStart (s : State) : Host.Outcome State Fault Refusal :=
  live s fun s =>
    let s := s.settle
    match s.seq.defer with
    | some p =>
      if s.tickOn && s.seq.st = .idle && decide (s.seq.endAt + 4 ≤ s.now) && decide (s.seq.deferAt ≤ s.now) then
        s.startProg { p with serial := s.seq.serial + 1 } s.now
      else s
    | none => s

/-! ## SEQ_CTRL (R162 to R166, R633) -/

/-- A write of SEQ_CTRL: STOP first, then CLR and START once the sequencer is stopped (R633). -/
def State.writeSeqCtrl (s : State) (d : W32) : State :=
  let s := s.settle
  if bit d 1 then
    s.askStop false (bit d 2) (if bit d 0 then some s.now else none)
  else
    let halted := s.seq.st == .stopped || s.seq.st == .halted || s.seq.st == .trapped
    let s := s.when (bit d 2 && halted) (·.clrSeq)
    s.when (bit d 0) (·.startSeq s.now)

/-- SEQ_CTRL_START (R162, R163, R171). -/
def execSeqCtrlStart (s : State) : Host.Outcome State Fault Refusal := portCmd s (·.writeSeqCtrl 1)
/-- SEQ_CTRL_STOP (R164). -/
def execSeqCtrlStop (s : State) : Host.Outcome State Fault Refusal := portCmd s (·.writeSeqCtrl 2)
/-- SEQ_CTRL_CLR (R226). -/
def execSeqCtrlClr (s : State) : Host.Outcome State Fault Refusal := portCmd s (·.writeSeqCtrl 4)

/-! ## SEQ_PM_CHECK (R225, Table 16-21) -/

/-- The words that a check covers, as bytes. -/
def State.pmBytes (s : State) (start count : Nat) : List Byte :=
  (List.range (min count (16384 - start))).flatMap fun i => leBytes 8 (s.pmWord (start + i)).toNat

/-- A write of SEQ_PM_CHECK: START and COUNT are stored (0 stores 1, above 16,384 stores 16,384); GO starts a check, unless one runs, and
clears DONE. -/
def State.writePmCheck (s : State) (d : W32) : State :=
  let c := max 1 (min 16384 (fld d 28 14))
  let s := (s.setRf 0x30020 28 14 c).setRf 0x30020 13 0 (fld d 13 0)
  if bit d 31 && s.seq.pmCheck.isNone then
    { s.setRf 0x30020 30 30 0 with seq := { s.seq with pmCheck := some (fld d 13 0, c) } }
  else s

/-- SEQ_PM_CHECK_GO. -/
def execSeqPmCheckGo (d : W32) (s : State) : Host.Outcome State Fault Refusal := portCmd s (·.writePmCheck d)

/-- SEQ_PM_CHECK_DONE: the CRC-32C of the words, and DONE. -/
def execSeqPmCheckDone (s : State) : Host.Outcome State Fault Refusal :=
  live s fun s =>
    match s.seq.pmCheck with
    | none => s
    | some (a, n) =>
      { (s.setRg 0x30024 (crcStd (s.pmBytes a n))).setRf 0x30020 30 30 1 with seq := { s.seq with pmCheck := none } }

end Sys2Proof.Machine
end

