-- ==== Sys2Proof/Machine/Tick.lean ====
section
/-! DEFINITION. The frame tick: lock, roles, phase, acquisition and faults (01, R20 to R31, R547, R596, R597, R623, R624). -/
namespace Sys2Proof.Machine

/-- Tick state changed. -/
def State.updTick (s : State) (f : Tick → Tick) : State := { s with tick := f s.tick }

/-- TICK_CTRL.ROLE: 0 follower, 1 relay, 2 root. -/
def State.tickRole (s : State) : Nat := s.rf 0x2000 1 0

/-- The cc that contains the phase point of the next tick (R623). -/
def nextSolOf (phase8 period : Nat) : Nat := (phase8 + 8 * period) / 8

/-- TICK_EN (Table 1-3, R547, R624): EN at 1 starts in ACQUIRE, a root's first Solstice TICK_PERIOD cc later and counting tick 0;
EN at 0 is FREE, which runs no program: one that waits under DEFER is dropped and counted as R625 counts it (log entry 56). Any earlier phase and
recorded deadline is dropped. A block whose fuses permit no program takes no EN (R16). A relay or follower that was never phased brings no
Solstice before its first adoption: there is no last phase to count flywheel ticks from (DESIGN CHOICE, log entry 79; R28 leaves it open). -/
def State.tickEnWrite (s : State) (en : Bool) : State :=
  if en == s.tickOn || (en && s.blank) then s else
  let s := s.setRf 0x2000 2 2 (b2n en)
  let s := s.when s.seq.defer.isSome (·.skip)
  let s : State := { s with seq := { s.seq with ovrAt := none, defer := none } }
  if !en then s.updTick fun t => { t with lock := 0, nextSol := none, cand := none, markerDue := false, mute := none }
  else
    let root := s.tickRole = 2
    let period := s.period
    let now := s.now
    let s := s.updTick fun t =>
      { t with lock := 1, cand := none, miss := 0, got := false, mute := none, first := root, phase8 := 8 * now,
               nextSol := if root then some (now + period) else none }
    { s with twin := { s.twin with enAt := some now } }

/-- TICK_EN. -/
def execTickEn (en : Bool) (s : State) : Host.Outcome State Fault Refusal := portCmd s (·.tickEnWrite en)

/-- A write of ROLE (R23, Table 1-4): 3, and any while EN is 1, is ignored; root away from die 0 sets ROLE_ERR. DESIGN CHOICE (log entry
56): a write of root away from die 0 while EN is 1 is ignored as Table 1-4 has it and sets no ROLE_ERR. A block whose fuses permit no more than
the assembly test takes no root setting (R16). -/
def State.tickRoleSet (s : State) (role : Nat) : State :=
  if s.tickOn || role = 3 then s
  else if role = 2 && s.die != 0 then s.setBit 0x2010 4
  else if role = 2 && s.blank then s
  else s.setRf 0x2000 1 0 role

/-- TICK_ROLE_WRITE. -/
def execTickRoleWrite (role : BitVec 2) (s : State) : Host.Outcome State Fault Refusal := portCmd s (·.tickRoleSet role.toNat)

/-- A follower that leaves LOCKED counts ticks from its last phase (Table 1-3): its next Solstice is at the first phase point of the flywheel
that has not passed. Phase points that passed with no pulse were no Solstice (R597) and leave the tick number (DEDUCED, log entry 43). -/
def State.flywheel (s : State) : State :=
  if !s.byPulse then s else
  let period := s.period
  let now := s.now
  s.updTick fun t =>
    let k := (now - 1 - t.phase8 / 8) / period
    { t with phase8 := t.phase8 + 8 * period * k, nextSol := some (nextSolOf (t.phase8 + 8 * period * k) period) }

/-- REACQ forces ACQUIRE (Table 1-4); a root does not leave LOCKED (R624). -/
def State.reacquire (s : State) : State :=
  if s.tickOn && s.tickRole != 2 then s.flywheel.updTick fun t => { t with lock := 1, cand := none } else s

/-- TICK_REACQ. -/
def execTickReacq (s : State) : Host.Outcome State Fault Refusal := portCmd s (·.reacquire)

/-- The expected time of this tick's marker at a relay, its phase point and the marker path delay of SRC_MODULE, has passed without one (R25,
R29). -/
def State.markMissed (s : State) : Bool :=
  !s.tick.got && decide (s.tick.phase8 + (s.mod (s.rf 0x2000 11 8)).marker8 ≤ 8 * s.now)

/-- NOMARK (R29): a relay without a marker at 16 consecutive expected times, the present tick's among them. -/
def execNomark (s : State) : Host.Outcome State Fault Refusal :=
  live s fun s =>
    if s.tickOn && s.tickRole = 1 && decide (16 ≤ s.tick.miss + b2n (s.markMissed && s.pwr.st != 3 && s.pwr.st != 4)) then
      s.updTick fun t => { t with lock := 1, nomark := true, cand := none, miss := 0, got := true }
    else s

/-- The window of PHASE_ERR: saturates at ±127 (Table 1-5). -/
def phaseSat (e : Int) : BitVec 8 := BitVec.ofInt 8 (max (-127) (min 127 e))

/-- A skew fault (Table 1-3): SKEW, irq[1], TICK_SKEW_COUNT. -/
def State.skew (s : State) : State := ((s.setBit 0x2010 2).count 0x2018 15 0 1).irq 1

/-- Entries of the active slot table with V at 1 among the first n indices of one round. -/
def State.slotsUsed (s : State) (from_ n : Nat) : Nat :=
  let k := s.rf 0x201C 8 0
  ((List.range n).filter fun i => bit (s.rg (0x2400 + 4 * ((from_ + i) % k))) 31).length

/-- The n ticks from `from_` on, none past 2^48 − 1, whose active slot entry has V at 1. -/
def State.slotsRun (s : State) (from_ n : Nat) : Nat :=
  let k := max 1 (s.rf 0x201C 8 0)
  n / k * s.slotsUsed 0 k + s.slotsUsed from_ (n % k)

/-- Ticks from c + 1 through a whose active slot entry has V at 1 (R30); the tick number wraps, the index of R32 with it (R21). -/
def State.slotsPassed (s : State) (c a : Nat) : Nat :=
  let n := (a + tickMod - c) % tickMod
  let first := (c + 1) % tickMod
  if first + n ≤ tickMod then s.slotsRun first n else s.slotsRun first (tickMod - first) + s.slotsRun 0 (first + n - tickMod)

/-- The latest tick that had its Solstice: under a count held silent by an earlier adoption, the one before the tick it waits for (R30). -/
def State.lastTick (s : State) : Nat := (s.tick.mute.map fun t => (t + tickMod - 1) % tickMod).getD s.tick.num

/-- Adoption of a candidate's tick number and phase (R30, Table 1-3); no tick number up to the latest one that ran is run again. A deadline among
the ticks that it passes over is judged here (R36; DEDUCED, log entry 65). -/
def State.adopt (s : State) (a phase8 : Nat) : State :=
  let c := s.lastTick
  let ahead := future a c
  let s := s.when ahead (fun s => (s.overrun a).count 0x2014 31 16 (s.slotsPassed c a))
  let nx := nextSolOf phase8 s.period
  s.updTick fun t =>
    { t with lock := 2, num := a, phase8 := phase8, nextSol := some nx, cand := none, miss := 0, nomark := false,
             mute := if ahead || a == c then none else some ((c + 1) % tickMod) }

/-- One measurement of an acquisition run: tick n at phase point ph8 (Table 1-3, ACQUIRE). A run of 4 is adopted. -/
def State.acquire (s : State) (n : Nat) (ph8 : Int) : State :=
  let start := fun (s : State) => s.updTick fun t => { t with cand := some { num := n, phase8 := ph8.toNat, run := 1 } }
  match s.tick.cand with
  | none => start s
  | some c =>
    let want : Nat := c.phase8 + 8 * s.period
    let e := ph8 - (want : Int)
    let s := s.updTick fun t => { t with phaseErr := phaseSat e }
    if n = (c.num + 1) % tickMod && decide (-1 ≤ e) && decide (e ≤ 1) then
      if 4 ≤ c.run + 1 then s.adopt n want
      else s.updTick fun t => { t with cand := some { num := n, phase8 := want, run := c.run + 1 } }
    else start s

/-- A measured phase point of a LOCKED relay, or of a root (Table 1-3, R624): an error within ±0.5 cc corrects a relay's phase;
a larger one, or another tick number, is a skew fault, at which a relay or follower enters FAULT. -/
def State.measure (s : State) (n : Nat) (ph8 : Int) : State :=
  let ticks : Int := sgn 48 (n + tickMod - s.tick.num)
  let e := ph8 - ((s.tick.phase8 : Int) + ticks * (8 * s.period : Nat))
  let s := s.updTick fun t => { t with phaseErr := phaseSat e }
  if n = s.tick.num && decide (-4 ≤ e) && decide (e ≤ 4) then
    if s.tickRole = 2 then s else
    let period := s.period
    s.updTick fun t =>
      let p := ((t.phase8 : Int) + e).toNat
      { t with phase8 := p, nextSol := some (nextSolOf p period) }
  else (s.skew).when (s.tickRole != 2) (·.updTick fun t => { t with lock := 3 })

/-- What a received marker does to the tick: tick n, arrival time and launch offset in 1/8 cc, on module m. A relay listens to
SRC_MODULE, a root measures and never corrects, a follower has its pulses. In FAULT the marker moves to ACQUIRE. DESIGN CHOICE (log entry 56): a
marker that reaches a root in ACQUIRE, before its first phase point, is not measured and leaves PHASE_ERR. -/
def State.marker (s : State) (m n : Nat) (arrival8 offset : Nat) : State :=
  let ph8 : Int := (arrival8 : Int) - ((s.mod m).marker8 : Int) - (offset : Int)
  if !s.tickOn || s.openMode then s
  else if s.tickRole = 2 then s.when s.locked (·.measure n ph8)
  else if s.tickRole = 1 && m = s.rf 0x2000 11 8 then
    let s := s.updTick fun t => { t with got := true, miss := 0 }
    if s.tick.lock = 2 then s.measure n ph8
    else if s.tick.lock = 3 then (s.updTick fun t => { t with lock := 1, cand := none }).acquire n ph8
    else s.acquire n ph8
  else s

end Sys2Proof.Machine
end

