-- ==== Sys2Proof/Machine/Power.lean ====
section
/-! DEFINITION. Fallow, Midwinter, and caps from the package power manager (12, R483 to R496). -/
namespace Sys2Proof.Machine

/-! ## What waits at admission (R486, R491) -/

/-- The first message of each thing that waits for admission on the own link, with the cc since which it has waited. -/
def State.waiters (s : State) : List (Msg × Nat) :=
  ((s.rsp.filter (·.ready)).map fun r => (r.msg, r.since)) ++ (s.transit.map fun t => (t.msg, t.since)) ++
    (s.twin.resend.map fun m => (m, s.twin.resendAt)) ++ ((s.ops.filter (·.sends)).filterMap fun o => o.msgs.head?.map fun m => (m, o.since))

/-- A message has waited for PWR_WAKE_WAIT cc (Table 12-5); `flow` asks for one of TC0, TC1 or TC2 that flow control allows (R486). -/
def State.waitedLong (s : State) (flow : Bool) : Bool :=
  s.waiters.any fun w =>
    decide (w.2 + s.rf 0xA0118 7 0 ≤ s.now) && (!flow || (w.1.tc != 3 && s.canAdmit w.1)) &&
      ((s.outlet w.1).map (·.1)).getD true

/-! ## Fallow (R483 to R486, R496) -/

/-- Modules that are ACTIVE. -/
def State.activeMods (s : State) : List Nat := s.allMods.filter fun m => (s.mod m).st == .active && (s.mod m).retrain.isNone

/-- No repair, retrain, retirement or Frost of the module is pending. -/
def Mod.quiet (x : Mod) : Bool :=
  x.repRx.isNone && x.repTx.isNone && x.retrain.isNone && x.retire.isNone && x.frost.isNone && x.wantRetrain.isNone && !x.retiring &&
    x.swapRx.isNone && x.swapTx.isNone && x.planWidth.isNone && x.planRate.isNone && !x.hmReq

/-- No change of rate, no rate step-down and no Midwinter of the link is pending, each of which has a Frost of the module. -/
def State.linkQuiet (s : State) : Bool := s.plan.isNone && s.hm.stepReq.isNone && s.pwr.mwGo.isNone

/-- The own transmit direction of the module has been idle for FALLOW_IDLE cc: no outstanding and no admitted DATA flit, and nothing of the module
pending (R484, R485). -/
def State.txIdle (s : State) (m : Nat) : Bool :=
  let x := s.mod m
  x.st == .active && x.quiet && s.linkQuiet && x.rep.isEmpty && x.grants.isEmpty && x.stopped.isEmpty &&
    decide (x.lastUse + s.rf 0xA0104 15 0 ≤ s.now)

/-- Both directions of the module have been idle for FALLOW_IDLE cc (R484). -/
def State.modIdle (s : State) (m : Nat) : Bool :=
  let x := s.mod m
  s.txIdle m && x.reord.isEmpty && decide (x.rxUse + s.rf 0xA0104 15 0 ≤ s.now)

/-- The cap asks module m into Fallow: it lies above MAXMOD and is drained (R496). -/
def State.capFallow (s : State) (m : Nat) : Bool :=
  let x := s.mod m
  s.capped m && x.st == .active && x.quiet && s.linkQuiet && x.rep.isEmpty && x.grants.isEmpty && x.stopped.isEmpty

/-- FALLOW_IDLE (R484, R496): FALLOW_REQ for the highest-numbered ACTIVE module, and no new DATA flit on it until the answer; sent again as
every message of the sideband is (R525). -/
def execFallowIdle (s : State) : Host.Outcome State Fault Refusal :=
  live s fun s =>
    match s.activeMods.getLast? with
    | none => s
    | some m =>
      let x := s.mod m
      let free := bit (s.rg 0xA0104) 31 && decide (s.rf 0xA0104 20 16 < s.activeMods.length) && s.modIdle m
      let again := x.fallowReq && decide (s.now < x.fallowAt + s.dur 2400)
      if (free || s.capFallow m) && !again && !s.openMode && decide (1 < s.activeMods.length) then
        (s.updMod m fun x => { x with fallowReq := true, fallowAt := s.now }).sendSb m 1 []
      else s

/-- A module enters Fallow. -/
def State.enterFallow (s : State) (m : Nat) : State :=
  (s.updMod m fun x => { x with st := .fallow, outAt := s.now, fallowReq := false, wantWake := false, wakeAt := none }).flowAll

/-- A sideband message of a code, once the sideband is up (R525): its module and its act. -/
def State.rxSb (s : State) (x : SbMsg) (code len : Nat) (act : Nat → State → State) : State :=
  if s.sbLive && sbOk code len x && decide (sbModule x < modules s.member) then act (sbModule x) s else s

/-- FALLOW_REQ (R485): the conditions are those of the own transmit direction; one that comes again to a module in Fallow is answered again (R525). -/
def execFallowReq (x : SbMsg) (s : State) : Host.Outcome State Fault Refusal :=
  live s (·.rxSb x 1 0 fun m s =>
    if s.txIdle m then (s.sendSb m 2 []).enterFallow m
    else if (s.mod m).st == .fallow && (s.mod m).wakeAt.isNone then s.sendSb m 2 []
    else s.sendSb m 3 [])

/-- FALLOW_ACK (R485). -/
def execFallowAck (x : SbMsg) (s : State) : Host.Outcome State Fault Refusal :=
  live s (·.rxSb x 2 0 fun m s => s.when ((s.mod m).fallowReq && (s.mod m).st == .active) (·.enterFallow m))

/-- FALLOW_NAK (R485): the module stays ACTIVE. -/
def execFallowNak (x : SbMsg) (s : State) : Host.Outcome State Fault Refusal :=
  live s (·.rxSb x 3 0 fun m s => s.updMod m fun x => { x with fallowReq := false })

/-- The wake of a module begins: VLD and VLD_ALT high (R486). -/
def State.beginWake (s : State) (m : Nat) : State :=
  if (s.mod m).st = .fallow && (s.mod m).wakeAt.isNone then
    ((s.bistServe m).updMod m fun x => { x with wakeAt := some s.now, wantWake := false }).emit (.wakeLevel m)
  else s

/-- A wake keeps within the cap (R496). -/
def State.mayWake (s : State) : Bool :=
  s.pwr.maxmod = 0 || decide ((s.allMods.filter fun m => (s.mod m).awake).length < max 1 s.pwr.maxmod)

/-- FALLOW_WAKE (R486): the module that a repair, retrain or retirement names, or for a waiting message the lowest-numbered one. -/
def execFallowWake (s : State) : Host.Outcome State Fault Refusal :=
  live s fun s =>
    let asleep := s.allMods.filter fun m => (s.mod m).st == .fallow && (s.mod m).wakeAt.isNone
    match asleep.find? fun m => (s.mod m).wantWake with
    | some m => s.when s.mayWake (·.beginWake m)
    | none =>
      match asleep with
      | m :: _ => s.when (s.mayWake && s.waitedLong true) (·.beginWake m)
      | [] => s

/-- FALLOW_WAKE_DETECT (R486): the peer's level wakes this end of the module. -/
def execFallowWakeDetect (m : Nat) (s : State) : Host.Outcome State Fault Refusal :=
  liveWf (decide (m < 16)) s fun s =>
    if (s.mod m).st = .fallow && (s.mod m).wakeAt.isNone then (s.bistServe m).updMod m fun x => { x with wakeAt := some s.now } else s

/-- FALLOW_WAKE_DONE (R486): 96 cc after the wake began the module carries flits; a retrain that waited for it begins. -/
def execFallowWakeDone (m : Nat) (s : State) : Host.Outcome State Fault Refusal :=
  liveWf (decide (m < 16)) s fun s =>
    match (s.mod m).wakeAt with
    | some t =>
      if (s.mod m).st = .fallow && decide (t + s.dur 96 ≤ s.now) then
        let want := (s.mod m).wantRetrain
        let s := s.updMod m fun x =>
          { x with st := .active, wakeAt := none, wantWake := false, wantRetrain := none, lastUse := s.now, rxUse := s.now }
        let s := s.flowAll.lateFrost m
        match want with
        | some r => s.requestRetrain m r
        | none => s
      else s
    | none => s

/-- A write of PWR_FALLOW (R486): each bit written 1 wakes its module. -/
def State.writeFallow (s : State) (d : W32) : State :=
  s.each s.allMods fun s m => s.when (bit d m && s.mayWake) (·.beginWake m)

/-- PWR_FALLOW_WRITE. -/
def execPwrFallowWrite (d : W32) (s : State) : Host.Outcome State Fault Refusal := portCmd s (·.writeFallow d)

/-! ## Midwinter (R487 to R491) -/

/-- The module whose sideband carries the link's power messages: the lowest-numbered one that is not retired. -/
def State.powerMod (s : State) : Nat := (s.allMods.find? fun m => (s.mod m).st != .retired).getD 0

/-- Power state changed. -/
def State.updPwr (s : State) (f : Pwr → Pwr) : State := { s with pwr := f s.pwr }

/-- A power message of a code with a tick. -/
def State.sendPower (s : State) (code : Nat) (t : Option Nat) : State :=
  s.sendSb s.powerMod code (t.map fun n => bf 64 47 0 n).toList

/-- The request is acknowledged when both ends name one target. -/
def State.mwAgree (s : State) : State :=
  match s.pwr.mwGo, s.pwr.peerGo with
  | some t, some u => if t = u then s.sendPower 7 (some t) else s
  | _, _ => s

/-- A pending request ends refused. -/
def State.mwRefuse (s : State) (result : Nat) : State :=
  s.updPwr fun p => { p with st := 0, mwGo := none, acked := false, result := result }

/-- This end refuses its request, as the peer has not acknowledged it or the tick is not LOCKED, and withdraws it at the peer (R487). -/
def State.mwWithdraw (s : State) : State :=
  ((s.mwRefuse (if s.locked then 3 else 4)).updPwr fun p => { p with peerGo := none }).sendPower 6 (some 0)

/-- MW_GO (R487): Midwinter at PWR_TICK; RESULT 4 with the withdrawal of MW_REQ out of LOCKED, and RESULT 2, LATE, for a target that is not in
the future: Table 12-11 names no condition for it, and a target of 1 to 3 ticks ahead, which R487 forbids software, is tried (DESIGN CHOICE,
log entry 62). Away from ACTIVE, with the link down and in Open mode the write is ignored (log entry 64). -/
def State.goMidwinter (s : State) : State :=
  let t := (s.rg64 0xA0108).toNat % tickMod
  if s.pwr.st != 0 || s.linkDownNow || s.openMode then s
  else if !s.locked then s.mwWithdraw
  else if !future t s.tick.num then s.updPwr fun p => { p with result := 2 }
  else
    ((s.updPwr fun p => { p with st := 1, mwGo := some t, acked := false, result := 0 }).sendPower 6 (some t)).mwAgree

/-- MW_GO. -/
def execMwGo (s : State) : Host.Outcome State Fault Refusal := portCmd s (·.goMidwinter)

/-- MW_REQ (R487): a target of 0 withdraws the request; another is acknowledged when this end holds the same. -/
def execMwReq (x : SbMsg) (s : State) : Host.Outcome State Fault Refusal :=
  live s (·.rxSb x 6 1 fun _ s =>
    let t := fld (sbWord x 0) 47 0
    if t = 0 then
      let s := s.updPwr fun p => { p with peerGo := none }
      s.when (s.pwr.st == 1) (·.mwRefuse 3)
    else (s.updPwr fun p => { p with peerGo := some t }).mwAgree)

/-- MW_ACK (R487). -/
def execMwAck (x : SbMsg) (s : State) : Host.Outcome State Fault Refusal :=
  live s (·.rxSb x 7 1 fun _ s => s.updPwr fun p => { p with acked := p.acked || p.mwGo == some (fld (sbWord x 0) 47 0) })

/-- MW_NO_ACK (R487): at the Solstice one tick before the target no MW_ACK is held, or the tick is not LOCKED. -/
def execMwNoAck (s : State) : Host.Outcome State Fault Refusal :=
  live s fun s =>
    match s.pwr.mwGo with
    | some t =>
      if s.pwr.st = 1 && !future t (s.tickPlus 1) && !(s.pwr.acked && s.locked) then
        s.mwWithdraw
      else s
    | none => s

/-- The target Solstice of Midwinter (R489): every module enters Frost and drains. A request whose target passed is refused. -/
def State.mwSolstice (s : State) : State :=
  match s.pwr.mwGo with
  | none => s
  | some t =>
    if s.pwr.st != 1 || future t s.tick.num then s
    else if t = s.tick.num && s.pwr.acked && s.locked then
      (s.frostAll 5 none).updPwr fun p => { p with st := 2, mwGo := none, peerGo := none, entryAt := s.now }
    else s.mwWithdraw

/-- A module that goes to sleep or wakes with its link. -/
def Mod.sleeps (x : Mod) : Bool := x.st != .down && x.st != .retired

/-- PHY_OFF (R489): once every module in Frost has drained, or Solstice + 2,400 cc. -/
def execPhyOff (s : State) : Host.Outcome State Fault Refusal :=
  live s fun s =>
    let drained := s.allMods.all fun m => let x := s.mod m
      x.st != .frost || ((x.frost.map (·.switched)).getD false)
    if s.pwr.st = 2 && (drained || decide (s.pwr.entryAt + s.dur 2400 ≤ s.now)) then
      let s := s.each s.allMods fun s m => s.updMod m fun x =>
        if x.sleeps then { x with st := .midwinter, frost := none, retrain := none, fallowReq := false, wakeAt := none } else x
      s.updPwr fun p => { p with st := 3, result := 1 }
    else s

/-- The link is to wake: MW_WAKE until it is acknowledged (R491). -/
def State.startWake (s : State) : State :=
  if s.pwr.st != 3 || s.pwr.wakeSent then s
  else (s.updPwr fun p => { p with wakeSent := true, nextSend := s.now + s.dur 2400 }).sendPower 8 none

/-- PWR_CTRL_WAKE. -/
def execPwrCtrlWake (s : State) : Host.Outcome State Fault Refusal := portCmd s (·.startWake)

/-- The exit of Table 12-6 begins; slices under test on the modules are cut (R556). -/
def State.beginExit (s : State) : State :=
  if s.pwr.st = 3 then
    (s.each s.allMods (·.bistServe ·)).updPwr fun p => { p with st := 4, wakeSent := false, exitAt := s.now, exitStep := 0 }
  else s

/-- MW_WAKE (R491): a peer in Midwinter always answers it. -/
def execMwWake (x : SbMsg) (s : State) : Host.Outcome State Fault Refusal :=
  live s (·.rxSb x 8 0 fun _ s => if s.pwr.st = 3 ∨ s.pwr.st = 4 then (s.sendPower 9 none).beginExit else s)

/-- MW_WAKE_ACK (R491). -/
def execMwWakeAck (x : SbMsg) (s : State) : Host.Outcome State Fault Refusal :=
  live s (·.rxSb x 9 0 fun _ s => s.when s.pwr.wakeSent (·.beginExit))

/-- MW_WAKE_RESEND (R491). -/
def execMwWakeResend (s : State) : Host.Outcome State Fault Refusal :=
  live s fun s =>
    if s.pwr.st = 3 && s.pwr.wakeSent && decide (s.pwr.nextSend ≤ s.now) then
      (s.updPwr fun p => { p with nextSend := s.now + s.dur 2400 }).sendPower 8 none
    else s

/-- cc from MW_WAKE_ACK of the steps of Table 12-6. -/
def exitTimes : List Nat := [0, 16800, 22800, 26400, 28800]

/-- Forwarded clock and framing are locked on every module, and each is retrained under R104 (Table 12-6). -/
def State.exitRetrain (s : State) : State :=
  s.each (s.allMods.filter fun m => (s.mod m).st == .midwinter) fun s m =>
    (s.updMod m fun x => { x with clkP := true, frmP := true, lostAt := none, clkLost := false }).enterRetrain m 0 false true

/-- Thaw at the end of the exit (R154, R491): held flits are repeated, late under R141. -/
def State.exitThaw (s : State) : State :=
  let ms := s.allMods.filter fun m => (s.mod m).st == .frost
  let s := s.each ms fun s m => (s.updMod m fun x => { x.repeatAll with prob := some 65536 }).modUp m
  s.updPwr fun p => { p with st := 0, result := 5 }

/-- What a step of the exit does at its end. -/
def State.exitStep (s : State) (k : Nat) : State :=
  if k = 4 then s.exitThaw
  else (s.when (k == 2) (·.exitRetrain)).updPwr fun p => { p with exitStep := p.exitStep + 1 }

/-- MIDWINTER_EXIT_STEP (R491): each step at its time, the fourth and Thaw once no module is in its retrain any more. -/
def execMidwinterExitStep (s : State) : Host.Outcome State Fault Refusal :=
  live s fun s =>
    match exitTimes[s.pwr.exitStep]? with
    | some t =>
      let done := s.allMods.all fun m => (s.mod m).retrain.isNone
      if s.pwr.st = 4 && decide (s.pwr.exitAt + s.dur t ≤ s.now) && (decide (s.pwr.exitStep < 3) || done) then s.exitStep s.pwr.exitStep
      else s
    | none => s

/-! ## Records of the package power manager (R495, R599) -/

/-- TEL_CFG.CAP_EN. -/
def State.capOn (s : State) : Bool := bit (s.rg 0xD0000) 30

/-- CAP_RECORD (R495): MAXMOD and DUTY wait for the next Solstice. -/
def execCapRecord (r : BitVec 128) (s : State) : Host.Outcome State Fault Refusal :=
  live s fun s =>
    if s.capOn && fld r 3 0 == 8 then s.updPwr fun p => { p with capPend := p.capPend ++ [(fld r 68 64, fld r 75 72)] } else s

/-- The caps that wait are applied at a Solstice in the order of their receipt, and each is answered with CAP_ACK. -/
def State.capSolstice (s : State) : State :=
  let cs := s.pwr.capPend
  (s.updPwr fun p => { p with capPend := [] }).each cs fun s c =>
    (s.updPwr fun p => { p with maxmod := c.1, duty := c.2 }).tel 4 (bf 64 4 0 c.1 ||| bf 64 11 8 c.2)

/-- WAKE_RECORD (R491, R495). -/
def execWakeRecord (r : BitVec 128) (s : State) : Host.Outcome State Fault Refusal :=
  live s fun s => s.when (s.capOn && fld r 3 0 == 9) (·.startWake)

/-- CORE_CLK_RESTART (R490): core_clk that stood still in Midwinter runs again: the instance is not LOCKED and acquires anew; a root starts
a new phase and keeps its count (log entry 22). -/
def execCoreClkRestart (s : State) : Host.Outcome State Fault Refusal :=
  live s fun s =>
    if (s.pwr.st = 3 ∨ s.pwr.st = 4) ∧ s.tickOn then
      let root := s.tickRole = 2
      let next := s.now + s.period
      s.updTick fun t => { t with lock := 1, cand := none, miss := 0, got := false, phase8 := if root then 8 * s.now else t.phase8,
                                  nextSol := if root then some next else none }
    else s

end Sys2Proof.Machine
end

