-- ==== Sys2Proof/Machine/Repair.lean ====
section
/-! DEFINITION. Runtime lane repair: the REPAIR handshake, the spare swap and the width degrade (02, R70 to R77, Table 2-12). -/
namespace Sys2Proof.Machine

/-- Content of a REPAIR flit from byte 6 (Table 2-8). -/
def repairContent (m phase : Nat) (r : Repair) : List Byte :=
  leBytes 1 m ++ leBytes 1 phase ++ leBytes 1 r.id ++ leBytes 1 r.width ++ spareBytes r.map ++ leBytes 6 r.target

/-- A repair flit waits for a slot. -/
def State.sendRepair (s : State) (m phase : Nat) (r : Repair) : State := s.queueRepair m (repairContent m phase r)

/-- RESULT of PA_REPAIR. -/
def State.repairResult (s : State) (m r : Nat) : State := s.setRf (0x10010 + 0x1000 * m) 30 28 r

/-- A repair ends cancelled (2) or superseded (3): SWAP_CANCEL, irq[4] (Table 16-11). -/
def State.repairEnds (s : State) (m r : Nat) : State := ((s.repairResult m r).setBit (0x1001C + 0x1000 * m) 4).irq 4

/-- The receive map with the lowest-numbered good spare assigned to a lane (R70); as it was when none is free. A FUSE entry of that lane stays, as
R70 makes it permanent, and the new spare carries the lane in its place (DESIGN CHOICE, log entry 57). -/
def State.swapMap (s : State) (m lane : Nat) : List Spare :=
  let mp := spare4 (s.mod m).spRx
  match s.freeRx m with
  | j :: _ => (mp.map fun p => if p.valid && !p.fuse && p.lane == lane then {} else p).set j
      { valid := true, fuse := false, lane := lane }
  | [] => mp

/-- A REQUEST for the receive direction (R71, R74): the complete map and width and a target tick. -/
def State.startRepair (s : State) (m width : Nat) (map : List Spare) (target : Nat) : State :=
  let id := (s.hm.lastId + 1) % 256
  let r : Repair := { id := id, width := width, map := map, target := target, echoed := false, cancel := false,
                      nextSend := s.now + 64, began := none }
  let s := s.when ((s.mod m).repRx.isSome) (·.repairEnds m 3)
  let s : State := { s with hm := { s.hm with lastId := id } }
  ((s.bistServe m).updMod m fun x => { x with repRx := some r }).sendRepair m 1 r

/-- A REQUEST that changes the width: the failed lanes that it rests on are remembered, for the half that it leaves. -/
def State.startWidth (s : State) (m w : Nat) (fails : List Nat) (target : Nat) : State :=
  let map := s.rxMap m fails w
  (s.updMod m fun x => { x with failRx := (x.failRx ++ fails).eraseDups }).startRepair m w map target

/-- A write of PA_REPAIR (Table 2-12): the fields are stored; GO starts a REQUEST for 4 ticks ahead, or RESULT 4 out of LOCKED. The REQUEST
may travel on another module, and a module in Fallow is woken for it (R65, R486). A change of width goes to the half that R77 finds, and a
module that no half covers is retired (R78). In Open mode runtime repair is not available (R81). -/
def State.writeRepair (s : State) (m : Nat) (d : W32) : State :=
  let o := 0x10010 + 0x1000 * m
  let s := s.setRg o ((s.rg o &&& 0x70000000) ||| (d &&& 0x3BF))
  if !bit d 31 || s.openMode then s
  else if !s.locked then s.repairResult m 4
  else
    let s := s.updMod m fun x => { x with wantWake := x.wantWake || x.st == .fallow }
    let x := s.mod m
    let swap := bit d 7 && decide (fld d 5 0 < dataLanes s.member)
    let map := if swap then s.swapMap m (fld d 5 0) else spare4 x.spRx
    let fails := (s.rxFailsNow m ++ s.badRx m ++ if swap then [fld d 5 0] else []).eraseDups
    if fld d 9 8 = x.width then (s.repairResult m 0).startRepair m x.width map (s.tickPlus 4)
    else match s.widthFor m fails (s.txFailsNow m) (min 1 (fld d 9 8)) with
      | some w =>
        if w = x.width then (s.repairResult m 0).startRepair m w map (s.tickPlus 4)
        else (s.repairResult m 0).startWidth m w fails (s.tickPlus 4)
      | none => s.startRetire m false

/-- PA_REPAIR_GO (R71). -/
def execPaRepairGo (m : Nat) (d : W32) (s : State) : Host.Outcome State Fault Refusal :=
  portCmdWf (decide (m < 16)) s fun s => s.when (decide (m < modules s.member)) (·.writeRepair m d)

/-- A REPAIR flit of a phase: module, id, width, map bytes, target. -/
def State.rxRepair (s : State) (m : Nat) (f : List Byte) (phase : Nat) (act : Nat → Nat → Nat → List Byte → Nat → State → State) :
    State :=
  s.rxCtrl m f 4 fun g s =>
    if (g.getD 7 0).toNat = phase then
      act (g.getD 6 0).toNat (g.getD 8 0).toNat (g.getD 9 0).toNat (slice g 10 4) (leAt g 14 6) s
    else s

/-- REPAIR_REQUEST (R72, R74): echoed while LOCKED with a target in the future, and armed for it. -/
def execRepairRequest (m : Nat) (f : List Byte) (s : State) : Host.Outcome State Fault Refusal :=
  liveWf (flitWf m f) s (·.rxRepair m f 1 fun k id w map t s =>
    if s.locked && future t s.tick.num && decide (k < modules s.member) && decide (w < 3) then
      let r : Repair := { id := id, width := w, map := spareOf (s.mod k).spTx map, target := t, echoed := true,
                          cancel := false, nextSend := 0, began := none }
      ((s.bistServe k).updMod k fun x => { x with repTx := some r }).sendRepair k 2 r
    else s)

/-- REPAIR_ECHO (R72). -/
def execRepairEcho (m : Nat) (f : List Byte) (s : State) : Host.Outcome State Fault Refusal :=
  liveWf (flitWf m f) s (·.rxRepair m f 2 fun k id _ _ _ s => s.updMod k fun x =>
    { x with repRx := x.repRx.map fun r => if r.id = id && !r.cancel then { r with echoed := true } else r })

/-- REPAIR_CANCEL (R73): before the target Solstice the pending repair is dropped. -/
def execRepairCancel (m : Nat) (f : List Byte) (s : State) : Host.Outcome State Fault Refusal :=
  liveWf (flitWf m f) s (·.rxRepair m f 3 fun k id _ _ _ s => s.updMod k fun x =>
    { x with repTx := if (x.repTx.map fun r => r.id == id && future r.target s.tick.num).getD false then none else x.repTx })

/-- The receiver moves to the new map: SWAP_DONE, irq[4], RESULT applied (R76). -/
def State.applyRxSwap (s : State) (m : Nat) (r : Repair) : State :=
  let s := s.updMod m fun x => { x with spRx := r.map, swapRx := none }
  ((s.repairResult m 1).setBit (0x1001C + 0x1000 * m) 3).irq 4

/-- REPAIR_SWITCH (R76): the new map from the next flit. -/
def execRepairSwitch (m : Nat) (f : List Byte) (s : State) : Host.Outcome State Fault Refusal :=
  liveWf (flitWf m f) s (·.rxRepair m f 4 fun k id _ _ _ s =>
    match (s.mod k).swapRx with
    | some r => if r.id = id && (s.mod k).planWidth != some r.width then s.applyRxSwap k r else s
    | none => s)

/-- REPAIR_RESEND (R71 to R73): every 64 cc the REQUEST without an ECHO, while LOCKED, or in its window the CANCEL. -/
def execRepairResend (m : Nat) (s : State) : Host.Outcome State Fault Refusal :=
  liveWf (decide (m < 16)) s fun s =>
    match (s.mod m).repRx with
    | some r =>
      if (!r.echoed || r.cancel) && (r.cancel || s.locked) && decide (r.nextSend ≤ s.now) then
        (s.updMod m fun x => { x with repRx := some { r with nextSend := s.now + 64 } }).sendRepair m (if r.cancel then 3 else 1) r
      else s
    | none => s

/-- REPAIR_NO_ECHO (R73): no ECHO by the Solstice one tick before the target; CANCEL until the target. -/
def execRepairNoEcho (m : Nat) (s : State) : Host.Outcome State Fault Refusal :=
  liveWf (decide (m < 16)) s fun s =>
    match (s.mod m).repRx with
    | some r =>
      if !r.echoed && !r.cancel && !future r.target (s.tickPlus 1) then
        ((s.updMod m fun x => { x with repRx := some { r with cancel := true, nextSend := s.now + 64 } }).repairEnds m 2).sendRepair
          m 3 r
      else s
    | none => s

/-- A width repair begins at its target Solstice (R74, R77): the map that was requested, the other direction's map for the same half from what both
ends know (`other` where it has a repair of its own now), and a Frost for a retrain at the new width. A module in Fallow is woken for it, one in a
retrain has its Frost after that, and one out of service takes the width for its next training. -/
def State.beginWidth (s : State) (m : Nat) (r : Repair) (mine other : Bool) : State :=
  let w := max r.width ((s.mod m).planWidth.getD 0)
  let tx := s.txMap m (s.txFailsNow m) w
  let rx := s.rxMap m (s.rxFailsNow m) w
  let s := s.updMod m fun x =>
    { x with planWidth := some w, spRx := if mine then r.map else if other then x.spRx else rx,
             spTx := if !mine then r.map else if other then x.spTx else tx,
             swapRx := if mine then some { r with began := some s.now } else x.swapRx,
             wantWake := x.wantWake || x.st == .fallow }
  if (s.mod m).carries then (s.enterFrost m 2 true true).setGap 2 s.gapTicks
  else if (s.mod m).st = .fallow ∨ (s.mod m).retrain.isSome then s
  else (s.updMod m fun x => { x with width := w, planWidth := none }).widthDone m

/-- The transmit repair of module m at its target Solstice (R74, R75): the Frost of a swap, unless the module leaves service anyway (`wide`). -/
def State.txSolstice (s : State) (m : Nat) (r : Repair) (wide other : Bool) : State :=
  let x := s.mod m
  let s := s.updMod m fun x => { x with repTx := none }
  if r.target != s.tick.num then s
  else if r.width != x.width then s.beginWidth m r false other
  else if wide || !x.carries || x.frost.isSome then s.updMod m fun x => { x with spTx := r.map }
  else (s.updMod m fun x => { x with swapTx := some { r with began := some s.now } }).enterFrost m 1 true false

/-- The receive repair of module m at its target Solstice (R73, R74, R76): dropped when cancelled or never echoed, else begun. -/
def State.rxSolstice (s : State) (m : Nat) (r : Repair) (wide other : Bool) : State :=
  let x := s.mod m
  let s := s.updMod m fun x => { x with repRx := none }
  if r.cancel then s
  else if !r.echoed || r.target != s.tick.num then s.repairEnds m 2
  else if r.width != x.width then s.beginWidth m r true other
  else if wide || !x.carries then s.applyRxSwap m r
  else s.updMod m fun x => { x with swapRx := some { r with began := some s.now } }

/-- The repairs of module m at a Solstice (R74, R75, R77): those of both directions whose target has come. A swap that meets a change of width
there takes its map at once, since the module retrains. In Open mode none is available, and one that was pending is dropped (R81). -/
def State.repairSolstice (s : State) (m : Nat) : State :=
  if s.openMode then s.updMod m fun x => { x with repTx := none, repRx := none, swapTx := none, swapRx := none } else
  let x := s.mod m
  let due := fun (r : Repair) => !future r.target s.tick.num
  let wide := fun (o : Option Repair) =>
    (o.map fun r => r.target == s.tick.num && r.echoed && !r.cancel && r.width != x.width).getD false
  let any := wide x.repTx || wide x.repRx
  let s := match x.repTx with
    | some r => s.when (due r) (·.txSolstice m r any (wide x.repRx))
    | none => s
  match x.repRx with
  | some r => s.when (due r) (·.rxSolstice m r any (wide x.repTx))
  | none => s

/-- SWAP_SWITCH_SEND (R75): at Solstice + 480 cc, the last flit on the old map; the new map from the next slot. -/
def execSwapSwitchSend (m : Nat) (s : State) : Host.Outcome State Fault Refusal :=
  liveWf (decide (m < 16)) s fun s =>
    match (s.mod m).frost, (s.mod m).swapTx with
    | some f, some r =>
      if f.kind = 1 && f.tx && !f.switched && decide (f.since + 480 ≤ s.now) && !s.openMode then
        (s.sendCtrl m 4 (repairContent m 4 r)).updMod m fun x =>
          { x with spTx := r.map, swapTx := none, frost := some { f with switched := true } }
      else s
    | _, _ => s

/-- SWAP_RECEIVER_TIMEOUT (R76): no SWITCH by Solstice + 600 cc. -/
def execSwapReceiverTimeout (m : Nat) (s : State) : Host.Outcome State Fault Refusal :=
  liveWf (decide (m < 16)) s fun s =>
    match (s.mod m).swapRx with
    | some r =>
      let due := (r.began.map fun t => decide (t + 600 ≤ s.now)).getD false
      if !s.openMode && (s.mod m).planWidth != some r.width && due then s.applyRxSwap m r else s
    | none => s

/-- SWAP_FROST_END (R75): Solstice + 720 cc. -/
def execSwapFrostEnd (m : Nat) (s : State) : Host.Outcome State Fault Refusal :=
  liveWf (decide (m < 16)) s fun s =>
    match (s.mod m).frost with
    | some f =>
      if f.kind = 1 && decide (f.since + 720 ≤ s.now) then
        s.updMod m fun x => { x.swapNow with frost := none, st := if x.st = .frost then .active else x.st }
      else s
    | none => s

end Sys2Proof.Machine
end

