-- ==== Sys2Proof/Machine/Health.lean ====
section
/-! DEFINITION. The Health Monitor: samples, filters, decisions, and the rate step-down (12, R473 to R482, R510; 13, R533, R546). -/
namespace Sys2Proof.Machine

/-! ## Filters (R474, R475) -/

/-- One step of a filter: A + (256x − A) / 2^K, rounded toward minus infinity, saturated. -/
def filt (k a x : Nat) : Nat := (min ((a : Int) + ((256 * x : Nat) - (a : Int)) / (2 ^ k : Nat)) 0xFFFFFFFF).toNat

/-- One step of every filter of a map, whose listed inputs are x and whose others are 0. -/
def filtMap (k : Nat) (m : Sp Nat) (xs : List (Nat × Nat)) : Sp Nat :=
  let keys := (m.map (·.1) ++ xs.map (·.1)).eraseDups
  let x := fun i => ((xs.filter fun e => e.1 == i).map (·.2)).sum
  keys.foldl (fun n i => spPut 0 n i (filt k (spGet 0 m i) (x i))) m

/-- The highest of four sensors of a word. -/
def hottest (w : Nat) : Nat := ((List.range 4).map fun i => w / 256 ^ i % 256).foldl max 0

/-- The sample of R474 goes into the filters: the counts since the one before, and what is sensed. -/
def State.hmFilter (s : State) (x : HmInputs) : State :=
  let kl := s.rf 0xA0004 3 0
  let nm := modules s.member
  let scan := decide (s.rf 0xA0000 23 16 ≤ s.hm.scan + 1)
  let tempNow := (x.temps.filter fun e => decide (e.1 < nm)).foldl (fun t e => spPut 0 t e.1 e.2.toNat) s.hm.tempNow
  let margin := if scan then (x.margins.filter fun e => decide (e.1 < nm)).foldl (fun t e => spPut 0 t e.1 (1 + e.2)) s.hm.margin
    else s.hm.margin
  s.updHm fun h =>
    { h with lane := filtMap kl h.lane h.nLane, prbs := filtMap kl h.prbs h.nPrbs, crc := filtMap (s.rf 0xA0004 7 4) h.crc h.nCrc,
             nLane := [], nPrbs := [], nCrc := [],
             temp := filtMap (s.rf 0xA0004 11 8) h.temp ((List.range nm).map fun m => (m, hottest (spGet 0 tempNow m))),
             vddA := filt (s.rf 0xA0004 15 12) h.vddA x.vdd, vdd := x.vdd, margin := margin, tempNow := tempNow,
             scan := if scan then 0 else h.scan + 1, lastAt := s.now }

/-! ## What a decision records (R476, R510) -/

/-- HM_LAST for an action of Table 12-14. -/
def State.hmLast (s : State) (action m lane : Nat) (reported : Bool) : W64 :=
  bf 64 3 0 action ||| bf 64 7 4 m ||| bf 64 14 8 lane ||| bf 64 15 15 (b2n reported) ||| bf 64 63 16 s.tick.num

/-- An action or alarm: HM_LAST, its HM_EVENT bit, irq[4], an ALARM record (R493). -/
def State.hmAct (s : State) (action event m lane : Nat) : State :=
  let w := s.hmLast action m lane false
  (((s.setRg64 0xA0038 w).setBit 0xA0030 event).irq 4).tel 3 w

/-- A decision that its limit forbids (R476). -/
def State.hmForbid (s : State) (action m lane : Nat) : State :=
  ((s.setRg64 0xA0038 (s.hmLast action m lane true)).setBit 0xA0030 9).irq 4

/-- The Health Monitor still holds off module m (R478). -/
def State.hmHeld (s : State) (m : Nat) : Bool :=
  let v := spGet 0 s.hm.hold m
  decide (0 < v) && future (v - 1) s.tick.num

/-- No further action on module m for HOLDOFF ticks. -/
def State.hmHold (s : State) (m : Nat) : State :=
  s.updHm fun h => { h with hold := spPut 0 h.hold m (1 + s.tickPlus (s.rf 0xA0008 31 24)) }

/-- Modules that are to be retired: decided, and their target not reached. -/
def State.retirements (s : State) : Nat := (s.allMods.filter fun m => (s.mod m).retire.isSome).length

/-- A retirement is within the limits: one that is under way counts toward MAX_RETIRED (R477). -/
def State.mayRetire (s : State) : Bool := bit (s.rg 0xA0008) 3 && decide (s.hm.retired + s.retirements < s.rf 0xA0008 20 16)

/-! ## Decisions of Table 12-2 -/

/-- The lanes of module m in use whose correction value reaches HM_THR_LANE, ascending: data lanes that no spare replaces, and assigned spares. -/
def State.hotLanes (s : State) (m : Nat) : List Nat :=
  let mp := spare4 (s.mod m).spRx
  (List.range 68).filter fun n =>
    decide (s.rf 0xA0010 31 0 ≤ spGet 0 s.hm.lane (m * 68 + n)) &&
      (decide (n < dataLanes s.member) && !mp.any (fun p => p.valid && p.lane == n) || decide (64 ≤ n) && (mp.getD (n - 64) {}).valid)

/-- The logical lane that a physical lane carries. -/
def State.logicalLane (s : State) (m n : Nat) : Nat :=
  if n < 64 then n else ((spare4 (s.mod m).spRx).getD (n - 64) {}).lane

/-- A retirement that R78 requires, or that the limits allow. -/
def State.hmRetire (s : State) (m lane : Nat) (forced : Bool) : State :=
  if forced || s.mayRetire then ((s.startRetire m true).hmAct 3 3 m lane).hmHold m else s.hmForbid 3 m lane

/-- The lanes that fail in the receive direction of module m once its hot lanes count as failing (R70, R77). -/
def State.hotFails (s : State) (m : Nat) : List Nat :=
  (s.rxFailsNow m ++ s.badRx m ++ (s.hotLanes m).map (s.logicalLane m) ++ (s.hotLanes m).filter (64 ≤ ·)).eraseDups

/-- A hot lane that neither a spare nor a half covers: the retirement that R78 requires, which no hold-off keeps back (R478). At half width a failed
lane has no spare left and leads to it too. -/
def State.hmMust (s : State) (m : Nat) : Option Nat :=
  if !s.openMode && (s.freeRx m).isEmpty && ((s.mod m).width != 0 || (s.widthFor m (s.hotFails m) (s.txFailsNow m) 1).isNone) then
    (s.hotLanes m).head?
  else none

/-- A lane of module m at the threshold (rows 1 to 3): a swap, a degrade, or a retirement. In Open mode a UCIe retrain (R546). -/
def State.hmLane (s : State) (m lane : Nat) : State :=
  let x := s.mod m
  if s.openMode then ((s.ucieRetrain m).hmAct 4 2 m lane).hmHold m
  else
    let busy := x.repRx.isSome || x.swapRx.isSome || !s.locked
    if !(s.freeRx m).isEmpty then
      if !bit (s.rg 0xA0008) 0 then s.hmForbid 1 m lane
      else if busy then s
      else ((s.startRepair m x.width (s.swapMap m (s.logicalLane m lane)) (s.tickPlus 2)).hmAct 1 0 m lane).hmHold m
    else if x.width = 0 then
      let fails := s.hotFails m
      match s.widthFor m fails (s.txFailsNow m) 1 with
      | none => s.hmRetire m lane true
      | some w =>
        if !bit (s.rg 0xA0008) 1 then s.hmForbid 2 m lane
        else if busy then s
        else ((s.startWidth m w fails (s.tickPlus 2)).hmAct 2 1 m lane).hmHold m
    else s.hmRetire m lane false

/-- The flit-failure value of module m reaches HM_THR_CRC. -/
def State.crcHot (s : State) (m : Nat) : Bool := decide (s.rf 0xA0014 31 0 ≤ spGet 0 s.hm.crc m)

/-- A module's flit failures (rows 4 and 5): a retrain, or on probation a retirement. -/
def State.hmCrc (s : State) (m : Nat) : State :=
  if (s.mod m).prob.isSome then s.hmRetire m 0x7F false
  else if !bit (s.rg 0xA0008) 2 || s.openMode then s.hmForbid 4 m 0x7F
  else (((s.updMod m fun x => { x with hmReq := true }).hmAct 4 2 m 0x7F)).hmHold m

/-- A retrain that the Health Monitor decided on takes effect at the next Solstice that finds no other Frost of the module, under Frost (R157,
R479). -/
def State.hmSolstice (s : State) (m : Nat) : State :=
  if !(s.mod m).hmReq || (s.mod m).frost.isSome then s
  else
    let s := s.updMod m fun x => { x with hmReq := false }
    s.when (s.mod m).carries fun s => (s.enterFrost m 4 true true).setGap 4 s.gapTicks

/-- The decisions about one ACTIVE module: the first row of Table 12-2 that holds; under a hold-off, or while a rate step-down is pending
(`held`), a retirement that R78 requires and nothing else (R478). -/
def State.hmModule (s : State) (held : Bool) (m : Nat) : State :=
  if (s.mod m).st != .active || (s.mod m).retrain.isSome || (s.mod m).hmReq || (s.mod m).retiring then s
  else if held || s.hmHeld m then
    match s.hmMust m with
    | some n => s.hmRetire m n ((s.mod m).width == 0)
    | none => s
  else
    let s := match s.hotLanes m with
      | n :: _ => s.hmLane m n
      | [] => s
    if s.crcHot m && (s.mod m).st == .active && !s.hmHeld m then s.hmCrc m else s

/-- Modules whose temperature value reaches a limit. -/
def State.hotMods (s : State) (limit : Nat) : List Nat :=
  s.activeMods.filter fun m => decide (256 * limit ≤ spGet 0 s.hm.temp m)

/-- Modules whose latest spare margin lies below HM_MARGIN. -/
def State.thinMods (s : State) : List Nat :=
  s.activeMods.filter fun m => let v := spGet 0 s.hm.margin m; decide (0 < v ∧ v - 1 < s.rf 0xA0020 5 0)

/-- RATE_STEP of a phase (Table 12-3). -/
def State.sendStep (s : State) (phase rate target : Nat) : State :=
  s.sendMgmt 0x50 (bf 64 10 8 phase ||| bf 64 15 12 rate ||| bf 64 63 16 target) []

/-- The rate that the link runs at. -/
def State.linkRate (s : State) : Nat := ((s.active.head?).map fun m => (s.mod m).rate).getD 0

/-- A rate step-down is decided (row 6): within its limits, with its capability, with no LL_PLAN request pending, and while no module that it would
change is held off (R477, R478, R480, R533). -/
def State.hmStep (s : State) (m : Nat) (hot : Bool) : State :=
  let s := s.when hot fun s => (s.setBit 0xA0030 5).irq 4
  let rate := s.linkRate - 1
  if !bit (s.rg 0xA0008) 4 || s.linkRate = 0 || rate < s.rf 0xA0008 15 12 || !s.cap 5 || s.openMode then s.hmForbid 5 m 0x7F
  else if s.plan.isSome || s.activeMods.any s.hmHeld || !s.locked then s
  else
    let t := s.tickPlus 2
    let s := s.updHm fun h => { h with stepReq := some { target := t, mine := true, echoed := false, nextSend := s.now + 256, arg := rate } }
    let s := (s.sendStep 1 rate t).hmAct 5 4 m 0x7F
    s.each s.activeMods (·.hmHold ·)

/-- The step of the whole link (row 6); HM_LAST names the lowest-numbered module of all the causes that hold (R510). -/
def State.hmLink (s : State) : State :=
  let hot := s.hotMods (s.rf 0xA0018 7 0)
  let crc := s.activeMods.filter s.crcHot
  let thin := s.thinMods
  let cause := hot ++ (if 2 ≤ crc.length then crc else []) ++ (if 2 ≤ thin.length then thin else [])
  match s.allMods.find? cause.contains with
    | some m => if s.openMode && hot.isEmpty && crc.length < 2 then s.each thin fun s m => ((s.ucieRetrain m).hmAct 4 2 m 0x7F).hmHold m
                else s.hmStep m (!hot.isEmpty)
    | none => s

/-- The alarm of the supply value (row 8). -/
def State.supplyAlarm (s : State) : State := s.when (decide (s.hm.vddA < 256 * s.rf 0xA001C 11 0)) (·.hmAct 7 7 0 0x7F)

/-- The alarms (rows 7 and 8), which are no actions: no limit and no hold-off bears on them. -/
def State.hmAlarms (s : State) : State :=
  let s := match s.hotMods (s.rf 0xA0018 15 8) with
    | m :: _ => s.hmAct 6 6 m 0x7F
    | [] => s
  s.supplyAlarm

/-- The envelope of BIST (R559): core_clk as the controller counts it within the member's range, and the latest supply sample within 720 to
820 mV. -/
def State.envelope (s : State) : Bool :=
  (s.bist.mhz.map (clkInRange s.member)).getD false && decide (720 ≤ s.hm.vdd) && decide (s.hm.vdd ≤ 820)

/-- A sample is taken: HM_CFG.EN is 1, and HM_CFG.SAMPLE cycles of aon_clk have passed since the one before (R474). -/
def State.sampleDue (s : State) : Bool :=
  bit (s.rg 0xA0000) 31 && decide (s.hm.lastAt * s.env.aon + s.rf 0xA0000 15 0 * s.clk ≤ s.now * s.env.aon)

/-- The inputs of a sample: the filters where it is due, and for the BIST controller its count of core_clk, which HM_CFG.EN does not stop (R559). A
running BIST slice whose envelope is lost is cut (R560). -/
def State.hmTake (s : State) (x : HmInputs) : State :=
  let s : State := { s with bist := { s.bist with mhz := some x.coreMhz } }
  let s := s.when s.sampleDue (·.hmFilter x)
  s.when (s.bist.cur.isSome && !s.envelope) (·.bistCut)

/-- HM_SAMPLE (R474 to R478): the filters, then the decisions, none but alarms and required retirements while a rate step-down is pending. -/
def State.hmSample (s : State) (x : HmInputs) : State :=
  let due := s.sampleDue
  let s := s.hmTake x
  let pending := s.hm.stepReq.isSome
  s.when due fun s => ((s.each s.allMods (·.hmModule pending ·)).when (!pending) (·.hmLink)).hmAlarms

/-- HM_SAMPLE. The Health Monitor runs from the release of cold reset, also while a warm reset is held: its filters go on, the link has no ACTIVE
module to decide about, and the alarm of the supply is recorded (R473). -/
def execHmSample (x : HmInputs) (s : State) : Host.Outcome State Fault Refusal :=
  .next (if !s.inReset then s.hmSample x
    else if s.env.cold then s
    else s.when s.sampleDue fun s => (s.hmFilter x).supplyAlarm)

/-! ## The rate step-down handshake (R480 to R482) -/

/-- A RATE_STEP of a phase. -/
def stepIs (phase : Nat) (m : Msg) : Bool := mgmtFn m == 0x50 && fld m.arg 10 8 == phase
/-- RATE of a RATE_STEP. -/
def stepRate (m : Msg) : Nat := fld m.arg 15 12

/-- RATE_STEP_REQUEST: REFUSE or ECHO; with a request of its own the lower rate and the later target (R481). -/
def execRateStepRequest (s : State) : Host.Outcome State Fault Refusal :=
  live s (·.takeMgmt (stepIs 1) fun x s =>
    let rate := stepRate x.msg
    let t := mgmtTick x.msg
    if !bit (s.rg 0xA0008) 4 || rate < s.rf 0xA0008 15 12 || s.plan.isSome then s.sendStep 3 rate t
    else
      let own := s.hm.stepReq.filter fun k => decide (k.arg < 16)
      let rate := min rate ((own.map (·.arg)).getD rate)
      let k := metBy own t s.now rate
      (s.updHm fun h => { h with stepReq := some k }).sendStep 2 rate k.target)

/-- RATE_STEP_ECHO: the step is fixed. -/
def execRateStepEcho (s : State) : Host.Outcome State Fault Refusal :=
  live s (·.takeMgmt (stepIs 2) fun x s => s.updHm fun h =>
    { h with stepReq := h.stepReq.map fun k =>
        let t := mgmtTick x.msg
        if k.mine && decide (k.arg < 16) && laterTick k.target t == t then { k.fixedAt t with arg := min k.arg (stepRate x.msg) } else k })

/-- RATE_STEP_REFUSE: the request ends. -/
def execRateStepRefuse (s : State) : Host.Outcome State Fault Refusal :=
  live s (·.takeMgmt (stepIs 3) fun _ s => s.updHm fun h =>
    { h with stepReq := h.stepReq.bind fun k => if k.mine && !k.echoed then none else some k })

/-- RATE_STEP_CANCEL: the pending step-down is withdrawn. -/
def execRateStepCancel (s : State) : Host.Outcome State Fault Refusal :=
  live s (·.takeMgmt (stepIs 4) fun _ s => s.updHm fun h => { h with stepReq := none })

/-- RATE_STEP_NO_ECHO (R482): no ECHO by the Solstice one tick before the target: CANCEL every 64 cc until the target. A cancelled request
has 16 added to its rate. -/
def execRateStepNoEcho (s : State) : Host.Outcome State Fault Refusal :=
  live s fun s =>
    match s.hm.stepReq with
    | some k =>
      let due := decide (k.arg < 16) || decide (k.nextSend ≤ s.now)
      if k.mine && !k.echoed && !future k.target (s.tickPlus 1) && future k.target s.tick.num && due then
        (s.updHm fun h => { h with stepReq := some { k with arg := k.arg % 16 + 16, nextSend := s.now + 64 } }).sendStep 4 (k.arg % 16)
          k.target
      else s
    | none => s

/-- The step-down at its target Solstice (R482): begun by an end that holds an ECHO, else dropped. -/
def State.stepSolstice (s : State) : State :=
  match s.hm.stepReq with
  | none => s
  | some k =>
    if future k.target s.tick.num then s
    else
      let s := s.updHm fun h => { h with stepReq := none }
      if k.echoed && k.target = s.tick.num then (s.frostAll 3 (some k.arg)).setGap 3 s.gapTicks else s

/-! ## The traffic wake (R491, Table 12-14) -/

/-- TRAFFIC_WAKE (Table 12-5): a message has waited at admission, and MW_AUTOWAKE and WAKE_EN are 1. -/
def execTrafficWake (s : State) : Host.Outcome State Fault Refusal :=
  live s fun s =>
    if s.pwr.st = 3 && !s.pwr.wakeSent && bit (s.rg 0xA0104) 30 && bit (s.rg 0xA0008) 5 && s.waitedLong false then
      s.startWake.hmAct 8 8 s.powerMod 0x7F
    else s

end Sys2Proof.Machine
end

