-- ==== Sys2Proof/Machine/Twin.lean ====
section
/-! DEFINITION. Twin pairs: heartbeats, operations handed over, takeover, loss, and rejoin (11, R444 to R463, R469 to R471; log entry 20). -/
namespace Sys2Proof.Machine

/-- The other role of a pair. -/
def State.sisRole (s : State) : Nat := 3 - s.role

/-! ## Link state (R449, R469) -/

/-- TWN_CAPACITY at a Solstice (R469). -/
def State.capacitySolstice (s : State) : State :=
  let pair := s.halves + (if s.paired && s.twin.alive then s.twin.sisHalf else 0)
  s.setRg 0x90018 (bf 32 5 0 s.halves ||| bf 32 22 16 pair)

/-! ## Takeover begins (R449 to R453) -/

/-- A TAKEOVER, STREAM_STATE or REJOIN function (Table 11-2). -/
def State.sendTwinFn (s : State) (fn phase role : Nat) (lost : Bool) (target : Nat) (data : List Byte) : State :=
  s.sendMgmt fn (bf 64 9 8 phase ||| bf 64 10 10 (b2n lost) ||| bf 64 13 12 role ||| bf 64 63 16 target) data

/-- The survivor asks its peer for a takeover of the sister's streams, 2 ticks ahead (R452), and its heartbeat tells the sister of it. -/
def State.requestTakeover (s : State) (lost : Bool) : State :=
  let t := s.tickPlus 2
  let k : Shake := { target := t, mine := true, echoed := false, nextSend := s.now + 256, arg := s.sisRole }
  let s := s.updTwin fun x => { x with st := 2, take := some k, lost := x.lost || lost }
  (((s.freeze (roleStreams s.sisRole) true).twinEvent 0).sendTwinFn 0x40 1 s.sisRole lost t []).sendHeartbeat

/-! ## The heartbeat (R448 to R450, R470, R471) -/

/-- HEARTBEAT_SEND (R448, R449): every 64 cc, and at once when an instance in Equinox finds its own link failed. -/
def execHeartbeatSend (s : State) : Host.Outcome State Fault Refusal :=
  live s fun s =>
    if !s.paired then s
    else if s.twin.st = 1 && !s.twin.failed && s.linkFails then s.twinCheck
    else s.when (decide (s.twin.nextHb ≤ s.now)) (·.sendHeartbeat)

/-- The sister runs a takeover of this instance's streams (R453, log entry 20): they stop here too, and the target and LOST are taken from it.
Where they have moved already, a takeover with LOST ends the operations that went with them (R460). -/
def State.hearTake (s : State) (p : Pending) : State :=
  let mine := (s.twin.take.map fun k => k.arg == s.role).getD false
  let again := s.twin.st = 4 && p.lost && (p.target.map (future · s.tick.num)).getD true
  if s.twin.st = 1 || (s.twin.st = 2 && mine) || again then
    let k : Shake := { target := p.target.getD (s.tickPlus 2), mine := false, echoed := p.target.isSome, nextSend := s.now, arg := s.role }
    let first := s.twin.st = 1
    let s := s.updTwin fun x => { x with st := 2, take := some k, lost := p.lost }
    if first then (s.freeze (roleStreams s.role) true).twinEvent 0 else s
  else s

/-- HEARTBEAT (R445, R449, R452, R491): the sister lives; both links up make Equinox; a failed one starts the takeover; a link that wakes
wakes this one; a takeover that the sister runs is known here. -/
def State.takeHeartbeat (s : State) (linkOk : Bool) (half : Nat) (waking : Bool) (take : Option Pending) : State :=
  if !s.paired then s
  else
    let s := s.updTwin fun x => { x with alive := true, lastHb := some s.now, sisOk := linkOk, sisHalf := half }
    let s := s.when waking (·.startWake)
    let s := (take.map s.hearTake).getD s
    if s.twin.st = 0 && linkOk && s.linkOk then s.updTwin fun x => { x with st := 1 }
    else if s.twin.st = 1 && !linkOk && !s.linkFails then s.requestTakeover false
    else s

/-- HEARTBEAT. -/
def execHeartbeat (linkOk : Bool) (half : Nat) (news : HbNews) (s : State) : Host.Outcome State Fault Refusal :=
  live s (·.takeHeartbeat linkOk half news.waking news.take)

/-- A write of 1 to TWN_CTRL.FORCE (R450): an instance in Equinox reports its own link failed. -/
def State.forceFail (s : State) : State := if s.paired && s.twin.st == 1 then s.failOwn.sendHeartbeat else s

/-- TWN_CTRL_FORCE. -/
def execTwnCtrlForce (s : State) : Host.Outcome State Fault Refusal := portCmd s (·.forceFail)

/-- The sister is lost (R450): INST_LOST; an instance whose link works asks for a takeover with LOST, also where one without LOST was under way
or is over (R452, R460); one that has no link owns all. -/
def State.sisterLost (s : State) : State :=
  let s := (s.updTwin fun x => { x with alive := false, lastHb := none, lost := true }).twinEvent 2
  let mine := (s.twin.take.map fun k => k.arg == s.role).getD false
  if (s.twin.st = 1 || s.twin.st = 3 || (s.twin.st = 2 && !mine)) && !s.linkFails then s.requestTakeover true
  else s.updTwin fun x => { x with st := 5, take := if x.failed then none else x.take }

/-- INST_LOST (R450): no heartbeat for HB_LIMIT periods of 64 cc. -/
def execInstLost (s : State) : Host.Outcome State Fault Refusal :=
  live s fun s =>
    match s.twin.lastHb with
    | some t => s.when (s.paired && decide (t + 64 * s.rf 0x90000 15 8 ≤ s.now)) (·.sisterLost)
    | none => s

/-- NO_SISTER (R471): no heartbeat within 2,400,000 cc of the tick's enable. -/
def execNoSister (s : State) : Host.Outcome State Fault Refusal :=
  live s fun s =>
    match s.twin.enAt with
    | some t =>
      if s.paired && s.twin.st == 0 && !s.twin.alive && decide (t + 2400000 ≤ s.now) then
        (s.updTwin fun x => { x with st := 5 }).twinEvent 2
      else s
    | none => s

/-! ## The takeover handshake (R451, R452) -/

/-- The role that a twin function names. -/
def twinRole (m : Msg) : Nat := fld m.arg 13 12
/-- LOST of a twin function. -/
def twinLost (m : Msg) : Bool := bit m.arg 10

/-- A REQUEST counts: this instance is, or can become, the survivor of the role that it names; one that is SURVIVOR already, or that owns all since
its sister was lost, takes only a LOST (R452, R460). -/
def State.hearsTakeover (s : State) (m : Msg) : Bool :=
  let mine := (s.twin.take.map fun k => k.arg == s.role).getD false
  s.paired && twinRole m == s.sisRole && !mine && (decide (s.twin.st ≤ 2) || ((s.twin.st == 3 || s.twin.st == 5) && twinLost m))

/-- TAKEOVER_REQUEST: answered with an ECHO, with the later target when an own REQUEST is pending; a target that is fixed already stays the
later one. -/
def execTakeoverRequest (s : State) : Host.Outcome State Fault Refusal :=
  live s (·.takeMgmt (mgmtIs 0x40 1) fun x s =>
    if !s.hearsTakeover x.msg then s
    else
      let lost := s.twin.lost || twinLost x.msg
      let k := metBy s.twin.take (mgmtTick x.msg) s.now s.sisRole
      let s := s.updTwin fun y => { y with st := 2, take := some k, lost := lost }
      (((s.freeze (roleStreams s.sisRole) true).twinEvent 0).sendTwinFn 0x40 2 s.sisRole lost k.target []).sendHeartbeat)

/-- TAKEOVER_ECHO: the target is fixed. An ECHO of a target before the one asked for answers an older REQUEST, and fixes nothing. -/
def execTakeoverEcho (s : State) : Host.Outcome State Fault Refusal :=
  live s (·.takeMgmt (mgmtIs 0x40 2) fun x s =>
    match s.twin.take with
    | some k =>
      let t := mgmtTick x.msg
      if !s.paired || k.arg = s.role || laterTick k.target t != t then s
      else (s.updTwin fun y => { y with lost := y.lost || twinLost x.msg, take := some { k with target := t, echoed := true } }).sendHeartbeat
    | none => s)

/-! ## The failed-link instance hands over (R454 to R457) -/

/-- A held message is whole. -/
def Held.whole (h : Held) : Bool := wholeHeld h.frags

/-- The first missing SSEQ from e on, where all that is held is whole. -/
def Stream.runEnd (x : Stream) : Nat → Nat → Nat
  | 0, e => e
  | fuel + 1, e => if x.held.any fun h => h.sseq == e then x.runEnd fuel ((e + 1) % 65536) else e

/-- Stream n goes to the survivor (R454): incomplete messages are discarded; those up to the first missing SSEQ, E, are released here at their ready
time; E and the whole messages behind it go over the twin bus. -/
def State.yieldStream (s : State) (n : Nat) : State :=
  let s := ((s.joinStub n).dropHeld n fun h => !h.whole).dropStubs n fun _ => true
  let x := s.strm n
  let e := x.runEnd x.held.length x.e
  let s := s.updStrm n fun x => { x with stopped := true, moving := false, runTo := some e }
  let rest := (x.held.map (·.sseq)).filter fun q => decide ((q + 65536 - e) % 65536 < 32768)
  s.emit (.twin (.streamState { stream := n, next := x.next, e := e, held := rest }))

/-- The stream that an operation's messages travel on. -/
def State.opStream (s : State) (o : Op) : Nat :=
  if decide (0x70 ≤ o.iss.opcode.toNat) && decide (o.iss.opcode.toNat ≤ 0x74) then s.pstream
  else (o.msgs.head?.map (·.stream)).getD o.iss.stream

/-- An operation's record goes to the survivor: the messages that it has sent, marked RESEND, and those to come (R457). An operation that this
instance ran for its sister goes back to it. -/
def State.yieldOp (s : State) (o : Op) : State :=
  let msgs := o.sent.map (fun m => { m with resend := true }) ++ o.msgs
  match msgs with
  | [] => s
  | m :: _ =>
    let orig := o.orig.getD s.inst
    let s := s.emit (.twin (.opRecord { tag := o.tag % 256, orig := orig, opcode := o.iss.opcode, stream := m.stream, tc := m.tc, msgs := msgs }))
    if o.orig.isSome then { s with ops := s.ops.filter fun p => p.tag != o.tag }
    else
      let rd := o.msgs.any fun m => m.mtype == 0x02
      let trk := if rd then o.trk ++ (o.pieces.mapIdx fun i p => (o.rnum + i, p)) else o.trk
      s.setOp { o with msgs := [], sent := [], sends := false, handed := true, trk := trk, pieces := if rd then [] else o.pieces }

/-- A log entry from which the survivor can rebuild its response: no data, an atomic's 8 bytes, or an address to read again. -/
def logWhole (e : LogEnt) : Bool := e.src.isSome || !(e.msg.mtype == 0x03 || e.msg.mtype == 0x21)

/-- What the transmit queue holds of streams and no operation record or log entry brings again: transit messages, messages of the page cache.
They are handed over as they stand, since a gap in the SSEQs would stop the stream (log entry 61). -/
def State.yieldRest (s : State) (ns : List Nat) (log : List LogEnt) : List LogEnt :=
  (s.tx.filter fun t => t.msg.mtype != 0x30 && ns.contains t.msg.stream &&
      !(s.ops.any fun o => o.sent.any fun m => m.stream == t.msg.stream && m.sseq == t.msg.sseq) &&
      !(log.any fun e => e.stream == t.msg.stream && e.sseq == t.msg.sseq)).map fun t =>
    { stream := t.msg.stream, sseq := t.msg.sseq, msg := t.msg, src := none }

/-- The twin whose streams move, at the target Solstice. -/
def State.yieldAll (s : State) : State :=
  let ns := roleStreams s.role
  let s := s.each ns (·.yieldStream ·)
  let log := s.twin.rlog.filter logWhole
  let log := log ++ s.yieldRest ns log
  let s := s.each (s.ops.filter fun o => ns.contains (s.opStream o)) (·.yieldOp ·)
  let s := s.when (!log.isEmpty) (·.emit (.twin (.responseLog log)))
  let s : State := { s with tx := s.tx.filter fun t => t.msg.mtype == 0x30 || !ns.contains t.msg.stream }
  s.updTwin fun x => { x with st := 4, rlog := [], take := none, back := [], failed := false }

/-! ## The survivor at the target Solstice (R454, R460) -/

/-- Memory-port requests of an operation that ends before they are answered belong to none. -/
def State.orphan (s : State) (tag : Nat) : State :=
  let none_ := 0x10000
  { s with rdq := s.rdq.map fun r => if r.owner = .op tag then { r with owner := .op none_ } else r,
           wrq := s.wrq.map fun w => match w.owner with
             | .op t => if t = tag then { w with owner := .op none_ } else w
             | .near t k => if t = tag then { w with owner := .near none_ k } else w
             | _ => w }

/-- An operation is completed with ABORTED, counted at an offset (R460, R516). -/
def State.abortOp (s : State) (off : Nat) (o : Op) : State :=
  (((s.orphan o.tag).each o.held (·.unhold ·)).count32 off 1).finishOp (o.fail 6 false 0)

/-- The streams of a lost instance start anew: SSEQ state 0, nothing sent again, their operations ABORTED. -/
def State.takeLost (s : State) (ns : List Nat) : State :=
  let s := s.each ns fun s n => ((s.dropHeld n fun _ => true).dropStubs n fun _ => true).updStrm n fun _ => {}
  let hit := fun (m : Msg) => ns.contains m.stream && m.mtype != 0x30
  let s : State := { s with tx := s.tx.filter (fun t => !hit t.msg), rsp := s.rsp.filter (fun r => !hit r.msg),
                            far := s.far.filter (fun f => !ns.contains (f.key.stream % 64)),
                            twin := { s.twin with resend := s.twin.resend.filter fun m => !ns.contains m.stream } }
  let ops := s.ops.filter fun o => ns.contains (s.opStream o)
  let s := s.each (ops.filter (·.orig.isNone)) (·.abortOp 0x90024 ·)
  { s with ops := s.ops.filter fun o => o.orig.isNone || !ops.any fun p => p.tag == o.tag }

/-- Messages held at the failed-link receiver whose turn has come are released there, and E moves on (R456). -/
def State.sisRelease : Nat → State → Nat → State
  | 0, s, _ => s
  | fuel + 1, s, n =>
    let e := (s.strm n).e
    if s.twin.sisHeld.contains (n, e) then
      let s := s.updTwin fun x => { x with sisHeld := x.sisHeld.filter (· != (n, e)) }
      let s := s.updStrm n fun x => { x with e := (e + 1) % 65536 }
      State.sisRelease fuel (s.emit (.twin (.release n e))) n
    else s

/-- Every stream's messages at the failed-link receiver whose turn has come. -/
def State.sisReleaseAll (s : State) : State :=
  s.each ((s.twin.sisHeld.map (·.1)).eraseDups) fun s n => State.sisRelease (s.twin.sisHeld.length + 1) s n

/-- The survivor receiver takes over a stream (R454); with the last one STREAM_STATE goes to the peer, with the takeover's target
(Table 11-2). -/
def State.adoptStream (s : State) (x : StreamState) : State :=
  let s := s.updStrm x.stream fun y => { y with next := x.next % 65536, e := x.e % 65536, stopped := false, runTo := none }
  let s := s.updTwin fun t => { t with sisHeld := t.sisHeld ++ x.held.map (x.stream, ·), got := t.got ++ [x.stream] }
  let ns := roleStreams s.sisRole
  if ns.all fun n => s.twin.got.contains n then
    (s.sendTwinFn 0x41 0 s.sisRole false s.twin.target (ns.flatMap fun n => leBytes 2 (s.strm n).e)).updTwin fun t => { t with got := [] }
  else s

/-- The takeover's target Solstice: the part of the twin whose streams move, or the survivor's. Where the sister is lost, the streams start
anew on every instance that lives (R460). -/
def State.twinTakeover (s : State) : State :=
  match s.twin.take with
  | none => s
  | some k =>
    if future k.target s.tick.num || !k.echoed then s
    else if k.arg = s.role then
      if s.twin.lost then (s.takeLost (roleStreams s.role)).updTwin fun x => { x with st := 4, rlog := [], take := none, back := [], failed := false }
      else s.yieldAll
    else
      let ns := roleStreams s.sisRole
      let s := (s.twinEvent 1).setRg64 0x90030 (BitVec.ofNat 64 s.tick.num)
      let early := s.twin.early
      let s := s.updTwin fun x => { x with take := none, st := if x.lost && !x.alive then 5 else 3, got := [], sisHeld := [], back := [],
                                           target := k.target, early := [] }
      if s.twin.lost then s.takeLost ns else s.each early (·.adoptStream ·)

/-- A stream comes back (R463): its SSEQ state, and later only a newer E. -/
def State.regainStream (s : State) (x : StreamState) : State :=
  let n := x.stream
  let newer := decide ((x.e + 65536 - (s.strm n).e) % 65536 < 32768)
  let old := fun (h : Held) => decide (32768 ≤ (h.sseq + 65536 - x.e) % 65536)
  if s.twin.st = 4 && !s.twin.back.any (·.1 == n) then
    let s := (s.dropHeld n old).updStrm n fun y =>
      { y with next := x.next % 65536, e := x.e % 65536, moving := false, stopped := false, runTo := none }
    let s := s.updTwin fun t => { t with back := t.back ++ [(n, x.e)] }
    if (roleStreams s.role).all fun k => s.twin.back.any (·.1 == k) then
      s.updTwin fun t => { t with st := 1, back := [], failed := false, lost := false }
    else s
  else if newer then
    (s.dropHeld n old).updStrm n fun y => { y with e := x.e % 65536 }
  else s

/-- TWIN_STREAM_STATE (R454, R463). One that comes before this survivor's own target Solstice waits for it; after a loss none counts (R460). -/
def execTwinStreamState (x : StreamState) (s : State) : Host.Outcome State Fault Refusal :=
  liveWf (decide (x.stream < 64)) s fun s =>
    if !s.paired then s
    else if s.twin.st = 3 && roleStream s.sisRole x.stream then (if s.twin.lost then s else s.adoptStream x)
    else if s.twin.st = 2 && roleStream s.sisRole x.stream then s.updTwin fun t => { t with early := t.early ++ [x] }
    else if roleStream s.role x.stream then s.regainStream x
    else s

/-- Messages of E and above are kept for sending again. -/
def fromE (es : List Nat) (ns : List Nat) (m : Msg) : Bool :=
  match ns.findIdx? (· == m.stream) with
  | some i => decide ((m.sseq + 65536 - es.getD i 0) % 65536 < 32768)
  | none => true

/-- Messages to be sent again, dropped where the peer's E has passed them; none after a loss (R460). -/
def State.addResend (s : State) (ms : List Msg) : State :=
  let ns := roleStreams s.sisRole
  let ms := if s.twin.lost then [] else match s.twin.peerE with
    | some es => ms.filter (fromE es ns)
    | none => ms
  s.updTwin fun x => { x with resend := x.resend ++ ms, resendAt := s.now }

/-- STREAM_STATE (R457): the survivor sender re-sends, for each adopted stream, every message from E on. -/
def execStreamState (s : State) : Host.Outcome State Fault Refusal :=
  live s (·.takeMgmt (fun m => mgmtFn m == 0x41) fun x s =>
    if !s.paired || s.twin.st != 3 || twinRole x.msg != s.sisRole then s
    else
      let ns := roleStreams s.sisRole
      let es := (List.range 32).map fun i => leAt x.msg.data (2 * i) 2
      let s := s.updTwin fun t => { t with peerE := some es, resend := t.resend.filter (fromE es ns) }
      s.each ns fun s n => s.updStrm n fun y => { y with moving := false })

/-! ## Operations and responses over the twin bus (R447, R455 to R457) -/

/-- An operation record: the messages that this twin admits for its sister, or takes back; those marked RESEND have an SSEQ. -/
def State.takeRecordOp (s : State) (r : TwinOp) : State :=
  let old := r.msgs.filter (·.resend)
  let new_ := r.msgs.filter (!·.resend)
  let s := s.addResend old
  if r.orig = s.inst then
    s.updOp r.tag fun o => { o with msgs := new_ ++ o.msgs, sent := o.sent ++ old, sends := !(new_ ++ o.msgs).isEmpty,
                                    handed := false, since := s.now }
  else
    let tag := 256 + r.tag
    let dies := ((r.msgs.filter fun m => msgLast m || m.mtype == 0x02).map (·.dst.toNat)).eraseDups
    match s.op? tag with
    | some _ => s.updOp tag fun o => { o with msgs := o.msgs ++ new_, sent := o.sent ++ old, sends := !(o.msgs ++ new_).isEmpty,
                                              await := o.await ++ dies.filter fun d => !o.await.contains d }
    | none =>
      let i : Iss := { (default : Iss) with opcode := r.opcode, stream := r.stream, nc := true }
      let o : Op := { tag := tag, uid := s.ord, iss := i, serial := 0, issuedAt := s.now, phase := .result, msgs := new_,
                      sends := !new_.isEmpty, since := s.now, await := dies, orig := some r.orig, sent := old }
      { s with ops := s.ops ++ [o], ord := s.ord + 1 }

/-- Operands that a record can carry. -/
def recordOk (r : TwinOp) : Bool :=
  decide (r.tag < 256) && r.msgs.all fun m => decide (m.stream < 64) && decide (m.tc < 4) && decide (m.data.length ≤ 4096)

/-- OPERATION_RECORD (R447, R457). -/
def execOperationRecord (r : TwinOp) (s : State) : Host.Outcome State Fault Refusal :=
  liveWf (recordOk r) s fun s => s.when s.paired (·.takeRecordOp r)

/-- COMPLETION_REPORT (R447): the sister has run the operation; faults that only the sister saw join the outcome. -/
def execCompletionReport (tag : Nat) (status : BitVec 4) (psn : Bool) (ecount : Nat) (s : State) : Host.Outcome State Fault Refusal :=
  liveWf (decide (tag < 256)) s fun s =>
    match s.op? tag with
    | some o =>
      if s.paired && o.handed then
        let o := { o with handed := false, psn := o.psn || psn || status == 1, farPsn := o.farPsn || psn,
                           await := if status == 5 then [] else o.await,
                          trk := if status == 5 then o.trk.filter (·.2.ans) else o.trk }
        (s.setOp { o.fail status.toNat true 0 with ecount := max o.ecount (min ecount 0xFFFFFF) }).opCheck tag
      else s
    | none => s

/-- The bytes of a READ_DATA or PG_DATA that is to be sent again are read from memory (R457); until they are in, the message waits. -/
def State.reread (s : State) (m : Msg) (a n : Nat) : State :=
  if !s.twin.resend.any (fun k => k.stream == m.stream && k.sseq == m.sseq) then s
  else
    let (i, s) := s.fresh
    let q : Rsp := { id := i, msg := m, ready := false, base := a, len := n, buf := [], rdLeft := (reqSpans a n).length, since := s.now }
    ({ s with rsp := s.rsp ++ [q] } : State).readMem (.rsp i) a n

/-- A log entry as the message that is sent again. -/
def logAgain (e : LogEnt) (bad : Bool) : Msg :=
  { e.msg with stream := e.stream, sseq := e.sseq, resend := true, poison := e.msg.poison || bad }

/-- RESPONSE_LOG_TRANSFER (R457): the responses are sent again; with POISON where the log's word was uncorrectable (Table 12-9). -/
def execResponseLogTransfer (xs : List LogEnt) (s : State) : Host.Outcome State Fault Refusal :=
  liveWf (xs.all fun x => decide (x.stream < 64) && decide (x.msg.tc < 4)) s fun s =>
    if !s.paired then s
    else
      let (hit, s) := s.memHit 9
      (s.addResend (xs.map (logAgain · hit))).each xs fun s x => match x.src with
        | some (a, n) => s.reread (logAgain x hit) a n
        | none => s

/-- RELEASE_COMMAND (R456, R459): the held message is released through this instance's user ports, late under R141. -/
def execReleaseCommand (stream sseq : Nat) (s : State) : Host.Outcome State Fault Refusal :=
  liveWf (decide (stream < 64)) s fun s =>
    match (s.strm stream).held.find? fun h => h.sseq == sseq with
    | none => s
    | some h =>
      match (if s.paired then heldLen h.frags else none) with
      | none => s
      | some k =>
        let s := (s.count32 0x20078 1).setBit 0x20058 1
        let extra := (h.frags.map fun f => f.bytes.length).sum - k
        let s := s.updStrm stream fun x => { x with held := x.held.filter fun g => g.sseq != sseq }
        let s := s.updTc h.tc fun c => { c with buf := c.buf - extra }
        s.releaseMsg stream (msgOf stream h.tc (fragBytes h.frags k)) none

/-! ## Rejoin (R462, R463) -/

/-- A write of 1 to TWN_CTRL.REJOIN (R462): by a survivor whose sister's link is up again, with a target in the future; otherwise refused
at once. -/
def State.askRejoin (s : State) : State :=
  let t := (s.rg64 0x90008).toNat % tickMod
  if s.paired && s.twin.st == 3 && s.twin.sisOk && s.twin.alive && future t s.tick.num && s.twin.rejoin.isNone then
    let k : Shake := { target := t, mine := true, echoed := false, nextSend := s.now + 256, arg := s.sisRole }
    (s.updTwin fun x => { x with rejoin := some k, asked := true }).sendTwinFn 0x43 1 s.sisRole false t []
  else s

/-- TWN_CTRL_REJOIN. -/
def execTwnCtrlRejoin (s : State) : Host.Outcome State Fault Refusal := portCmd s (·.askRejoin)

/-- REJOIN_REQUEST: answered as TAKEOVER is. -/
def execRejoinRequest (s : State) : Host.Outcome State Fault Refusal :=
  live s (·.takeMgmt (mgmtIs 0x43 1) fun x s =>
    if !s.paired || s.twin.st != 3 || s.twin.moving then s
    else
      let k := metBy s.twin.rejoin (mgmtTick x.msg) s.now s.sisRole
      (s.updTwin fun y => { y with rejoin := some k }).sendTwinFn 0x43 2 s.sisRole false k.target [])

/-- REJOIN_ECHO: the target is fixed. -/
def execRejoinEcho (s : State) : Host.Outcome State Fault Refusal :=
  live s (·.takeMgmt (mgmtIs 0x43 2) fun x s => s.updTwin fun y =>
    { y with rejoin := y.rejoin.map (·.fixedAt (mgmtTick x.msg)) })

/-- Page requests and atomics that are not answered yet: fills, entries of PGATOMIC, and RDECs (R427, R430, R442). -/
def State.pagesOpen (s : State) : Nat :=
  s.fills.length + s.rdecs.length +
    ((s.ops.filter fun o => o.iss.opcode == 0x73 && !o.handed).map fun o => (o.ents.filter (·.pend)).length).sum

/-- Page requests and atomics that still wait for admission. -/
def State.pagesWaiting (s : State) : Nat := (s.rsp.filter fun r => r.msg.mtype == 0x20 || r.msg.mtype == 0x22).length

/-- A stream's sender has no operation under way, and nothing outstanding or to be sent again on it (R463); on PSTREAM no page request or atomic
is without its answer. -/
def State.streamQuiet (s : State) (n : Nat) : Bool :=
  (n != s.pstream || decide (s.pagesOpen ≤ s.pagesWaiting)) && !s.ops.any (fun o => !o.sent.isEmpty && s.opStream o == n) &&
    !s.tx.any (fun t => t.msg.stream == n && t.msg.mtype != 0x30) &&
    !s.twin.resend.any (·.stream == n)

/-- The state of a stream goes to the returning twin. -/
def State.passStream (s : State) (n : Nat) : State :=
  let x := s.strm n
  s.emit (.twin (.streamState { stream := n, next := x.next, e := x.e, held := [] }))

/-- Streams move back, each at the first Solstice at which its sender is quiet (R463); E goes on to the returning receiver while messages
still come here. -/
def State.rejoinSolstice (s : State) : State :=
  let s := s.each s.twin.back fun s b =>
    let e := (s.strm b.1).e
    if e = b.2 || s.twin.st = 4 then s
    else (s.passStream b.1).updTwin fun x => { x with back := x.back.map fun c => if c.1 = b.1 then (c.1, e) else c }
  let s := match s.twin.rejoin with
    | some k =>
      if future k.target s.tick.num then s
      else if !k.echoed then s.updTwin fun x => { x with rejoin := none, asked := false }
      else (s.freeze (roleStreams s.sisRole) false).updTwin fun x => { x with rejoin := none, moving := true }
    | none => s
  if !s.twin.moving then s
  else
    let ns := (roleStreams s.sisRole).filter fun n => !s.twin.back.any (·.1 == n) && s.streamQuiet n
    let s := s.each ns fun s n =>
      ((s.passStream n).updStrm n fun x => { x with moving := false }).updTwin fun x => { x with back := x.back ++ [(n, (s.strm n).e)] }
    if (roleStreams s.sisRole).all fun n => s.twin.back.any (·.1 == n) then
      (s.updTwin fun x => { x with st := 1, moving := false, asked := false, peerE := none, lost := false }).twinEvent 3
    else s

/-- What the twins do at a Solstice: the takeover's target, and the streams that move back. -/
def State.twinSolstice (s : State) : State :=
  if !s.paired then s else s.twinTakeover.rejoinSolstice

/-! ## Repeated requests (R452, R464, R481) -/

/-- A request has no answer, and its time to be sent again has come. -/
def Shake.due (k : Shake) (now : Nat) : Bool := k.mine && !k.echoed && decide (k.nextSend ≤ now)

/-- MGMT_RESEND: every 256 cc without an ECHO; no RATE_STEP while LL_PLAN is pending (R480). -/
def execMgmtResend (s : State) : Host.Outcome State Fault Refusal :=
  live s fun s =>
    let nx := s.now + 256
    let s := match s.twin.take with
      | some k => if k.due s.now then
          (s.updTwin fun x => { x with take := some { k with nextSend := nx } }).sendTwinFn 0x40 1 k.arg s.twin.lost k.target [] else s
      | none => s
    let s := match s.twin.rejoin with
      | some k => if k.due s.now then
          (s.updTwin fun x => { x with rejoin := some { k with nextSend := nx } }).sendTwinFn 0x43 1 k.arg false k.target [] else s
      | none => s
    let s := match s.hm.stepReq with
      | some k => if k.due s.now && decide (k.arg < 16) && s.plan.isNone then
          (s.updHm fun h => { h with stepReq := some { k with nextSend := nx } }).sendStep 1 k.arg k.target else s
      | none => s
    s.each s.allMods fun s m => match (s.mod m).retire with
      | some k => if k.due s.now then
          (s.updMod m fun x => { x with retire := some { k with nextSend := nx } }).sendRetire 1 m k.target else s
      | none => s

end Sys2Proof.Machine
end

