-- ==== Sys2Proof/Machine/Train.lean ====
section
/-! DEFINITION. Full training and the training phases of a retrain: presence, capability records, the checks of Table 13-4, the active set,
lanes, widths and rates, and what a fresh training starts anew (13, R513 to R542; log entries 23 to 26). -/
namespace Sys2Proof.Machine

/-! ## Start (R513, R514, R518, R569) -/

/-- Training state changed. -/
def State.updTrn (s : State) (f : Trn → Trn) : State := { s with trn := f s.trn }

/-- A training, or a reset, ends a running AIT as ABORTED (R569). -/
def State.aitAbort (s : State) : State :=
  if 1 ≤ s.bist.aitStep ∧ s.bist.aitStep ≤ 3 then ({ s with bist := { s.bist with aitStep := 5 } } : State).irq 5 else s

/-- ID_CAP of version 4.1.0 (R527). -/
def idCap : W64 := 0x7073F
/-- ID_BLK_ID (R549). -/
def blkId : Nat := 0x50455253
/-- ID_VERSION of version 4.1.0 (R1, R549). -/
def idVersion : Nat := 0x40100

/-- FRESH of the own record: a reset since the last full training, or an active FC_MODE other than the one in force when the link was last
up (R124, R515). -/
def State.freshMine (s : State) : Bool := s.trn.sinceReset || (s.trn.fcLast.map (· != s.onOff)).getD false

/-- The capability record (Table 13-6). -/
def State.capRecord (s : State) : List W64 :=
  let w2 : W64 := bf 64 31 0 (fuseIdent s.fuseId).toNat ||| bf 64 35 32 (memberCode s.member) ||| bf 64 36 36 (b2n s.freshMine)
  let w3 : W64 := bf 64 3 0 (s.rf 0x104 7 4) ||| bf 64 4 4 (b2n s.onOff) ||| bf 64 12 8 (modules s.member)
  let ws : List W64 := [bf 64 31 0 blkId ||| bf 64 63 32 idVersion, idCap, w2, w3, s.rg64 0x20010, s.rg64 0x20018,
    bf 64 31 0 (s.digestOf false).toNat]
  ws ++ [bf 64 31 0 (crcStd (ws.flatMap fun w => leBytes 8 w.toNat)).toNat]

/-- A record of eight words whose W7 holds. -/
def recordValid (ws : List W64) : Bool :=
  ws.length == 8 && fld (ws.getD 7 0) 31 0 == (crcStd ((ws.take 7).flatMap fun w => leBytes 8 w.toNat)).toNat

/-- The modules that a full training trains: a retired one returns only by a software retrain (R466). -/
def State.trainees (s : State) : List Nat := s.allMods.filter fun m => (s.mod m).st != .retired

/-- PRESENT on every module's sideband (log entry 25). -/
def State.sendPresent (s : State) : State :=
  (s.each s.trainees fun s m => s.sendSb m 0x10 []).updTrn fun t => { t with nextSend := s.now + s.dur 2400 }

/-- A module leaves service for a full training. -/
def Mod.quit (x : Mod) (now : Nat) : Mod :=
  { (if x.st == .down then x else x.swapNow.markLate now) with
    st := .down, retrain := none, frost := none, fallowReq := false, wantWake := false, wakeAt := none, wantRetrain := none }

/-- A full training begins, in the mode of TRN_CFG.MODE: PRESENT in Native mode; in Open mode the UCIe training of every module, with the
record as eight vendor-defined messages (R514, R518, R542). -/
def State.beginTraining (s : State) : State :=
  let s := s.aitAbort
  let s := s.each s.trainees fun s m => (s.bistServe m).updMod m (·.quit s.now)
  let open_ := bit (s.rg 0x104) 0
  let s := s.updTrn fun t =>
    { t with st := if open_ then 2 else 1, goWait := false, open_ := open_, since := s.now, nopeer := false, peer := [], openWords := [],
             acked := false, err := 0, steps := 0, passMine := none, passPeer := none }
  let s := s.updPwr fun p => { p with st := 0, wakeSent := false, mwGo := none, peerGo := none, acked := false }
  let s : State := { s with gapEnd := none, planRun := false, d1 := 0, d2 := 0 }
  let s := (s.setRf 0x20074 31 31 0).linkCheck
  if open_ then s.each (List.range 8) fun s i => s.emit (.ucieVendor (BitVec.ofNat 3 i) Config.vendorId (s.capRecord.getD i 0))
  else s.sendPresent

/-- The fuse read and the sweep are over (R513). -/
def State.resetOver (s : State) : Bool := s.sweepDone && s.fuseAddr.isNone

/-- A start that was asked for before then begins (R513, R514). -/
def State.trainIfReady (s : State) : State := s.when (s.resetOver && s.trn.goWait) (·.beginTraining)

/-- TRN_CTRL.GO (R514): ignored while a training runs; before R513 allows one, it waits. -/
def State.trainGo (s : State) : State :=
  if s.trainRuns then s else (s.updTrn fun t => { t with goWait := true }).trainIfReady

/-- TRN_CTRL_GO. -/
def execTrnCtrlGo (s : State) : Host.Outcome State Fault Refusal := portCmd s (·.trainGo)

/-! ## Phase 1 (R518, Table 13-5) -/

/-- CAPREC leaves on the sideband that answered. -/
def State.sendCaprec (s : State) : State :=
  (s.sendSb s.trn.via 0x11 s.capRecord).updTrn fun t => { t with nextSend := s.now + s.dur 2400 }

/-- PRESENT: the first one is answered and ends phase 1. One that comes before the peer's record shows that the peer has not heard this
end, which answers it again (log entry 25). Phases 1 and 2 go on over the lowest-numbered module that has answered (R518). -/
def execPresent (m : Nat) (x : SbMsg) (s : State) : Host.Outcome State Fault Refusal :=
  liveWf (decide (m < 16)) s (·.rxSb x 0x10 0 fun _ s =>
    if s.trn.open_ then s
    else if s.trn.st = 1 then
      ((s.sendSb m 0x10 []).updTrn fun t => { t with st := 2, via := m, nopeer := false }).sendCaprec
    else if s.trn.st = 2 && s.trn.peer.isEmpty then (s.sendSb m 0x10 []).updTrn fun t => { t with via := min t.via m }
    else s)

/-- PRESENT_RESEND: every 2,400 cc (R518, R525). -/
def execPresentResend (s : State) : Host.Outcome State Fault Refusal :=
  live s fun s => s.when (s.trn.st == 1 && decide (s.trn.nextSend ≤ s.now)) (·.sendPresent)

/-- NOPEER: 1 ms without a PRESENT (R518). -/
def execNopeer (s : State) : Host.Outcome State Fault Refusal :=
  live s fun s => s.when (s.trn.st == 1 && decide (s.trn.since + s.dur 2400000 ≤ s.now)) (·.updTrn fun t => { t with nopeer := true })

/-! ## A fresh training (R516) -/

/-- The sequence state of a module starts anew. -/
def Mod.restart (x : Mod) : Mod :=
  { x with next := 0, rep := [], grants := [], stopped := [], sinceReq := 0, prob := none, p := 4095, n := 0, u := 0, missing := [], reord := [],
           a := 4095, ackAt := none, oldAck := 4095, oldNak := 0, hdrAt := none, after := false, lateOld := false }

/-- A die that the own link leads to. -/
def State.across (s : State) (d : Nat) : Bool := s.ownLink d

/-- A message on the link belongs to an operation of this instance. -/
def State.mine (s : State) (o : Op) (m : Msg) : Bool :=
  m.src.toNat == s.die && m.optag.toNat == o.tag % 256 && !isResp m && m.mtype != 0x30

/-- The operation has a message on the link, or awaits a response across it (R516): of a die to which its last message is admitted, or to
which some of it has gone. -/
def State.crosses (s : State) (o : Op) : Bool :=
  s.tx.any (fun t => s.mine o t.msg) ||
    o.trk.any (fun p => s.across p.2.sdie && !p.2.ans) ||
    o.await.any (fun d => s.across d &&
      (!o.msgs.any (fun m => m.dst.toNat == d && msgLast m) || decide (0 < o.tickBytes) || decide (0 < o.pos && o.mt.isSome))) ||
    s.fills.any (fun f => s.across (pidDie f.pid) && f.waiters.any fun w => w.1 == o.tag)

/-- Operations that a fresh training ends are completed with ABORTED and counted; the fills that they waited for end. -/
def State.abortCrossing (s : State) : State :=
  let gone := s.fills.filter fun f => s.across (pidDie f.pid)
  let s := s.each (s.ops.filter s.crosses) (·.abortOp 0x130 ·)
  let tags := s.ops.map (·.tag)
  let s : State := { s with fillWait := s.fillWait.filter fun w => tags.contains w.1 }
  s.each gone (·.fillEnd · 14)

/-- Flow state at the link-up of a fresh training (R110, R121): the counters, or XOFF until the first FLOW. -/
def State.flowRestart (s : State) : State :=
  s.each (List.range 4) fun s c =>
    let adv := s.rg (0x20010 + 4 * c)
    let peer : W64 := s.trn.peer.getD (4 + c / 2) 0
    let lo := 32 * (c % 2)
    s.updTc c fun f =>
      { f with conH := 0, conD := 0, graH := fld adv 15 0, graD := fld adv 31 16, sentH := fld adv 15 0, sentD := fld adv 31 16,
               rxH := fld peer (lo + 15) lo, rxD := fld peer (lo + 31) (lo + 16),
               buf := ((s.rel.filter fun r => r.msg.tc == c && decide (r.dom < 64)).map fun r => 16 + r.msg.data.length).sum,
               xoffTx := false, xoffRx := s.onOff }

/-- What both ends do at a fresh training (R516): operations ABORTED, buffers and held messages discarded, and sequence numbers, SSEQ and
credits at their starting values. -/
def State.restartLink (s : State) : State :=
  let s := s.abortCrossing
  let s := s.each s.allMods fun s m => s.updMod m (·.restart)
  let s := s.each (List.range 64) fun s n => s.updStrm n fun x => { moving := x.moving, stopped := x.stopped }
  let s : State :=
    { s with tx := [], ctl := [], credAt := none, credDue := false, flowDue := [], lateFlits := [],
             mgmtRx := s.mgmtRx.filter (·.released),
             far := s.far.filter fun f => f.key.src.toNat == s.die || f.last,
             twin := { s.twin with rlog := [], resend := [], sisHeld := [] } }
  s.flowRestart

/-! ## Phase 2 (R16, R19, R444, R515, R519, R523, R528 to R535, R635) -/

/-- A fuse word that permits no link (R16). -/
def fuseBad (w : W32) : Bool := !bit w 31 || bit w 30 || fld w 13 12 == 3

/-- On-grid (Table 1-1). -/
def onGrid (w : W32) : Bool := fld w 22 20 != 7 && fld w 18 16 != 7

/-- The peer's position is the own one moved across the own EDGE, and its EDGE is the opposite one (R19). -/
def adjacent (a b : W32) : Bool :=
  let e := fld a 15 14
  let dr : Int := if e = 0 then -1 else if e = 2 then 1 else 0
  let dc : Int := if e = 1 then 1 else if e = 3 then -1 else 0
  fld b 15 14 == (e + 2) % 4 && decide ((fld b 22 20 : Int) = fld a 22 20 + dr) && decide ((fld b 18 16 : Int) = fld a 18 16 + dc)

/-- The check of Table 13-4 that fails, 0 for none. -/
def phase2Err (own : W32) (ws : List W64) : Nat :=
  let w0 := ws.getD 0 0
  let peer : W32 := BitVec.ofNat 32 (fld (ws.getD 2 0) 31 0)
  if fuseBad own || fuseBad peer then 1
  else if fld own 27 24 = fld peer 27 24 || (onGrid own && onGrid peer && !adjacent own peer) || fld own 13 12 != fld peer 13 12 then 2
  else if fld w0 31 0 != blkId || decide (fld w0 55 48 < 2) then 3
  else 0

/-- The training ends without a link: TRN_STATUS FAILED, irq[0] (R523). -/
def State.trainFail (s : State) (err : Nat) : State :=
  let s := s.each s.trainees fun s m => s.updMod m fun x => { x with st := .down, tphase := 0 }
  (s.updTrn fun t => { t with st := 6, err := err }).irq 0

/-- What the peer's record reports (R534). -/
def State.notePeer (s : State) (ws : List W64) : State :=
  ((s.setRg64 0x118 (ws.getD 1 0)).setRg 0x128 (BitVec.ofNat 32 (fld (ws.getD 0 0) 63 32))).setRg 0x12C
    (BitVec.ofNat 32 (fld (ws.getD 2 0) 31 0))

/-- The active set (R528): the own result, and the peer's, whose own mask no message of Table 13-5 carries and is free (log entry 23). In
Open mode NATIVE, FIXLAT, ONOFF and RSTEP are never active; a peer without a valid record has none (R542). -/
def State.activeSet (s : State) (valid : Bool) : W64 × State :=
  let own := idCap &&& s.trn.peer.getD 1 0 &&& s.rg64 0x110
  let w := own &&& Config.freeWord s.free
  let w := if s.trn.open_ then w &&& ~~~(0x27 : W64) else w
  (if valid then w else 0, { s with free := s.free + 1 })

/-- Every module that trains goes to phase 3, at a rate (Table 13-3). -/
def State.toLock (s : State) (rate : Nat) : State :=
  let s := s.updTrn fun t => { t with st := 3, rate := rate, passMine := none, passPeer := none, nextSend := s.now + s.dur 2400 }
  s.each s.trainees fun s m => s.updMod m fun x =>
    { x with st := .training, tphase := 3, rate := rate, width := 0, passed := false, laneGot := false, laneSent := false,
             palGot := false, palSent := false }

/-- Phase 2 ends: the checks, the active set, FRESH, and the starting rate (R515 to R519, R523, R528, R635). -/
def State.phase2End (s : State) (valid : Bool) : State :=
  let ws := s.trn.peer
  let s := s.when valid (·.notePeer ws)
  let fresh := s.freshMine || (valid && bit (ws.getD 2 0) 36)
  let s := s.updTrn fun t => { t with fresh := fresh }
  let err := if valid then phase2Err (fuseIdent s.fuseId) ws else b2n (fuseBad (fuseIdent s.fuseId))
  if err != 0 then s.trainFail err
  else
    let (act, s) := s.activeSet valid
    let w3 := ws.getD 3 0
    let w2 := ws.getD 2 0
    let fc := valid && bit w3 4
    let s := (s.updTrn fun t => { t with act := some act, peerFc := fc }).setRg64 0x120 act
    let s := s.when (valid && fc != s.onOff) fun s => ((s.setRf 0x10C 5 0 16).setBit 0x10C 16).irq 1
    let s := s.when fresh (·.restartLink)
    let own := min (s.rf 0x104 7 4) (maxRate s.member)
    let peer := if valid then min (fld w3 3 0) (if fld w2 35 32 = 0 then 3 else 5) else own
    s.toLock (min own peer)

/-- Phase 2 is over once the peer's record is here and the own one is acknowledged. -/
def State.phase2Check (s : State) : State := s.when (s.trn.st == 2 && s.trn.acked && !s.trn.peer.isEmpty) (·.phase2End true)

/-- CAPREC: a record whose W7 holds is acknowledged with its CRC word (Table 13-5). -/
def execCaprec (m : Nat) (x : SbMsg) (s : State) : Host.Outcome State Fault Refusal :=
  liveWf (decide (m < 16)) s (·.rxSb x 0x11 8 fun _ s =>
    if s.trn.open_ || !recordValid x.words then s
    else
      let ack := fun (s : State) => s.sendSb m 0x12 [bf 64 31 0 (fld (x.words.getD 7 0) 31 0)]
      if s.trn.st = 2 then ((ack s).updTrn fun t => { t with peer := if t.peer.isEmpty then x.words else t.peer }).phase2Check
      else if s.trn.st = 1 then
        ((ack s).updTrn fun t => { t with st := 2, via := m, nopeer := false, peer := x.words }).sendCaprec
      else s.when (decide (3 ≤ s.trn.st) && !s.trn.peer.isEmpty) ack)

/-- CAPACK of the record that was sent. -/
def execCapack (m : Nat) (x : SbMsg) (s : State) : Host.Outcome State Fault Refusal :=
  liveWf (decide (m < 16)) s (·.rxSb x 0x12 1 fun _ s =>
    if s.trn.st = 2 && !s.trn.open_ && fld (sbWord x 0) 31 0 == fld (s.capRecord.getD 7 0) 31 0 then
      (s.updTrn fun t => { t with acked := true }).phase2Check
    else s)

/-! ## Lanes, maps and widths (R69, R77, R78, R520, R521) -/

/-- The width that R77 finds for module m. -/
def State.findWidth (s : State) (m : Nat) : Option Nat :=
  s.widthFor m (s.rxFails m) (s.txFails m) 0

/-- LANEMAP of module m: the failed lanes of the own receive direction (Table 13-5). -/
def State.sendLanemap (s : State) (m : Nat) : State :=
  let fails := (s.mod m).failRx ++ (s.mod m).fuseRx
  let word := fun (base n : Nat) => BitVec.ofNat 64 (((List.range n).map fun i => if fails.contains (base + i) then 2 ^ i else 0).sum)
  (s.sendSb m 0x13 [word 0 64, word 64 4]).sbSent m

/-- PALAT of module m (Table 13-5). -/
def State.sendPalat (s : State) (m : Nat) : State :=
  (s.sendSb m 0x14 [bf 64 15 0 (s.mod m).lat8 ||| bf 64 31 16 (s.mod m).marker8]).sbSent m

/-- PHASE for phase 5, with a pass bit (R520). -/
def State.sendPhase (s : State) (rate : Nat) (pass : Bool) : State :=
  s.sendSb s.trn.via 0x15 [bf 64 3 0 5 ||| bf 64 7 4 rate ||| bf 64 8 8 (b2n pass)]

/-- The modules in a full training. -/
def State.inTraining (s : State) : List Nat := s.trainees.filter fun m => (s.mod m).st == .training && (s.mod m).retrain.isNone

/-- A module's maps and width take effect (R69, R77). -/
def State.applyMaps (s : State) (m : Nat) : State :=
  match s.findWidth m with
  | none => s
  | some w =>
    let tx := s.txMap m (s.txFails m) w
    let rx := s.rxMap m (s.rxFails m) w
    s.updMod m fun x => { x with spTx := tx, spRx := rx, width := w }

/-- A module that does not pass phase 5 is DOWN (R520, R521); one that no width covers is retired (R78). -/
def State.notPassed (s : State) (m : Nat) : State :=
  let lost := (s.findWidth m).isNone
  (s.modDown m).when lost (·.startRetire m false)

/-- The verdict of phase 5 (R520): with both pass bits at 1, passing modules go on and the others are DOWN; else phases 3 to 5 are repeated
at the next lower rate, and below 4 GT/s the link does not come up. -/
def State.verdict (s : State) : State :=
  match s.trn.passMine, s.trn.passPeer with
  | some a, some b =>
    if s.trn.st != 3 then s
    else if a && b then
      let s := s.each s.inTraining fun s m =>
        if (s.mod m).passed then (s.applyMaps m).updMod m fun x => { x with tphase := 6 }
        else s.notPassed m
      s.updTrn fun t => { t with passPeer := none }
    else if s.trn.rate = 0 then s.trainFail 4
    else
      let rate := s.trn.rate - 1
      (s.updTrn fun t => { t with steps := t.steps + 1 }).toLock rate
  | _, _ => s

/-- Phase 5 is over on every module: the pass bit goes out (R520). -/
def State.judge (s : State) : State :=
  let ms := s.inTraining
  if s.trn.st = 3 && s.trn.passMine.isNone && !ms.isEmpty && ms.all fun m => (s.mod m).tphase == 8 then
    let n := (ms.filter fun m => (s.mod m).passed).length
    let pass := decide (max 1 (s.rf 0x104 12 8) ≤ n)
    ((s.updTrn fun t => { t with passMine := some pass, nextSend := s.now + s.dur 2400 }).sendPhase s.trn.rate pass).verdict
  else s

/-- LANEMAP: the failed lanes of the own transmit direction; one that comes again is answered (R525). -/
def execLanemap (m : Nat) (x : SbMsg) (s : State) : Host.Outcome State Fault Refusal :=
  liveWf (decide (m < 16)) s (·.rxSb x 0x13 2 fun k s =>
    if (s.mod k).st != .training then s
    else
      let fails := lanesOf (bf 68 63 0 (sbWord x 0).toNat ||| bf 68 67 64 (fld (sbWord x 1) 3 0))
      let again := (s.mod k).laneGot && (s.mod k).laneSent
      let s := s.updMod k fun y => { y with failTx := fails, laneGot := true }
      s.when again (·.sendLanemap k))

/-- PALAT: the peer's PA_LAT, and with it LL_MOD_NAKHOLD (R98). An end that has left the training answers a peer that lost its PALAT, once in the
time of a repeat (R525). -/
def execPalat (m : Nat) (x : SbMsg) (s : State) : Host.Outcome State Fault Refusal :=
  liveWf (decide (m < 16)) s (·.rxSb x 0x14 1 fun k s =>
    if (s.mod k).st != .training then
      s.when ((s.mod k).carries && !s.openMode && (s.mod k).palSent && decide ((s.mod k).sbNext ≤ s.now)) (·.sendPalat k)
    else
      let again := (s.mod k).palGot && (s.mod k).palSent
      let s := s.updMod k fun y => { y with peerLat8 := fld (sbWord x 0) 15 0, palGot := true }
      s.when again (·.sendPalat k))

/-- PHASE: the peer's rate of a planned change (R521), or its pass bit for phase 5. One for a rate that this end has left is answered with what
ended it (R525; log entry 25). -/
def execPhase (m : Nat) (x : SbMsg) (s : State) : Host.Outcome State Fault Refusal :=
  liveWf (decide (m < 16)) s (·.rxSb x 0x15 1 fun k s =>
    let w := sbWord x 0
    if fld w 3 0 = 2 && s.trn.st == 5 then s.hearRate k (fld w 7 4)
    else if fld w 3 0 != 5 || s.trn.open_ || !s.trainRuns then s
    else if s.trn.st = 3 && fld w 7 4 == s.trn.rate then
      if s.trn.passMine == some true && (s.inTraining.any fun m => decide ((s.mod m).tphase = 6 ∨ (s.mod m).tphase = 7)) then
        s.sendPhase s.trn.rate true
      else (s.updTrn fun t => { t with passPeer := some (bit w 8) }).verdict
    else if s.trn.st = 3 && decide (s.trn.rate < fld w 7 4) then s.sendPhase (fld w 7 4) false
    else if s.trn.st = 4 && fld w 7 4 == s.trn.rate then s.sendPhase s.trn.rate true
    else s)

/-! ## The phases of a module (Table 13-3) -/

/-- The link is up: every module of the training is ACTIVE or DOWN, and one is ACTIVE (Table 13-13). -/
def State.trainUp (s : State) : State :=
  if s.trainRuns && s.inTraining.isEmpty && !s.active.isEmpty then
    (s.updTrn fun t => { t with st := 5, sinceReset := false, fcLast := some s.onOff }).irq 0
  else s

/-- A direction's map replaces every failed lane of a width by a spare that does not fail. -/
def mapCovers (lanes : Nat) (mp : List Spare) (fails : List Nat) (width : Nat) : Bool :=
  (failsIn lanes fails width).all fun l => ((carrier mp fails l).map fun j => !fails.contains (64 + j)).getD false

/-- Phase 5 of a retrain: the current width and map stay (R518); a module that they do not bring past phase 5 is DOWN (R521), and one that no width
covers is retired (R78). -/
def State.retrainMap (s : State) (m : Nat) : State :=
  let x := s.mod m
  let lanes := dataLanes s.member
  if x.rxLock && mapCovers lanes x.spRx (s.rxFails m) x.width && mapCovers lanes x.spTx (s.txFails m) x.width then
    s.updMod m fun x => { x with tphase := 6 }
  else s.notPassed m

/-- The end of phase 7: LL_MOD_NAKHOLD (R98), and the module ACTIVE, or in a retrain ready for the peer's flits (R104). -/
def State.phaseLink (s : State) (m : Nat) : State :=
  let s := s.updMod m fun x => { x with nakHold := nakHoldOf x.lat8 x.peerLat8 }
  match (s.mod m).retrain with
  | some r => s.updMod m fun x => { x.cutLate s.now s.period with retrain := some { r with phase7 := true } }
  | none => ((s.updMod m fun x => (x.cutLate s.now s.period).repeatAll).modUp m).trainUp

/-- A phase of module m is over at this end, with what the PHY reports; the next begins. -/
def State.phaseDone (s : State) (m : Nat) (r : PhyReport) : State :=
  let x := s.mod m
  match x.tphase with
  | 3 => s.updMod m fun x =>
      { x with tphase := 4, clkP := r.lockP, frmP := r.lockP, clkA := r.lockA && altSet s.member, frmA := r.lockA && altSet s.member,
               altSel := !r.lockP && altSet s.member }
  | 4 =>
    let fails := lanesOf (bf 68 63 0 r.failData.toNat ||| bf 68 67 64 r.failSpare.toNat)
    (s.updMod m fun x => { x with tphase := 5, failRx := fails, laneSent := true }).sendLanemap m
  | 5 =>
    let done := x.laneGot || !x.rxLock
    match x.retrain with
    | some _ => s.when done (·.retrainMap m)
    | none =>
      if done then
        let pass := x.laneGot && x.rxLock && (s.findWidth m).isSome
        (s.updMod m fun x => { x with tphase := 8, passed := pass }).judge
      else s
  | 6 =>
    let s := (s.updMod m fun x => { x with tphase := 7, lat8 := r.lat8.toNat, marker8 := r.marker8.toNat, palSent := true }).sendPalat m
    s.when (x.retrain.isNone && s.inTraining.all fun k => (s.mod k).tphase == 7) (·.updTrn fun t => { t with st := 4 })
  | 7 => if x.palGot then s.phaseLink m else s
  | _ => s

/-- In Open mode the first end of a UCIe training ends the parameter exchange of the link (R542), and each brings its module up at the width
that its lanes allow (R541). LL_LAT_MIN stays: PA_LAT and LL_MOD_NAKHOLD, of which R134 makes it, are not measured in Open mode (DEDUCED, log
entry 57). -/
def State.openDone (s : State) (m : Nat) (r : PhyReport) : State :=
  let ws : List W64 := (List.range 8).filterMap fun i => (s.trn.openWords.find? fun e => e.1 == i).map (·.2)
  let valid := recordValid ws
  let s := if s.trn.st = 2 then (s.updTrn fun t => { t with peer := if valid then ws else [] }).phase2End valid else s
  if s.trn.st = 6 ∨ s.trn.st < 3 ∨ (s.mod m).carries ∨ (s.mod m).st = .retired then s
  else
    let fails := lanesOf (bf 68 63 0 r.failData.toNat ||| bf 68 67 64 r.failSpare.toNat)
    match s.widthFor m fails [] 0 with
    | none => s.updMod m fun x => { x with st := .down }
    | some w =>
      let rx := s.rxMap m fails w
      let s := s.updMod m fun x =>
        { x with width := w, spRx := rx, failRx := fails, clkP := r.lockP, frmP := r.lockP, clkA := r.lockA && altSet s.member,
                 frmA := r.lockA && altSet s.member }
      let s := s.when s.linkDownNow (·.linkUp)
      let s := s.updMod m fun x =>
        { x with st := .active, tphase := 0, retrain := none, frost := none, lostAt := none, lastUse := s.now, rxUse := s.now,
                 retiring := x.wasRetired }
      let s := s.updTrn fun t => { t with linkDown := false, fcLast := some s.onOff }
      s.when s.trainRuns fun s =>
        (s.updTrn fun t => { t with st := 5, sinceReset := false, fcLast := some s.onOff }).irq 0

/-- TRAINING_PHASE_COMPLETE (R518). -/
def execTrainingPhaseComplete (m : Nat) (r : PhyReport) (s : State) : Host.Outcome State Fault Refusal :=
  liveWf (decide (m < 16)) s fun s =>
    if modules s.member ≤ m then s
    else if s.trn.open_ then s.openDone m r
    else s.when ((s.mod m).st == .training) (·.phaseDone m r)

/-- TRAINING_MESSAGE_RESEND (R525): what has no answer after 2,400 cc is sent again. -/
def execTrainingMessageResend (s : State) : Host.Outcome State Fault Refusal :=
  live s fun s =>
    if s.trn.open_ then s
    else
      let due := decide (s.trn.nextSend ≤ s.now)
      let s := s.when (due && s.trn.st == 2 && !s.trn.acked) (·.sendCaprec)
      let s := s.each (s.allMods.filter fun m => (s.mod m).st == .training && decide ((s.mod m).sbNext ≤ s.now)) fun s m =>
        let x := s.mod m
        let s := s.when (x.laneSent && !x.laneGot) (·.sendLanemap m)
        let s := s.when (x.palSent && !x.palGot) (·.sendPalat m)
        s.when (s.planRun && x.planRate.isSome && !x.rateGot) (·.sendRate m x.rate)
      match s.trn.passMine with
      | some b => s.when (due && s.trn.st == 3 && s.inTraining.all fun m => (s.mod m).tphase == 8) fun s =>
          (s.sendPhase s.trn.rate b).updTrn fun t => { t with nextSend := s.now + s.dur 2400 }
      | none => s

/-- VENDOR_CAPABILITY_MESSAGE (R542): one word of the peer's record, under the identifier of TRN_VID. -/
def execVendorCapabilityMessage (idx : BitVec 3) (vid : BitVec 16) (word : W64) (s : State) : Host.Outcome State Fault Refusal :=
  live s fun s =>
    if s.trn.open_ && s.trn.st == 2 && vid == Config.vendorId then
      s.updTrn fun t => { t with openWords := t.openWords.filter (·.1 != idx.toNat) ++ [(idx.toNat, word)] }
    else s

/-- UCIE_LINK_DOWN (R541). -/
def execUcieLinkDown (m : Nat) (s : State) : Host.Outcome State Fault Refusal :=
  liveWf (decide (m < 16)) s fun s => s.when (s.openMode && (s.mod m).carries) (·.modDown m)

end Sys2Proof.Machine
end

