-- ==== Sys2Proof/Machine/Bist.lean ====
section
/-! DEFINITION. The BIST year, the on-demand test, and the assembly interconnect test (14, R550 to R575; log entries 8, 27). -/
namespace Sys2Proof.Machine

/-- BIST state changed. -/
def State.updBist (s : State) (f : Bist → Bist) : State := { s with bist := f s.bist }

/-! ## Months and slices (Table 14-1) -/

/-- Slices of a month for a member: BIST_MONTH. -/
def bistSlices (x : Member) (month : Nat) : Nat :=
  let nm := modules x
  match month with
  | 1 => 12352
  | 2 => 7744 + 96 * nm
  | 3 => 142
  | 4 => 256
  | 5 => 16
  | 6 => 256
  | 7 => 256
  | 8 => 512
  | 9 => bistPerModule x * min nm 6
  | 10 => bistPerModule x * min (nm - 6) 5
  | 11 => bistPerModule x * (nm - 11)
  | 12 => if x = .q16 then 192 else Config.bistLogic (memberCode x)
  | _ => 0

/-- Months whose slices outside the modules share their units: 1 the staging buffer and the tag store, 2 the response log, 3 the other memories of
months 3 to 5, 6 the Harvest lanes of months 6 to 8, 12 the sequencer. -/
def bistClass (month : Nat) : Nat := if 3 ≤ month ∧ month ≤ 5 then 3 else if 6 ≤ month ∧ month ≤ 8 then 6 else month

/-- Some unit of a class is in use (Table 14-2): staging units allocated or lookups, fills or a flush under way; entries in the log of a paired
instance; accesses to the memories; operations on the Harvest lanes; a program that runs. -/
def State.bistActive (s : State) (c : Nat) : Bool :=
  let runs := s.seq.st == .running || s.seq.st == .waiting
  match c with
  | 1 => s.stageUse != 0 || !s.fills.isEmpty || s.flushSet.isSome || !s.ops.isEmpty
  | 2 => s.paired && s.twin.st != 0 && !s.twin.rlog.isEmpty
  | 3 => runs || !s.ops.isEmpty || !s.rel.isEmpty
  | 6 => s.ops.any fun o => decide (0x40 ≤ o.iss.opcode.toNat) && decide (o.iss.opcode.toNat < 0x70)
  | 12 => runs
  | _ => false

/-- No unit of the class has been in use for BIST_CFG.IDLE (R552). -/
def State.bistRest (s : State) (c : Nat) : Bool := !s.bistActive c && decide (spGet 0 s.bist.busyAt c + 16 * s.rf 0xB0000 7 0 ≤ s.now)

/-- The unit of a slice has been idle for BIST_CFG.IDLE (R552, Table 14-2): a module in Fallow or RETIRED, for loopback with nothing that names it and
its link not in Midwinter (R566); another unit where its class rests, and in months 1 and 3 to 8 also where the slice's own words or lanes are free
of what is under way, which is a free value (log entry 27). -/
def State.bistIdle (s : State) (month slice : Nat) : Bool :=
  match bistModule s.member month slice with
  | none => s.bistRest (bistClass month) || (bistClass month != 2 && bistClass month != 12 && Config.bistClear s.free month slice)
  | some m =>
    let x := s.mod m
    let phy := decide (9 ≤ month) && decide (month ≤ 11)
    (x.st == .fallow || x.st == .retired) && x.wakeAt.isNone && decide (x.outAt + 16 * s.rf 0xB0000 7 0 ≤ s.now) &&
      (!phy || (x.repRx.isNone && x.repTx.isNone && x.retrain.isNone && x.wantRetrain.isNone && s.pwr.st != 3))

/-- What a cc of use leaves: when each class was in use last, and the pre-emption of a slice whose unit is asked for, at once for the response log and
the sequencer, by a free bit where no table says what the slice covers (R556). The modules' slices are cut by their services. -/
def State.bistWatch (s : State) : State :=
  let act := [1, 2, 3, 6, 12].filter s.bistActive
  let s := if act.isEmpty then s else s.updBist fun b => { b with busyAt := act.foldl (fun u c => spPut 0 u c (s.now + 1)) b.busyAt }
  match s.bist.cur with
  | some (month, k, _) =>
    let c := bistClass month
    if (bistModule s.member month k).isSome || !act.contains c then s
    else if c = 2 ∨ c = 12 then s.bistCut
    else
      let (hit, s) := s.draw
      s.when hit (·.bistCut)
  | none => s

/-- A slice is a march (R551). -/
def isMarch (month : Nat) : Bool := decide (month ≤ 5)

/-- The slices of a list of ended ones that have not ended and whose unit is idle. -/
def State.bistNext (s : State) (month : Nat) (ended : List (Nat × Nat)) : List Nat :=
  (List.range (bistSlices s.member month)).filter fun k => !ended.any (·.1 == k) && s.bistIdle month k

/-- BIST_SLICE_START (R552, R559, R560): a slice of the on-demand month or of the year, which one is free (log entry 27).
A block whose fuses permit no more than the assembly test runs none (R16). -/
def execBistSliceStart (s : State) : Host.Outcome State Fault Refusal :=
  live s fun s =>
    let b := s.bist
    let demand := b.run.isSome
    let month := b.run.getD b.month
    let gap := 64 * (if demand then s.rf 0xB0028 15 8 else s.rf 0xB0000 15 8)
    let clear := (s.tick.nextSol.map fun t => decide (s.now + 1040 ≤ t)).getD true
    let cands := s.bistNext month (if demand then b.runSlices else b.slices)
    if b.cur.isSome || s.blank || !(demand || bit (s.rg 0xB0000) 31) || decide (s.now < b.lastEnd + gap) || !clear then s
    else if cands.isEmpty then s
    else if !s.envelope then ((s.count32 0xB0024 1).setBit 0xB000C 1).irq 5
    else
      let k := cands.getD ((Config.freeWord s.free).toNat % cands.length) 0
      ({ s with free := s.free + 1 } : State).updBist fun b => { b with cur := some (month, k, demand) }

/-! ## The ends of slices and months (R561 to R567) -/

/-- RESULT of a month from its ended slices. -/
def monthResult (ended : List (Nat × Nat)) (n : Nat) : Nat :=
  if ended.any (·.2 == 2) then 2 else if ended.length < n then 3 else 1

/-- The year ends: its result, the count, YEAR_DONE. -/
def State.yearEnd (s : State) : State :=
  let rs := s.bist.results.map (·.2)
  let r := if rs.any (· == 2) then 2 else if rs.length = 12 && rs.all (· == 1) then 1 else 3
  ((s.updBist fun b => { b with yearRes := r, year := min 0xFFFF (b.year + 1) }).setBit 0xB000C 2).irq 5

/-- The month of the year ends with a result, and the next begins; one without slices passes at once (R550). -/
def State.monthEnd : Nat → State → Nat → State
  | 0, s, _ => s
  | fuel + 1, s, r =>
    let m := s.bist.month
    let s := s.updBist fun b => { b with results := b.results.filter (·.1 != m) ++ [(m, r)] }
    let s := s.when (m == 12) (·.yearEnd)
    let n := if m = 12 then 1 else m + 1
    let s := s.updBist fun b =>
      { b with month := n, began := s.tick.num, slices := [], failOnce := [], cur := if b.run.isSome then b.cur else none,
               lastEnd := if b.cur.isSome && b.run.isNone then s.now else b.lastEnd }
    if bistSlices s.member n = 0 then State.monthEnd fuel s 1 else s

/-- The on-demand month ends: RESULT, RUN_DONE, and the year resumes where it paused: its month's time does not count the run, nor where the month
began during it the part of the run before (R567). -/
def State.runEnd (s : State) (r : Nat) : State :=
  let since := fun (t : Nat) => (s.tick.num + tickMod - t) % tickMod
  let s := s.updBist fun b =>
    { b with run := none, runSlices := [], runFail := [], cur := none, lastEnd := if b.cur.isSome then s.now else b.lastEnd,
             began := (b.began + min (since b.runBegan) (since b.began)) % tickMod }
  ((s.setRf 0xB0028 29 28 r).setBit 0xB000C 3).irq 5

/-- The month ends where every slice has passed or failed (R564). -/
def State.bistCheck (s : State) (demand : Bool) : State :=
  let b := s.bist
  if demand then
    match b.run with
    | some m => if bistSlices s.member m ≤ b.runSlices.length then s.runEnd (monthResult b.runSlices (bistSlices s.member m)) else s
    | none => s
  else if bistSlices s.member b.month ≤ b.slices.length then State.monthEnd 13 s (monthResult b.slices (bistSlices s.member b.month))
  else s

/-- A slice has failed twice (R563). -/
def State.bistFail (s : State) (month k : Nat) : State :=
  let s := if bit (s.rg 0xB0010) 31 then s.setBit 0xB0010 30
    else (s.setRg 0xB0010 (bf 32 31 31 1 ||| bf 32 27 24 month ||| bf 32 15 0 k ||| (s.rg 0xB0010 &&& 0x40000000))).setRg64 0xB0018
      (BitVec.ofNat 64 s.tick.num) |>.hit 0xB0010 31 31 1
  (s.setBit 0xB000C 0).when (bit (s.rg 0xB0000) 30) (·.irq 5)

/-- A slice ended under its expected signature and count, or not. -/
def State.bistResult (s : State) (month k : Nat) (demand pass : Bool) : State :=
  let b := s.bist
  let again := !pass && !(if demand then b.runFail else b.failOnce).contains k
  let s := s.updBist fun b => { b with cur := none, lastEnd := s.now }
  if again then s.updBist fun b => if demand then { b with runFail := b.runFail ++ [k] } else { b with failOnce := b.failOnce ++ [k] }
  else
    let s := s.when (!pass) (·.bistFail month k)
    let e := (k, if pass then 1 else 2)
    (s.updBist fun b => if demand then { b with runSlices := b.runSlices ++ [e] } else { b with slices := b.slices ++ [e] }).bistCheck demand

/-- BIST_SLICE_END (R558, R561 to R563): MISR and count decide. A slice that a service pre-empted has been cut before. -/
def execBistSliceEnd (misr : W64) (count : Nat) (s : State) : Host.Outcome State Fault Refusal :=
  live s fun s =>
    match s.bist.cur with
    | none => s
    | some (month, k, demand) =>
      let want := if isMarch month then 640 else Config.bistCount month k
      s.bistResult month k demand (misr == Config.bistMisr month k && count == want)

/-- BIST_MONTH_TIMEOUT (R564): MONTH_TICKS ticks since the month began, with slices left. -/
def execBistMonthTimeout (s : State) : Host.Outcome State Fault Refusal :=
  live s fun s =>
    let b := s.bist
    let limit := 4096 * s.rf 0xB0000 23 16
    let done := fun (t : Nat) => decide (limit ≤ (s.tick.num + tickMod - t) % tickMod)
    match b.run with
    | some m => if done b.runBegan then s.runEnd (monthResult b.runSlices (bistSlices s.member m)) else s
    | none =>
      if bit (s.rg 0xB0000) 31 && done b.began then State.monthEnd 13 s (monthResult b.slices (bistSlices s.member b.month)) else s

/-! ## Registers that start things (Table 14-5, R567, R568) -/

/-- A write of BIST_CFG: MONTH_TICKS 0 stores 1; the first month of a year that has not begun begins with EN. -/
def State.writeBistCfg (s : State) (d : W32) : State :=
  let d := if fld d 23 16 = 0 then d ||| 0x10000 else d
  let rise := bit d 31 && !bit (s.rg 0xB0000) 31
  let s := s.setRg 0xB0000 (d &&& 0xC0FFFFFF)
  s.when (rise && !s.bist.begun) (·.updBist fun b => { b with began := s.tick.num, begun := true })

/-- A write of BIST_RUN: REFUSED clears on 1, GAP and MONTH are stored, GO runs the month at once or is refused (R568); a block whose fuses
permit no more than the assembly test starts nothing (R16). -/
def State.writeBistRun (s : State) (d : W32) : State :=
  let s := s.when (bit d 30) (·.clrBits 0xB0028 0x40000000)
  let s := (s.setRf 0xB0028 15 8 (fld d 15 8)).setRf 0xB0028 3 0 (fld d 3 0)
  let m := fld d 3 0
  if !bit d 31 || s.blank then s
  else if s.bist.run.isSome || m = 0 || decide (12 < m) then s.setBit 0xB0028 30
  else
    (s.updBist fun b => { b with run := some m, runBegan := s.tick.num, runSlices := [], runFail := [] }).bistCheck true

/-- BIST_RUN_GO. -/
def execBistRunGo (d : W32) (s : State) : Host.Outcome State Fault Refusal := portCmd s (·.writeBistRun d)

/-! ## The assembly interconnect test (R569 to R573) -/

/-- A write of AIT_CTRL: DIR is stored; GO starts an AIT while TRN_STATUS.STATE is IDLE or FAILED, as it is in reset (R576), and none runs. -/
def State.writeAitCtrl (s : State) (d : W32) : State :=
  let s := s.setRf 0xB0080 0 0 (fld d 0 0)
  let runs := decide (1 ≤ s.bist.aitStep ∧ s.bist.aitStep ≤ 3)
  if bit d 31 && !runs && (s.inReset || s.trn.st == 0 || s.trn.st == 6) then
    let s := s.updBist fun b => { b with aitStep := 1, aitBad := [], aitScreen := false }
    s.each s.allMods fun s m => s.setRg64 (0xB0100 + 8 * m) 0
  else s

/-- AIT_CTRL_GO. -/
def execAitCtrlGo (d : W32) (s : State) : Host.Outcome State Fault Refusal := portCmd s (·.writeAitCtrl d)

/-- A write of AIT_CFG: RATE up to the member's maximum (R522), DWELL in six bits (log entry 28), ERRMAX. -/
def State.writeAitCfg (s : State) (d : W32) : State :=
  s.setRg 0xB0084 (bf 32 3 0 (min (fld d 3 0) (maxRate s.member)) ||| bf 32 13 8 (fld d 13 8) ||| bf 32 31 16 (fld d 31 16))

/-- The lane-repair word of failing lanes: four entries in ascending order (Table 14-7). -/
def aitMap (lanes : List Nat) : Nat := leNat ((lanes.take 4).map fun n => BitVec.ofNat 8 (128 + n))

/-- AIT_FAIL of module m (R572, R573). Wires beyond the lanes are 68 CK, 69 CK_ALT, 70 VLD, 71 VLD_ALT, 72 SBD and 73 SBCK; a member
without CK_ALT and VLD_ALT has nothing that stands in for CK or VLD (log entry 28). -/
def State.aitFailWord (s : State) (m : Nat) : W64 :=
  let bad := fun n => s.bist.aitBad.contains (m, n)
  let alt := fun n => bad n || !altSet s.member
  let lanes := (List.range 68).filter fun n => hasLane s.member n && bad n
  let ck := bad 68 && alt 69
  let vld := bad 70 && alt 71
  let sb := bad 72 || bad 73
  let screen := decide (4 < lanes.length) || ck || vld || sb
  bf 64 63 63 (b2n screen) ||| bf 64 39 36 (min 15 lanes.length) ||| bf 64 35 35 (b2n sb) ||| bf 64 34 34 (b2n vld) |||
    bf 64 33 33 (b2n ck) ||| bf 64 31 0 (aitMap lanes)

/-- The receiver records its result (R572); DONE raises irq[5]. -/
def State.aitDone (s : State) : State :=
  let s := if s.rf 0xB0080 0 0 = 1 then s
    else
      let s := s.each s.allMods fun s m => s.setRg64 (0xB0100 + 8 * m) (s.aitFailWord m)
      s.updBist fun b => { b with aitScreen := s.allMods.any fun m => bit (s.rg64 (0xB0100 + 8 * m)) 63 }
  (s.updBist fun b => { b with aitStep := 4 }).irq 5

/-- Operands that an AIT step can report. -/
def aitWf (r : AitResult) : Bool :=
  (r.wires.all fun e => decide (e.1 < 16) && decide (e.2 < 74)) && r.errs.all fun e => decide (e.1 < 16) && decide (e.2.1 < 68)

/-- The wires that a step finds failing: those that it names, and in step 3 the lanes with more than ERRMAX errors on a clock set (R571). -/
def State.aitFound (s : State) (r : AitResult) : List (Nat × Nat) :=
  r.wires ++ if s.bist.aitStep = 3 then (r.errs.filter fun e => decide (s.rf 0xB0084 31 16 < e.2.2)).map fun e => (e.1, e.2.1) else []

/-- What a step found joins the result, and the next step begins (R570 to R573). -/
def State.aitStepped (s : State) (r : AitResult) : State :=
  let k := s.bist.aitStep
  if k = 0 ∨ 3 < k then s
  else
    let bad := s.aitFound r
    let s := s.updBist fun b => { b with aitBad := (b.aitBad ++ bad).eraseDups }
    if k = 3 then s.aitDone else s.updBist fun b => { b with aitStep := k + 1 }

/-- AIT_STEP_COMPLETE: also while a reset is held, in which the wrapper can start an AIT (R576). -/
def execAitStepComplete (r : AitResult) (s : State) : Host.Outcome State Fault Refusal :=
  if aitWf r then .next (s.aitStepped r) else .fault .malformed

end Sys2Proof.Machine
end

