-- ==== Sys2Proof/Machine/MemPort.lean ====
section
/-! DEFINITION. What comes back through the memory port: read data and write acknowledgements (06, R239 to R241, R257, R263 to R269; 15,
R585 to R590). -/
namespace Sys2Proof.Machine

/-! ## Read data (R585, R586, R589) -/

/-- The next 128-byte window of a request: granule number of its low half. -/
def RdReq.window (r : RdReq) : Nat :=
  match r.got.getLast? with
  | some g => (g.1 / 2 + 1) * 2
  | none => r.addr / 64 / 2 * 2

/-- The granules that a beat brings for a request. -/
def RdReq.take (r : RdReq) (b : MemBeat) : List (Nat × Gran) :=
  ([0, 1].filter fun h => bit b.gv h && decide (r.addr / 64 ≤ r.window + h) && decide (r.window + h < r.addr / 64 + r.n)).map fun h =>
    (r.window + h, { data := slice b.data (64 * h) 64, bad := bit b.err h || bit b.poison h })

/-- Granules joined to a buffer. -/
def bufJoin (buf gs : List (Nat × Gran)) : List (Nat × Gran) := buf.filter (fun e => !gs.any fun g => g.1 == e.1) ++ gs

/-- A response has all its data: a READ_DATA with its bytes, poisoned where a granule was, a PG_DATA chunk with OUT POISONED and no bytes
(R266, R434). It goes to the link's queue, or to the sister that forwarded its request. -/
def Rsp.filled (r : Rsp) : Rsp :=
  let bad := bufBad r.buf r.base r.len
  let m := r.msg
  let m :=
    if m.mtype = 0x03 then
      { m with data := bufBytes r.buf r.base r.len, poison := bad, arg := setFld m.arg 19 16 (b2n bad) }
    else if bad then { m with arg := setFld m.arg 59 56 13 }
    else { m with data := bufBytes r.buf r.base r.len }
  { r with msg := m, ready := true, buf := [] }

/-- Data of a response. -/
def State.rspData (s : State) (id : Nat) (gs : List (Nat × Gran)) : State :=
  match s.rsp.find? fun r => r.id == id with
  | none => s
  | some r =>
    let r := { r with buf := bufJoin r.buf gs, rdLeft := r.rdLeft - 1 }
    let r := if r.rdLeft = 0 then r.filled else r
    if r.ready && r.msg.resend then
      { s with rsp := s.rsp.filter fun q => q.id != id,
               twin := { s.twin with resend := s.twin.resend.map fun m =>
                 if m.stream = r.msg.stream ∧ m.sseq = r.msg.sseq then r.msg else m } }
    else match (if r.ready then r.via else none) with
    | some i => ({ s with rsp := s.rsp.filter fun q => q.id != id } : State).sendXpt i (.msg s.inst r.msg)
    | none => { s with rsp := s.rsp.map fun q => if q.id = id then r else q }

/-- A waiting write may go out. -/
def State.issueWrite (s : State) (w : WrReq) : State :=
  { s with wrq := s.wrq.map fun v => if v.id = w.id then { v with issued := true } else v }

/-- The waiting writes that R241 holds no longer go out, and messages whose last bytes went with them return their credits (R113). -/
def State.issueWrites (s : State) : State :=
  (s.each (s.wrq.filter fun w => !w.issued && !s.writeBarred w) (·.issueWrite ·)).payOwed

/-- A read request has its last beat: its granules go to whoever waits for them. -/
def State.readDone (s : State) (r : RdReq) (gs : List (Nat × Gran)) : State :=
  match r.owner with
  | .op tag => (s.updOp tag fun o => { o with buf := bufJoin o.buf gs, rdLeft := o.rdLeft - 1 }).pump
  | .rsp id => s.rspData id gs
  | .page k pid =>
    let s := s.pageChecked k pid (bufBytes gs (s.recordAddr pid) 8)
    s.issueWrites
  | .record id =>
    let pid := ((s.recOps.find? fun x => x.id == id).map fun x => recPid x.msg).getD 0
    (s.recRead id (bufBytes gs (s.recordAddr pid) 8)).startChecks.pagePump

/-- MEM_READ_DATA: a beat of an outstanding request, which its channel and tag name. -/
def State.memBeat (s : State) (b : MemBeat) : State :=
  match s.rdq.find? fun r => r.took && r.wire == some b.tag with
  | none => s
  | some r =>
    let got := r.got ++ r.take b
    if b.last then ({ s with rdq := s.rdq.filter fun q => q.id != r.id } : State).readDone r got
    else { s with rdq := s.rdq.map fun q => if q.id = r.id then { q with got := got } else q }

/-- MEM_READ_DATA (R586). -/
def execMemReadData (b : MemBeat) (s : State) : Host.Outcome State Fault Refusal := liveWf (b.data.length == 128) s (·.memBeat b)

/-! ## Write acknowledgements (R241, R588) -/

/-- A write of a released message ended with WR_ERR: the next SIGNAL of its stream is to carry it (R269): one that is released and waits,
or the stream's flag. -/
def State.streamErr (s : State) (w : WrReq) : State :=
  match w.stream with
  | none => s
  | some d =>
    if 64 ≤ d then s
    else
      match s.rel.find? fun r => r.dom == d && r.msg.mtype == 0x04 && decide (w.ord < r.ord) with
      | some r => { s with rel := s.rel.map fun x => if x.ord = r.ord then { x with err := true } else x }
      | none => s.updStrm d fun x => { x with err := true }

/-- An acknowledged write of n bytes of an operation's own (R245, R265); a multi-tick COPY from a far source has gone on by them (R263). -/
def State.ackOp (s : State) (tag n : Nat) (err : Bool) : State :=
  let die := s.die
  (s.updOp tag fun o =>
    let o := { o with wrLeft := o.wrLeft - 1, pos := if o.mt.isSome && o.iss.tda.die != die then o.pos + n else o.pos }
    if err then o.fail 2 false 1 else o).opCheck tag

/-- The write of a READ_DATA is acknowledged: its tracker is free (R240), and a multi-tick COPY has gone on by its bytes (R263). -/
def State.ackNear (s : State) (tag trk n : Nat) (err psn : Bool) : State :=
  (s.updOp tag fun o =>
    let o := { o with trk := o.trk.filter fun t => t.1 != trk, pos := o.pos + n }
    if err then o.fail 2 false (b2n (!psn)) else o).opCheck tag

/-- The effect of an acknowledgement on the one who waits for it. -/
def State.ackOwner (s : State) (w : WrReq) (err : Bool) : State :=
  match w.owner with
  | .op tag => s.ackOp tag w.data.length err
  | .far k =>
    let f := s.farOp k
    let f := { f with wr := f.wr - 1 }
    ((s.setFar (if err then f.fail 2 w.ord (b2n (!w.poison)) else f)).when err (·.streamErr w)).farCheck k
  | .fill trk chunk =>
    let s := (s.when err (·.streamErr w)).updFill trk fun f => { f with acked := f.acked ++ [chunk] }
    ((s.when err (·.poisonFill trk)).fillCheck trk).pagePump
  | .record id => ((s.when err (·.streamErr w)).recAcked id).startChecks.pagePump
  | .near tag trk => (s.when err (·.streamErr w)).ackNear tag trk w.data.length err w.poison
  | .ring => s.when err (·.streamErr w)

/-- MEM_WRITE_ACK: the write is visible; its owner goes on, and writes that waited behind it go out. -/
def State.writeAck (s : State) (tag : Nat) (err : Bool) : State :=
  match s.wrq.find? fun w => w.took && w.wire == some tag && !s.wd.any fun b => b.wire == tag with
  | none => s
  | some w =>
    let s : State := { s with wrq := s.wrq.filter fun v => v.id != w.id }
    let s := s.ackOwner w err
    s.issueWrites.pump

/-- MEM_WRITE_ACK (R588). -/
def execMemWriteAck (tag : Nat) (err : Bool) (s : State) : Host.Outcome State Fault Refusal := live s (·.writeAck tag err)

end Sys2Proof.Machine
end

