-- ==== Sys2Proof/Machine/View.lean ====
section
/-! DEFINITION. What the words of the configuration window read as: fields that the block computes from its state, stored fields, the
shadow copies of RWS fields, and the memories (16, R608, R609, R616, R617; the field maps of every unit chapter). -/
namespace Sys2Proof.Machine

/-! ## Memories in the window -/

/-- Offsets of memories that the clear sweep writes: slot table, route and expert maps, calibration table, program memory, descriptors
(R507, R508). -/
def sweptOff (off : Nat) : Bool :=
  (decide (0x2400 ≤ off) && decide (off < 0x2800)) || (decide (0x20600 ≤ off) && decide (off < 0x20640)) ||
    (decide (0x40000 ≤ off) && decide (off < 0x62000)) || (decide (0x70300 ≤ off) && decide (off < 0x70380)) ||
    (decide (0x78000 ≤ off) && decide (off < 0x80000))

/-- Program memory. -/
def inPm (off : Nat) : Bool := decide (0x40000 ≤ off) && decide (off < 0x60000)
/-- Descriptors. -/
def inTd (off : Nat) : Bool := decide (0x60000 ≤ off) && decide (off < 0x62000)
/-- The calibration table. -/
def inCal (off : Nat) : Bool := decide (0x78000 ≤ off) && decide (off < 0x80000)

/-- The protected words that a read of an offset reads (Table 12-9; log entry 9): the shadow bank of the slot table, the maps and the
calibration table, with a calibration entry's counters beside it. -/
def memWords (off : Nat) : List (Nat × Nat) :=
  if inPm off then [(0, (off - 0x40000) / 8)]
  else if inTd off then [(1, (off - 0x60000) / 8)]
  else if inCal off then [(5, (off - 0x78000) / 8), (5, 4096 + (off - 0x78000) / 8)]
  else if 0x2400 ≤ off ∧ off < 0x2800 then [(3, (off - 0x2400) / 8)]
  else if 0x20600 ≤ off ∧ off < 0x20640 then [(4, 16 + (off - 0x20600) / 4)]
  else if 0x70300 ≤ off ∧ off < 0x70380 then [(4, 80 + (off - 0x70300) / 8)]
  else []

/-! ## Status of the modules -/

/-- PA_STATUS.STATE. -/
def PaSt.code : PaSt → Nat
  | .down => 0 | .training => 1 | .active => 2 | .frost => 3 | .fallow => 4 | .midwinter => 5 | .retired => 6

/-- PA_STATUS (Table 2-9). -/
def State.paStatus (s : State) (m : Nat) : W32 :=
  let x := s.mod m
  bf 32 27 24 x.rate ||| bf 32 23 22 x.width ||| bf 32 21 19 x.st.code ||| bf 32 18 18 (b2n x.altSel) |||
    bf 32 17 17 (b2n (if x.altSel then x.frmA else x.frmP)) ||| bf 32 16 16 (b2n (if x.altSel then x.clkA else x.clkP)) |||
    bf 32 15 12 (s.freeTx m).length ||| bf 32 11 8 (s.freeRx m).length

/-- A word of PA of module m, at an offset within its page, that is not a stored one (Tables 2-11, 2-12, 16-10). PA_REPAIR.GO reads 1, and its
RESULT changes, also for a repair that the Health Monitor started, since Table 2-12 does not tell the two apart (DESIGN CHOICE, log entry 57). -/
def State.paLive (s : State) (m o : Nat) : Option W32 :=
  let x := s.mod m
  match o with
  | 0 => some (s.paStatus m)
  | 0x8 => some (bf 32 31 0 (spareWord x.spTx))
  | 0xC => some (bf 32 31 0 (spareWord x.spRx))
  | 0x10 => some ((s.rg (0x10010 + 0x1000 * m)) ||| bf 32 31 31 (b2n ((x.repRx.map fun r => !r.echoed && !r.cancel).getD false)))
  | 0x18 => some (bf 32 15 0 x.lat8)
  | _ => none

/-- LL_MOD_STATUS, LL_MOD_SEQ, LL_MOD_CTRL and LL_MOD_NAKHOLD of module m (Tables 3-13, 16-17 to 16-19). Where the
sum of R98 exceeds 255 cc, LL_MOD_NAKHOLD shows its low 8 bits, while R99 acts by the whole sum (DESIGN CHOICE, log entry 69; the spec is silent). -/
def State.llModLive (s : State) (m o : Nat) : Option W32 :=
  let x := s.mod m
  match o with
  | 0 => some (bf 32 31 31 (b2n x.prob.isSome) ||| bf 32 30 30 (b2n (decide (80 ≤ x.rep.length))) ||| bf 32 22 16 x.rep.length |||
      bf 32 11 0 x.p)
  | 4 => some (bf 32 27 16 x.next ||| bf 32 11 0 (((x.rep.head?).map (·.seq)).getD x.next))
  | 8 => some 0
  | 0xC => some (bf 32 7 0 x.nakHold)
  | _ => none

/-! ## Status of the units -/

/-- TRN_STATUS (Table 13-13). -/
def State.trnStatus (s : State) : W32 :=
  bf 32 14 12 s.trn.steps ||| bf 32 9 9 (b2n s.trn.fresh) ||| bf 32 8 8 (b2n s.trn.nopeer) ||| bf 32 7 4 s.trn.err |||
    bf 32 2 0 s.trn.st

/-- TICK_STATUS (Table 1-5). -/
def State.tickStatus (s : State) : W32 :=
  (s.rg 0x2010 &&& 0x34) ||| bf 32 23 16 s.tick.phaseErr.toNat ||| bf 32 8 8 (b2n s.tick.ovrWork) ||| bf 32 7 7 (b2n s.tick.ovrProg) |||
    bf 32 6 6 (b2n s.seq.defer.isSome) ||| bf 32 3 3 (b2n s.tick.nomark) ||| bf 32 1 0 s.tick.lock.toNat

/-- LL_FLOW_STATUS (Table 16-15). -/
def State.flowStatus (s : State) : W32 :=
  bf 32 7 4 (((List.range 4).map fun c => b2n (s.tc c).xoffRx * 2 ^ c).sum) ||| bf 32 3 0 s.xoffBits

/-- LL_CRED_TX (Table 16-14). -/
def State.credTx (s : State) (c : Nat) : W32 :=
  if s.onOff then 0 else bf 32 31 16 (s.tc c).availD ||| bf 32 15 0 (s.tc c).availH

/-- SEQ_STATUS.STATE (Table 5-1). -/
def SeqSt.code : SeqSt → Nat
  | .stopped => 0 | .idle => 1 | .running => 2 | .waiting => 3 | .halted => 4 | .trapped => 5

/-- Operation tags held. -/
def State.tagsHeld (s : State) : List Nat := (s.ops.filter fun o => o.orig.isNone).map (·.tag)

/-- SEQ_STATUS (Table 5-15). -/
def State.seqStatus (s : State) : W32 :=
  bf 32 29 16 s.seq.pc ||| bf 32 12 12 (b2n s.seq.stall.isSome) ||| bf 32 11 3 s.tagsHeld.length ||| bf 32 2 0 s.seq.st.code

/-- A word of SEQ_OPTAG_BUSY. -/
def State.tagBusy (s : State) (j : Nat) : W32 :=
  BitVec.ofNat 32 (((List.range 32).map fun i => b2n (s.tagsHeld.contains (32 * j + i)) * 2 ^ i).sum)

/-- XE_STATUS (Table 6-13). -/
def State.xeStatus (s : State) : W32 :=
  bf 32 6 0 s.unadmitted ||| bf 32 17 8 s.trackers ||| bf 32 22 20 (s.ops.filter fun o => o.mt.isSome).length

/-- XE_MT_STAT of a slot (Table 6-13, R263). -/
def State.mtStat (s : State) (k : Nat) : W32 :=
  match s.mtOp k with
  | some o => bf 32 31 31 1 ||| bf 32 23 16 o.tag ||| bf 32 6 0 (min 99 (100 * o.pos / max 1 o.total))
  | none => s.rg (0x31040 + 0x20 * k)

/-- XE_MT_POS and XE_MT_TOTAL of a slot. -/
def State.mtCount (s : State) (k : Nat) (total : Bool) : W64 :=
  match s.mtOp k with
  | some o => bf 64 47 0 (if total then o.total else o.pos)
  | none => s.rg64 (0x31048 + 0x20 * k + 8 * b2n total)

/-- HV_PROFILE (Table 7-10). -/
def State.profileWord (s : State) : W32 :=
  bf 32 9 8 s.profile ||| bf 32 5 4 s.profNeg ||| (s.sh 0x70000 &&& 3)

/-- HV_RED (Table 7-14). -/
def State.redWord (s : State) (r : Nat) : W64 :=
  let x := s.redAt r
  if !x.busy then 0 else
  bf 64 63 63 1 ||| bf 64 55 48 x.tag ||| bf 64 47 40 x.rtag ||| bf 64 39 39 (b2n x.nan) ||| bf 64 38 38 (b2n x.gsat) |||
    bf 64 37 37 (b2n x.gfinal) ||| bf 64 36 35 x.gmode ||| bf 64 33 17 x.done.length ||| bf 64 16 0 x.k

/-- HV_MRG (Table 8-9). -/
def State.mrgWord (s : State) (r : Nat) : W64 :=
  let x := s.mrgAt r
  if !x.busy then 0 else
  bf 64 63 63 1 ||| bf 64 62 62 (b2n x.cut) ||| bf 64 55 48 x.tag ||| bf 64 47 40 x.rtag ||| bf 64 39 39 (b2n x.allmask) |||
    bf 64 38 38 (b2n (x.nan || x.nanIn)) ||| bf 64 37 37 (b2n x.bad) ||| bf 64 36 30 x.last.length ||| bf 64 29 23 x.k ||| bf 64 22 18 x.gsize |||
    bf 64 17 9 x.d ||| bf 64 8 8 (b2n x.exp3)

/-- SX_DSLOT (Table 9-11). -/
def State.dslWord (s : State) (d : Nat) : W64 :=
  let x := s.dslAt d
  bf 64 63 63 (b2n x.busy) ||| bf 64 50 40 (dslUnits x) ||| bf 64 39 29 x.carried.length ||| bf 64 19 0 (s.rf (0x70380 + 0x10 * d) 19 0)

/-- Returns taken in full (Table 9-12). -/
def State.cmbWord (s : State) (d : Nat) : W64 :=
  let x := s.cmbAt d
  if !x.busy then 0 else
  bf 64 63 63 1 ||| bf 64 62 62 (b2n x.cut) ||| bf 64 55 48 x.tag ||| bf 64 47 40 x.rtag ||| bf 64 39 20 x.taken.length |||
    bf 64 19 0 x.expect

/-- The tag-store entry that RPC_TAG_SEL selects. -/
def State.tagSel (s : State) : Nat := s.rf 0x80200 12 0 * 16 + s.rf 0x80200 19 16

/-- RPC_STATUS (Table 10-11). -/
def State.rpcStatus (s : State) : W32 :=
  (s.rg 0x80004 &&& 0x200) ||| bf 32 8 0 s.fills.length ||| bf 32 31 14 (s.tags.filter fun e => decide (0 < e.2.pin)).length

/-- RPC_FLUSH (Table 10-10): GO while a flush runs; the set it visits is then free, since no rule gives its pace. -/
def State.flushWord (s : State) : W32 :=
  (s.rg 0x80030 &&& 0x40000000) |||
    (if s.flushSet.isSome then bf 32 31 31 1 ||| bf 32 12 0 (Config.freeWord s.free).toNat else 0)

/-- TWN_STATUS (Table 11-6). -/
def State.twnStatus (s : State) : W32 :=
  bf 32 9 9 (b2n s.twin.alive) ||| bf 32 8 8 (b2n s.linkOk) ||| bf 32 2 0 s.twin.st

/-- PWR_CTRL (Table 12-11). -/
def State.pwrStatus (s : State) : W32 :=
  bf 32 31 31 (b2n (s.pwr.mwGo.isSome)) ||| bf 32 29 27 s.pwr.result ||| bf 32 2 0 s.pwr.st

/-- PWR_FALLOW: the modules in Fallow. -/
def State.fallowWord (s : State) : W32 :=
  BitVec.ofNat 32 ((s.allMods.map fun m => b2n ((s.mod m).st == .fallow) * 2 ^ m).sum)

/-- BIST_PROG (Table 14-6, R565). -/
def State.bistProg (s : State) : W32 :=
  let b := s.bist
  bf 32 31 16 b.year ||| bf 32 11 4 (256 * b.slices.length / max 1 (bistSlices s.member b.month)) ||| bf 32 3 0 b.month

/-- BIST_STATUS (Table 14-7). -/
def State.bistStatus (s : State) : W32 :=
  BitVec.ofNat 32 ((s.bist.results.map fun e => e.2 * 4 ^ (e.1 - 1)).sum) ||| bf 32 25 24 s.bist.yearRes

/-- AIT_STATUS. -/
def State.aitStatus (s : State) : W32 := bf 32 8 8 (b2n s.bist.aitScreen) ||| bf 32 2 0 s.bist.aitStep

/-- ECC_SWEEP: DONE and PCT; while the sweep runs, its progress is free below 100. -/
def State.sweepWord (s : State) : W32 :=
  if s.sweepDone then bf 32 31 31 1 ||| 100 else bf 32 6 0 ((Config.freeWord s.free).toNat % 100)

/-- LL_RETIRE (Table 11-8). -/
def State.retireWord (s : State) : W32 :=
  (s.rg 0x20080 &&& 0x8000000F) ||| bf 32 19 4 ((s.allMods.map fun m => b2n ((s.mod m).st == .retired) * 2 ^ m).sum)

/-! ## Words -/

/-- An index of an array of n words at stride st from base that an offset falls on, with the offset within its element. -/
def arr (base st n off : Nat) : Option (Nat × Nat) :=
  if base ≤ off ∧ (off - base) / st < n then some ((off - base) / st, (off - base) % st) else none

/-- Single 32-bit words that are computed. -/
def State.single (s : State) (off : Nat) : Option W32 :=
  match off with
  | 0x0 => some (BitVec.ofNat 32 blkId)
  | 0x4 => some (BitVec.ofNat 32 idVersion)
  | 0x8 => some (bf 32 3 0 (memberCode s.member) ||| bf 32 12 8 (modules s.member))
  | 0x10 => some (fuseIdent s.fuseId)
  | 0x100 => some 0
  | 0x108 => some s.trnStatus
  | 0x134 => some (bf 32 15 0 Config.vendorId.toNat)
  | 0x1000 => some ((s.rg 0x1000 &&& 2) ||| bf 32 0 0 (b2n s.commit.isSome))
  | 0x1020 => some s.digestRead
  | 0x1024 => some s.pendRead
  | 0x2010 => some s.tickStatus
  | 0x20030 => some s.flowStatus
  | 0x20060 => some (s.rg 0x20060 ||| bf 32 31 31 (b2n s.plan.isSome))
  | 0x20080 => some s.retireWord
  | 0x30000 => some 0
  | 0x30004 => some s.seqStatus
  | 0x30200 => some (bf 32 7 0 s.seq.p.toNat ||| bf 32 11 8 s.seq.stack.length)
  | 0x31004 => some s.xeStatus
  | 0x70000 => some s.profileWord
  | 0x70024 => some ((s.rg 0x70024 &&& 0x7FF0000) ||| bf 32 10 0 s.stageUse)
  | 0x80004 => some s.rpcStatus
  | 0x80030 => some s.flushWord
  | 0x80210 =>
    let t := s.tag s.tagSel
    some (bf 32 1 0 t.st ||| bf 32 7 4 (s.lruRank s.tagSel) ||| bf 32 31 16 t.pin)
  | 0x90004 => some (bf 32 1 1 (b2n s.twin.asked))
  | 0x90010 => some s.twnStatus
  | 0x9002C => some ((s.rg 0x9002C &&& 0x3FFF0000) ||| bf 32 13 0 s.twin.rlog.length)
  | 0xA0100 => some s.pwrStatus
  | 0xA0110 => some s.fallowWord
  | 0xA0114 => some (bf 32 4 0 s.pwr.maxmod ||| bf 32 11 8 s.pwr.duty)
  | 0xB0004 => some s.bistProg
  | 0xB0008 => some s.bistStatus
  | 0xB0028 => some (s.rg 0xB0028 ||| bf 32 31 31 (b2n s.bist.run.isSome))
  | 0xB0088 => some s.aitStatus
  | 0xC0014 => some s.sweepWord
  | 0xD0008 => some (bf 32 11 0 (Config.powerEstimate s.free).toNat)
  | _ => none

/-- Words of arrays that are computed, 32 bits each. -/
def State.arrays (s : State) (off : Nat) : Option W32 :=
  let nm := modules s.member
  match arr 0x10000 0x1000 nm off with
  | some (m, o) => s.paLive m o
  | none =>
  match arr 0x20100 0x20 nm off with
  | some (m, o) => s.llModLive m o
  | none =>
  match arr 0x20020 4 4 off with
  | some (c, _) => some (s.credTx c)
  | none =>
  match arr 0x20400 4 64 off with
  | some (n, _) => some (bf 32 15 0 (s.strm n).e ||| bf 32 31 16 (s.strm n).next)
  | none =>
  match arr 0x30240 4 8 off with
  | some (k, _) => some (bf 32 13 0 ((s.seq.stack.getD k 0).toNat))
  | none =>
  match arr 0x30800 4 8 off with
  | some (j, _) => some (s.tagBusy j)
  | none =>
  match arr 0x31040 0x20 4 off with
  | some (k, 0) => some (s.mtStat k)
  | _ =>
  match arr 0xA0200 4 nm off with
  | some (m, _) => some (bf 32 31 0 (spGet 0 s.hm.tempNow m))
  | none =>
  match arr 0xA1000 0x200 nm off with
  | some (m, o) => if o < 4 * 68 then some (bf 32 31 0 (spGet 0 s.hm.lane (68 * m + o / 4))) else some 0
  | none =>
  match arr 0xB0040 4 12 off with
  | some (m, _) => some (bf 32 15 0 (bistSlices s.member (m + 1)))
  | none => none

/-- 64-bit registers and memory words that are computed, by the offset of the low half. -/
def State.wides (s : State) (off : Nat) : Option W64 :=
  let nm := modules s.member
  if off = 0x18 then some idCap
  else if off = 0x2008 then some (bf 64 47 0 s.tick.num)
  else if off = 0x80208 then
    let t := s.tag s.tagSel
    some (bf 64 39 0 t.pid ||| bf 64 63 40 t.gen)
  else if inPm off then some (s.pmWord ((off - 0x40000) / 8))
  else if inTd off then some (spGet 0 s.td ((off - 0x60000) / 8))
  else
  match arr 0x30100 8 32 off with
  | some (n, _) => some (s.greg n)
  | none =>
  match arr 0x30400 8 64 off with
  | some (n, _) => some (s.evc n &&& 0x3FFFFFFFF)
  | none =>
  match arr 0x31040 0x20 4 off with
  | some (k, 0x8) => some (s.mtCount k false)
  | some (k, 0x10) => some (s.mtCount k true)
  | some _ => none
  | none =>
  match arr 0x70100 8 16 off with
  | some (r, _) => some (s.redWord r)
  | none =>
  match arr 0x70200 8 8 off with
  | some (r, _) => some (s.mrgWord r)
  | none =>
  match arr 0x70380 0x10 4 off with
  | some (d, 0) => some (s.dslWord d)
  | some _ => none
  | none =>
  match arr 0x703C0 8 4 off with
  | some (d, _) => some (s.cmbWord d)
  | none =>
  match arr 0xA0400 8 nm off with
  | some (m, _) => some (bf 64 31 0 (spGet 0 s.hm.crc m) ||| bf 64 37 32 (spGet 0 s.hm.margin m - 1))
  | none => none

/-- A stored word as it reads: the shadow copy of its RWS fields, the rest as stored (R37, R619). -/
def State.stored (s : State) (off : Nat) : W32 :=
  let m := rwsMask (modules s.member) off
  if 0x10000 ≤ off ∧ off < 0x20000 ∧ modules s.member ≤ (off - 0x10000) / 0x1000 then 0
  else (s.rg off &&& ~~~m) ||| (s.sh off &&& m)

/-- The value of the word at an offset, a multiple of 4 (R608); memories read as zero until the sweep is done (R508). -/
def State.viewWord (s : State) (off : Nat) : W32 :=
  if !s.sweepDone && sweptOff off then 0
  else match s.single off with
    | some w => w
    | none => match s.arrays off with
      | some w => w
      | none => match s.wides (off / 8 * 8) with
        | some w => if off % 8 = 0 then w.setWidth 32 else (w >>> 32).setWidth 32
        | none => s.stored off

/-- The word is the low half of a 64-bit register or memory word (R609). -/
def State.lowHalf (s : State) (off : Nat) : Bool :=
  off % 8 == 0 && ((s.wides off).isSome || ((regRow (modules s.member) off).map (·.half == 1)).getD false ||
    ((arr 0x10000 0x1000 (modules s.member) off).map (·.2 == 8)).getD false)

/-- The words that may read a free value (log entry 2): CFG_DIGEST, CFG_DIGEST_PEND, RPC_FLUSH, ECC_SWEEP and TEL_POWER. -/
def openWord (off : Nat) : Bool := [0x1020, 0x1024, 0x80030, 0xC0014, 0xD0008].contains off

/-- A read of a word draws new free values for the next one (R622). -/
def State.drew (s : State) (off : Nat) : State := { s with free := s.free + 2 * b2n (openWord off) }

/-- A read by the port or by the sequencer: the word at an offset and the word that follows it, with what the reads of protected words
leave (R498). The spec gives no value for an uncorrectable word: it is free. -/
def State.readPair (s : State) (off : Nat) : W32 × W32 × State :=
  if !s.sweepDone then (s.viewWord off, s.viewWord (off + 4), s.drew off) else
  let ue := (memWords off).any fun w => s.uncorr w.1 w.2
  let t := s.each (memWords off) fun s w => (s.eccRead w.1 w.2).2
  if ue then
    let w := Config.freeWord s.free
    (if off % 8 = 0 then w.setWidth 32 else (w >>> 32).setWidth 32, (w >>> 32).setWidth 32, { t with free := s.free + 1 })
  else (s.viewWord off, s.viewWord (off + 4), t.drew off)

end Sys2Proof.Machine
end

