-- ==== Sys2Proof/Machine/Port.lean ====
section
/-! DEFINITION. The configuration port: reads and writes of the window with the port's latches (R608 to R615), registers whose write does
more than store its fields, and the merge buffer of the memories (R502 to R504). -/
namespace Sys2Proof.Machine

/-! ## The merge buffer (R502 to R504) -/

/-- A write of an HV_CAL entry reaches its GOFF and AUTO shadow fields only (Table 7-14). -/
def State.calWrite (s : State) (n : Nat) (d : W32) : State :=
  let t := s.shadowWrite (calOff n) d
  { t with calDirty := if t.calDirty.contains n then t.calDirty else t.calDirty ++ [n] }

/-- The protected word at a 64-bit word address of program memory, the descriptors or the calibration table. -/
def mergeMem (a : Nat) : Nat × Nat :=
  let off := 8 * a
  if inPm off then (0, (off - 0x40000) / 8) else if inTd off then (1, (off - 0x60000) / 8) else (5, (off - 0x78000) / 8)

/-- The whole word at a word address is written in one cycle. The port accepted its low half at a cc: the shadow fields of a calibration entry
lie there, and wait for the Solstice of that very cc (R40). -/
def State.memWord (s : State) (a : Nat) (w : W64) (at_ : Nat) : State :=
  let (id, i) := mergeMem a
  if id = 0 then s.setPmWord i w
  else if id = 1 then s.setTdWord (i / 4) (i % 4) w
  else if s.solNow && decide (s.now ≤ at_) then s.holdShadow (8 * a) (w.setWidth 32)
  else s.calWrite i (w.setWidth 32)

/-- The port's halves of a descriptor word reach it in this cc (R188). -/
def State.noteTd (s : State) (a : Nat) (lo hi : Option W32) : State :=
  let (id, i) := mergeMem a
  if id = 1 then { s with cc := { s.cc with td := s.cc.td ++ [(i, lo, hi)] } } else s

/-- The word that a flush writes: the held halves over what memory holds. -/
def State.merged (s : State) (e : MergeEnt) : W64 :=
  (e.hi.getD (s.viewWord (8 * e.addr + 4))) ++ (e.lo.getD (s.viewWord (8 * e.addr)))

/-- A flush (R503): read, correct, replace the held half, write; a word whose read is uncorrectable stays so. A flush that holds only the
high half of a calibration entry writes none of its shadow fields. -/
def State.flushEnt (s : State) (e : MergeEnt) : State :=
  let (id, i) := mergeMem e.addr
  let (ue, t) := s.eccRead id i
  let t : State := { t with merge := t.merge.filter fun x => x.addr != e.addr }
  let u := ((t.eccWritten id i).noteTd e.addr e.lo e.hi).when (id != 5 || e.lo.isSome) (·.memWord e.addr (s.merged e) e.since)
  if ue then { u with upset := t.upset } else u

/-- The entry of a word is flushed, if there is one. -/
def State.flushAddr (s : State) (a : Nat) : State :=
  match s.merge.find? fun e => e.addr == a with
  | some e => s.flushEnt e
  | none => s

/-- A write of half a word joins its entry; the word is written once both halves are held; a fifth word flushes the oldest entry. -/
def State.mergePut (s : State) (off : Nat) (d : W32) : State :=
  let a := off / 8
  let put := fun (e : MergeEnt) => if off % 8 = 0 then { e with lo := some d } else { e with hi := some d }
  match s.merge.find? fun e => e.addr == a with
  | some e =>
    let e := put e
    match e.lo, e.hi with
    | some lo, some hi =>
      let (id, i) := mergeMem a
      ((({ s with merge := s.merge.filter fun x => x.addr != a } : State).eccWritten id i).noteTd a (some lo) (some hi)).memWord a (hi ++ lo)
        (if off % 8 = 0 then s.now else e.since)
    | _, _ => { s with merge := s.merge.map fun x => if x.addr = a then e else x }
  | none =>
    let s := match s.merge with
      | e :: _ => s.when (decide (4 ≤ s.merge.length)) (·.flushEnt e)
      | [] => s
    { s with merge := s.merge ++ [put { addr := a, lo := none, hi := none, since := s.now }] }

/-- Offsets whose writes go through the merge buffer. -/
def merges (off : Nat) : Bool := inPm off || inTd off || inCal off

/-- MERGE_BUFFER_FLUSH (R503): entries whose first half arrived 64 cc ago. -/
def execMergeBufferFlush (s : State) : Host.Outcome State Fault Refusal :=
  live s fun s => s.each (s.merge.filter fun e => decide (e.since + 64 ≤ s.now)) (·.flushEnt ·)

/-! ## Stored fields -/

/-- A shadow write of a word: before the sweep is done the swept memories ignore it (R508); a protected word is written with fresh check
bits. -/
def State.landShadow (s : State) (off : Nat) (d : W32) : State :=
  if !s.sweepDone && sweptOff off then s
  else if inCal off then s.calWrite ((off - 0x78000) / 8) d
  else
    let s := s.each ((memWords off).filter fun w => !s.uncorr w.1 w.2) fun s w => s.eccWritten w.1 w.2
    s.shadowWrite off d

/-- A shadow write of the port: after the Solstice of its cc, if that has not been taken yet (R40). -/
def State.portShadow (s : State) (off : Nat) (d : W32) : State := if s.solNow then s.holdShadow off d else s.landShadow off d

/-- The held shadow writes of the port land. -/
def State.landHeld (s : State) : State :=
  ({ s with cc := { s.cc with hold := [] } } : State).each s.cc.hold fun s w => s.landShadow w.1 w.2

/-- The bits of a word that an event of this cc set: a write of 1 in the same cc leaves them set (R615). -/
def State.hitBits (s : State) (off : Nat) : W32 :=
  s.hits.foldl (fun w h => if h.off = off ∧ h.hi = h.lo then setFld w h.hi h.lo 1 else w) 0

/-- What hardware did in this cc to the writable fields of a word comes after a write of the same cc (R615). -/
def State.reHit (s : State) (off : Nat) (rw : W32) : State :=
  (s.hits.filter fun h => h.off == off && bit rw h.lo).foldl (fun s h =>
    s.setRf off h.hi h.lo (min (s.rf off h.hi h.lo + h.n) (2 ^ (h.hi - h.lo + 1) - 1))) s

/-- The RW and RWS fields of a word take what is written. -/
def State.storeWord (s : State) (off : Nat) (d : W32) : State :=
  match regRow (modules s.member) off with
  | none => s
  | some r =>
    let s := if r.rw = 0 then s else (s.setRg off ((s.rg off &&& ~~~r.rw) ||| (d &&& r.rw))).reHit off r.rw
    if r.rws = 0 then s else s.portShadow off d

/-- The W1C fields of a word are cleared where a 1 is written (R611), but for what this very cc set (R615). An entry of the error log that VALID
frees is no longer to be rewritten. -/
def State.clearW1c (s : State) (off : Nat) (d : W32) : State :=
  match regRow (modules s.member) off with
  | none => s
  | some r =>
    let d := d &&& ~~~s.hitBits off
    if 0x30400 ≤ off ∧ off < 0x30600 then
      let n := (off - 0x30400) / 8
      s.when (off % 8 == 4) (·.setEvc n (s.evc n &&& ~~~((d &&& r.w1c) ++ (0 : W32))))
    else
      let s := if r.w1c = 0 then s else s.clrBits off (d &&& r.w1c)
      match arr 0xC0100 0x20 16 off with
      | some (n, 4) => if bit d 31 then { s with ecc := { s.ecc with pend := s.ecc.pend.filter (· != n) } } else s
      | _ => s

/-! ## Registers whose write does more -/

/-- A write of TICK_CTRL (Table 1-4): ROLE as EN stood, then EN, then REACQ. -/
def State.writeTickCtrl (s : State) (d : W32) : State :=
  let s := (s.setRf 0x2000 11 8 (fld d 11 8)).portShadow 0x2000 d
  let s := (s.tickRoleSet (fld d 1 0)).tickEnWrite (bit d 2)
  s.when (bit d 3) (·.reacquire)

/-- The sequencer's registers take writes only in STOPPED, HALTED and TRAPPED (R173). -/
def State.seqOpen (s : State) : Bool := s.seq.st == .stopped || s.seq.st == .halted || s.seq.st == .trapped

/-- A peak in a field: writing zero restarts it from the current use. -/
def peakOf (v use : Nat) : Nat := if v = 0 then use else v

/-- A field of a word to be written, limited below. -/
def atLeast (d : W32) (hi lo least : Nat) : W32 := setFld d hi lo (max least (fld d hi lo))
/-- A field of a word to be written, limited above. -/
def atMost (d : W32) (hi lo most : Nat) : W32 := setFld d hi lo (min most (fld d hi lo))

/-- What a port write stores where a register limits it: TRN_CFG, PA_CFG, LL_CFG, LL_FLOW_HEAD, LL_CRED_ADV, SX_CFG, TWN_CFG, HM_LIMIT,
PWR_CFG, ECC_CFG and TEL_CFG (R115, R118, R522; the field maps). -/
def limited (x : Member) (off : Nat) (d : W32) : W32 :=
  let nm := modules x
  if off = 0x104 then atMost (atMost (atLeast d 12 8 1) 12 8 nm) 7 4 (maxRate x)
  else if 0x10000 ≤ off ∧ off < 0x20000 ∧ off % 0x1000 = 4 then atLeast d 15 0 240
  else if off = 0x20000 then atLeast d 23 16 1
  else if off = 0x20008 then atLeast d 7 0 96
  else if 0x20010 ≤ off ∧ off < 0x20020 then
    atMost (atLeast (atMost (atLeast d 15 0 1) 15 0 32767) 31 16 64) 31 16 32767
  else if off = 0x70034 then atLeast d 3 0 1
  else if off = 0x90000 then atLeast d 15 8 1
  else if off = 0xA0008 then atMost d 15 12 (maxRate x)
  else if off = 0xA0104 then atMost (atLeast d 20 16 1) 20 16 nm
  else if off = 0xC0000 then atLeast d 7 0 1
  else if off = 0xD0000 then atLeast d 7 0 1
  else d

/-- Registers whose write starts something or is checked by more than a limit; none for the others. -/
def State.writeSpecial (s : State) (off : Nat) (d : W32) : Option State :=
  let nm := modules s.member
  match off with
  | 0x100 => some (s.when (bit d 0) (·.trainGo))
  | 0x1000 => some (s.writeCommit d)
  | 0x2000 => some (s.writeTickCtrl d)
  | 0x20060 => some (s.writePlan d)
  | 0x20080 => some (s.writeRetire d)
  | 0x30000 => some (s.writeSeqCtrl d)
  | 0x30020 => some (s.writePmCheck d)
  | 0x30200 => some (if s.seqOpen then { s with seq := { s.seq with p := d.setWidth 8 } } else s)
  | 0x70008 => some (s.writeCalClr d)
  | 0x70024 => some (s.setRf 0x70024 26 16 (peakOf (fld d 26 16) s.stageUse))
  | 0x80000 => some (s.writeRpcCfg d)
  | 0x80030 => some (s.when (bit d 31) (·.flushGo))
  | 0x90004 => some ((s.when (bit d 0) (·.forceFail)).when (bit d 1) (·.askRejoin))
  | 0x9002C => some (s.setRf 0x9002C 29 16 (peakOf (fld d 29 16) s.twin.rlog.length))
  | 0xA0100 => some ((s.when (bit d 31) (·.goMidwinter)).when (bit d 30) (·.startWake))
  | 0xA0110 => some (s.writeFallow d)
  | 0xB0000 => some (s.writeBistCfg d)
  | 0xB0028 => some (s.writeBistRun d)
  | 0xB0080 => some (s.writeAitCtrl d)
  | 0xB0084 => some (s.writeAitCfg d)
  | 0xC0020 => some (s.writeScrubCtl d)
  | _ =>
    match arr 0x10000 0x1000 nm off with
    | some (m, 0x10) => some (s.writeRepair m d)
    | some _ => none
    | none =>
    match arr 0x20100 0x20 nm off with
    | some (m, 8) => some (s.when (bit d 0) (·.wantRetrain m 2))
    | some _ => none
    | none =>
    match arr 0x31040 0x20 4 off with
    | some (k, 0) => some (s.when (bit d 30) (·.mtAbort k))
    | some _ => none
    | none =>
    match arr 0xC0080 4 8 off with
    | some (k, _) => some (s.writeEccRetire k d)
    | none => none

/-- A 32-bit register is written; LL_FLOW_HEAD and TWN_CFG bear at once on the XOFF states and on the own link's failure (R117, R449). -/
def State.write32 (s : State) (off : Nat) (d : W32) : State :=
  match s.writeSpecial off d with
  | some t => t
  | none => (((s.clearW1c off d).storeWord off (limited s.member off d)).when (off == 0x20008) (·.flowAll)).when (off == 0x90000) (·.twinCheck)

/-- The RW and RWS fields of a 64-bit register take both halves in one cc; with no held low half the low half stays (R610). An STS of this cc
comes after the port's write of COUNT (R179). -/
def State.apply64 (s : State) (base : Nat) (lo : Option W32) (hi : W32) : State :=
  match arr 0x30100 8 32 base, arr 0x30400 8 64 base, arr 0x70380 0x10 4 base with
  | some (n, _), _, _ => if s.seqOpen then s.setGreg n (hi ++ lo.getD ((s.greg n).setWidth 32)) else s
  | _, some (n, _), _ =>
    match lo with
    | some v =>
      if s.cc.sts.contains n then s else
      let more := ((s.hits.filter fun h => h.off == base && h.hi == 31).map (·.n)).sum
      s.setEvc n (setFld (s.evc n) 31 0 ((v.toNat + more) % 0x100000000))
    | none => s
  | _, _, some (k, 0) =>
    let s := match lo with
      | some v => s.storeWord base v
      | none => s
    s.when (bit hi 30) (·.flushDslot k)
  | _, _, _ =>
    if base = 0x80008 ∧ s.rpcOn then s
    else
      let s := match lo with
        | some v => s.storeWord base v
        | none => s
      s.storeWord (base + 4) hi

/-! ## Accesses (R594, R608 to R612) -/

/-- A write of the window: the response is zero. Any access but the matching one empties the latches. -/
def State.portWrite (s0 : State) (off : Nat) (d : W32) : State :=
  let held := s0.portWr
  let s : State := { s0.settle with portRd := none, portWr := none }
  if merges off then (if s.sweepDone then s.mergePut off d else s)
  else match ((regRow (modules s.member) off).map (·.half)).getD 0 with
    | 1 => { s.clearW1c off d with portWr := some (off, d) }
    | 2 =>
      let lo := held.bind fun h => if h.1 + 4 = off then some h.2 else none
      (s.clearW1c off d).apply64 (off - 4) lo d
    | _ => s.write32 off d

/-- A read of the window: its value. A low half leaves the high half in the read latch. -/
def State.portRead (s0 : State) (off : Nat) : W32 × State :=
  let latch := s0.portRd
  let s : State := { s0.settle with portRd := none, portWr := none }
  match latch.bind fun h => if h.1 = off then some h.2 else none with
  | some v => (v, s)
  | none =>
    let s := s.when (merges off) (·.flushAddr (off / 8))
    let (v, hi, s) := s.readPair off
    (v, if s.lowHalf off then { s with portRd := some (off + 4, hi) } else s)

/-- The word that an access names: the port has no bits [1:0] of the offset (Table 15-6). -/
def wordOff (off : BitVec 20) : Nat := off.toNat / 4 * 4

/-- CFG_PORT_WRITE (R608, R610 to R612). -/
def execCfgPortWrite (off : BitVec 20) (d : W32) (s : State) : Host.Outcome State Fault Refusal :=
  portTake s fun s => (s.portWrite (wordOff off) d).cfgAnswer 32 0

/-- CFG_PORT_READ_LOW_HALF (R609): any read of the port. -/
def execCfgPortReadLowHalf (off : BitVec 20) (s : State) : Host.Outcome State Fault Refusal :=
  portTake s fun s =>
    let (v, t) := s.portRead (wordOff off)
    t.cfgAnswer (if merges (wordOff off) then 96 else 32) v

/-- MERGE_BUFFER_WRITE (R502): a write of program memory, a descriptor word or an HV_CAL entry. -/
def execMergeBufferWrite (off : BitVec 20) (d : W32) (s : State) : Host.Outcome State Fault Refusal :=
  portTake s fun s => if merges (wordOff off) then (s.portWrite (wordOff off) d).cfgAnswer 32 0 else s

end Sys2Proof.Machine
end

