-- ==== Sys2Proof/Machine/Wrapper.lean ====
section
/-! DEFINITION. The IEEE 1500 wrapper's instructions (14, R576, Table 14-4; R595). They are available in every state of the block, a held
reset included. -/
namespace Sys2Proof.Machine

/-- The data registers of Table 14-4. -/
inductive WrapReg where
  | bypass
  | boundary
  | access
  | aitCtrl
  | aitFail
  | bistRun
deriving DecidableEq, Repr

/-- The data register that a WIR code puts between the wrapper's input and output; a code that Table 14-4 does not list acts as WS_BYPASS. -/
def wrapReg (code : Nat) : WrapReg :=
  match code with
  | 0x01 | 0x02 => .boundary
  | 0x08 => .access
  | 0x09 => .aitCtrl
  | 0x0A => .aitFail
  | 0x0B => .bistRun
  | _ => .bypass

/-- A wrapper instruction is selected. -/
def State.setWir (s : State) (code : Nat) : State := s.updBist fun b => { b with wir := code }

/-- What the wrapper's data register shifts out. The order of its bits on tst_wso is not given, and so is the level that the last leaves
(log entry 29). -/
def State.wrapOut (s : State) (ws : List W64) : State :=
  let (b, s) := s.draw
  (s.updBist fun x => { x with wso := b }).emit (.wrapper ws)

/-- An instruction whose data register is the 1-bit bypass or the boundary cells: what is shifted into it comes from outside (log entry 29). -/
def State.wrapShift (s : State) (code : Nat) : State :=
  let s := s.setWir code
  let (b, s) := s.draw
  let (o, s) := s.draw
  let k := s.free
  let s : State := { s with free := s.free + 1 }
  s.updBist fun x =>
    match wrapReg code with
    | .boundary => { x with cells := Config.boundaryCells k, wso := o }
    | _ => { x with bypass := b, wso := o }

/-- WS_BYPASS: the 1-bit register stands between the wrapper's input and output. -/
def execWsBypass (s : State) : Host.Outcome State Fault Refusal := .next (s.wrapShift 0x00)

/-- WS_EXTEST: the boundary cells of the digital ports are selected; what they hold comes from outside (log entry 29). -/
def execWsExtest (s : State) : Host.Outcome State Fault Refusal := .next (s.wrapShift 0x01)

/-- WS_INTEST: the same cells, driving the block (log entry 29). -/
def execWsIntest (s : State) : Host.Outcome State Fault Refusal := .next (s.wrapShift 0x02)

/-- The access that a CFG_ACCESS register spells: [19:0] offset, [20] write, [52:21] data; the response with [63] done. -/
def State.wrapAccess (s : State) (dr : W64) : State :=
  let off := fld dr 19 0 / 4 * 4
  let (v, s) : W32 × State :=
    if bit dr 20 then (0, s.portWrite off (BitVec.ofNat 32 (fld dr 52 21))) else s.portRead off
  let out : W64 := (bf 64 20 0 (fld dr 20 0)) ||| bf 64 52 21 v.toNat ||| bf 64 63 63 1
  (s.updBist fun b => { b with dr := out, wait := none }).wrapOut [out]

/-- A CFG_ACCESS that waited for the release of reset is performed. -/
def State.wrapWaiting (s : State) : State :=
  match s.bist.wait with
  | some dr => s.wrapAccess dr
  | none => s

/-- CFG_ACCESS (R576, R595): an access between those of the port; it waits while a reset is held. -/
def execCfgAccess (dr : W64) (s : State) : Host.Outcome State Fault Refusal :=
  let s := s.setWir 0x08
  .next (if s.inReset then s.updBist fun b => { b with dr := dr &&& 0x7FFFFFFFFFFFFFFF, wait := some dr } else s.wrapAccess dr)

/-- AIT_RUN: AIT_CFG and AIT_CTRL are written, the control last, and read back. -/
def execAitRun (ctrl cfg : W32) (s : State) : Host.Outcome State Fault Refusal :=
  let s := ((s.setWir 0x09).writeAitCfg cfg).writeAitCtrl ctrl
  .next (s.wrapOut [(s.rg 0xB0084) ++ (s.rg 0xB0080)])

/-- AIT_READ: AIT_STATUS, then AIT_FAIL[0] to [15]. -/
def execAitRead (s : State) : Host.Outcome State Fault Refusal :=
  let s := s.setWir 0x0A
  .next (s.wrapOut (s.aitStatus.setWidth 64 :: (List.range 16).map fun m => s.rg64 (0xB0100 + 8 * m)))

/-- BIST_RUN: the register BIST_RUN is written and read back. -/
def execBistRun (dr : W32) (s : State) : Host.Outcome State Fault Refusal :=
  let s := (s.setWir 0x0B).writeBistRun dr
  .next (s.wrapOut [(s.viewWord 0xB0028).setWidth 64])

end Sys2Proof.Machine
end

