-- ==== Sys2Proof/Machine/Reset.lean ====
section
/-! DEFINITION. Cold and warm reset, the fuse read, and the end of the clear sweep (01, R15; 02, R69; 13, R511 to R515, Table 13-1; 12, R473,
R507; 14, R575; 15, R583, R600). -/
namespace Sys2Proof.Machine

/-! ## Fuses (R600, Table 15-8) -/

/-- The physical lanes that a lane-repair word lists. -/
def fuseWordLanes (w : W32) : List Nat :=
  (List.range 4).filterMap fun j => if bit w (8 * j + 7) && decide (fld w (8 * j + 6) (8 * j) < 68) then some (fld w (8 * j + 6) (8 * j)) else none

/-- The spare map of a fuse word: the good spares in ascending order to the failed data lanes in ascending order, marked FUSE (R575). -/
def fuseMap (x : Member) (w : W32) : List Spare :=
  trainMap (dataLanes x) (spareLanes x) [] (fuseWordLanes w) (fuseWordLanes w) 0

/-- Every module as it stands after reset, with its fuse maps (R69, Table 2-9). -/
def State.fuseModules (s : State) : State :=
  s.each s.allMods fun s m =>
    let tx := spGet 0 s.fuseLanes (1 + 2 * m)
    let rx := spGet 0 s.fuseLanes (2 + 2 * m)
    s.setMod m { fuseTx := fuseWordLanes tx, fuseRx := fuseWordLanes rx,
                 spTx := if tx = 0 then [] else fuseMap s.member tx, spRx := if rx = 0 then [] else fuseMap s.member rx }

/-- FUSE_ACK (R600): the word is taken, and the next one asked for; after the last the maps are loaded (R69). An identity word that permits no more
than the assembly test ends the tick (R16; what came before the word was read is DESIGN CHOICE, log entry 66). -/
def execFuseAck (word : W32) (s : State) : Host.Outcome State Fault Refusal :=
  live s fun s =>
    match s.fuseAddr with
    | none => s
    | some a =>
      let s := s.updEnv fun e => if a = 0 then { e with fuseId := word } else { e with fuseLanes := spPut 0 e.fuseLanes a word }
      let s := s.when (a == 0 && !s.fuseOk) (·.tickEnWrite false)
      if a < 2 * modules s.member then (s.updEnv fun e => { e with fuseAddr := some (a + 1) }).emit (.fuseReq (a + 1))
      else (s.updEnv fun e => { e with fuseAddr := none }).fuseModules.trainIfReady

/-! ## The clear sweep (R507, R513) -/

/-- RESET_CLEAR_SWEEP_DONE: ECC_SWEEP.DONE, and a training that waited begins (R513, R514). -/
def execResetClearSweepDone (s : State) : Host.Outcome State Fault Refusal :=
  live s fun s => if s.sweepDone then s else (s.updEnv fun e => { e with sweepDone := true }).trainIfReady

/-! ## Reset (R512, Table 13-1) -/

/-- What is not the block's own state: the queue, the clock, the free values, what has been driven, and stuck cells of the memories, which
the sweep cannot repair. -/
def State.outside (s : State) : State :=
  { pending := s.pending, env := { now := s.now, member := s.member, clk := s.clk, aon := s.env.aon }, free := s.free, ord := s.ord, out := s.out,
    upset := s.upset.filter fun e => e.2 / 512 % 2 == 1 }

/-- Registers that warm reset keeps (Table 13-1, R473): ECC_LOG and ECC_RETIRE, and the Health Monitor's filter constants, limits, thresholds and
decision history; HM_CFG takes its reset value (R616). -/
def warmKeeps (off : Nat) : Bool :=
  (decide (0xC0080 ≤ off) && decide (off < 0xC0300)) || (decide (0xA0004 ≤ off) && decide (off < 0xA0100))

/-- AIT_STATUS.STATE after a reset's assertion: a running AIT ends as ABORTED (R569). -/
def Bist.cut (b : Bist) : Nat := if 1 ≤ b.aitStep ∧ b.aitStep ≤ 3 then 5 else 0

/-- The BIST and AIT state after reset; AIT_STATUS reads ABORTED where the reset ended a running AIT. The wrapper is not the block's to
reset: its own tst_wrstn is. -/
def State.bistReset (s : State) : Bist :=
  { aitStep := if s.inReset && s.bist.aitStep == 5 then 5 else s.bist.cut, wir := s.bist.wir, bypass := s.bist.bypass, cells := s.bist.cells,
    wso := s.bist.wso, dr := s.bist.dr, wait := s.bist.wait }

/-- The release of cold reset: the straps are sampled, and the fuse read begins (R15, R512, R583, R600). -/
def State.coldReset (s : State) (autoTrain openMode : Bool) : State :=
  ({ s.outside.updEnv fun e => { e with strapTrain := autoTrain, strapOpen := openMode } with
      bist := s.bistReset, trn := { goWait := autoTrain }, hm := { lastAt := s.now } } : State).emit (.fuseReq 0)

/-- COLD_RESET. -/
def execColdReset (autoTrain openMode : Bool) (s : State) : Host.Outcome State Fault Refusal :=
  .next (s.coldReset autoTrain openMode).wrapWaiting

/-- The release of warm reset (Table 13-1): fuse words, straps, the Health Monitor's filters, limits and history, ECC_LOG, ECC_RETIRE and the
spare units stay. A strap that asked for training asks again (log entry 26). -/
def State.warmReset (s : State) : State :=
  let t : State :=
    { s.outside with env := { s.env with inReset := false, cold := false, sweepDone := false },
                     regs := s.regs.filter fun e => warmKeeps e.1, bist := s.bistReset,
                     hm := { s.hm with stepReq := none },
                     ecc := { ways := s.ecc.ways, spStage := s.ecc.spStage, spRx := s.ecc.spRx, retire := s.ecc.retire, pend := s.ecc.pend },
                     trn := { goWait := s.strapTrain } }
  if t.fuseAddr.isNone then t.fuseModules else t

/-- WARM_RESET. -/
def execWarmReset (s : State) : Host.Outcome State Fault Refusal := .next s.warmReset.wrapWaiting

/-- RESET_ASSERT (R583): the block stops at once; a running AIT ends, and the test registers, which the wrapper still reads, take their
reset values (R569, R576). A cold reset also ends a fuse read. -/
def execResetAssert (cold : Bool) (s : State) : Host.Outcome State Fault Refusal :=
  .next { s.updEnv fun e => { e with inReset := true, cold := e.cold || cold, fuseAddr := if cold then some 0 else e.fuseAddr } with
                 bist := if s.inReset then s.bist else s.bistReset,
                 regs := s.regs.filter fun e => !(decide (0xB0000 ≤ e.1) && decide (e.1 < 0xB0200)) }

end Sys2Proof.Machine
end

