-- ==== Sys2Proof/Machine/Scalar.lean ====
section
/-! DEFINITION. The control and scalar instructions (05, R195 to R199, Tables 5-7, 5-9). Each row's event is the issue of the
instruction at PC when its opcode is the row's. -/
namespace Sys2Proof.Machine

/-! ## Reserved bits of the formats (Table 5-7) -/

/-- Format N. -/
def offN (w : W64) : List Nat := zeros w 55 0
/-- Format R; SHR alone has A in [40]. -/
def offR (w : W64) : List Nat := zeros w 40 0
/-- Format I. -/
def offI (w : W64) : List Nat := zeros w 45 32
/-- Format B of JMP and CALL. -/
def offB (w : W64) : List Nat := zeros w 55 51 ++ zeros w 45 41 ++ zeros w 39 14
/-- Format X. -/
def offX (w : W64) : List Nat := zeros w 45 41 ++ zeros w 31 2
/-- Format M. -/
def offM (w : W64) : List Nat := zeros w 45 16
/-- Format L of LI: bit 48, SEL 2 and 3, and IMM48[47:16] for SEL 1. -/
def offL (w : W64) : List Nat :=
  zeros w 48 48 ++ (if 2 ≤ fld w 50 49 then [49] else []) ++ (if fld w 50 49 = 1 then zeros w 47 16 else [])
/-- Format K of CMP. -/
def offK (w : W64) : List Nat :=
  pdBad w ++ zeros w 36 32 ++ (if 6 ≤ fld w 39 37 then [37] else []) ++
    (if bit w 40 then zeros w 45 41 else zeros w 31 0)

/-- A register-format instruction of class A (or C): RD ← f(RA, RB). -/
def State.aluR (s : State) (op cc : Nat) (off : W64 → List Nat) (f : W64 → W64 → W64 → W64) : State :=
  s.issue (opIs op) off fun w s => (s.setGreg (fRd w) (f w (s.greg (fRa w)) (s.greg (fRb w)))).advance cc

/-! ## Control -/

/-- NOP: nothing. -/
def execNop (s : State) : Host.Outcome State Fault Refusal :=
  live s (·.issue (opIs 0x00) offN fun _ s => s.advance 1)

/-- END (R169): the program ends and the sequencer is IDLE. -/
def execEndProg (s : State) : Host.Outcome State Fault Refusal :=
  live s (·.issue (opIs 0x01) offN fun _ s => s.endProg .idle)

/-- The target of JMP and CALL: TARGET, or RA[13:0] when REG is 1. -/
def State.target (s : State) (w : W64) : Nat := if bit w 40 then fld (s.greg (fRa w)) 13 0 else fld w 13 0

/-- JMP. -/
def execJmp (s : State) : Host.Outcome State Fault Refusal :=
  live s (·.issue (opIs 0x03) offB fun w s => s.jump (s.target w))

/-- BR: taken when p[PD] XOR NEG is 1. -/
def execBr (s : State) : Host.Outcome State Fault Refusal :=
  live s (·.issue (opIs 0x04) (fun w => pdBad w ++ zeros w 50 41 ++ zeros w 39 14) fun w s =>
    if s.flag (fRd w) != bit w 40 then s.jump (fld w 13 0) else s.advance 1)

/-- LOOP (R197): RC ← RC − 1; taken while the new RC is not 0. -/
def execLoop (s : State) : Host.Outcome State Fault Refusal :=
  live s (·.issue (opIs 0x05) (fun w => (if fRd w = 0 then [51] else []) ++ zeros w 50 40 ++ zeros w 39 14) fun w s =>
    let n := s.greg (fRd w) - 1
    let s := s.setGreg (fRd w) n
    if n != 0 then s.jump (fld w 13 0) else s.advance 1)

/-- CALL (R198): overflow of the 8 entries traps. At index 16,383 the address PC + 1 does not fit the 14-bit entry; 0 is pushed
(DESIGN CHOICE, log entry 73; R195 and R198 leave it open). -/
def execCall (s : State) : Host.Outcome State Fault Refusal :=
  live s (·.issue (opIs 0x06) offB fun w s =>
    if 8 ≤ s.seq.stack.length then s.trap 0x03 0
    else
      let t := s.target w
      ({ s with seq := { s.seq with stack := s.seq.stack ++ [BitVec.ofNat 14 (s.seq.pc + 1)] } } : State).jump t)

/-- RET (R198): underflow traps. -/
def execRet (s : State) : Host.Outcome State Fault Refusal :=
  live s (·.issue (opIs 0x07) offN fun _ s =>
    match s.seq.stack.getLast? with
    | none => s.trap 0x03 1
    | some r => ({ s with seq := { s.seq with stack := s.seq.stack.dropLast } } : State).jump r.toNat)

/-- TRAP: SOFTWARE with INFO the CODE (R220, R221). -/
def execTrap (s : State) : Host.Outcome State Fault Refusal :=
  live s (·.issue (opIs 0x08) (fun w => zeros w 55 16) fun w s => s.trap 0x0B (fld w 15 0))

/-- An opcode outside Tables 5-8 and 5-9 traps with INVALID_OP (R193); never-written program memory is one. -/
def execInvalidOp (s : State) : Host.Outcome State Fault Refusal :=
  live s (·.issue (fun w => !opcodeOk (fld w 63 56)) (fun _ => []) fun _ s => s.trap 0x01 0)

/-! ## Scalar -/

/-- LI: the sign-extended IMM48, or IMM48[15:0] into RD[63:48]. -/
def execLi (s : State) : Host.Outcome State Fault Refusal :=
  live s (·.issue (opIs 0x09) offL fun w s =>
    let v := if fld w 50 49 = 0 then BitVec.ofInt 64 (sgn 48 (fld w 47 0)) else setFld (s.greg (fRd w)) 63 48 (fld w 15 0)
    (s.setGreg (fRd w) v).advance 1)

/-- ADDI. -/
def execAddi (s : State) : Host.Outcome State Fault Refusal := live s (·.aluR 0x0A 1 offI fun w a _ => a + fImm w)
/-- ADD. -/
def execAdd (s : State) : Host.Outcome State Fault Refusal := live s (·.aluR 0x0B 1 offR fun _ a b => a + b)
/-- SUB. -/
def execSub (s : State) : Host.Outcome State Fault Refusal := live s (·.aluR 0x0C 1 offR fun _ a b => a - b)
/-- AND. -/
def execAnd (s : State) : Host.Outcome State Fault Refusal := live s (·.aluR 0x0D 1 offR fun _ a b => a &&& b)
/-- OR. -/
def execOr (s : State) : Host.Outcome State Fault Refusal := live s (·.aluR 0x0E 1 offR fun _ a b => a ||| b)
/-- XOR. -/
def execXor (s : State) : Host.Outcome State Fault Refusal := live s (·.aluR 0x0F 1 offR fun _ a b => a ^^^ b)
/-- SHL by RB[5:0]. -/
def execShl (s : State) : Host.Outcome State Fault Refusal := live s (·.aluR 0x10 1 offR fun _ a b => a <<< fld b 5 0)
/-- SHR by RB[5:0], arithmetic when A is 1. -/
def execShr (s : State) : Host.Outcome State Fault Refusal :=
  live s (·.aluR 0x11 1 (fun w => zeros w 39 0) fun w a b => if bit w 40 then a.sshiftRight (fld b 5 0) else a >>> fld b 5 0)
/-- MUL: class C, 4 cc. -/
def execMul (s : State) : Host.Outcome State Fault Refusal := live s (·.aluR 0x12 4 offR fun _ a b => a * b)

/-- CMP (R196): p[PD] ← COND(RA, IMM or RB). -/
def execCmp (s : State) : Host.Outcome State Fault Refusal :=
  live s (·.issue (opIs 0x13) offK fun w s =>
    let b := if bit w 40 then fImm w else s.greg (fRb w)
    (s.setFlag (fRd w) ((cmpCond (fld w 39 37) (s.greg (fRa w)) b).getD false)).advance 1)

/-! ## Descriptors and local space -/

/-- The descriptor that LDD and STD name: (TD + (IDX ? RA[7:0] : 0)) mod 256. -/
def State.tdIndex (s : State) (w : W64) : Nat :=
  (fld w 39 32 + (if bit w 40 then fld (s.greg (fRa w)) 7 0 else 0)) % 256

/-- LDD: class B. An uncorrectable descriptor word traps (Table 5-12). -/
def execLdd (s : State) : Host.Outcome State Fault Refusal :=
  live s (·.issue (opIs 0x14) offX fun w s =>
    let i := 4 * s.tdIndex w + fld w 1 0
    let (ue, s) := s.eccRead 1 i
    if ue then s.trap 0x0A (0x10000 + i) else (s.setGreg (fRd w) (s.tdWord (i / 4) (i % 4))).advance 2)

/-- The halves of a descriptor word that the configuration port wrote in this cc, over a value (R188). -/
def State.underPort (s : State) (i : Nat) (v : W64) : W64 :=
  (s.cc.td.filter (·.1 == i)).foldl (fun v p => (p.2.2.getD ((v >>> 32).setWidth 32)) ++ (p.2.1.getD (v.setWidth 32))) v

/-- STD (R188): a port write of the same cc comes second. -/
def execStd (s : State) : Host.Outcome State Fault Refusal :=
  live s (·.issue (opIs 0x15) offX fun w s =>
    (s.setTdWord (s.tdIndex w) (fld w 1 0) (s.underPort (4 * s.tdIndex w + fld w 1 0) (s.greg (fRd w)))).advance 2)

/-- The local address of LDS and STS: RA + OFF. -/
def State.localAddr (s : State) (w : W64) : W64 := s.greg (fRa w) + BitVec.ofNat 64 (fld w 15 0)

/-- LDS (R175): a scratch word or an event counter. -/
def execLds (s : State) : Host.Outcome State Fault Refusal :=
  live s (·.issue (opIs 0x16) offM fun w s =>
    let a := s.localAddr w
    if localBad a then s.trap 0x05 a.toNat
    else if 0x1000 ≤ a.toNat then (s.setGreg (fRd w) (s.evc ((a.toNat - 0x1000) / 8))).advance 2
    else
      let (ue, s) := s.eccRead 2 (a.toNat / 8)
      if ue then s.trap 0x0A (0x20000 + a.toNat / 8) else (s.setGreg (fRd w) (s.scratchWord (a.toNat / 8))).advance 2)

/-- An STS to an event counter's word: COUNT set, ERR and POISON cleared by ones (R176). -/
def stsEv (old v : W64) : W64 :=
  let w := setFld old 31 0 (fld v 31 0)
  let w := if bit v 32 then setFld w 32 32 0 else w
  if bit v 33 then setFld w 33 33 0 else w

/-- What increments of this cc added to counter n, and the error bits that they set: they come after a store (R179). -/
def State.evAfter (s : State) (n : Nat) (w : W64) : W64 :=
  let hs := fun (off hi : Nat) => s.hits.filter fun h => h.off == off && h.hi == hi
  let more := ((hs (0x30400 + 8 * n) 31).map (·.n)).sum
  let w := setFld w 31 0 ((fld w 31 0 + more) % 0x100000000)
  let w := if (hs (0x30404 + 8 * n) 0).isEmpty then w else setFld w 32 32 1
  if (hs (0x30404 + 8 * n) 1).isEmpty then w else setFld w 33 33 1

/-- STS (R175, R176); the increments of its cc come after it, the port's write before it (R179). -/
def execSts (s : State) : Host.Outcome State Fault Refusal :=
  live s (·.issue (opIs 0x17) offM fun w s =>
    let a := s.localAddr w
    let v := s.greg (fRd w)
    if localBad a then s.trap 0x05 a.toNat
    else if 0x1000 ≤ a.toNat then
      let n := (a.toNat - 0x1000) / 8
      (({ s with cc := { s.cc with sts := s.cc.sts ++ [n] } } : State).setEvc n (s.evAfter n (stsEv (s.evc n) v))).advance 2
    else (s.setScratch (a.toNat / 8) v).advance 2)

end Sys2Proof.Machine
end

