-- ==== Sys2Proof/Machine/Ports.lean ====
section
/-! DEFINITION. The ports on which the block waits for a ready signal: the memory port's requests and write data, the pass-through port, and the
answers of the configuration port (15, R579, R584 to R587, R594, Tables 15-1, 15-4 and 15-5; log entry 63). A ready input of the host or of the
fabric is free in every cc (log entry 2). -/
namespace Sys2Proof.Machine

/-! ## Requests of the memory port (R585) -/

/-- The lowest tag of channel c that no outstanding request holds, with the channel: channel × 1,024 + tag (R585). -/
def freeWire (held : List Nat) (c : Nat) : Option Nat :=
  ((List.range (min 1024 (held.length + 1))).map (1024 * c + ·)).find? fun w => !held.contains w

/-- A request stands on channel c with its valid at 1. -/
def RdReq.onCh (r : RdReq) (c : Nat) : Bool := !r.took && (r.wire.map fun w => w / 1024 == c).getD false

/-- A request stands on channel c with its valid at 1. -/
def WrReq.onCh (w : WrReq) (c : Nat) : Bool := !w.took && (w.wire.map fun x => x / 1024 == c).getD false

/-- Channel c offers the oldest read that has no channel yet, unless it holds valid for one already (R584). -/
def State.offerRead (s : State) (c : Nat) : State :=
  if s.rdq.any (·.onCh c) then s
  else
    match s.rdq.find? (·.wire.isNone), freeWire (s.rdq.filterMap (·.wire)) c with
    | some r, some x => { s with rdq := s.rdq.map fun q => if q.id = r.id then { q with wire := some x } else q }
    | _, _ => s

/-- The transfer of the read that channel c offers, in a cc in which its ready is 1. -/
def State.takeRead (s : State) (c : Nat) : State :=
  match s.rdq.find? (·.onCh c) with
  | none => s
  | some r =>
    let (ready, s) := s.draw
    s.when ready fun s =>
      ({ s with rdq := s.rdq.map fun q => if q.id = r.id then { q with took := true } else q } : State).emit
        (.memRead c ((r.wire.getD 0) % 1024) r.addr r.n)

/-- First and last 128-byte window of a write. -/
def WrReq.windows (w : WrReq) : Nat × Nat := (w.addr / 128, (w.addr + w.data.length - 1) / 128)

/-- The bytes of a write in window k; none where its strobe is 0 (R251). -/
def WrReq.window (w : WrReq) (k : Nat) : List (Option Byte) :=
  (List.range 128).map fun i => if 128 * k + i < w.addr then none else w.data[128 * k + i - w.addr]?

/-- The data beats of a write, its windows in ascending order; a poisoned write poisons each granule that it writes (R585, R589). -/
def WrReq.beats (w : WrReq) (wire : Nat) : List WdBeat :=
  let (a, z) := w.windows
  (List.range (z + 1 - a)).map fun i =>
    let d := w.window (a + i)
    let psn := fun h => w.poison && ((d.drop (64 * h)).take 64).any (·.isSome)
    { wire := wire, data := d, poison := BitVec.ofNat 2 (b2n (psn 0) + 2 * b2n (psn 1)), last := a + i == z }

/-- Granules of a write's request. -/
def WrReq.granules (w : WrReq) : Nat := ceilDiv (w.addr % 64 + w.data.length) 64

/-- Channel c offers the oldest write that may go out and has no channel yet, unless it holds valid for one already (R241, R584). -/
def State.offerWrite (s : State) (c : Nat) : State :=
  if s.wrq.any (·.onCh c) then s
  else
    match s.wrq.find? (fun w => w.issued && w.wire.isNone), freeWire (s.wrq.filterMap (·.wire)) c with
    | some w, some x => { s with wrq := s.wrq.map fun q => if q.id = w.id then { q with wire := some x } else q }
    | _, _ => s

/-- The transfer of the write that channel c offers: its data beats follow those of the writes that the channel accepted before it (R587). -/
def State.acceptWrite (s : State) (c : Nat) : State :=
  match s.wrq.find? (·.onCh c) with
  | none => s
  | some w =>
    let (ready, s) := s.draw
    s.when ready fun s =>
      let x := w.wire.getD 0
      ({ s with wrq := s.wrq.map (fun q => if q.id = w.id then { q with took := true } else q), wd := s.wd ++ w.beats x } : State).emit
        (.memWrite c (x % 1024) (w.addr / 64 * 64) w.granules)

/-- The transfer of the first write data beat of channel c (R587). -/
def State.sendBeat (s : State) (c : Nat) : State :=
  match s.wd.find? fun b => b.wire / 1024 == c with
  | none => s
  | some b =>
    let (ready, s) := s.draw
    s.when ready fun s =>
      ({ s with wd := s.wd.eraseP fun x => x.wire / 1024 == c } : State).emit (.memData c b)

/-- One cc of memory-port channel c: a beat of a write accepted in an earlier cc, then a write and a read request. -/
def State.memCc (s : State) (c : Nat) : State := ((((s.sendBeat c).offerWrite c).acceptWrite c).offerRead c).takeRead c

/-! ## The pass-through port and the answers -/

/-- The transfer of the oldest unit of the pass-through port, its last beat with it. -/
def State.xptCc (s : State) : State :=
  match s.xtx with
  | [] => s
  | u :: us =>
    let (ready, s) := s.draw
    s.when ready fun s => ({ s with xtx := us } : State).emit (.xpt u.1 u.2)

/-- The oldest unanswered request of the configuration port is answered by the cc in which its answer is due; which earlier cc is free
(R594). -/
def State.answerCc (s : State) : State :=
  match s.cfgq with
  | [] => s
  | a :: as =>
    let (soon, s) := s.draw
    s.when (soon || decide (a.1 ≤ s.now)) fun s => ({ s with cfgq := as } : State).emit (.cfgRsp a.2)

/-- One cc of these ports. A message whose last bytes have gone to the memory port returns its credits (R113). -/
def State.portsCc (s : State) : State := (((s.each (List.range (memChannels s.member)) (·.memCc ·)).payOwed).xptCc).answerCc

/-! ## The ready outputs (R584) -/

/-- xpt_rx_ready: the block takes a unit in every cc in which no reset is asserted. -/
def State.xptRxReady (s : State) : Bool := !s.inReset

/-- tel_rx_ready: the block takes a record in every cc in which no reset is asserted. -/
def State.telRxReady (s : State) : Bool := !s.inReset

end Sys2Proof.Machine
end

