-- ==== Sys2Proof/Machine/Elapse.lean ====
section
/-! DEFINITION. What the passing of one cc of core_clk does by itself (log entry 1): a WR32 takes effect when it completes (R217), a root
or a LOCKED relay drives its pulse (R596), operations whose completion only waits for time complete (R234), the telemetry port takes a
record, the handshakes of the memory port and of the pass-through port take place and the configuration port answers (R584, R594), granted DATA
flits are launched (Table 4-4), messages held at the sister whose turn has come are released there (R456),
and the BIST controller sees what is in use (R552, R556). Every other time-driven event is a command of the table. -/
namespace Sys2Proof.Machine

/-- An operation whose cc has come waits for time no longer. -/
def State.wakeOp (s : State) (tag : Nat) : State :=
  (s.updOp tag fun o =>
    { o with doneAt := if (o.doneAt.map fun t => decide (t ≤ s.now)).getD false then none else o.doneAt }).opCheck tag

/-- The telemetry port takes the first waiting record if it is ready, which its other side decides (R494, R599). -/
def State.telDrain (s : State) : State :=
  match s.pwr.tel with
  | [] => s
  | r :: rs =>
    let (ready, s) := s.draw
    s.when ready fun s => ({ s with pwr := { s.pwr with tel := rs } } : State).emit (.tel r)

/-- A WR32 whose 8 cc are over takes effect (R217); in a Solstice cc it waits for the Solstice to pass, as a port write does. -/
def State.landWr32 (s : State) : State :=
  match s.seq.wrPend with
  | some (t, ws) =>
    if t ≤ s.now then ({ s with seq := { s.seq with wrPend := none } } : State).each ws (fun s w => s.portShadow w.1 w.2) else s
  | none => s

/-- tick_pulse_o, 2 cc before a Solstice (R596). -/
def State.pulseOut (s : State) : State :=
  let drives := s.tickRole == 2 || (s.tickRole == 1 && s.locked)
  if s.tickOn && drives && s.tick.nextSol == some (s.now + 2) && s.sounds then s.emit (.tickPulse (BitVec.ofNat 48 s.nextTick)) else s

/-- One cc passes. A WR32 that completes in the cc of a Solstice counts after it, and what the port wrote then stays behind the Solstice (R40). -/
def State.elapse (s : State) : State :=
  let s : State :=
    { s.updEnv fun e => { e with now := e.now + 1 } with hits := [], cc := { s.cc with td := [], sts := [], cal := [], late := false } }
  if s.inReset then s
  else
    let s := ((s.when (!s.solNow) (·.landHeld)).landWr32).seqCc
    (s.each (s.ops.map (·.tag)) (·.wakeOp ·)).sisReleaseAll.launchDue.pulseOut.telDrain.portsCc.bistWatch

end Sys2Proof.Machine
end

