-- ==== Sys2Proof/Machine/Solstice.lean ====
section
/-! DEFINITION. The Solstice: the actions of Table 1-2 in their order, with what other chapters do at each tick boundary; and the events
that bring a Solstice about or measure it: the tick pulse and the tick marker (01, R20 to R39; 04, R140; 07, R312, R324; 13, R537; 15,
R597). -/
namespace Sys2Proof.Machine

/-! ## Before the new tick's actions -/

/-- The tick that ends had late flits (R140). -/
def State.slipFlush (s : State) : State :=
  if s.slipN = 0 then { s with slipMax := 0 }
  else
    let n := min s.slipN 65535
    let t := s.setRg64 0x20048 (BitVec.ofNat 64 s.tick.num)
    let t := (t.setRg 0x20050 (bf 32 31 16 n ||| bf 32 15 0 (min s.slipMax 65535))).count32 0x20054 s.slipN
    let t := (t.setBit 0x20058 0).when (bit (s.rg 0x2005C) 0) (·.irq 2)
    { t with slipN := 0, slipMax := 0 }

/-- The phase point of the next tick becomes the current one (R623). -/
def State.turnPhase (s : State) : State :=
  let n := s.nextTick
  let add := 8 * s.period
  let asleep := s.pwr.st == 3 || s.pwr.st == 4
  let relay := s.tickRole == 1
  s.updTick fun t =>
    { t with num := n, phase8 := t.phase8 + add, first := false, got := false,
             miss := if !relay || asleep || t.got then (if relay && asleep then t.miss else 0) else t.miss + 1 }

/-- The next Solstice, one TICK_PERIOD on from the current phase point (R20, R46). -/
def State.nextPhase (s : State) : State :=
  let nx := nextSolOf s.tick.phase8 s.period
  s.updTick fun t => { t with nextSol := some nx }

/-- Step 1: the Solstice of the tick just turned to, at a cc: a root is LOCKED from its first on (R624), and a LOCKED instance's marker is
queued (R25). -/
def State.solBegin (s : State) (t : Nat) : State :=
  let lat := s.rf 0x20040 11 0
  let root := s.tickRole == 2
  s.updTick fun k =>
    let lock : BitVec 2 := if root then 2 else k.lock
    { k with lock := lock, mute := none, markerDue := lock == 2, nomark := if lock = 2 then false else k.nomark,
             hist := ({ num := k.num, sol := t, lat := lat } :: k.hist).take 256 }

/-! ## Step 3 -/

/-- The fixed latency that the tick's messages are released by is the one that the commit leaves (R130). -/
def State.histLat (s : State) : State :=
  let lat := s.rf 0x20040 11 0
  s.updTick fun k =>
    match k.hist with
    | h :: hs => { k with hist := { h with lat := lat } :: hs }
    | [] => k

/-- The half-written calibration entries whose shadow fields the port accepted before the Solstice cc are written: they belong to this commit
(R40). -/
def State.flushCal (s : State) (t : Nat) : State :=
  s.each (s.merge.filter fun e => inCal (8 * e.addr) && e.lo.isSome && decide (e.since < t)) (·.flushEnt ·)

/-- The commit, the cap and the calibration updates (R37, R495, R324). -/
def State.solCommit (s : State) (t : Nat) : State :=
  let s := s.flushCal t
  let had := s.commit.isSome
  let s : State := { s with digPrev := s.digestInput false }
  let s := s.commitSolstice t
  let done := had && s.commit.isNone && s.rf 0x1010 2 0 == 2
  let written := if done then s.calDirty else []
  let s : State := if done then { s with calDirty := [] } else s
  (s.histLat.capSolstice).calSolstice written

/-! ## Step 4 -/

/-- What is due at this Solstice: repairs, planned changes, retirements, the twin's streams, rate steps and Midwinter. -/
def State.solDue (s : State) : State :=
  let s := s.each s.allMods fun s m => (s.repairSolstice m).hmSolstice m
  let s := s.planSolstice.stepSolstice
  let s := s.each s.allMods (·.retireSolstice ·)
  s.twinSolstice.mwSolstice.capacitySolstice.flowAll

/-! ## Held Harvest messages (R312) -/

/-- A held message's slot is still not open with its tag (R310, R346). -/
def State.slotShut (s : State) (m : Msg) : Bool :=
  let t := fld m.arg 63 56
  if m.mtype = 0x10 then let x := s.redAt (fld m.arg 19 16); !x.busy || tagOlder x.rtag t
  else if m.mtype = 0x11 then let x := s.mrgAt (fld m.arg 18 16); !x.busy || tagOlder x.rtag t
  else let x := s.cmbAt (fld m.arg 29 28); !x.opened || tagOlder x.rtag t

/-- A held message has waited HV_HOLD.LIMIT ticks. -/
def State.heldOver (s : State) (r : Rel) : Bool :=
  let limit := s.rf 0x70040 7 0
  r.held && isHv r.msg && limit != 0 && decide (limit ≤ (s.tick.num + tickMod - r.tick) % tickMod) && s.slotShut r.msg

/-- They are dropped: CONTRIB_ERR answers a contribution's LAST, CUTOFF a partial's or an expert's. -/
def State.holdExpiry (s : State) : State :=
  s.each (s.rel.filter s.heldOver) fun s r =>
    let m := r.msg
    if m.mtype = 0x12 then s.dropStale r (bit m.arg 36) (expertOrig m) 0xC
    else s.dropStale r (bit m.arg 26) (contribOrig m) (if m.mtype = 0x10 then 9 else 0xC)

/-- HV_HOLD_EXPIRY. -/
def execHvHoldExpiry (s : State) : Host.Outcome State Fault Refusal := live s (·.holdExpiry)

/-! ## Each tick's messages and records -/

/-- A DIGEST waits for admission from a cc on (R537, R636). -/
def State.sendDigest (s : State) (at_ : Nat) : State :=
  let s : State := { s with digestAt := at_ }
  s.sendMgmt1 1 (bf 64 63 16 s.tick.num) (s.digestInput false ++ leBytes 4 (s.digestOf false).toNat)

/-- DIGEST_FREE_TIMER (R537): every 4,800 cc while the tick is FREE. -/
def execDigestFreeTimer (s : State) : Host.Outcome State Fault Refusal :=
  live s fun s => s.when (s.tick.lock == 0 && decide (s.digestAt + 4800 ≤ s.now)) fun s => s.sendDigest s.now

/-- The payload of a STATUS record (Table 12-8; log entry 7). -/
def State.statusWord (s : State) : W64 :=
  let hot := (s.allMods.map fun m => spGet 0 s.hm.temp m / 256).foldl max 0
  let power := if s.pwr.st = 3 then 2 else b2n (s.allMods.any fun m => (s.mod m).st == .fallow)
  bf 64 11 0 (Config.powerEstimate s.free).toNat ||| bf 64 19 12 hot |||
    bf 64 24 20 (s.allMods.filter fun m => (s.mod m).st == .active).length ||| bf 64 31 25 (Config.useEstimate s.free).toNat |||
    bf 64 38 32 (Config.useEstimate (s.free + 1)).toNat ||| bf 64 41 40 power

/-- STATUS at every PERIOD-th Solstice (R493). -/
def State.statusSolstice (s : State) : State :=
  if bit (s.rg 0xD0000) 31 && s.tick.num % max 1 (s.rf 0xD0000 7 0) == 0 then
    { s.tel 1 s.statusWord with free := s.free + 2 }
  else s

/-- The multi-tick budgets are renewed (R262). -/
def State.renewBudgets (s : State) : State := { s with ops := s.ops.map fun o => { o with tickBytes := 0 } }

/-! ## The Solstice -/

/-- The actions of Table 1-2 at the Solstice of tick s.tick.num, at a cc. Step 5 acts by the policy that step 3 leaves; where the overrun check
of step 2 found one, by the policy that the check saw (DESIGN CHOICE, log entry 56). -/
def State.solsticeActs (s : State) (t : Nat) : State :=
  let n := s.tick.num
  let s := s.solBegin t
  let old := s.rf 0x2000 5 4
  let wasLate := s.late n || s.seq.ovrAt == some n
  let s := ((s.overrun n).solCommit t).solDue
  let policy := if wasLate then old else s.rf 0x2000 5 4
  let s := ((s.slotLookup n t policy wasLate).tickwaitEnd t).forgetProgs n
  ((s.holdExpiry.renewBudgets).sendDigest (s.now + 16)).statusSolstice.landHeld

/-- The phase point of the next tick has come at a cc: a Solstice, unless R30 holds it silent. -/
def State.turn (s : State) (t : Nat) : State :=
  let loud := s.sounds
  let s := s.when loud (·.slipFlush)
  let s := s.turnPhase
  (s.when loud fun s => s.solsticeActs t).nextPhase

/-- SOLSTICE (R22): the flywheel's phase point has come. A LOCKED follower has its Solstice with its pulse (R597). -/
def execSolstice (s : State) : Host.Outcome State Fault Refusal :=
  live s fun s =>
    let s := s.settle
    match s.tick.nextSol with
    | some t => s.when (s.tickOn && !s.byPulse && decide (t ≤ s.now)) (·.turn t)
    | none => s

/-! ## Pulses and markers -/

/-- A pulse at a LOCKED follower: exactly TICK_PERIOD cc after the previous one and with the next tick's number it is its Solstice; any other is a
phase error beyond ±0.5 cc, or another tick number (R597, Table 1-3). The pulse of this very cc is the one already sampled. -/
def State.lockedPulse (s : State) (num : Nat) : State :=
  let e : Int := (8 * s.now : Nat) - ((s.tick.phase8 + 8 * s.period : Nat) : Int)
  if num = s.nextTick && e = 0 then (s.updTick fun t => { t with phaseErr := 0 }).turn s.now
  else if num = s.tick.num && 8 * s.now = s.tick.phase8 then s.updTick fun t => { t with phaseErr := 0 }
  else s.skew.flywheel.updTick fun t => { t with phaseErr := phaseSat e, lock := 3, cand := none }

/-- A sampled pulse: only a follower takes it (R596). -/
def State.pulse (s : State) (num : Nat) : State :=
  if !s.tickOn || s.tickRole != 0 then s
  else if s.tick.lock = 2 then s.lockedPulse num
  else if s.tick.lock = 3 then (s.updTick fun t => { t with lock := 1, cand := none }).acquire num (8 * s.now : Nat)
  else s.acquire num (8 * s.now : Nat)

/-- TICK_PULSE (R597). -/
def execTickPulse (num : BitVec 48) (s : State) : Host.Outcome State Fault Refusal := live s fun s => s.settle.pulse num.toNat

/-- TICK_MARKER (R25, R28, Table 2-8): a CTRL flit whose first UI arrived in this cc, `frac` eighths into it. -/
def execTickMarker (m : Nat) (f : List Byte) (frac : BitVec 3) (s : State) : Host.Outcome State Fault Refusal :=
  liveWf (flitWf m f) s (·.rxCtrl m f 1 fun g s => s.marker m (leAt g 6 6) (8 * s.now + frac.toNat) (leAt g 12 2))

end Sys2Proof.Machine
end

