-- ==== Sys2Proof/Machine/Telem.lean ====
section
/-! DEFINITION. TELEM: the sequencer's access to the configuration window, and EMIT (05, R215 to R219, R613). -/
namespace Sys2Proof.Machine

/-- The word is a TELEM of function fn. -/
def isTelem (fn : Nat) (w : W64) : Bool := opIs 0x81 w && fld w 39 38 == fn

/-- Fields that TELEM does not read shall be zero (format C): EMIT reads neither RA nor OFFSET (R219). -/
def offTelem (emit : Bool) (w : W64) : List Nat :=
  (if emit then zeros w 50 46 else []) ++ zeros w 45 40 ++ zeros w 37 20 ++ (if emit then zeros w 19 0 else [])

/-- The offset that a TELEM names (R215). -/
def State.telOff (s : State) (w : W64) : Nat := (fld (s.greg (fRa w)) 19 0 + fld w 19 0) % 0x100000

/-- The two words at an offset as a port read would return them in this cc (R216): the merge buffer's halves count, and stay held; a WR32 that has
completed counts, though a Solstice of this cc is still to come (R194). -/
def State.telPair (s : State) (off : Nat) : W32 × W32 × State :=
  let (_, _, t) := s.readPair off
  let (a, b, _) := (s.landHeld.when (merges off) (·.flushAddr (off / 8))).readPair off
  (a, b, t)

/-- An access of the sequencer empties its latches, which R613 gives it beside the port's. -/
def State.telLatch (s : State) (rd : Option (Nat × W32)) : State := { s with seq := { s.seq with rdLatch := rd, wrLatch := none } }

/-- RD32 (R216, R613): a high half reads as it is. -/
def execRd32 (s : State) : Host.Outcome State Fault Refusal :=
  live s (·.issue (isTelem 0) (offTelem false) fun w s =>
    let off := s.telOff w
    if off % 4 != 0 then s.trap 0x08 off
    else
      let (a, b, s) := s.telPair off
      let s := s.telLatch (if s.lowHalf off then some (off + 4, b) else none)
      (s.setGreg (fRd w) (a.setWidth 64)).advance 16)

/-- RD64 (R216): both halves in one access. -/
def execRd64 (s : State) : Host.Outcome State Fault Refusal :=
  live s (·.issue (isTelem 1) (offTelem false) fun w s =>
    let off := s.telOff w
    if off % 8 != 0 then s.trap 0x08 off
    else
      let (a, b, s) := s.telPair off
      let (b, s) :=
        if memWords (off + 4) == memWords off then (b, s)
        else let (c, _, t) := s.readPair (off + 4); (c, t)
      ((s.telLatch none).setGreg (fRd w) (b ++ a)).advance 16)

/-- A word that WR32 may write: a 32-bit word with an RWS field and no other writable one (R217). -/
def wr32Ok (nm off : Nat) : Bool :=
  match regRow nm off with
  | some r => r.rws != 0 && r.rw == 0 && r.w1c == 0
  | none => false

/-- WR32 (R217, R613): the shadow write counts 8 cc later, when the instruction completes. The low half of a 64-bit register waits in the
sequencer's write latch; a calibration entry, whose writes never use a latch (R614) and whose high half has no RWS field, does not. -/
def execWr32 (s : State) : Host.Outcome State Fault Refusal :=
  live s (·.issue (isTelem 2) (offTelem false) fun w s =>
    let s := s.landWr32
    let off := s.telOff w
    let d : W32 := (s.greg (fRd w)).setWidth 32
    if off % 4 != 0 || !wr32Ok (modules s.member) off then s.trap 0x08 off
    else
      let half := ((regRow (modules s.member) off).map (·.half)).getD 0
      let lo := s.seq.wrLatch.bind fun h => if h.1 + 4 = off then some h.2 else none
      let s := s.telLatch none
      let s : State :=
        if half = 1 ∧ !inCal off then { s with seq := { s.seq with wrLatch := some (off, d) } }
        else
          let ws := (if half = 2 then (lo.map fun v => (off - 4, v)).toList else []) ++ [(off, d)]
          { s with seq := { s.seq with wrPend := some (s.now + 8, ws) } }
      s.advance 8)

/-- EMIT (R219): a PROGRAM record with the value of RD. -/
def execEmit (s : State) : Host.Outcome State Fault Refusal :=
  live s (·.issue (isTelem 3) (offTelem true) fun w s => (s.tel 2 (s.greg (fRd w))).advance 2)

end Sys2Proof.Machine
end

