-- ==== Sys2Proof/Machine/Dispatch.lean ====
section
/-! DEFINITION. The dispatcher: one arm per command, each a direct call of its meaning. -/
namespace Sys2Proof.Machine

/-- The effect of a command on everything but the queue. -/
def exec (i : Instr) (s : State) : Host.Outcome State Fault Refusal :=
  match i with
  | .coldReset autoTrain openMode => Sys2Proof.Machine.execColdReset autoTrain openMode s
  | .warmReset => Sys2Proof.Machine.execWarmReset s
  | .fuseAck word => Sys2Proof.Machine.execFuseAck word s
  | .resetClearSweepDone => Sys2Proof.Machine.execResetClearSweepDone s
  | .trnCtrlGo => Sys2Proof.Machine.execTrnCtrlGo s
  | .present m x => Sys2Proof.Machine.execPresent m x s
  | .presentResend => Sys2Proof.Machine.execPresentResend s
  | .nopeer => Sys2Proof.Machine.execNopeer s
  | .caprec m x => Sys2Proof.Machine.execCaprec m x s
  | .capack m x => Sys2Proof.Machine.execCapack m x s
  | .lanemap m x => Sys2Proof.Machine.execLanemap m x s
  | .palat m x => Sys2Proof.Machine.execPalat m x s
  | .phase m x => Sys2Proof.Machine.execPhase m x s
  | .trainingPhaseComplete m r => Sys2Proof.Machine.execTrainingPhaseComplete m r s
  | .trainingMessageResend => Sys2Proof.Machine.execTrainingMessageResend s
  | .vendorCapabilityMessage idx vid word => Sys2Proof.Machine.execVendorCapabilityMessage idx vid word s
  | .solstice => Sys2Proof.Machine.execSolstice s
  | .overrun => Sys2Proof.Machine.execOverrun s
  | .deferredProgramStart => Sys2Proof.Machine.execDeferredProgramStart s
  | .digestFreeTimer => Sys2Proof.Machine.execDigestFreeTimer s
  | .hvHoldExpiry => Sys2Proof.Machine.execHvHoldExpiry s
  | .tickMarker m f frac => Sys2Proof.Machine.execTickMarker m f frac s
  | .tickPulse num => Sys2Proof.Machine.execTickPulse num s
  | .nomark => Sys2Proof.Machine.execNomark s
  | .tickEn en => Sys2Proof.Machine.execTickEn en s
  | .tickRoleWrite role => Sys2Proof.Machine.execTickRoleWrite role s
  | .tickReacq => Sys2Proof.Machine.execTickReacq s
  | .cfgCommitReq next => Sys2Proof.Machine.execCfgCommitReq next s
  | .cfgCommitCancel => Sys2Proof.Machine.execCfgCommitCancel s
  | .cfgCommitRevert => Sys2Proof.Machine.execCfgCommitRevert s
  | .cfgPortWrite off d => Sys2Proof.Machine.execCfgPortWrite off d s
  | .cfgPortReadLowHalf off => Sys2Proof.Machine.execCfgPortReadLowHalf off s
  | .mergeBufferWrite off d => Sys2Proof.Machine.execMergeBufferWrite off d s
  | .mergeBufferFlush => Sys2Proof.Machine.execMergeBufferFlush s
  | .seqCtrlStart => Sys2Proof.Machine.execSeqCtrlStart s
  | .seqCtrlStop => Sys2Proof.Machine.execSeqCtrlStop s
  | .seqCtrlClr => Sys2Proof.Machine.execSeqCtrlClr s
  | .seqPmCheckGo d => Sys2Proof.Machine.execSeqPmCheckGo d s
  | .seqPmCheckDone => Sys2Proof.Machine.execSeqPmCheckDone s
  | .nop => Sys2Proof.Machine.execNop s
  | .endProg => Sys2Proof.Machine.execEndProg s
  | .tickwait => Sys2Proof.Machine.execTickwait s
  | .jmp => Sys2Proof.Machine.execJmp s
  | .br => Sys2Proof.Machine.execBr s
  | .loop => Sys2Proof.Machine.execLoop s
  | .call => Sys2Proof.Machine.execCall s
  | .ret => Sys2Proof.Machine.execRet s
  | .trap => Sys2Proof.Machine.execTrap s
  | .li => Sys2Proof.Machine.execLi s
  | .addi => Sys2Proof.Machine.execAddi s
  | .add => Sys2Proof.Machine.execAdd s
  | .sub => Sys2Proof.Machine.execSub s
  | .and => Sys2Proof.Machine.execAnd s
  | .or => Sys2Proof.Machine.execOr s
  | .xor => Sys2Proof.Machine.execXor s
  | .shl => Sys2Proof.Machine.execShl s
  | .shr => Sys2Proof.Machine.execShr s
  | .mul => Sys2Proof.Machine.execMul s
  | .cmp => Sys2Proof.Machine.execCmp s
  | .ldd => Sys2Proof.Machine.execLdd s
  | .std => Sys2Proof.Machine.execStd s
  | .lds => Sys2Proof.Machine.execLds s
  | .sts => Sys2Proof.Machine.execSts s
  | .signal => Sys2Proof.Machine.execSignal s
  | .wait => Sys2Proof.Machine.execWait s
  | .waitTimeout => Sys2Proof.Machine.execWaitTimeout s
  | .waitResume => Sys2Proof.Machine.execWaitResume s
  | .fence => Sys2Proof.Machine.execFence s
  | .fenceResume => Sys2Proof.Machine.execFenceResume s
  | .engineStallResume => Sys2Proof.Machine.execEngineStallResume s
  | .push => Sys2Proof.Machine.execPush s
  | .pull => Sys2Proof.Machine.execPull s
  | .gather => Sys2Proof.Machine.execGather s
  | .scatter => Sys2Proof.Machine.execScatter s
  | .copy => Sys2Proof.Machine.execCopy s
  | .convert => Sys2Proof.Machine.execConvert s
  | .foldSend => Sys2Proof.Machine.execFoldSend s
  | .foldReduce => Sys2Proof.Machine.execFoldReduce s
  | .mergeSend => Sys2Proof.Machine.execMergeSend s
  | .mergeCollect => Sys2Proof.Machine.execMergeCollect s
  | .mergeGroupFold slot group => Sys2Proof.Machine.execMergeGroupFold slot group s
  | .mergeCutoff slot => Sys2Proof.Machine.execMergeCutoff slot s
  | .dispatch => Sys2Proof.Machine.execDispatch s
  | .combineSend => Sys2Proof.Machine.execCombineSend s
  | .combineCollect => Sys2Proof.Machine.execCombineCollect s
  | .combineCutoff slot => Sys2Proof.Machine.execCombineCutoff slot s
  | .pgfetch => Sys2Proof.Machine.execPgfetch s
  | .pgpin => Sys2Proof.Machine.execPgpin s
  | .pgunpin => Sys2Proof.Machine.execPgunpin s
  | .pgatomic => Sys2Proof.Machine.execPgatomic s
  | .pggather => Sys2Proof.Machine.execPggather s
  | .pageWalkRetry tag => Sys2Proof.Machine.execPageWalkRetry tag s
  | .commit => Sys2Proof.Machine.execCommit s
  | .rd32 => Sys2Proof.Machine.execRd32 s
  | .rd64 => Sys2Proof.Machine.execRd64 s
  | .wr32 => Sys2Proof.Machine.execWr32 s
  | .emit => Sys2Proof.Machine.execEmit s
  | .flitSlot m frac => Sys2Proof.Machine.execFlitSlot m frac s
  | .messageAdmission tc => Sys2Proof.Machine.execMessageAdmission tc s
  | .data m f => Sys2Proof.Machine.execData m f s
  | .retx m f => Sys2Proof.Machine.execRetx m f s
  | .idle m f => Sys2Proof.Machine.execIdle m f s
  | .failedSlot m f => Sys2Proof.Machine.execFailedSlot m f s
  | .reservedTypeFlit m f => Sys2Proof.Machine.execReservedTypeFlit m f s
  | .ackTimer m => Sys2Proof.Machine.execAckTimer m s
  | .credit m f => Sys2Proof.Machine.execCredit m f s
  | .creditTimer => Sys2Proof.Machine.execCreditTimer s
  | .flow m f => Sys2Proof.Machine.execFlow m f s
  | .flowTimer => Sys2Proof.Machine.execFlowTimer s
  | .repairRequest m f => Sys2Proof.Machine.execRepairRequest m f s
  | .repairEcho m f => Sys2Proof.Machine.execRepairEcho m f s
  | .repairCancel m f => Sys2Proof.Machine.execRepairCancel m f s
  | .repairSwitch m f => Sys2Proof.Machine.execRepairSwitch m f s
  | .repairResend m => Sys2Proof.Machine.execRepairResend m s
  | .repairNoEcho m => Sys2Proof.Machine.execRepairNoEcho m s
  | .paRepairGo m d => Sys2Proof.Machine.execPaRepairGo m d s
  | .swapSwitchSend m => Sys2Proof.Machine.execSwapSwitchSend m s
  | .swapReceiverTimeout m => Sys2Proof.Machine.execSwapReceiverTimeout m s
  | .swapFrostEnd m => Sys2Proof.Machine.execSwapFrostEnd m s
  | .retrainReq m f => Sys2Proof.Machine.execRetrainReq m f s
  | .retrain m x => Sys2Proof.Machine.execRetrain m x s
  | .retrainReqResend m => Sys2Proof.Machine.execRetrainReqResend m s
  | .retrainEnd m => Sys2Proof.Machine.execRetrainEnd m s
  | .retrainTimeout m => Sys2Proof.Machine.execRetrainTimeout m s
  | .llModCtrlRetrain m => Sys2Proof.Machine.execLlModCtrlRetrain m s
  | .lockLoss m alt clk => Sys2Proof.Machine.execLockLoss m alt clk s
  | .lockTimeout m => Sys2Proof.Machine.execLockTimeout m s
  | .lockRegain m alt => Sys2Proof.Machine.execLockRegain m alt s
  | .fragmentRelease stream => Sys2Proof.Machine.execFragmentRelease stream s
  | .writeRelease stream => Sys2Proof.Machine.execWriteRelease stream s
  | .readReqRelease stream => Sys2Proof.Machine.execReadReqRelease stream s
  | .readDataRelease stream => Sys2Proof.Machine.execReadDataRelease stream s
  | .signalRelease stream => Sys2Proof.Machine.execSignalRelease stream s
  | .localSignalApply tag => Sys2Proof.Machine.execLocalSignalApply tag s
  | .completionRelease stream => Sys2Proof.Machine.execCompletionRelease stream s
  | .passThroughUnit u => Sys2Proof.Machine.execPassThroughUnit u s
  | .hvContrib stream => Sys2Proof.Machine.execHvContrib stream s
  | .hvPartial stream => Sys2Proof.Machine.execHvPartial stream s
  | .hvExpert stream => Sys2Proof.Machine.execHvExpert stream s
  | .pgReq stream => Sys2Proof.Machine.execPgReq stream s
  | .pgData stream => Sys2Proof.Machine.execPgData stream s
  | .pgAtomicRead stream => Sys2Proof.Machine.execPgAtomicRead stream s
  | .pgAtomicInc stream => Sys2Proof.Machine.execPgAtomicInc stream s
  | .pgAtomicDec stream => Sys2Proof.Machine.execPgAtomicDec stream s
  | .pgAtomicCas stream => Sys2Proof.Machine.execPgAtomicCas stream s
  | .pgAtomicRdec stream => Sys2Proof.Machine.execPgAtomicRdec stream s
  | .pgAtomicResp stream => Sys2Proof.Machine.execPgAtomicResp stream s
  | .rpcFlushGo => Sys2Proof.Machine.execRpcFlushGo s
  | .rpcCfgWrite d => Sys2Proof.Machine.execRpcCfgWrite d s
  | .memReadData b => Sys2Proof.Machine.execMemReadData b s
  | .memWriteAck tag err => Sys2Proof.Machine.execMemWriteAck tag err s
  | .xeMtStatAbort k => Sys2Proof.Machine.execXeMtStatAbort k s
  | .hvCalClrGo d => Sys2Proof.Machine.execHvCalClrGo d s
  | .hvCalClrDone => Sys2Proof.Machine.execHvCalClrDone s
  | .sxDslotFlush k => Sys2Proof.Machine.execSxDslotFlush k s
  | .llPlanGo d => Sys2Proof.Machine.execLlPlanGo d s
  | .frostEntryComplete m => Sys2Proof.Machine.execFrostEntryComplete m s
  | .gapOver => Sys2Proof.Machine.execGapOver s
  | .llRetireGo d => Sys2Proof.Machine.execLlRetireGo d s
  | .llRetireForce d => Sys2Proof.Machine.execLlRetireForce d s
  | .retireRequest => Sys2Proof.Machine.execRetireRequest s
  | .retireEcho => Sys2Proof.Machine.execRetireEcho s
  | .mgmtResend => Sys2Proof.Machine.execMgmtResend s
  | .digest => Sys2Proof.Machine.execDigest s
  | .mgmtCredit => Sys2Proof.Machine.execMgmtCredit s
  | .takeoverRequest => Sys2Proof.Machine.execTakeoverRequest s
  | .takeoverEcho => Sys2Proof.Machine.execTakeoverEcho s
  | .streamState => Sys2Proof.Machine.execStreamState s
  | .rejoinRequest => Sys2Proof.Machine.execRejoinRequest s
  | .rejoinEcho => Sys2Proof.Machine.execRejoinEcho s
  | .twnCtrlForce => Sys2Proof.Machine.execTwnCtrlForce s
  | .twnCtrlRejoin => Sys2Proof.Machine.execTwnCtrlRejoin s
  | .heartbeatSend => Sys2Proof.Machine.execHeartbeatSend s
  | .heartbeat linkOk half news => Sys2Proof.Machine.execHeartbeat linkOk half news s
  | .instLost => Sys2Proof.Machine.execInstLost s
  | .noSister => Sys2Proof.Machine.execNoSister s
  | .operationRecord r => Sys2Proof.Machine.execOperationRecord r s
  | .completionReport tag status psn ecount => Sys2Proof.Machine.execCompletionReport tag status psn ecount s
  | .twinStreamState x => Sys2Proof.Machine.execTwinStreamState x s
  | .responseLogTransfer xs => Sys2Proof.Machine.execResponseLogTransfer xs s
  | .releaseCommand stream sseq => Sys2Proof.Machine.execReleaseCommand stream sseq s
  | .hmSample x => Sys2Proof.Machine.execHmSample x s
  | .rateStepRequest => Sys2Proof.Machine.execRateStepRequest s
  | .rateStepEcho => Sys2Proof.Machine.execRateStepEcho s
  | .rateStepRefuse => Sys2Proof.Machine.execRateStepRefuse s
  | .rateStepCancel => Sys2Proof.Machine.execRateStepCancel s
  | .rateStepNoEcho => Sys2Proof.Machine.execRateStepNoEcho s
  | .fallowIdle => Sys2Proof.Machine.execFallowIdle s
  | .fallowReq x => Sys2Proof.Machine.execFallowReq x s
  | .fallowAck x => Sys2Proof.Machine.execFallowAck x s
  | .fallowNak x => Sys2Proof.Machine.execFallowNak x s
  | .fallowWake => Sys2Proof.Machine.execFallowWake s
  | .fallowWakeDetect m => Sys2Proof.Machine.execFallowWakeDetect m s
  | .fallowWakeDone m => Sys2Proof.Machine.execFallowWakeDone m s
  | .pwrFallowWrite d => Sys2Proof.Machine.execPwrFallowWrite d s
  | .mwGo => Sys2Proof.Machine.execMwGo s
  | .mwReq x => Sys2Proof.Machine.execMwReq x s
  | .mwAck x => Sys2Proof.Machine.execMwAck x s
  | .mwNoAck => Sys2Proof.Machine.execMwNoAck s
  | .phyOff => Sys2Proof.Machine.execPhyOff s
  | .pwrCtrlWake => Sys2Proof.Machine.execPwrCtrlWake s
  | .mwWake x => Sys2Proof.Machine.execMwWake x s
  | .mwWakeAck x => Sys2Proof.Machine.execMwWakeAck x s
  | .mwWakeResend => Sys2Proof.Machine.execMwWakeResend s
  | .trafficWake => Sys2Proof.Machine.execTrafficWake s
  | .midwinterExitStep => Sys2Proof.Machine.execMidwinterExitStep s
  | .capRecord r => Sys2Proof.Machine.execCapRecord r s
  | .wakeRecord r => Sys2Proof.Machine.execWakeRecord r s
  | .eccRewrite n => Sys2Proof.Machine.execEccRewrite n s
  | .eccScrubGo d => Sys2Proof.Machine.execEccScrubGo d s
  | .scrubRead => Sys2Proof.Machine.execScrubRead s
  | .eccRetireWrite k d => Sys2Proof.Machine.execEccRetireWrite k d s
  | .spareUnitReplace k => Sys2Proof.Machine.execSpareUnitReplace k s
  | .bistSliceStart => Sys2Proof.Machine.execBistSliceStart s
  | .bistSliceEnd misr count => Sys2Proof.Machine.execBistSliceEnd misr count s
  | .bistMonthTimeout => Sys2Proof.Machine.execBistMonthTimeout s
  | .bistRunGo d => Sys2Proof.Machine.execBistRunGo d s
  | .aitCtrlGo d => Sys2Proof.Machine.execAitCtrlGo d s
  | .aitStepComplete r => Sys2Proof.Machine.execAitStepComplete r s
  | .wsBypass => Sys2Proof.Machine.execWsBypass s
  | .wsExtest => Sys2Proof.Machine.execWsExtest s
  | .wsIntest => Sys2Proof.Machine.execWsIntest s
  | .cfgAccess dr => Sys2Proof.Machine.execCfgAccess dr s
  | .aitRun ctrl cfg => Sys2Proof.Machine.execAitRun ctrl cfg s
  | .aitRead => Sys2Proof.Machine.execAitRead s
  | .bistRun dr => Sys2Proof.Machine.execBistRun dr s
  | .openDataUnit m u => Sys2Proof.Machine.execOpenDataUnit m u s
  | .openPaddingUnit m u => Sys2Proof.Machine.execOpenPaddingUnit m u s
  | .reservedSubtypeFlit m f => Sys2Proof.Machine.execReservedSubtypeFlit m f s
  | .sparePrbsError m lane count => Sys2Proof.Machine.execSparePrbsError m lane count s
  | .invalidOp => Sys2Proof.Machine.execInvalidOp s
  | .rpcFlushDone => Sys2Proof.Machine.execRpcFlushDone s
  | .openReservedUnit m u => Sys2Proof.Machine.execOpenReservedUnit m u s
  | .ucieLinkDown m => Sys2Proof.Machine.execUcieLinkDown m s
  | .resetAssert cold => Sys2Proof.Machine.execResetAssert cold s
  | .coreClkRestart => Sys2Proof.Machine.execCoreClkRestart s

end Sys2Proof.Machine
end

