-- ==== Sys2Proof/Machine/Step.lean ====
section
/-! DEFINITION. One step: the command at the front of the queue, or one cycle of core_clk when none waits. -/
namespace Sys2Proof.Machine

/-- Take the command at the front of the queue and run it on the state with the rest; with none, one cc passes
(DESIGN CHOICE, log entry 1). -/
def step (s : State) : Host.Outcome State Fault Refusal :=
  match s.pending with
  | [] => .next s.elapse
  | c :: cs => exec c { s with pending := cs }

/-- The state with the command that a word spells put at the front of its queue (unchanged where it spells none). -/
def State.withFetchWord (s : State) (nbits w : Nat) : State :=
  match decodeTableWord nbits w with
  | some c => { s with pending := c :: s.pending }
  | none => s

end Sys2Proof.Machine
end

