-- ==== Sys2Proof/WellFormed.lean ====
section
/-! DEFINITION. Commands that some wire of the block can carry: module, stream, class and slot numbers in their ranges, flits, units and beats
of their sizes. Any other command faults (Fault.malformed). -/
namespace Sys2Proof

/-- A module number of the widest member (R3). -/
def moduleOk (m : Nat) : Bool := decide (m < 16)

/-- A flit of 256 bytes on a module (R51). -/
def flitOk (m : Nat) (f : List Byte) : Bool := decide (m < 16) && f.length == 256

/-- A data unit of 244 bytes on a module (R544). -/
def unitOk244 (m : Nat) (u : List Byte) : Bool := decide (m < 16) && u.length == 244

/-- A stream number (R142). -/
def streamOk (n : Nat) : Bool := decide (n < 64)

/-- Stream, class and length that a message's header can hold (Table 4-2). -/
def msgOk (m : Msg) : Bool := decide (m.stream < 64) && decide (m.tc < 4) && decide (m.data.length ≤ 4096)

/-- The operands of a command are ones that its wires can carry. -/
def Instr.wf : Instr → Bool
  | .present m _ => moduleOk m
  | .caprec m _ => moduleOk m
  | .capack m _ => moduleOk m
  | .lanemap m _ => moduleOk m
  | .palat m _ => moduleOk m
  | .phase m _ => moduleOk m
  | .trainingPhaseComplete m _ => moduleOk m
  | .tickMarker m f _ => flitOk m f
  | .mergeGroupFold slot _ => decide (slot < 8)
  | .mergeCutoff slot => decide (slot < 8)
  | .combineCutoff slot => decide (slot < 4)
  | .flitSlot m _ => moduleOk m
  | .messageAdmission tc => decide (tc < 4)
  | .data m f => flitOk m f
  | .retx m f => flitOk m f
  | .idle m f => flitOk m f
  | .failedSlot m f => moduleOk m && (f.map fun g => g.length == 256).getD true
  | .reservedTypeFlit m f => flitOk m f
  | .ackTimer m => moduleOk m
  | .credit m f => flitOk m f
  | .flow m f => flitOk m f
  | .repairRequest m f => flitOk m f
  | .repairEcho m f => flitOk m f
  | .repairCancel m f => flitOk m f
  | .repairSwitch m f => flitOk m f
  | .repairResend m => moduleOk m
  | .repairNoEcho m => moduleOk m
  | .paRepairGo m _ => moduleOk m
  | .swapSwitchSend m => moduleOk m
  | .swapReceiverTimeout m => moduleOk m
  | .swapFrostEnd m => moduleOk m
  | .retrainReq m f => flitOk m f
  | .retrain m _ => moduleOk m
  | .retrainReqResend m => moduleOk m
  | .retrainEnd m => moduleOk m
  | .retrainTimeout m => moduleOk m
  | .llModCtrlRetrain m => moduleOk m
  | .lockLoss m _ _ => moduleOk m
  | .lockTimeout m => moduleOk m
  | .lockRegain m _ => moduleOk m
  | .fragmentRelease stream => (stream.map streamOk).getD true
  | .writeRelease stream => streamOk stream
  | .readReqRelease stream => streamOk stream
  | .readDataRelease stream => streamOk stream
  | .signalRelease stream => streamOk stream
  | .completionRelease stream => streamOk stream
  | .passThroughUnit (.ack _) => true
  | .passThroughUnit (.msg _ m) => msgOk m
  | .hvContrib stream => streamOk stream
  | .hvPartial stream => streamOk stream
  | .hvExpert stream => streamOk stream
  | .pgReq stream => streamOk stream
  | .pgData stream => streamOk stream
  | .pgAtomicRead stream => streamOk stream
  | .pgAtomicInc stream => streamOk stream
  | .pgAtomicDec stream => streamOk stream
  | .pgAtomicCas stream => streamOk stream
  | .pgAtomicRdec stream => streamOk stream
  | .pgAtomicResp stream => streamOk stream
  | .memReadData b => b.data.length == 128
  | .xeMtStatAbort k => decide (k < 4)
  | .sxDslotFlush k => decide (k < 4)
  | .frostEntryComplete m => moduleOk m
  | .operationRecord r => decide (r.tag < 256) && r.msgs.all msgOk
  | .completionReport tag _ _ _ => decide (tag < 256)
  | .twinStreamState x => streamOk x.stream
  | .responseLogTransfer xs => xs.all fun x => decide (x.stream < 64) && decide (x.msg.tc < 4)
  | .releaseCommand stream _ => streamOk stream
  | .fallowWakeDetect m => moduleOk m
  | .fallowWakeDone m => moduleOk m
  | .eccRetireWrite k _ => decide (k < 8)
  | .aitStepComplete r =>
    (r.wires.all fun e => decide (e.1 < 16) && decide (e.2 < 74)) && r.errs.all fun e => decide (e.1 < 16) && decide (e.2.1 < 68)
  | .openDataUnit m u => unitOk244 m u
  | .openPaddingUnit m u => unitOk244 m u
  | .reservedSubtypeFlit m f => flitOk m f
  | .sparePrbsError m lane _ => moduleOk m && decide (lane < 68)
  | .openReservedUnit m u => unitOk244 m u
  | .ucieLinkDown m => moduleOk m
  | .coldReset _ _ | .warmReset | .fuseAck _ | .resetClearSweepDone | .trnCtrlGo | .presentResend | .nopeer
  | .trainingMessageResend | .vendorCapabilityMessage _ _ _ | .solstice | .overrun | .deferredProgramStart
  | .digestFreeTimer | .hvHoldExpiry | .tickPulse _ | .nomark | .tickEn _ | .tickRoleWrite _ | .tickReacq | .cfgCommitReq _
  | .cfgCommitCancel | .cfgCommitRevert | .cfgPortWrite _ _ | .cfgPortReadLowHalf _ | .mergeBufferWrite _ _
  | .mergeBufferFlush | .seqCtrlStart | .seqCtrlStop | .seqCtrlClr | .seqPmCheckGo _ | .seqPmCheckDone | .nop | .endProg
  | .tickwait | .jmp | .br | .loop | .call | .ret | .trap | .li | .addi | .add | .sub | .and | .or | .xor | .shl | .shr
  | .mul | .cmp | .ldd | .std | .lds | .sts | .signal | .wait | .waitTimeout | .waitResume | .fence | .fenceResume
  | .engineStallResume | .push | .pull | .gather | .scatter | .copy | .convert | .foldSend | .foldReduce | .mergeSend
  | .mergeCollect | .dispatch | .combineSend | .combineCollect | .pgfetch | .pgpin | .pgunpin | .pgatomic | .pggather
  | .pageWalkRetry _ | .commit | .rd32 | .rd64 | .wr32 | .emit | .creditTimer | .flowTimer | .localSignalApply _
  | .rpcFlushGo | .rpcCfgWrite _ | .memWriteAck _ _ | .hvCalClrGo _ | .hvCalClrDone | .llPlanGo _ | .gapOver
  | .llRetireGo _ | .llRetireForce _ | .retireRequest | .retireEcho | .mgmtResend | .digest | .mgmtCredit
  | .takeoverRequest | .takeoverEcho | .streamState | .rejoinRequest | .rejoinEcho | .twnCtrlForce | .twnCtrlRejoin
  | .heartbeatSend | .heartbeat _ _ _ | .instLost | .noSister | .hmSample _ | .rateStepRequest | .rateStepEcho
  | .rateStepRefuse | .rateStepCancel | .rateStepNoEcho | .fallowIdle | .fallowReq _ | .fallowAck _ | .fallowNak _
  | .fallowWake | .pwrFallowWrite _ | .mwGo | .mwReq _ | .mwAck _ | .mwNoAck | .phyOff | .pwrCtrlWake | .mwWake _
  | .mwWakeAck _ | .mwWakeResend | .trafficWake | .midwinterExitStep | .capRecord _ | .wakeRecord _ | .eccRewrite _
  | .eccScrubGo _ | .scrubRead | .spareUnitReplace _ | .bistSliceStart | .bistSliceEnd _ _ | .bistMonthTimeout
  | .bistRunGo _ | .aitCtrlGo _ | .wsBypass | .wsExtest | .wsIntest | .cfgAccess _ | .aitRun _ _ | .aitRead | .bistRun _
  | .invalidOp | .rpcFlushDone | .resetAssert _ | .coreClkRestart => true

end Sys2Proof
end

