-- ==== Sys2Proof/Safety.lean ====
section
/-! DEFINITION. What counts as a safe run, and the invariants that claims name: the commands that wait are well formed, the maps of the state
are in canonical form, and the sequencer stays inside its program memory and call stack. -/
namespace Sys2Proof.Machine

/-- Every command that waits is one that the block's wires can carry. -/
def State.queueOk (s : State) : Bool := s.pending.all Instr.wf

/-- A step of a state that neither faults nor refuses, and leaves such a queue. -/
def SafeStep (s : State) : Prop := ∃ t, step s = .next t ∧ t.queueOk = true

/-- Every memory and register map is in canonical form: keys rising, no entry equal to what an unlisted key reads as. -/
structure State.Canonical (s : State) : Prop where
  regs : spWf (regReset s.member s.strapOpen) s.regs = true
  shadow : spWf (regReset s.member s.strapOpen) s.shadow = true
  pm : spWf (fun _ => 0xFFFFFFFFFFFFFFFF) s.pm = true
  g : spWf (fun _ => 0) s.g = true
  td : spWf (fun _ => 0) s.td = true
  scratch : spWf (fun _ => 0) s.scratch = true
  ev : spWf (fun _ => 0) s.ev = true
  upset : spWf (fun _ => 0) s.upset = true
  mods : spWf (fun _ => {}) s.mods = true
  flow : spWf (fun _ => {}) s.flow = true
  streams : spWf (fun _ => {}) s.streams = true
  tags : spWf (fun _ => {}) s.tags = true
  red : spWf (fun _ => {}) s.red = true
  mrg : spWf (fun _ => {}) s.mrg = true
  dsl : spWf (fun _ => {}) s.dsl = true
  cmb : spWf (fun _ => {}) s.cmb = true

/-- PC names a word of program memory, and the call stack has at most its 8 entries (R170, R198). -/
structure State.SeqOk (s : State) : Prop where
  pc : s.seq.pc < 16384
  stack : s.seq.stack.length ≤ 8

/-- The invariant that every step keeps; core_clk stands in its member's range (R5, R7). -/
structure State.Inv (s : State) : Prop where
  canonical : s.Canonical
  seqOk : s.SeqOk
  clock : clkInRange s.member s.clk = true

/-! ## The terms of the claims about the sequencer -/

/-- The sequencer runs and the instruction w of opcode op stands at PC, to issue in this cc; its word of program memory is free of error
(R161, R190, R194, R200). -/
structure State.Issues (s : State) (op : Nat) (w : W64) : Prop where
  live : s.inReset = false
  running : s.seq.st = .running
  noStall : s.seq.stall = none
  noStop : s.seq.stopReq = none
  noEnd : s.seq.pcEnd = false
  noWait : s.seq.wait = none
  due : s.seq.nextAt ≤ s.now
  word : s.pmWord s.seq.pc = w
  clean : s.upsetAt 0 s.seq.pc = 0
  opcode : fld w 63 56 = op

/-- s with PC moved, and the next issue cc cycles from now; nothing else changed. -/
def State.goTo (s : State) (pc cc : Nat) : State := { s with seq := { s.seq with pc := pc, nextAt := s.now + cc } }

/-- s after a port write of one register that the block takes, besides the write's own effect: both latches are empty, and an answer is due
(R594, R609, R612). -/
def State.ported (s : State) : State := s.accessed.cfgAnswer 32 0

/-! ## The terms of the claims about engine instructions -/

/-- What a command c that issues an engine instruction does, with the word w at PC (R208, R210, R221): with every descriptor word that it
names free of error and its reserved bits 0, it traps as its first failing check says; with no failing check it reads the calibration entry
that it names, if any, takes the next free tag and starts, and the next instruction issues 2 cc later; with no tag or no room it stalls with
what it read, and nothing else changes. -/
structure State.EngineIssues (s : State) (c : Instr) (offend : W64 → List Nat) (spec : State → W64 → EngSpec) (can : State → Iss → Bool)
    (start : State → Nat → Iss → State) (w : W64) : Prop where
  traps : (∀ d ∈ (spec s w).tds, ∀ k < 4, s.upsetAt 1 (4 * d.1 + k) = 0) → offend w = [] → ∀ code info,
    (spec s w).fail s = some (code, info) → exec c s = .next (s.trap code info)
  starts : (∀ d ∈ (spec s w).tds, ∀ k < 4, s.upsetAt 1 (4 * d.1 + k) = 0) → offend w = [] → (spec s w).fail s = none →
    ∀ i u, s.readCal (spec s w) = (i, u) → ∀ tag, u.freeTag = some tag → can u i = true →
      exec c s = .next (start u tag i) ∧
      (start u tag i).seq = { s.seq with lastTag := tag, stall := none, pc := s.seq.pc + 1, nextAt := s.now + 2 }
  stalls : (∀ d ∈ (spec s w).tds, ∀ k < 4, s.upsetAt 1 (4 * d.1 + k) = 0) → offend w = [] → (spec s w).fail s = none →
    ∀ i u, s.readCal (spec s w) = (i, u) → u.freeTag = none ∨ can u i = false →
      exec c s = .next { u with seq := { u.seq with stall := some i, op := i.opcode } } ∧ u.seq = s.seq

/-- Where the bytes of a piece go, byte by byte: source die and address, destination die and address. -/
def Piece.path (p : Piece) : List (Nat × Nat × Nat × Nat) := (List.range p.len).map fun k => (p.sdie, p.saddr + k, p.ddie, p.daddr + k)

/-- The bytes from an address on, each with its own. -/
def putsAt (a : Nat) (bs : List Byte) : List (Nat × Byte) := bs.mapIdx fun k b => (a + k, b)

/-- The bytes that the engine made for a piece, each with the address that it is for. -/
def Piece.puts (p : Piece) : List (Nat × Byte) := putsAt p.daddr (p.lit.getD [])

/-- The bytes of a write request, each with its address. -/
def WrReq.puts (w : WrReq) : List (Nat × Byte) := putsAt w.addr w.data

/-- Result rows and their scale bytes as the bytes of the destination (R182 to R186). -/
def rowPuts (d : Desc) (rows scales : List (Nat × List Byte)) : List (Nat × Byte) :=
  (rows.flatMap fun x => putsAt (d.rowAddr x.1) x.2) ++ scales.flatMap fun x => putsAt (d.side + x.1 * d.rowBlocks) x.2

/-- t is u with write requests behind its own that put exactly these bytes, each at most to the end of its 4 KiB page (R241, R585). -/
def State.Writes (u t : State) (bytes : List (Nat × Byte)) : Prop :=
  ∃ ws, t.wrq = u.wrq ++ ws ∧ ws.flatMap WrReq.puts = bytes ∧ ∀ w ∈ ws, 0 < w.data.length ∧ w.addr % 4096 + w.data.length ≤ 4096

/-! ## The terms of the claims about reset, the sideband and the flits -/

/-- Commands that act while reset is held: the resets themselves, the test wrapper, the end of a running AIT, and the Health Monitor, which runs on
through a warm reset (R473, R569, R576, R583). -/
def actsInReset : Instr → Bool
  | .coldReset .. | .warmReset | .resetAssert .. | .wsBypass .. | .wsExtest .. | .wsIntest .. | .cfgAccess .. | .aitRun .. | .aitRead
  | .bistRun .. | .aitStepComplete .. | .hmSample .. => true
  | _ => false

/-- Commands that settle what surrounds the block: the resets, the fuse read and the end of the clear sweep (R507, R512, R583, R600). -/
def settles : Instr → Bool
  | .coldReset .. | .warmReset | .resetAssert .. | .fuseAck .. | .resetClearSweepDone => true
  | _ => false

/-- A sound sideband message of a code, of `len` data words or more, comes for module k of a block that takes messages (R513, R524,
R525). -/
structure State.Hears (s : State) (x : SbMsg) (code len k : Nat) : Prop where
  live : s.inReset = false
  swept : s.sbLive = true
  sound : sbOk code len x = true
  about : sbModule x = k
  here : k < modules s.member

/-- A flit of 256 bytes comes on module m and verifies: its corrected bytes are g, the corrected positions `fixed`, its sequence number seed
(R62 to R64, R84). -/
structure State.Accepts (s : State) (m : Nat) (f g : List Byte) (fixed : List Nat) (seed : Nat) : Prop where
  live : s.inReset = false
  wire : flitWf m f = true
  good : s.rxGood m f = some (g, fixed, seed)

/-- s after what every accepted IDLE or CTRL flit does: lanes charged, ACK and NAK taken, link flags taken (R63, R92, R94, R99). -/
def State.heard (s : State) (m : Nat) (g : List Byte) (fixed : List Nat) : State := (s.rxCommon m g fixed).takeFlags m g

/-- The oldest released management function of a kind is x; u is s without it, its credits granted back unless it took none (R535,
Table 13-8). -/
structure State.Manages (s : State) (kind : Msg → Bool) (x : MgmtIn) (u : State) : Prop where
  live : s.inReset = false
  taken : ∃ i, s.mgmtRx.findIdx? (fun y => y.released && kind y.msg) = some i ∧ s.mgmtRx[i]? = some x ∧
    u = ({ s with mgmtRx := s.mgmtRx.eraseIdx i } : State).when (!freeOfCredit x.msg) (·.grant x.msg)

end Sys2Proof.Machine
end

