-- ==== Sys2Proof/Certificates/Slice0/Obligations.lean ====
section
/-! DEFINITION. The statements for the provers. -/
open Sys2Proof Sys2Proof.Machine

/-! ## The block and its queue -/

/-- A step with a command in front is that command on the state with the rest of the queue. -/
def Obligations.StepRunsFront : Prop :=
  ∀ (c : Instr) (cs : List Instr) (s : State), step { s with pending := c :: cs } = exec c { s with pending := cs }

/-- From every state whose waiting commands are well formed, a step answers a next state: it takes one command off the queue and leaves the
rest as it was, and the member and its core_clk are the same; the cc advances by one exactly when no command waited (the model's choice, log
entry 1). No step faults or refuses. -/
def Obligations.StepSafe : Prop :=
  ∀ s : State, s.queueOk = true → ∃ t, step s = .next t ∧ t.pending = s.pending.tail ∧ t.queueOk = true ∧ t.member = s.member ∧
    t.clk = s.clk ∧ t.now = s.now + (if s.pending.isEmpty then 1 else 0)

/-- Every step keeps the invariant: every memory and register map stays in canonical form, PC stays inside program memory, the call stack
within its 8 entries, and core_clk in the range of its member. -/
def Obligations.StepKeepsInv : Prop := ∀ s t : State, s.Inv → step s = .next t → t.Inv

/-- The state after reset has the invariant, and no command waits. -/
def Obligations.ResetInv : Prop := State.reset.Inv ∧ State.reset.queueOk = true ∧ State.reset.pending = []

/-- A command faults exactly when no wire can carry its operands; no command is refused. The spec names no such fault: that these operands fault is
the model's choice (log entry 51). -/
def Obligations.FaultsExactly : Prop :=
  ∀ (c : Instr) (s : State), (exec c s = .fault .malformed ↔ c.wf = false) ∧ (c.wf = true → ∃ t, exec c s = .next t)

/-- In reset every command but the resets, the test wrapper, the end of a running AIT and a sample of the Health Monitor leaves the block as it is.
Which commands act while a reset is held is the model's reading (log entry 14). -/
def Obligations.HeldInReset : Prop :=
  ∀ (c : Instr) (s : State), c.wf = true → s.inReset = true → actsInReset c = false → exec c s = .next s

/-- Only the resets, the fuse read and the end of the clear sweep change the fuse words, the straps and what else surrounds the block; no
command changes the queue. -/
def Obligations.EnvironmentKept : Prop :=
  ∀ (c : Instr) (s t : State), settles c = false → exec c s = .next t → t.env = s.env ∧ t.pending = s.pending

/-! ## Reset, fuses and interrupts -/

/-- Cold reset samples the straps, begins the fuse read and the sweep, and gives every register and memory its reset value. Warm reset keeps the
fuse words, the straps, the Health Monitor, ECC_LOG, ECC_RETIRE and the spare units. The assertion of a reset stops the block where it is, and
that of a cold one ends a fuse read. That a warm reset with the strap at 1 trains again is the model's reading (log entry 26); the zero and empty
values of fields for which the spec states no reset value are the model's choice (log entry 10). -/
def Obligations.ResetResults : Prop :=
  (∀ (s : State) (autoTrain openMode : Bool), s.bist.wait = none → ∃ t, exec (.coldReset autoTrain openMode) s = .next t ∧
    t.env = { now := s.now, member := s.member, clk := s.clk, aon := s.env.aon, strapTrain := autoTrain, strapOpen := openMode } ∧
    t.sweepDone = false ∧ t.fuseAddr = some 0 ∧ t.out = s.out ++ [.fuseReq 0] ∧ (∀ off, t.rg off = regReset s.member openMode off) ∧
    t.seq = {} ∧ (∀ n, t.pmWord n = 0xFFFFFFFFFFFFFFFF) ∧ (∀ n, t.greg n = 0) ∧ (∀ n k, t.tdWord n k = 0) ∧ (∀ n, t.scratchWord n = 0) ∧
    (∀ n, t.evc n = 0) ∧ t.ops = [] ∧ t.tick = {} ∧ t.hm = { lastAt := s.now } ∧ t.ecc = {} ∧ (∀ m, t.mod m = {}) ∧ (∀ n, t.strm n = {}) ∧
    t.trn = { goWait := autoTrain } ∧ t.commit = none ∧ t.rel = [] ∧ t.twin = {} ∧ t.pwr = {}) ∧
  (∀ s : State, s.bist.wait = none → s.fuseAddr = none → ∃ t, exec .warmReset s = .next t ∧
    t.env = { s.env with inReset := false, cold := false, sweepDone := false } ∧
    t.seq = {} ∧ (∀ n, t.pmWord n = 0xFFFFFFFFFFFFFFFF) ∧ (∀ n, t.greg n = 0) ∧ (∀ n k, t.tdWord n k = 0) ∧ (∀ n, t.scratchWord n = 0) ∧
    (∀ n, t.evc n = 0) ∧ t.ops = [] ∧ t.tick = {} ∧ t.hm = { s.hm with stepReq := none } ∧ t.ecc.retire = s.ecc.retire ∧ t.ecc.ways = s.ecc.ways ∧
    (s.Canonical → ∀ off, t.rg off = if warmKeeps off then s.rg off else regReset s.member s.strapOpen off) ∧
    (∀ m, (t.mod m).st = .down) ∧ (∀ n, t.strm n = {}) ∧ t.trn = { goWait := s.strapTrain } ∧ t.commit = none ∧ t.rel = [] ∧ t.twin = {} ∧
      t.pwr = {}) ∧
  (∀ (s : State) (cold : Bool), ∃ t, exec (.resetAssert cold) s = .next t ∧ t.inReset = true ∧
    t.env.cold = (s.env.cold || cold) ∧ t.fuseAddr = (if cold then some 0 else s.fuseAddr) ∧ t.seq = s.seq ∧ t.pm = s.pm ∧ t.td = s.td ∧
      t.g = s.g ∧ t.mods = s.mods ∧ t.ops = s.ops)

/-- The fuse read takes its words one by one, and the end of the sweep shows. An identity word that permits no more than the assembly test leaves the
tick FREE (what EN did before that word was read is the model's choice, log entry 66). -/
def Obligations.FuseRead : Prop :=
  ∀ (s : State) (w : W32) (a : Nat), s.inReset = false → s.fuseAddr = some a →
    (a < 2 * modules s.member → ∃ t, exec (.fuseAck w) s = .next t ∧ t.fuseAddr = some (a + 1) ∧ (a = 0 → t.fuseId = w) ∧
      (a = 0 → (s.updEnv fun e => { e with fuseId := w }).fuseOk = false → t.tickOn = false) ∧
      (a ≠ 0 → spGet 0 t.fuseLanes a = w ∧ t.fuseId = s.fuseId) ∧ t.out = s.out ++ [.fuseReq (a + 1)]) ∧
    (a = 2 * modules s.member → s.trn.goWait = false → ∃ t, exec (.fuseAck w) s = .next t ∧ t.fuseAddr = none ∧ spGet 0 t.fuseLanes a = w ∧
      (∀ m < modules s.member, (t.mod m).fuseTx = fuseWordLanes (spGet 0 t.fuseLanes (1 + 2 * m)) ∧
        (t.mod m).fuseRx = fuseWordLanes (spGet 0 t.fuseLanes (2 + 2 * m)))) ∧
    (s.sweepDone = false → s.trn.goWait = false → exec .resetClearSweepDone s = .next (s.updEnv fun e => { e with sweepDone := true }))

/-- An event that raises irq[n] sets IRQ_PEND[n] and leaves the other bits; the outputs are IRQ_PEND AND IRQ_EN. -/
def Obligations.Interrupts : Prop :=
  ∀ (s : State) (n : Nat), n < 8 →
    bit ((s.irq n).rg 0x30) n = true ∧ (∀ k, k < 32 → k ≠ n → bit ((s.irq n).rg 0x30) k = bit (s.rg 0x30) k) ∧
    (∀ k, k < 8 → s.irqOut.getLsbD k = (bit (s.rg 0x30) k && bit (s.rg 0x34) k)) ∧
    (∀ off, off ≠ 0x30 → (s.irq n).rg off = s.rg off)

/-- A tick number is 48 bits wide and wraps: one below 2^48 is followed by one below 2^48, and 2^48 - 1 by 0. A tick T is in the future when
(T - current) mod 2^48 lies in [1, 2^47 - 1]. -/
def Obligations.FutureTick : Prop :=
  (∀ s : State, s.tick.num < 2 ^ 48 →
    let t := s.turnPhase
    t.tick.num < 2 ^ 48 ∧ (s.tick.first = false → t.tick.num = if s.tick.num = 2 ^ 48 - 1 then 0 else s.tick.num + 1)) ∧
  (∀ t c : Nat, t < 2 ^ 48 → c < 2 ^ 48 →
    let d := ((t : Int) - (c : Int)) % 2 ^ 48
    (future t c = true ↔ 1 ≤ d ∧ d ≤ 2 ^ 47 - 1))

/-! ## Training -/

/-- The start of a training, and its presence messages: a start begins it once the reset is over; PRESENT ends phase 1 with the answer and
the record; it is sent again every 2,400 cc at 2.4 GHz, and its absence is noted after 1 ms. PRESENT goes out for every module that trains, and the
exchange goes on over the lowest-numbered module that has answered (the model's reading, log entry 25). -/
def Obligations.TrainingStart : Prop :=
  ∀ s : State, s.inReset = false →
    (s.trainRuns = false → s.resetOver = true →
      s.cfgReady = true → exec .trnCtrlGo s = .next (((s.accessed.updTrn fun t => { t with goWait := true }).beginTraining).cfgAnswer 32 0)) ∧
    (s.trainRuns = false → s.resetOver = false → s.cfgReady = true →
      exec .trnCtrlGo s = .next (s.ported.updTrn fun t => { t with goWait := true })) ∧
    (∀ m x, m < 16 → s.Hears x 0x10 0 m → s.trn.open_ = false → s.trn.st = 1 → ∃ t, exec (.present m x) s = .next t ∧
      t.out = s.out ++ [.sideband m (sbMake 0x10 m []), .sideband m (sbMake 0x11 m s.capRecord)] ∧
      t.trn = { s.trn with st := 2, via := m, nopeer := false, nextSend := s.now + s.dur 2400 } ∧ t.mods = s.mods ∧ t.regs = s.regs) ∧
    (∀ m x, m < 16 → s.Hears x 0x10 0 m → s.trn.open_ = false → s.trn.st = 2 → s.trn.peer = [] → ∃ t, exec (.present m x) s = .next t ∧
      t.out = s.out ++ [.sideband m (sbMake 0x10 m [])] ∧ t.trn = { s.trn with via := min s.trn.via m } ∧ t.mods = s.mods ∧ t.regs = s.regs) ∧
    (s.trn.st = 1 → s.trn.nextSend ≤ s.now → ∃ t, exec .presentResend s = .next t ∧
      t.out = s.out ++ s.trainees.map (fun m => .sideband m (sbMake 0x10 m [])) ∧ t.trn = { s.trn with nextSend := s.now + s.dur 2400 } ∧
      t.mods = s.mods ∧ t.regs = s.regs) ∧
    (s.trn.st = 1 → s.trn.since + s.dur 2400000 ≤ s.now → exec .nopeer s = .next { s with trn := { s.trn with nopeer := true } })

/-- The capability exchange: a record whose check word holds is acknowledged with that word and held; the acknowledgement of the own record
stops its repetition. Phase 2 ends when both have come. -/
def Obligations.CapabilityExchange : Prop :=
  ∀ (s : State) (m : Nat) (x : SbMsg), m < 16 → s.trn.open_ = false → s.trn.st = 2 →
    (s.Hears x 0x11 8 m → recordValid x.words = true → s.trn.acked = false → s.trn.peer = [] → ∃ t, exec (.caprec m x) s = .next t ∧
      t.trn = { s.trn with peer := x.words } ∧ t.out = s.out ++ [.sideband m (sbMake 0x12 m [bf 64 31 0 (fld (x.words.getD 7 0) 31 0)])] ∧
      t.mods = s.mods ∧ t.regs = s.regs) ∧
    (s.Hears x 0x11 8 m → recordValid x.words = false → exec (.caprec m x) s = .next s) ∧
    (s.Hears x 0x12 1 m → fld (sbWord x 0) 31 0 = fld (s.capRecord.getD 7 0) 31 0 → s.trn.peer = [] →
      exec (.capack m x) s = .next { s with trn := { s.trn with acked := true } }) ∧
    (s.Hears x 0x12 1 m → fld (sbWord x 0) 31 0 = fld (s.capRecord.getD 7 0) 31 0 → s.trn.peer ≠ [] →
      exec (.capack m x) s = .next (({ s with trn := { s.trn with acked := true } } : State).phase2End true))

/-- What the peer's training messages about a module leave with it: the failed lanes of the own transmit direction, and the peer's latency. -/
def Obligations.TrainingMessages : Prop :=
  ∀ (s : State) (m : Nat) (x : SbMsg), m < 16 →
    (s.Hears x 0x13 2 m → (s.mod m).st = .training → ((s.mod m).laneGot = false ∨ (s.mod m).laneSent = false) →
      exec (.lanemap m x) s = .next (s.updMod m fun y =>
        { y with failTx := lanesOf (bf 68 63 0 (sbWord x 0).toNat ||| bf 68 67 64 (fld (sbWord x 1) 3 0)), laneGot := true })) ∧
    (s.Hears x 0x14 1 m → (s.mod m).st = .training → ((s.mod m).palGot = false ∨ (s.mod m).palSent = false) →
      exec (.palat m x) s = .next (s.updMod m fun y => { y with peerLat8 := fld (sbWord x 0) 15 0, palGot := true })) ∧
    (s.Hears x 0x15 1 m → fld (sbWord x 0) 3 0 = 5 → s.trn.open_ = false → s.trn.st = 3 → fld (sbWord x 0) 7 4 = s.trn.rate →
      s.trn.passMine = none → exec (.phase m x) s = .next { s with trn := { s.trn with passPeer := some (bit (sbWord x 0) 8) } }) ∧
    (s.Hears x 0x15 1 m → fld (sbWord x 0) 3 0 = 5 → s.trn.open_ = false → s.trn.st = 3 → fld (sbWord x 0) 7 4 = s.trn.rate →
      s.trn.passMine = some true → bit (sbWord x 0) 8 = false → (∀ k ∈ s.inTraining, (s.mod k).tphase ≤ 5 ∨ 8 ≤ (s.mod k).tphase) → s.trn.rate ≠ 0 →
      exec (.phase m x) s = .next
        ((s.updTrn fun t => { t with passPeer := some false, steps := t.steps + 1 }).toLock (s.trn.rate - 1)))

/-- The phases of a module: the lock, the failed lanes that its LANEMAP names, the latency that its PALAT names; a message without its
answer is sent again; an Open-mode module whose UCIe link goes down is DOWN. -/
def Obligations.TrainingPhases : Prop :=
  ∀ (s : State) (m : Nat) (r : PhyReport), s.inReset = false → m < 16 → m < modules s.member →
    (s.trn.open_ = false → (s.mod m).st = .training →
      ((s.mod m).tphase = 3 → exec (.trainingPhaseComplete m r) s = .next (s.updMod m fun x =>
        { x with tphase := 4, clkP := r.lockP, frmP := r.lockP, clkA := r.lockA && altSet s.member, frmA := r.lockA && altSet s.member,
                 altSel := !r.lockP && altSet s.member })) ∧
      ((s.mod m).tphase = 4 → exec (.trainingPhaseComplete m r) s = .next ((s.updMod m fun x =>
        { x with tphase := 5, failRx := lanesOf (bf 68 63 0 r.failData.toNat ||| bf 68 67 64 r.failSpare.toNat), laneSent := true }).sendLanemap m)) ∧
      ((s.mod m).tphase = 6 → (s.mod m).retrain ≠ none → exec (.trainingPhaseComplete m r) s = .next ((s.updMod m fun x =>
        { x with tphase := 7, lat8 := r.lat8.toNat, marker8 := r.marker8.toNat, palSent := true }).sendPalat m)) ∧
      (∀ k, (s.mod m).tphase = 7 → (s.mod m).palGot = true → (s.mod m).retrain = some k →
        ∃ t, exec (.trainingPhaseComplete m r) s = .next t ∧ (t.mod m).nakHold = nakHoldOf (s.mod m).lat8 (s.mod m).peerLat8 ∧
          (t.mod m).retrain = some { k with phase7 := true } ∧ (∀ j, j ≠ m → t.mod j = s.mod j) ∧ t.regs = s.regs)) ∧
    (s.trn.open_ = true → (s.mod m).carries = true → exec (.ucieLinkDown m) s = .next (s.modDown m)) ∧
    (s.trn.open_ = true → s.trn.st = 2 → ∀ (idx : BitVec 3) (w : W64), ∃ t, exec (.vendorCapabilityMessage idx Config.vendorId w) s = .next t ∧
      t.trn = { s.trn with openWords := s.trn.openWords.filter (·.1 != idx.toNat) ++ [(idx.toNat, w)] } ∧ t.mods = s.mods ∧ t.regs = s.regs) ∧
    (s.trn.open_ = false → s.trn.nextSend ≤ s.now → s.trn.st = 2 → s.trn.acked = false → s.trn.passMine = none →
      (∀ k < modules s.member, (s.mod k).st ≠ .training) → ∃ t, exec .trainingMessageResend s = .next t ∧
        t.out = s.out ++ [.sideband s.trn.via (sbMake 0x11 s.trn.via s.capRecord)] ∧ t.trn = { s.trn with nextSend := s.now + s.dur 2400 } ∧
        t.mods = s.mods ∧ t.regs = s.regs)

/-! ## The frame tick and the commit -/

/-- The Solstice: at its cc the phase point of the next tick becomes the current one, the tick number grows by one modulo 2^48 (a root's
first counts 0), and the actions of Table 1-2 follow in order; while an adopted count is held silent nothing else happens (that the count goes on
silently is the model's reading, log entry 43, and that a LOCKED follower has its Solstice with its pulse alone with it).
The slot lookup of step 5 (R32 to R34) reads the active entry at the tick number mod SLOT_COUNT: before the deadline of a running program nothing
starts; an entry with V at 0 starts nothing; with V at 1 an idle sequencer starts its program, which belongs to this tick and has its deadline SPAN
+ 1 ticks on, to issue 4 cc after this cc; after an overrun found at this Solstice SKIP and HALT skip and count it, and DEFER, or an earlier waiting
program, has it wait; while a program runs past its deadline it waits under DEFER and is skipped and counted else; halted or trapped, it is
skipped and counted; stopped, it is not. -/
def Obligations.SolsticeResult : Prop :=
  (∀ (s : State) (t : Nat), s.inReset = false → s.seq.stopReq = none → s.tickOn = true → s.byPulse = false → s.tick.nextSol = some t → t ≤ s.now →
    (s.sounds = true → exec .solstice s = .next ((s.slipFlush.turnPhase.solsticeActs t).nextPhase) ∧
      s.slipFlush.turnPhase.tick.num = (if s.tick.first then 0 else (s.tick.num + 1) % 2 ^ 48) ∧
      s.slipFlush.turnPhase.tick.phase8 = s.tick.phase8 + 8 * s.rf 0x2004 24 0) ∧
    (s.sounds = false → ∃ u, exec .solstice s = .next u ∧ u.tick.num = (if s.tick.first then 0 else (s.tick.num + 1) % 2 ^ 48) ∧
      u.tick.phase8 = s.tick.phase8 + 8 * s.rf 0x2004 24 0 ∧ u.tick.nextSol = some ((s.tick.phase8 + 16 * s.rf 0x2004 24 0) / 8) ∧
      u.seq = s.seq ∧ u.regs = s.regs ∧ u.mods = s.mods ∧ u.ops = s.ops)) ∧
  (∀ (s : State) (n t policy : Nat) (wasLate : Bool),
    let i := n % max 1 (s.rf 0x201C 8 0)
    let w := s.rg (0x2400 + 4 * i)
    let p : Prog := { tick := n, slot := i, entry := fld w 13 0, deadline := (n + fld w 23 20 + 1) % 2 ^ 48, serial := s.seq.serial + 1 }
    let v := s.slotLookup n t policy wasLate
    let early := (s.seq.st = .running ∨ s.seq.st = .waiting) ∧ ∃ q, s.seq.prog = some q ∧ future q.deadline n = true
    let skipped := fld (v.rg 0x2014) 31 16 = min (fld (s.rg 0x2014) 31 16 + 1) 65535 ∧ v.seq = s.seq ∧ v.g = s.g
    (early → v = s) ∧
    (¬ early → s.upsetAt 3 (128 + i / 2) = 0 →
      (bit w 31 = false → v = s) ∧
      (bit w 31 = true →
        (s.seq.st = .stopped → v = s) ∧ (s.seq.st = .halted ∨ s.seq.st = .trapped → skipped) ∧
        (s.seq.st = .idle → s.seq.defer = none →
          (wasLate = true → policy ≠ 0 → skipped) ∧
          (wasLate = false ∨ policy = 0 → (∀ u, s.seq.startAt = some u → u < t) → v.seq.st = .running ∧ v.seq.prog = some p ∧
            v.seq.pc = fld w 13 0 ∧ v.seq.nextAt = s.now + 4 ∧ v.seq.stack = [] ∧ v.greg 30 = BitVec.ofNat 64 n ∧ v.greg 31 = BitVec.ofNat 64 i ∧
            v.seq.p = s.seq.p ∧ v.scratch = s.scratch)) ∧
        (s.seq.st = .idle → s.seq.defer ≠ none → v.seq = { s.seq with defer := some p, deferAt := s.now + 4 } ∧
          fld (v.rg 0x2014) 31 16 = min (fld (s.rg 0x2014) 31 16 + 1) 65535) ∧
        (s.seq.st = .running ∨ s.seq.st = .waiting →
          (policy = 0 → v.seq = { s.seq with defer := some p, deferAt := s.now + 4 } ∧
            (s.seq.defer ≠ none → fld (v.rg 0x2014) 31 16 = min (fld (s.rg 0x2014) 31 16 + 1) 65535)) ∧
          (policy ≠ 0 → skipped)))))

/-- The overruns of a deadline are recorded once, at its Solstice: OVERRUN, OVR_PROG and OVR_WORK, the count, which grows by one for each
program whose work is not complete and saturates, and irq[2]. Under HALT the sequencer stops at its next instruction boundary, at once where it
stands at one; that OVERRUN of a Solstice's cc acts before the Solstice is the model's reading (log entry 15).
A program that an overrun deferred starts 4 cc after the END before it: g30 and g31 name its tick and slot, PC its entry point, the call
stack is empty, and the other registers, the flags, the scratch memory and the event counters stay. While the tick is FREE none starts. -/
def Obligations.OverrunAndDefer : Prop :=
  (∀ s : State, s.inReset = false → s.seq.stopReq = none → s.solNow = true →
    let n := s.nextTick
    (s.late n = false → exec .overrun s = .next s) ∧
    (s.late n = true → s.seq.ovrAt ≠ some n → ∃ u, exec .overrun s = .next u ∧ bit (u.rg 0x2010) 5 = true ∧
      fld (u.rg 0x2014) 15 0 =
        min (fld (s.rg 0x2014) 15 0 + ((s.dueProgs n).filter fun p => s.unended p || s.workLeft p).length) 65535 ∧
      bit (u.rg 0x30) 2 = true ∧ u.tick = { s.tick with ovrProg := s.progLate n, ovrWork := s.workLate n } ∧ u.seq.ovrAt = some n ∧
      u.ops = s.ops ∧ u.g = s.g ∧ u.mods = s.mods ∧
      (s.rf 0x2000 5 4 ≠ 2 → u.seq = { s.seq with ovrAt := some n, past := s.seq.past.map (·.judge n), prog := s.seq.prog.map (·.judge n),
                                                  defer := s.seq.defer.map (·.judge n) }) ∧
      (s.rf 0x2000 5 4 = 2 →
        (s.seq.st = .running → s.seq.stall ≠ none ∨ s.now < s.seq.nextAt →
          u.seq.st = .running ∧ u.seq.stopReq = some { halt := true, clr := false, start := none }) ∧
        (s.seq.st = .idle ∨ s.seq.st = .waiting ∨ (s.seq.st = .running ∧ s.seq.stall = none ∧ s.seq.nextAt ≤ s.now) →
          u.seq.st = .halted ∧ u.seq.stopReq = none)))) ∧
  (∀ s : State, s.inReset = false → s.seq.stopReq = none → s.solNow = false → exec .overrun s = .next s) ∧
  (∀ (s : State) (p : Prog), s.inReset = false → s.seq.stopReq = none → s.seq.defer = some p →
    (s.tickOn = false ∨ s.seq.st ≠ .idle ∨ s.now < s.seq.endAt + 4 ∨ s.now < s.seq.deferAt → exec .deferredProgramStart s = .next s) ∧
    (s.tickOn = true → s.seq.st = .idle → s.seq.endAt + 4 ≤ s.now → s.seq.deferAt ≤ s.now → ∃ u, exec .deferredProgramStart s = .next u ∧
      u.seq.st = .running ∧ u.seq.pc = p.entry % 16384 ∧ u.seq.stack = [] ∧ u.seq.defer = none ∧ u.seq.p = s.seq.p ∧ u.seq.nextAt = s.now ∧
      u.greg 30 = BitVec.ofNat 64 p.tick ∧ u.greg 31 = BitVec.ofNat 64 p.slot ∧ (∀ n, n ≠ 30 → n ≠ 31 → u.greg n = s.greg n) ∧
      u.scratch = s.scratch ∧ u.ev = s.ev ∧ u.td = s.td ∧ u.rg64 0x30018 = (bf 64 63 16 p.tick ||| bf 64 13 0 p.entry)))

/-- EN, ROLE and REACQ of TICK_CTRL, and the restart of core_clk: a role is written only while EN is 0, and root only on die 0, where a write on
another die sets ROLE_ERR; EN at 1 acquires, a root's first Solstice TICK_PERIOD later; REACQ forces ACQUIRE but for a root. A block whose fuses
permit no program takes neither EN nor root. The model's choices: a write of root away from die 0 while EN is 1 sets nothing, EN at 0 drops and
counts a program that waits under DEFER (both log entry 56), and a relay or follower never phased brings no Solstice (log entry 79); after a stop of
core_clk a relay or follower acquires, and a root keeps its count from a new phase (log entry 22).
A DIGEST goes out every 4,800 cc while the tick is FREE; a held contribution whose slot stays shut for HV_HOLD.LIMIT ticks is dropped; a relay
without markers acquires anew. -/
def Obligations.TickControl : Prop :=
  (∀ s : State, s.cfgReady = true →
    (s.tickOn = false → s.blank = true → exec (.tickEn true) s = .next s.ported) ∧
    (∀ en, en = s.tickOn → exec (.tickEn en) s = .next s.ported) ∧
    (s.tickOn = false → s.blank = false → ∃ u, exec (.tickEn true) s = .next u ∧ u.tick =
        { s.tick with lock := 1, cand := none, miss := 0, got := false, mute := none, first := decide (s.tickRole = 2), phase8 := 8 * s.now,
                      nextSol := if s.tickRole = 2 then some (s.now + s.period) else none } ∧
      u.tickOn = true ∧ u.seq = { s.seq with ovrAt := none, defer := none } ∧ u.mods = s.mods) ∧
    (s.tickOn = true → ∃ u, exec (.tickEn false) s = .next u ∧ u.tick =
        { s.tick with lock := 0, nextSol := none, cand := none, markerDue := false, mute := none } ∧ u.tickOn = false ∧
      u.seq = { s.seq with ovrAt := none, defer := none } ∧ u.mods = s.mods) ∧
    (∀ role : BitVec 2, s.tickOn = true ∨ role = 3 → exec (.tickRoleWrite role) s = .next s.ported) ∧
    (∀ role : BitVec 2, s.tickOn = false → role ≠ 3 → (role ≠ 2 ∨ (s.die = 0 ∧ s.blank = false)) →
      exec (.tickRoleWrite role) s = .next (s.ported.setRf 0x2000 1 0 role.toNat)) ∧
    (s.tickOn = false → s.die ≠ 0 → ∃ u, exec (.tickRoleWrite 2) s = .next u ∧ bit (u.rg 0x2010) 4 = true ∧ u.rf 0x2000 1 0 = s.rf 0x2000 1 0 ∧
      u.tick = s.tick) ∧
    (s.tickOn = false → s.die = 0 → s.blank = true → exec (.tickRoleWrite 2) s = .next s.ported) ∧
    (s.tickOn = true → s.tickRole ≠ 2 → s.byPulse = false →
      exec .tickReacq s = .next { s.ported with tick := { s.tick with lock := 1, cand := none } }) ∧
    (s.tickOn = true → s.byPulse = true → ∃ u, exec .tickReacq s = .next u ∧ u.tick.lock = 1 ∧ u.tick.num = s.tick.num ∧ u.seq = s.seq ∧
      u.regs = s.regs ∧ (8 * s.now < s.tick.phase8 + 8 * s.period → s.tick.phase8 % 8 = 0 → 0 < s.period → u.tick.phase8 = s.tick.phase8 ∧
        u.tick.nextSol = some (s.tick.phase8 / 8 + s.period))) ∧
    (s.tickOn = true → s.tickRole = 2 → exec .tickReacq s = .next s.ported)) ∧
  (∀ s : State, s.inReset = false →
    (s.pwr.st = 3 ∨ s.pwr.st = 4 → s.tickOn = true → s.tickRole ≠ 2 →
      exec .coreClkRestart s = .next { s with tick := { s.tick with lock := 1, cand := none, miss := 0, got := false, nextSol := none } }) ∧
    (s.pwr.st = 3 ∨ s.pwr.st = 4 → s.tickOn = true → s.tickRole = 2 → exec .coreClkRestart s = .next { s with tick :=
      { s.tick with lock := 1, cand := none, miss := 0, got := false, phase8 := 8 * s.now, nextSol := some (s.now + s.period) } }) ∧
    (s.tick.lock = 0 → s.digestAt + 4800 ≤ s.now → exec .digestFreeTimer s = .next (s.sendDigest s.now)) ∧
    (s.now < s.digestAt + 4800 → exec .digestFreeTimer s = .next s) ∧
    (∀ r, s.rel.filter s.heldOver = [r] →
      (r.msg.mtype = 0x10 → exec .hvHoldExpiry s = .next (s.dropStale r (bit r.msg.arg 26) (contribOrig r.msg) 9)) ∧
      (r.msg.mtype = 0x11 → exec .hvHoldExpiry s = .next (s.dropStale r (bit r.msg.arg 26) (contribOrig r.msg) 0xC)) ∧
      (r.msg.mtype = 0x12 → exec .hvHoldExpiry s = .next (s.dropStale r (bit r.msg.arg 36) (expertOrig r.msg) 0xC))) ∧
    ((∀ r ∈ s.rel, s.heldOver r = false) → exec .hvHoldExpiry s = .next s) ∧
    (s.tickOn = true → s.tickRole = 1 → 16 ≤ s.tick.miss + (if s.markMissed = true ∧ s.pwr.st ≠ 3 ∧ s.pwr.st ≠ 4 then 1 else 0) →
      exec .nomark s = .next { s with tick := { s.tick with lock := 1, nomark := true, cand := none, miss := 0, got := true } }) ∧
    (s.tick.miss + (if s.markMissed = true ∧ s.pwr.st ≠ 3 ∧ s.pwr.st ≠ 4 then 1 else 0) < 16 → exec .nomark s = .next s))

/-- A tick pulse: ignored by a root and a relay and while EN is 0. At a LOCKED follower one exactly TICK_PERIOD cc after the previous one, with the
next tick's number, is its Solstice. Any other is a skew fault, be it another number at that cc or any number at another cc: SKEW, irq[1] and the
count, FAULT, and a PHASE_ERR measured from that cc; only the cc of the previous pulse itself brings nothing new (the model's reading, log entry
43). In ACQUIRE, and in FAULT, which the pulse leaves for ACQUIRE, the first one opens a run; one with the next number and at most 1/8 cc from its
time lengthens it, and any other starts a run of its own; the fourth is adopted, and LOCKED with it. -/
def Obligations.TickPulseResult : Prop :=
  ∀ (s : State) (num : BitVec 48), s.inReset = false → s.seq.stopReq = none →
    (s.tickOn = false ∨ s.tickRole ≠ 0 → exec (.tickPulse num) s = .next s) ∧
    (s.tickOn = true → s.tickRole = 0 →
      let err : Int := ((8 * s.now : Nat) : Int) - ((s.tick.phase8 + 8 * s.period : Nat) : Int)
      (s.tick.lock = 2 →
        (num.toNat = s.nextTick → err = 0 →
          exec (.tickPulse num) s = .next (({ s with tick := { s.tick with phaseErr := 0 } } : State).turn s.now)) ∧
        (num.toNat = s.tick.num → 8 * s.now = s.tick.phase8 → num.toNat ≠ s.nextTick →
          exec (.tickPulse num) s = .next { s with tick := { s.tick with phaseErr := 0 } }) ∧
        (num.toNat ≠ s.nextTick ∨ err ≠ 0 → num.toNat ≠ s.tick.num ∨ 8 * s.now ≠ s.tick.phase8 → ∃ u, exec (.tickPulse num) s = .next u ∧
          u.tick.lock = 3 ∧ u.tick.cand = none ∧ u.tick.phaseErr = BitVec.ofInt 8 (max (-127) (min 127 err)) ∧
          bit (u.rg 0x2010) 2 = true ∧ fld (u.rg 0x2018) 15 0 = min (fld (s.rg 0x2018) 15 0 + 1) 65535 ∧ bit (u.rg 0x30) 1 = true ∧
          u.tick.num = s.tick.num ∧ u.seq = s.seq ∧ u.mods = s.mods)) ∧
      (s.tick.lock = 1 ∨ s.tick.lock = 3 →
        let opens : Option Cand := some { num := num.toNat, phase8 := 8 * s.now, run := 1 }
        (s.tick.cand = none ∨ s.tick.lock = 3 →
          exec (.tickPulse num) s = .next { s with tick := { s.tick with lock := 1, cand := opens } }) ∧
        (∀ c, s.tick.lock = 1 → s.tick.cand = some c →
          let e : Int := ((8 * s.now : Nat) : Int) - ((c.phase8 + 8 * s.period : Nat) : Int)
          let sat := BitVec.ofInt 8 (max (-127) (min 127 e))
          (num.toNat ≠ (c.num + 1) % 2 ^ 48 ∨ e < -1 ∨ 1 < e →
            exec (.tickPulse num) s = .next { s with tick := { s.tick with phaseErr := sat, cand := opens } }) ∧
          (num.toNat = (c.num + 1) % 2 ^ 48 → -1 ≤ e → e ≤ 1 →
            (c.run < 3 → exec (.tickPulse num) s = .next { s with tick := { s.tick with
              phaseErr := sat, cand := some { num := num.toNat, phase8 := c.phase8 + 8 * s.period, run := c.run + 1 } } }) ∧
            (3 ≤ c.run → ∃ u, exec (.tickPulse num) s = .next u ∧ u.tick.lock = 2 ∧ u.tick.num = num.toNat ∧
              u.tick.phase8 = c.phase8 + 8 * s.period ∧ u.tick.nextSol = some ((c.phase8 + 16 * s.period) / 8) ∧ u.tick.cand = none ∧
              u.g = s.g ∧ u.mods = s.mods)))))

/-- A tick marker that verifies: a root measures its phase error and never corrects its phase, its tick or its lock; a LOCKED relay takes the
markers of SRC_MODULE and corrects its phase within half a cc; at either a larger error, or a marker that names another tick than its own, is a skew
fault, which takes a relay to FAULT and leaves a root LOCKED; a follower ignores markers; a relay in ACQUIRE opens a run. What another tick's
marker is measured against is the model's reading (log entry 43), and that a root measures none before its first Solstice its choice (log
entry 56). -/
def Obligations.MarkerResult : Prop :=
  ∀ (s : State) (m : Nat) (f g : List Byte) (fixed : List Nat) (seed : Nat) (frac : BitVec 3), s.Accepts m f g fixed seed →
    (flitType g = 3 → (g.getD 4 0).toNat = 1 → exec (.tickMarker m f frac) s =
      .next ((s.heard m g fixed).marker m (leAt g 6 6) (8 * s.now + frac.toNat) (leAt g 12 2))) ∧
    (∀ (u : State) (n a off : Nat), u.tickOn = true → u.openMode = false →
      let v := u.marker m n a off
      let ph : Int := (a : Int) - ((u.mod m).marker8 : Int) - (off : Int)
      let e := ph - (u.tick.phase8 : Int)
      let skews := bit (v.rg 0x2010) 2 = true ∧ bit (v.rg 0x30) 1 = true ∧
        fld (v.rg 0x2018) 15 0 = min (fld (u.rg 0x2018) 15 0 + 1) 65535
      (u.tickRole = 0 → v = u) ∧
      (u.tickRole = 1 → u.rf 0x2000 11 8 ≠ m → v = u) ∧
      (u.tickRole = 1 → u.rf 0x2000 11 8 = m → u.tick.lock = 2 → v.tick.num = u.tick.num ∧
        (n = u.tick.num → -4 ≤ e → e ≤ 4 → v.tick.phase8 = ((u.tick.phase8 : Int) + e).toNat ∧
          v.tick.nextSol = some ((v.tick.phase8 + 8 * u.period) / 8) ∧ v.tick.lock = 2 ∧ v.regs = u.regs) ∧
        (n ≠ u.tick.num ∨ e < -4 ∨ 4 < e → v.tick.lock = 3 ∧ v.tick.phase8 = u.tick.phase8 ∧ skews)) ∧
      (u.tickRole = 1 → u.rf 0x2000 11 8 = m → u.tick.lock = 1 → u.tick.cand = none →
        v.tick = { u.tick with got := true, miss := 0, cand := some { num := n, phase8 := ph.toNat, run := 1 } } ∧ v.regs = u.regs) ∧
      (u.tickRole = 2 → u.locked = false → v = u) ∧
      (u.tickRole = 2 → u.locked = true → v.tick = { u.tick with phaseErr := v.tick.phaseErr } ∧
        (n = u.tick.num → v.tick.phaseErr = BitVec.ofInt 8 (max (-127) (min 127 e))) ∧
        (n = u.tick.num → -4 ≤ e → e ≤ 4 → v.regs = u.regs) ∧ (n ≠ u.tick.num ∨ e < -4 ∨ 4 < e → skews)))

/-- The commit requests: one at a time; for the next Solstice, or for a tick in the future; a second is refused BUSY and a passed target LATE. A
port request and a COMMIT of one cc: the port's counts first, also where the queue has the COMMIT before it (the model's reading, log entry 15).
CANCEL withdraws the pending request; REVERT is ignored while one is pending. The
COMMIT instruction requests as CFG_COMMIT.REQ does, for the next Solstice or for the tick in RA, and with [39] at 1 sets a flag to its acceptance; 4
cc. -/
def Obligations.CommitRequests : Prop :=
  (∀ s : State, s.cfgReady = true → s.cc.late = false →
    let target := (s.rg64 0x1008).toNat % 2 ^ 48
    (s.commit = none → ∃ t, exec (.cfgCommitReq true) s = .next t ∧
      t.commit = some { target := none, viaSeq := false, at_ := s.now, flag := none } ∧
      t.rf 0x1010 2 0 = 1 ∧ t.rf 0x1000 1 1 = 1 ∧ t.shadow = s.shadow ∧ t.seq = s.seq ∧ t.mods = s.mods) ∧
    (s.commit = none → future target s.curTick = true → ∃ t, exec (.cfgCommitReq false) s = .next t ∧
      t.commit = some { target := some target, viaSeq := false, at_ := s.now, flag := none } ∧ t.rf 0x1010 2 0 = 1 ∧ t.shadow = s.shadow) ∧
    (s.commit = none → future target s.curTick = false → ∃ t, exec (.cfgCommitReq false) s = .next t ∧
      t.commit = none ∧ t.rf 0x1010 2 0 = 3 ∧ t.shadow = s.shadow) ∧
    (∀ next r, s.commit = some r → r.viaSeq = false ∨ r.at_ ≠ s.now → ∃ t, exec (.cfgCommitReq next) s = .next t ∧ t.commit = s.commit ∧
      bit (t.rg 0x1010) 4 = true ∧ t.seq = s.seq) ∧
    (∀ r, s.commit = some r → r.viaSeq = true → r.at_ = s.now → ∃ t, exec (.cfgCommitReq true) s = .next t ∧
      t.commit = some { target := none, viaSeq := false, at_ := s.now, flag := none } ∧ bit (t.rg 0x1010) 4 = true ∧
      t.seq = match r.flag with
        | some p => { s.seq with p := setFlagOf s.seq.p p false }
        | none => s.seq) ∧
    (s.commit ≠ none → ∃ t, exec .cfgCommitCancel s = .next t ∧ t.commit = none ∧ t.rf 0x1010 2 0 = 6 ∧ t.shadow = s.shadow ∧ t.seq = s.seq) ∧
    (s.commit = none → exec .cfgCommitCancel s = .next s.ported) ∧
    (s.commit ≠ none → exec .cfgCommitRevert s = .next s.ported) ∧
    (s.commit = none → ∃ t, exec .cfgCommitRevert s = .next t ∧ t.regs = s.regs ∧ t.commit = none ∧ t.seq = s.seq ∧
      ∀ off, let k := rwsMask (modules s.member) off
        t.sh off = ((s.sh off &&& ~~~k) ||| (s.rg off &&& k)))) ∧
  (∀ s : State, s.cfgReady = true → s.cc.late = true → s.commit = none → ∃ t, exec (.cfgCommitReq true) s = .next t ∧
    t.commit = some { target := none, viaSeq := false, at_ := s.now, flag := none } ∧ t.rf 0x1010 2 0 = 1 ∧ bit (t.rg 0x1010) 4 = true) ∧
  (∀ (s : State) (w : W64), s.Issues 0x80 w → s.seq.pc < 16383 → zeros w 45 41 = [] → zeros w 38 0 = [] →
    let r := s.commitReq (if bit w 40 then none else some (fld (s.greg (fRa w)) 47 0)) true (if bit w 39 then some (fRd w) else none)
    (bit w 39 = false → zeros w 55 51 = [] → (bit w 40 = true → zeros w 50 46 = []) →
      exec .commit s = .next (r.2.goTo (s.seq.pc + 1) 4)) ∧
    (bit w 39 = true → fRd w < 8 → (bit w 40 = true → zeros w 50 46 = []) →
      exec .commit s = .next ((r.2.setFlag (fRd w) r.1).goTo (s.seq.pc + 1) 4)))

/-- A commit at its Solstice: a passed target ends it LATE, a field out of range INVALID with the lowest offset, a changed digest out of lock
NOLOCK, with no field applied; one for the next Solstice that was accepted in this cc waits for a later one; else it is DONE, and every RWS bit of
the window is copied from its shadow in that one step. That INVALID comes before NOLOCK is the model's reading (log entry 45), and that a request of
the Solstice's own cc waits for a later Solstice is too (log entry 15). -/
def Obligations.CommitAtSolstice : Prop :=
  ∀ (s : State) (r : CommitReq) (cc : Nat), s.commit = some r →
    let n := s.tick.num
    let t := s.commitSolstice cc
    (r.target = none → cc ≤ r.at_ → t = s) ∧
    (∀ g, r.target = some g → future g n = true → t = s) ∧
    (∀ g, r.target = some g → future g n = false → g ≠ n → t.commit = none ∧ t.rf 0x1010 2 0 = 3 ∧ ∀ off, off ≠ 0x1010 → t.rg off = s.rg off) ∧
    ((r.target = none ∧ r.at_ < cc) ∨ r.target = some n → t.commit = none ∧ t.shadow = s.shadow ∧
      (∀ o os, s.outOfRange = o :: os → o < 2 ^ 20 → t.rf 0x1010 2 0 = 4 ∧ t.rf 0x1010 24 5 = o ∧ ∀ off, off ≠ 0x1010 → t.rg off = s.rg off) ∧
      (s.outOfRange = [] → s.digestInput true ≠ s.digestInput false → s.locked = false →
        t.rf 0x1010 2 0 = 5 ∧ ∀ off, off ≠ 0x1010 → t.rg off = s.rg off) ∧
      (s.outOfRange = [] → s.digestInput true = s.digestInput false ∨ s.locked = true →
        t.rf 0x1010 2 0 = 2 ∧ t.rg64 0x1018 = BitVec.ofNat 64 n ∧ ∀ off, off ≠ 0x1010 → off ≠ 0x1018 → off ≠ 0x101C →
          let k := rwsMask (modules s.member) off
          t.rg off = ((s.rg off &&& ~~~k) ||| (s.sh off &&& k))))

/-! ## The configuration port -/

/-- A write and a read of the configuration port. A 32-bit register takes its RW bits, limited where its field map limits them, and loses the W1C
bits written as 1, and every other word stays. An RWS field is written in the shadow copy alone, and in the cc of a Solstice after it. A 64-bit
register takes both halves with the write of its high half, the low one from the write latch, or as it stands where none is held. SEQ_G and SEQ_FLAGS
take writes only while the sequencer is STOPPED, HALTED or TRAPPED. A read answers with the word of the window; the latched half is answered at
once. Either access empties the latches. The answer is due within 32 cc, or 96 cc for a read of a word that the merge buffer may hold; what each
access does is done in the cc of its handshake (when the answer leaves is the model's choice, log entry 63). A first half of a
program-memory word is held; its other half writes the word in one step and frees the entry; an entry of 64 cc is flushed. -/
def Obligations.PortResults : Prop :=
  (∀ (s : State) (off : BitVec 20) (d : W32), s.cfgReady = true → s.seq.stopReq = none →
    let o := off.toNat / 4 * 4
    let e : State := { s with portRd := none, portWr := none }
    let dl := limited s.member o d
    let answered := fun t : State => t.cfgq = s.cfgq ++ [(s.now + 32, 0)] ∧ t.portRd = none ∧ t.portWr = none
    (∀ r, regRow (modules s.member) o = some r → r.half = 0 → merges o = false → e.writeSpecial o d = none → o < 0x30400 ∨ 0x30600 ≤ o → s.hits = [] →
      o ≠ 0x20008 → o ≠ 0x90000 →
      (r.rws = 0 → ∃ t, exec (.cfgPortWrite off d) s = .next t ∧
        t.rg o = (((s.rg o &&& ~~~(d &&& r.w1c)) &&& ~~~r.rw) ||| (dl &&& r.rw)) ∧ (∀ k, k ≠ o → t.rg k = s.rg k) ∧
        answered t ∧ t.seq = s.seq ∧ t.mods = s.mods ∧ t.shadow = s.shadow) ∧
      (r.rws ≠ 0 → r.rw = 0 → r.w1c = 0 → s.sweepDone = true →
        (s.solNow = false → ∃ t, exec (.cfgPortWrite off d) s = .next t ∧ t.sh o = ((s.sh o &&& ~~~r.rws) ||| (dl &&& r.rws)) ∧
          (∀ k, k ≠ o → t.sh k = s.sh k) ∧ t.regs = s.regs ∧ answered t ∧ t.seq = s.seq ∧ t.mods = s.mods) ∧
        (s.solNow = true → ∃ t, exec (.cfgPortWrite off d) s = .next t ∧ t.shadow = s.shadow ∧ t.regs = s.regs ∧
          t.cc.hold = s.cc.hold ++ [(o, dl)] ∧ answered t))) ∧
    (o = 0x20000 → fld dl 23 16 = max 1 (fld d 23 16)) ∧ (o = 0x10004 → fld dl 15 0 = max 240 (fld d 15 0)) ∧
    (o = 0xA0008 → fld dl 15 12 = min (maxRate s.member) (fld d 15 12)) ∧
    (o = 0xA0104 → fld dl 20 16 = min (modules s.member) (max 1 (fld d 20 16))) ∧
    (∀ u : State, u = (e.clearW1c o d).storeWord o dl →
      (o = 0x20008 → exec (.cfgPortWrite off d) s = .next (u.flowAll.cfgAnswer 32 0)) ∧
      (o = 0x90000 → exec (.cfgPortWrite off d) s = .next (u.twinCheck.cfgAnswer 32 0))) ∧
    (∀ r, regRow (modules s.member) o = some r → r.half = 1 → r.w1c = 0 → o < 0x30400 ∨ 0x30600 ≤ o → merges o = false → s.hits = [] →
      ∃ t, exec (.cfgPortWrite off d) s = .next t ∧ t.portWr = some (o, d) ∧ t.portRd = none ∧ t.regs = s.regs ∧ t.shadow = s.shadow ∧ t.g = s.g) ∧
    (∀ r q, regRow (modules s.member) o = some r → regRow (modules s.member) (o - 4) = some q → r.half = 2 → r.w1c = 0 → r.rws = 0 → q.rws = 0 →
      4 ≤ o → o < 0x30100 ∨ 0x30600 ≤ o → o < 0x70380 ∨ 0x703C0 ≤ o → o ≠ 0x8000C → merges o = false → s.hits = [] →
      (∀ lo, s.portWr = some (o - 4, lo) → ∃ t, exec (.cfgPortWrite off d) s = .next t ∧
        t.rg (o - 4) = ((s.rg (o - 4) &&& ~~~q.rw) ||| (lo &&& q.rw)) ∧ t.rg o = ((s.rg o &&& ~~~r.rw) ||| (d &&& r.rw)) ∧
        (∀ k, k ≠ o → k ≠ o - 4 → t.rg k = s.rg k) ∧ answered t) ∧
      (s.portWr = none → ∃ t, exec (.cfgPortWrite off d) s = .next t ∧ t.rg o = ((s.rg o &&& ~~~r.rw) ||| (d &&& r.rw)) ∧
        (∀ k, k ≠ o → t.rg k = s.rg k) ∧ answered t)) ∧
    (o = 0x30200 → (s.seqOpen = true → exec (.cfgPortWrite off d) s = .next { s.ported with seq := { s.seq with p := d.setWidth 8 } }) ∧
      (s.seqOpen = false → exec (.cfgPortWrite off d) s = .next s.ported)) ∧
    (∀ n lo, n < 32 → o = 0x30104 + 8 * n → s.hits = [] → s.portWr = some (o - 4, lo) →
      (s.seqOpen = true → exec (.cfgPortWrite off d) s = .next (s.ported.setGreg n (d ++ lo))) ∧
      (s.seqOpen = false → exec (.cfgPortWrite off d) s = .next s.ported)) ∧
    (∀ v, s.portRd = some (o, v) → ∃ t, exec (.cfgPortReadLowHalf off) s = .next t ∧
      t.cfgq = s.cfgq ++ [(s.now + (if merges o = true then 96 else 32), v)] ∧ t.portRd = none ∧ t.portWr = none ∧ t.regs = s.regs ∧ t.seq = s.seq) ∧
    (s.portRd = none → merges o = false → memWords o = [] → ∃ t, exec (.cfgPortReadLowHalf off) s = .next t ∧
      t.cfgq = s.cfgq ++ [(s.now + 32, e.viewWord o)] ∧ t.portWr = none ∧
      t.portRd = (if s.lowHalf o then some (o + 4, e.viewWord (o + 4)) else none) ∧
      t.regs = s.regs ∧ t.seq = s.seq ∧ t.mods = s.mods)) ∧
  (∀ (s : State) (off : BitVec 20) (d : W32), s.cfgReady = true → s.seq.stopReq = none → s.sweepDone = true →
    let o := off.toNat / 4 * 4
    let a := o / 8
    (inPm o = true → s.merge = [] → ∃ t, exec (.mergeBufferWrite off d) s = .next t ∧ t.pm = s.pm ∧ t.cfgq = s.cfgq ++ [(s.now + 32, 0)] ∧
      t.merge = [if o % 8 = 0 then { addr := a, lo := some d, hi := none, since := s.now } else { addr := a, lo := none, hi := some d, since :=
        s.now }]) ∧
    (∀ lo c, inPm o = true → o % 8 = 4 → s.merge = [{ addr := a, lo := some lo, hi := none, since := c }] → ∃ t,
      exec (.mergeBufferWrite off d) s = .next t ∧ t.merge = [] ∧ t.pmWord ((o - 0x40000) / 8) = d ++ lo ∧
      (∀ k, k ≠ (o - 0x40000) / 8 → t.pmWord k = s.pmWord k) ∧ t.td = s.td ∧ t.regs = s.regs)) ∧
  (∀ s : State, s.inReset = false → (∀ e, s.merge = [e] → e.since + 64 ≤ s.now → exec .mergeBufferFlush s = .next (s.flushEnt e)) ∧
    ((∀ e ∈ s.merge, s.now < e.since + 64) → exec .mergeBufferFlush s = .next s)) ∧
  (∀ (s : State) (off : BitVec 20) (d : W32), s.inReset = false → s.cfgReady = false → exec (.cfgPortWrite off d) s = .next s ∧
    exec (.cfgPortReadLowHalf off) s = .next s ∧ exec (.mergeBufferWrite off d) s = .next s)

/-- TELEM: RD32 and RD64 load what a port read would return in this cc, the high half with it for RD64; WR32 waits 8 cc for its shadow write, to a
32-bit register at once, to the halves of a 64-bit one with its high half, the low half waiting in the sequencer's own latch; EMIT sends a PROGRAM
record. An offset that is not a multiple of 4, for RD64 of 8, and a register that WR32 may not write trap with BAD_CFG_ADDR; that WR32 traps when it
issues, 8 cc before its write would count, is the model's reading (log entry 44). -/
def Obligations.WindowInstructions : Prop :=
  ∀ (s : State) (w : W64), s.Issues 0x81 w → s.seq.pc < 16383 →
    let o := (fld (s.greg (fRa w)) 19 0 + fld w 19 0) % 0x100000
    let fn := fld w 39 38
    let v := s.landHeld
    let d : W32 := (s.greg (fRd w)).setWidth 32
    let writes := fun (pend : Option (Nat × List (Nat × W32))) (latch : Option (Nat × W32)) => ∃ t, exec .wr32 s = .next t ∧
      t.seq = { s.seq with wrPend := pend, rdLatch := none, wrLatch := latch, pc := s.seq.pc + 1, nextAt := s.now + 8 } ∧
      t.regs = s.regs ∧ t.shadow = s.shadow ∧ t.g = s.g ∧ t.mods = s.mods
    (offTelem false w = [] →
      (o % 4 ≠ 0 → fn = 0 → exec .rd32 s = .next (s.trap 0x08 o)) ∧
      (o % 8 ≠ 0 → fn = 1 → exec .rd64 s = .next (s.trap 0x08 o)) ∧
      (o % 4 = 0 → fn = 0 → memWords o = [] → merges o = false → exec .rd32 s = .next
        ((((s.drew o).telLatch (if s.lowHalf o then some (o + 4, v.viewWord (o + 4)) else none)).setGreg (fRd w)
          ((v.viewWord o).setWidth 64)).goTo (s.seq.pc + 1) 16)) ∧
      (o % 8 = 0 → fn = 1 → memWords o = [] → memWords (o + 4) = [] → merges o = false → exec .rd64 s = .next
        ((((s.drew o).telLatch none).setGreg (fRd w) (v.viewWord (o + 4) ++ v.viewWord o)).goTo (s.seq.pc + 1) 16)) ∧
      (fn = 2 → s.seq.wrPend = none →
        (o % 4 ≠ 0 ∨ wr32Ok (modules s.member) o = false → exec .wr32 s = .next (s.trap 0x08 o)) ∧
        (∀ r, o % 4 = 0 → wr32Ok (modules s.member) o = true → regRow (modules s.member) o = some r →
          (r.half = 0 → writes (some (s.now + 8, [(o, d)])) none) ∧
          (r.half = 1 → inCal o = true → writes (some (s.now + 8, [(o, d)])) none) ∧
          (r.half = 1 → inCal o = false → writes none (some (o, d))) ∧
          (r.half = 2 → (∀ lo, 4 ≤ o → s.seq.wrLatch = some (o - 4, lo) → writes (some (s.now + 8, [(o - 4, lo), (o, d)])) none) ∧
            (s.seq.wrLatch = none → writes (some (s.now + 8, [(o, d)])) none))))) ∧
    (offTelem true w = [] → fn = 3 → exec .emit s = .next ((s.tel 2 (s.greg (fRd w))).goTo (s.seq.pc + 1) 2))

/-! ## The Link Sequencer -/

/-- Register-format arithmetic. -/
def Obligations.AluResults : Prop :=
  ∀ (s : State) (op : Nat) (w : W64), s.Issues op w → s.seq.pc < 16383 →
    let a := s.greg (fRa w)
    let b := s.greg (fRb w)
    let done := fun (v : W64) (cc : Nat) => (.next ((s.setGreg (fRd w) v).goTo (s.seq.pc + 1) cc) : Host.Outcome State Fault Refusal)
    (zeros w 40 0 = [] →
      (op = 0x0B → exec .add s = done (a + b) 1) ∧ (op = 0x0C → exec .sub s = done (a - b) 1) ∧
      (op = 0x0D → exec .and s = done (a &&& b) 1) ∧ (op = 0x0E → exec .or s = done (a ||| b) 1) ∧
      (op = 0x0F → exec .xor s = done (a ^^^ b) 1) ∧ (op = 0x10 → exec .shl s = done (a <<< fld b 5 0) 1) ∧
      (op = 0x12 → exec .mul s = done (a * b) 4)) ∧
    (zeros w 39 0 = [] → op = 0x11 →
      exec .shr s = done (if bit w 40 then a.sshiftRight (fld b 5 0) else a >>> fld b 5 0) 1) ∧
    (zeros w 45 32 = [] → op = 0x0A → exec .addi s = done (a + BitVec.ofInt 64 (sgn 32 w.toNat)) 1)

/-- What a write of a register does: g0 reads as zero and discards writes, every other register holds what was written, the rest stay. -/
def Obligations.RegisterWrite : Prop :=
  ∀ (s : State) (n k : Nat) (v : W64),
    s.greg 0 = 0 ∧ s.setGreg 0 v = s ∧ (n ≠ 0 → (s.setGreg n v).greg n = v) ∧ (k ≠ n → (s.setGreg n v).greg k = s.greg k)

/-- LI, CMP and the moves between registers, descriptors, scratch and event counters. A port write of a descriptor word in the cc of an STD
comes after it. -/
def Obligations.MoveResults : Prop :=
  ∀ (s : State) (op : Nat) (w : W64), s.Issues op w → s.seq.pc < 16383 →
    let a := s.greg (fRa w)
    let d := s.greg (fRd w)
    let addr := (a + BitVec.ofNat 64 (fld w 15 0)).toNat
    let next := fun (t : State) (cc : Nat) => (.next (t.goTo (s.seq.pc + 1) cc) : Host.Outcome State Fault Refusal)
    let td := (fld w 39 32 + (if bit w 40 then fld a 7 0 else 0)) % 256
    (op = 0x09 → zeros w 48 48 = [] → fld w 50 49 = 0 →
      exec .li s = next (s.setGreg (fRd w) (BitVec.ofInt 64 (sgn 48 (fld w 47 0)))) 1) ∧
    (op = 0x09 → zeros w 48 48 = [] → fld w 50 49 = 1 → zeros w 47 16 = [] →
      exec .li s = next (s.setGreg (fRd w) (setFld d 63 48 (fld w 15 0))) 1) ∧
    (op = 0x13 → offK w = [] → ∀ v, cmpCond (fld w 39 37) a (if bit w 40 then BitVec.ofInt 64 (sgn 32 w.toNat) else s.greg (fRb w)) = some v →
      exec .cmp s = next (s.setFlag (fRd w) v) 1) ∧
    (zeros w 45 41 = [] → zeros w 31 2 = [] →
      (op = 0x14 → s.upsetAt 1 (4 * td + fld w 1 0) = 0 → exec .ldd s = next (s.setGreg (fRd w) (s.tdWord td (fld w 1 0))) 2) ∧
      (op = 0x15 → exec .std s = next (s.setTdWord td (fld w 1 0) (s.underPort (4 * td + fld w 1 0) d)) 2) ∧
      ((∀ e ∈ s.cc.td, e.1 ≠ 4 * td + fld w 1 0) → s.underPort (4 * td + fld w 1 0) d = d)) ∧
    (zeros w 45 16 = [] → addr % 8 ≠ 0 →
      (op = 0x16 → exec .lds s = .next (s.trap 0x05 addr)) ∧ (op = 0x17 → exec .sts s = .next (s.trap 0x05 addr))) ∧
    (zeros w 45 16 = [] → addr % 8 = 0 →
      (addr < 0x1000 →
        (op = 0x16 → s.upsetAt 2 (addr / 8) = 0 → exec .lds s = next (s.setGreg (fRd w) (s.scratchWord (addr / 8))) 2) ∧
        (op = 0x17 → exec .sts s = next (s.setScratch (addr / 8) d) 2)) ∧
      (0x1000 ≤ addr → addr < 0x1200 → let n := (addr - 0x1000) / 8
        (op = 0x16 → exec .lds s = next (s.setGreg (fRd w) (s.evc n)) 2) ∧
        (op = 0x17 → exec .sts s = next
          (({ s with cc := { s.cc with sts := s.cc.sts ++ [n] } } : State).setEvc n (s.evAfter n (stsEv (s.evc n) d))) 2)) ∧
      (0x1200 ≤ addr → (op = 0x16 → exec .lds s = .next (s.trap 0x05 addr)) ∧ (op = 0x17 → exec .sts s = .next (s.trap 0x05 addr))))

/-- Control transfers, the empty instruction, the end of a program and the software trap. Past the last word of program memory the sequencer
traps with PC_END once the cycles of the last instruction are over (when exactly is the model's reading, log entry 15, and that CALL there pushes 0
its choice, log entry 73). -/
def Obligations.ControlResults : Prop :=
  (∀ (s : State) (op : Nat) (w : W64), s.Issues op w →
    let k := s.keepOp w
    let target := fld w 13 0
    let byReg := if bit w 40 then fld (s.greg (fRa w)) 13 0 else target
    let called := { k with seq := { k.seq with stack := s.seq.stack ++ [BitVec.ofNat 14 (s.seq.pc + 1)] } }
    let n := s.greg (fRd w) - 1
    (op = 0x00 → zeros w 55 0 = [] → s.seq.pc < 16383 → exec .nop s = .next (s.goTo (s.seq.pc + 1) 1)) ∧
    (op = 0x00 → zeros w 55 0 = [] → s.seq.pc = 16383 →
      exec .nop s = .next { k with seq := { k.seq with pcEnd := true, nextAt := s.now + 1 } }) ∧
    (op = 0x01 → zeros w 55 0 = [] → exec .endProg s = .next (k.endProg .idle)) ∧
    (offB w = [] → (op = 0x03 → exec .jmp s = .next (k.goTo byReg 3)) ∧
      (op = 0x06 → s.seq.stack.length < 8 → exec .call s = .next (called.goTo byReg 3)) ∧
      (op = 0x06 → s.seq.stack.length = 8 → exec .call s = .next (k.trap 0x03 0))) ∧
    (op = 0x07 → zeros w 55 0 = [] → (∀ r, s.seq.stack.getLast? = some r →
      exec .ret s = .next (({ k with seq := { k.seq with stack := s.seq.stack.dropLast } } : State).goTo r.toNat 3)) ∧
      (s.seq.stack = [] → exec .ret s = .next (k.trap 0x03 1))) ∧
    (op = 0x04 → fRd w < 8 → zeros w 50 41 = [] → zeros w 39 14 = [] →
      (s.flag (fRd w) != bit w 40 → exec .br s = .next (k.goTo target 3)) ∧
      (s.flag (fRd w) = bit w 40 → s.seq.pc < 16383 → exec .br s = .next (s.goTo (s.seq.pc + 1) 1))) ∧
    (op = 0x05 → fRd w ≠ 0 → zeros w 50 40 = [] → zeros w 39 14 = [] →
      (n ≠ 0 → exec .loop s = .next ((k.setGreg (fRd w) n).goTo target 3)) ∧
      (n = 0 → s.seq.pc < 16383 → exec .loop s = .next ((s.setGreg (fRd w) n).goTo (s.seq.pc + 1) 1)) ∧
      (s.greg (fRd w) = 0 → exec .loop s = .next ((k.setGreg (fRd w) 0xFFFFFFFFFFFFFFFF).goTo target 3))) ∧
    (op = 0x05 → fRd w = 0 → ∃ i, exec .loop s = .next (k.trap 0x02 i)) ∧
    (op = 0x08 → zeros w 55 16 = [] → exec .trap s = .next (k.trap 0x0B (fld w 15 0))) ∧
    (opcodeOk op = false → exec .invalidOp s = .next (k.trap 0x01 0))) ∧
  (∀ (s : State) (w : W64), s.seq.pc < 16383 → s.keepOp w = s) ∧
  (∀ (s : State) (w : W64), s.seq.pc = 16383 → s.keepOp w = { s with seq := { s.seq with op := BitVec.ofNat 8 (fld w 63 56) } }) ∧
  (∀ s : State, s.seq.stopReq = none → s.seq.wait = none → s.seq.pcEnd = true → s.seq.st = .running →
    (s.seq.nextAt ≤ s.now → s.seqCc = s.trap 0x04 0) ∧ (s.now < s.seq.nextAt → s.seqCc = s))

/-- What a trap does: SEQ_TRAP, SEQ_TRAP_INFO and SEQ_TRAP_TICK, the state TRAPPED and irq[3]; the registers, the flags, the memories and the
operations stay. A reserved bit that is set traps with RSVD_FIELD before the instruction has any effect. -/
def Obligations.TrapEffect : Prop :=
  (∀ (s : State) (code info : Nat), code < 256 →
    let t := s.trap code info
    fld (t.rg 0x30008) 7 0 = code ∧
    (s.seq.pcEnd = false → s.seq.wait = none → s.seq.stall = none → fld (t.rg 0x30008) 15 8 = fld (s.pmWord s.seq.pc) 63 56) ∧
    (s.seq.pcEnd = true ∨ s.seq.wait ≠ none ∨ s.seq.stall ≠ none → fld (t.rg 0x30008) 15 8 = s.seq.op.toNat) ∧
      fld (t.rg 0x30008) 29 16 = s.seq.pc % 16384 ∧
    t.rg 0x3000C = BitVec.ofNat 32 info ∧ t.rg64 0x30010 = BitVec.ofNat 64 s.tick.num ∧
    t.seq.st = .trapped ∧ t.seq.pc = s.seq.pc ∧ t.seq.p = s.seq.p ∧ t.seq.stack = s.seq.stack ∧ t.seq.wait = none ∧ t.seq.prog = none ∧
    bit (t.rg 0x30) 3 = true ∧ t.g = s.g ∧ t.pm = s.pm ∧ t.td = s.td ∧ t.scratch = s.scratch ∧ t.ev = s.ev ∧ t.ops = s.ops) ∧
  (∀ (s : State) (op : Nat) (w : W64), s.Issues op w →
    (zeros w 55 0 ≠ [] → (op = 0x00 → exec .nop s = .next ((s.keepOp w).trap 0x02 (lowest (zeros w 55 0)))) ∧
      (op = 0x01 → exec .endProg s = .next ((s.keepOp w).trap 0x02 (lowest (zeros w 55 0)))) ∧
      (op = 0x02 → exec .tickwait s = .next ((s.keepOp w).trap 0x02 (lowest (zeros w 55 0)))) ∧
      (op = 0x07 → exec .ret s = .next ((s.keepOp w).trap 0x02 (lowest (zeros w 55 0))))) ∧
    (zeros w 40 0 ≠ [] → (op = 0x0B → exec .add s = .next ((s.keepOp w).trap 0x02 (lowest (zeros w 40 0)))) ∧
      (op = 0x0C → exec .sub s = .next ((s.keepOp w).trap 0x02 (lowest (zeros w 40 0)))) ∧
      (op = 0x12 → exec .mul s = .next ((s.keepOp w).trap 0x02 (lowest (zeros w 40 0))))) ∧
    (zeros w 45 32 ≠ [] → op = 0x0A → exec .addi s = .next ((s.keepOp w).trap 0x02 (lowest (zeros w 45 32)))))

/-- WAIT, FENCE and TICKWAIT, and the events that end their waits. A wait that its counter has already reached ends at once; otherwise the
sequencer blocks, or with POLL goes on with the flag at 0. The events that end a wait: a counter that has reached its target, a
timeout that has passed, the last operation of a fence's scope; a TICKWAIT is blocked until 4 cc after its Solstice. A counter that reaches its
target in the cc of the timeout still counts as reached, so the timeout ends the wait with that cc. -/
def Obligations.SyncResults : Prop :=
  (∀ (s : State) (op : Nat) (w : W64), s.Issues op w → s.seq.pc < 16383 →
    let target := (fld (s.greg (fRa w)) 31 0 + fld w 31 16) % 0x100000000
    let ev := fld w 37 32
    let goes := fun (t : State) => { t with seq := { t.seq with wait := none, pc := s.seq.pc + 1, nextAt := s.now + 2, op := BitVec.ofNat 8 op } }
    let waits := fun (x : WaitSt) => { s with seq := { s.seq with st := .waiting, wait := some x, nextAt := s.now + 2, op := BitVec.ofNat 8 op } }
    let until_ := if fld w 15 0 = 0 then none else some (s.now + 16 * fld w 15 0)
    let scope := s.fenceScope (bit w 39) (bit w 40) (fld w 37 32)
    (op = 0x02 → zeros w 55 0 = [] → exec .tickwait s = .next (waits .tick)) ∧
    (op = 0x21 → zeros w 45 41 = [] → bit w 40 = true → fRd w < 8 →
      (evReached (s.evc ev) target = false → bit w 39 = false →
        exec .wait s = .next (waits (.ev ev (BitVec.ofNat 32 target) until_ (some (fRd w)) (bit w 38)))) ∧
      (evReached (s.evc ev) target = false → bit w 39 = true → exec .wait s = .next (goes (s.setFlag (fRd w) false))) ∧
      (evReached (s.evc ev) target = true → (bit w 38 = false ∨ (bit (s.evc ev) 32 = false ∧ bit (s.evc ev) 33 = false)) →
        exec .wait s = .next (goes (s.setFlag (fRd w) true)))) ∧
    (op = 0x22 → zeros w 55 41 = [] → zeros w 38 38 = [] → zeros w 31 0 = [] →
      (scope ≠ [] → exec .fence s = .next (waits (.fence scope))) ∧ (scope = [] → exec .fence s = .next (goes s)))) ∧
  (∀ s : State, s.inReset = false → s.seq.stopReq = none → s.seq.st = .waiting → s.seq.pc < 16383 →
    let runs := fun (t : State) =>
      { t with seq := { t.seq with st := .running, wait := none, pc := s.seq.pc + 1, nextAt := s.now + (max s.now s.seq.nextAt - s.now) } }
    (∀ ev t until_ p, s.seq.wait = some (.ev ev t until_ (some p) false) → evReached (s.evc ev) t.toNat = true →
      exec .waitResume s = .next (runs (s.setFlag p true))) ∧
    (∀ ev t p, s.seq.wait = some (.timed ev t (some p) false) → evReached (s.evc ev) t.toNat = true →
      exec .waitResume s = .next (runs (s.setFlag p true))) ∧
    (∀ ev t u p b, s.seq.wait = some (.ev ev t (some u) p b) → evReached (s.evc ev) t.toNat = false → u ≤ s.now →
      exec .waitTimeout s = .next { s with seq := { s.seq with wait := some (.timed ev t p b) } }) ∧
    (∀ ev t p b, s.seq.wait = some (.timed ev t (some p) b) → s.seqCc =
      let r := runs (s.setFlag p false)
      if r.seq.pcEnd = true ∧ r.seq.nextAt ≤ r.now then r.trap 0x04 0 else r) ∧
    (∀ scope, s.seq.wait = some (.fence scope) → (∀ o ∈ s.ops, o.uid ∉ scope) → exec .fenceResume s = .next (runs s)) ∧
    (s.seq.wait = some .tick → ∀ t, s.tickwaitEnd t = { s with seq := { s.seq with wait := some (.tickEnd (t + 4)) } }) ∧
    (∀ t, s.seq.wait = some (.tickEnd t) → (t ≤ s.now → s.seqCc =
      { s with seq := { s.seq with st := .running, wait := none, pc := s.seq.pc + 1, nextAt := s.now } }) ∧ (s.now < t → s.seqCc = s)))

/-- SIGNAL to a far die takes the next free tag and leaves one SIGNAL message for admission, and awaits the COMPLETION of that die; to the own
die it takes its tag behind the operations of its stream, and LOCAL_SIGNAL_APPLY then raises the counter. A local
SIGNAL that no operation of its fence precedes any more raises COUNT and completes. -/
def Obligations.SignalResults : Prop :=
  (∀ (s : State) (w : W64) (tag : Nat), s.Issues 0x20 w → s.seq.pc < 16383 → offG w = [] → s.freeTag = some tag → s.unadmitted < 64 →
    let i := s.sigIss w
    let base := newOp s tag i .run
    let takes := fun (o : Op) =>
      { s with ops := s.ops ++ [{ o with uid := s.ord }], ord := s.ord + 1,
               seq := { s.seq with lastTag := tag, stall := none, pc := s.seq.pc + 1, nextAt := s.now + 2 } }
    (fld w 39 36 ≠ s.die →
      exec .signal s = .next (takes
        { base with phase := Phase.result, msgs := [s.sigMsg tag i], sends := true, since := s.now, await := [fld w 39 36] })) ∧
    (fld w 39 36 = s.die → exec .signal s = .next (takes
      { base with fence := (s.ops.filter fun o => o.orig.isNone && o.iss.stream == i.stream).map (·.uid) }))) ∧
  (∀ (s : State) (tag : Nat) (o : Op), s.inReset = false → s.op? tag = some o → o.iss.opcode = 0x20 → o.phase = .run →
    (∀ p ∈ s.ops, p.uid ∉ o.fence) →
    exec (.localSignalApply tag) s = .next ((s.evAdd o.iss.ev (fld o.iss.ra 31 0) false false).finish tag))

/-- The event counters. COUNT grows modulo 2^32, and its sticky bits are set and never cleared by an increment; a store by STS sets COUNT and clears
the sticky bits that it names, and what increments of the same cc added and set comes after it; the other counters stay. A counter has reached a
target when their distance modulo 2^32 is less than 2^31. -/
def Obligations.CounterIncrement : Prop :=
  (∀ (s : State) (n amount : Nat) (err psn : Bool),
    let t := s.evAdd n amount err psn
    fld (t.evc n) 31 0 = (fld (s.evc n) 31 0 + amount) % 0x100000000 ∧
    bit (t.evc n) 32 = (err || bit (s.evc n) 32) ∧ bit (t.evc n) 33 = (psn || bit (s.evc n) 33) ∧
    (∀ k, k ≠ n → t.evc k = s.evc k)) ∧
  (∀ (s : State) (w : W64), s.Issues 0x17 w → s.seq.pc < 16383 → zeros w 45 16 = [] →
    let addr := (s.greg (fRa w) + BitVec.ofNat 64 (fld w 15 0)).toNat
    let d := s.greg (fRd w)
    addr % 8 = 0 → 0x1000 ≤ addr → addr < 0x1200 →
      let n := (addr - 0x1000) / 8
      let more := ((s.hits.filter fun h => h.off == 0x30400 + 8 * n && h.hi == 31).map (·.n)).sum
      let sets := fun k => s.hits.any fun h => h.off == 0x30404 + 8 * n && h.hi == k
      ∃ t, exec .sts s = .next t ∧ fld (t.evc n) 31 0 = (fld d 31 0 + more) % 2 ^ 32 ∧
        bit (t.evc n) 32 = (bit (s.evc n) 32 && !bit d 32 || sets 0) ∧
        bit (t.evc n) 33 = (bit (s.evc n) 33 && !bit d 33 || sets 1) ∧ (∀ k, k ≠ n → t.evc k = s.evc k) ∧ t.g = s.g ∧ t.scratch = s.scratch) ∧
  (∀ (w : W64) (t : Nat), t < 2 ^ 32 → (evReached w t = true ↔ ((fld w 31 0 : Int) - (t : Int)) % 2 ^ 32 < 2 ^ 31))

/-- SEQ_CTRL: START moves a stopped, halted or trapped sequencer to IDLE and is ignored in the other states; STOP ends the program at the
next instruction boundary (where a HALT waits for the same boundary the sequencer ends halted: the model's choice, log entry 71); CLR clears the
registers, the flags and the call stack of a sequencer that stands. The program-memory check stores the CRC-32C of its words. A stalled instruction
starts once a tag and its room are free. -/
def Obligations.SequencerControl : Prop :=
  (∀ s : State, s.inReset = false → s.seq.stopReq = none →
    (s.cfgReady = true → s.sweepDone = true → s.blank = false → s.seq.st = .stopped ∨ s.seq.st = .halted ∨ s.seq.st = .trapped →
      exec .seqCtrlStart s = .next { s.ported with seq := { s.seq with st := .idle, startAt := some s.now } }) ∧
    (s.cfgReady = true → s.seq.st = .idle ∨ s.seq.st = .running ∨ s.seq.st = .waiting → exec .seqCtrlStart s = .next s.ported) ∧
    (s.cfgReady = true → s.seq.st = .running → s.now < s.seq.nextAt → exec .seqCtrlStop s =
      .next { s.ported with seq := { s.seq with stopReq := some { halt := false, clr := false, start := none } } }) ∧
    (s.cfgReady = true → s.seq.st = .idle ∨ s.seq.st = .waiting ∨ (s.seq.st = .running ∧ s.seq.stall = none ∧ s.seq.nextAt ≤ s.now) →
      exec .seqCtrlStop s = .next (s.ported.endProg .stopped)) ∧
    (s.cfgReady = true → s.seq.st = .stopped ∨ s.seq.st = .halted ∨ s.seq.st = .trapped →
      exec .seqCtrlClr s = .next { s.ported with g := [], seq := { s.seq with p := 0, stack := [] } }) ∧
    (s.cfgReady = true → s.seq.st = .idle ∨ s.seq.st = .running ∨ s.seq.st = .waiting → exec .seqCtrlClr s = .next s.ported)) ∧
  (∀ s : State, s.inReset = false →
    (∀ d : W32, s.cfgReady = true → bit d 31 = true → s.seq.pmCheck = none → ∃ t, exec (.seqPmCheckGo d) s = .next t ∧
      t.seq = { s.seq with pmCheck := some (fld d 13 0, max 1 (min 16384 (fld d 28 14))) } ∧ bit (t.rg 0x30020) 30 = false ∧
      t.rf 0x30020 13 0 = fld d 13 0 ∧ t.pm = s.pm ∧ ∀ k, k ≠ 0x30020 → t.rg k = s.rg k) ∧
    (∀ a n, s.seq.pmCheck = some (a, n) → ∃ t, exec .seqPmCheckDone s = .next t ∧ t.rg 0x30024 = crcStd (s.pmBytes a n) ∧
      bit (t.rg 0x30020) 30 = true ∧ t.seq = { s.seq with pmCheck := none } ∧ t.pm = s.pm ∧
      ∀ k, k ≠ 0x30020 → k ≠ 0x30024 → t.rg k = s.rg k) ∧
    (∀ i tag, s.seq.stall = some i → s.seq.st = .running → s.readingCombine = false → s.waitingCombine = none → s.freeTag = some tag →
      canStart s i = true → exec .engineStallResume s = .next (startStalled s tag i)) ∧
    (∀ i, s.seq.stall = some i → s.seq.st = .running → s.readingCombine = false → s.waitingCombine = none →
      s.freeTag = none ∨ canStart s i = false → exec .engineStallResume s = .next s))

/-! ## The engine instructions -/

/-- PUSH, PULL, GATHER, SCATTER and COPY issue: their traps, the tag they take, and their stall. What a transfer moves: each row of its moves, with
its scale bytes, from the source's address to the destination's; a skipped block is in no run. Joining and cutting into pieces moves the same bytes in
the same order, no piece crossing 4 KiB at either end. A far source's pieces are READ_REQs, a near source's WRITEs or near writes, in piece order; a
WRITE that needs no page check is written at its address, READ_DATA where its piece goes. -/
def Obligations.TransferIssue : Prop :=
  (∀ (s : State) (op : Nat) (w : W64), s.Issues op w → s.seq.pc < 16383 →
    (op = 0x28 → s.EngineIssues .push (fun w => offOpt w [2, 4, 5, 6, 7, 8, 9, 10, 11]) xferSpec canXfer startXfer w) ∧
    (op = 0x29 → s.EngineIssues .pull (fun w => offOpt w [2, 4, 5, 6, 7, 8, 9, 10, 11]) xferSpec canXfer startXfer w) ∧
    (op = 0x2A → s.EngineIssues .gather (fun w => offOpt w [2, 4, 5, 6, 7, 8, 9, 10, 11]) xferSpec canXfer startXfer w) ∧
    (op = 0x2B → s.EngineIssues .scatter (fun w => offOpt w [4, 5, 6, 7, 8, 9, 10, 11]) xferSpec canXfer startXfer w) ∧
    (op = 0x2C → s.EngineIssues .copy (fun w => offOpt w [2, 5, 6, 7, 8, 9, 10, 11] ++ offRegs w) xferSpec canXfer startXfer w)) ∧
  (∀ (s : State) (o : Op) (find : Bool), o.iss.zskip = false → o.iss.tda.paged = false → o.iss.tdb.paged = false →
    let a := o.iss.tda
    let b := o.iss.tdb
    s.segs o find = (o.moves.map fun mv => seg a.die (a.rowAddr mv.1) b.die (b.rowAddr mv.2) a.rowBytes none) ++
      (if fmtMx a.fmt then o.moves.map fun mv =>
        seg a.die (a.side + mv.1 * a.rowBlocks) b.die (b.side + mv.2 * b.rowBlocks) a.rowBlocks none else [])) ∧
  (∀ n (skip : Nat → Bool) k, (∃ r ∈ blockRuns n skip, r.1 ≤ k ∧ k < r.1 + r.2) ↔ (k < n ∧ skip k = false)) ∧
  (∀ most ps, 4088 ≤ most → (∀ p ∈ ps, p.lit = none) →
    (cutSegs most ps).flatMap Piece.path = ps.flatMap Piece.path ∧
    ∀ q ∈ cutSegs most ps, 0 < q.len ∧ q.len ≤ most ∧ q.saddr % 4096 + q.len ≤ 4096 ∧ q.daddr % 4096 + q.len ≤ 4096 ∧ q.lit = none) ∧
  (∀ (s : State) (o : Op) (ps : List Piece), o.iss.pgcheck = false →
    (∀ p ∈ ps, 0 < p.len ∧ p.len ≤ 4096 ∧ p.saddr < 2 ^ 48 ∧ p.daddr < 2 ^ 48 ∧ p.sdie < 16 ∧ p.ddie < 16) →
    (s.pieceMsgs o ps).map (fun m => (m.mtype, m.dst.toNat, msgAddr m, m.data, if m.mtype = 0x02 then fld m.arg 63 52 + 1 else m.data.length)) =
      ps.filterMap fun p =>
        if p.lit.isNone && p.sdie != s.die then some (0x02, p.sdie, p.saddr, [], p.len)
        else if p.ddie != s.die then some (0x01, p.ddie, p.daddr, o.pieceBytes p, (o.pieceBytes p).length)
        else none) ∧
  (∀ (s : State) (o : Op) (ps : List Piece), o.abort = false → o.iss.pgcheck = false → ∃ u,
    s.sendPieces o ps = (u.each o.held (·.unhold ·)).opCheck o.tag ∧ (∀ p, u.op? o.tag = some p → p.msgs = s.pieceMsgs o ps) ∧
    s.Writes u ((ps.filter fun p => (p.lit.isSome || p.sdie == s.die) && p.ddie == s.die).flatMap fun p => putsAt p.daddr (o.pieceBytes p))) ∧
  (∀ (s : State) (m : Msg) (dom ord : Nat), bit m.arg 52 = false →
    ∃ u, s.Writes u (putsAt (msgAddr m) m.data) ∧ s.takeWrite m dom ord = u.farCheck (farKey m)) ∧
  (∀ (s : State) (m : Msg) (dom ord k : Nat) (o : Op) (p : Piece), s.op? m.optag.toNat = some o → o.trk.find? (fun t => !t.2.ans) = some (k, p) →
    p.sdie = m.src.toNat → p.ddie ≠ 16 → p.len ≤ m.data.length → fld m.arg 19 16 ≤ 1 →
      s.Writes (s.takeReadData m dom ord) (putsAt p.daddr (m.data.take p.len)))

/-- CONVERT, FOLD and MERGE issue, in both roles. What they make: rows that the engine made are written byte by byte where the destination lies, or
sent there. An alignment gives the value itself where the grid holds it; rounding is to the nearest, ties to even; a reduction's sum does not depend
on the order in which values come, and its result is that sum on the grid, or NaN once a NaN came. A head of a merge is empty with no unmasked record,
NaN with a NaN record, and otherwise the sum of its records weighted by their distance to the largest m. -/
def Obligations.HarvestIssue : Prop :=
  (∀ (s : State) (op : Nat) (w : W64), s.Issues op w → s.seq.pc < 16383 →
    (op = 0x40 → s.EngineIssues .convert (fun w => offOpt w [5, 6, 7, 8, 9, 10, 11]) convSpec canConvert startConvert w) ∧
    (isFold false w = true → s.EngineIssues .foldSend (foldOff true) (foldSpec true) canConvert startFoldSend w) ∧
    (isFold true w = true → s.EngineIssues .foldReduce (foldOff false) (foldSpec false) canReduce startReduce w) ∧
    (isMerge false w = true → s.EngineIssues .mergeSend (mergeOff true) (mergeSpec true) canConvert startMergeSend w) ∧
    (isMerge true w = true → s.EngineIssues .mergeCollect (mergeOff false) (mergeSpec false) canMerge startMerge w)) ∧
  (∀ (d : Desc) (rows scales : List (Nat × List Byte)) (bad : List (Nat × Nat)),
    (outPieces d rows scales bad).flatMap Piece.puts = rowPuts d rows scales ∧
    ∀ p ∈ outPieces d rows scales bad, p.ddie = d.die ∧ 0 < p.len ∧ p.len ≤ 4096 ∧ p.daddr % 4096 + p.len ≤ 4096) ∧
  (∀ (s : State) (o : Op) (ps : List Piece), ∃ u, s.sendMade o ps = u.opCheck o.tag ∧
    s.Writes u ((ps.filter fun p => p.ddie == s.die).flatMap Piece.puts) ∧
    ∀ p, u.op? o.tag = some p → p.msgs.map (fun m => (m.dst, m.poison, m.data)) = (ps.filter fun p => p.ddie != s.die).map fun p =>
      (BitVec.ofNat 4 p.ddie, p.ans, (if o.iss.pgcheck then leBytes 8 (p.pid.getD 0) else []) ++ p.lit.getD [])) ∧
  (∀ (s : State) (o : Op), o.phase = .src → o.rdLeft = 0 →
    let i := o.iss
    let out := outRows i.tdb i.cvtOpt ((List.range i.count).map (convRow i o.buf))
    let u := s.hvCount o.tag out.2.2
    s.convNext o = u.sendMade ((u.op? o.tag).getD o) (outPieces i.tdb out.1 out.2.1 ((List.range i.count).flatMap (convBad i o.buf)))) ∧
  (∀ a b, 0 < b → 2 * a ≤ 2 * b * rhe a b + b ∧ 2 * b * rhe a b ≤ 2 * a + b ∧
    (2 * a = 2 * b * rhe a b + b ∨ 2 * b * rhe a b = 2 * a + b → rhe a b % 2 = 0)) ∧
  (∀ (g e : Int) (m : Nat) (neg : Bool) (c : AlignCnt), g ≤ e → m * 2 ^ (e - g).toNat ≤ gridMax →
    (alignVal g (.num neg m e) c).1 = if neg then -((m * 2 ^ (e - g).toNat : Nat) : Int) else ((m * 2 ^ (e - g).toNat : Nat) : Int)) ∧
  (∀ (x : Red) (e f k : Nat) (v w : Val) (c c' : AlignCnt), x.op = 0 →
    spGet {} ((x.add e v c).1.add f w c').1.acc k = spGet {} ((x.add f w c').1.add e v c).1.acc k ∧
    (v ≠ .nan → (spGet {} x.acc e).nan = false →
      let sum := (spGet {} x.acc e).sum + (alignVal (x.gAt e) v c).1
      (x.add e v c).1.result e = .num (decide (sum < 0)) sum.natAbs (x.gAt e)) ∧
    ((x.add e .nan c).1.result e = .nan ∧ ((x.add e .nan c).1.add f w c').1.result e = .nan)) ∧
  (∀ (s : State) (r : Nat) (o : Op), let x := s.redAt r
    x.busy = true → x.converted = false → x.gfinal = true → x.k ≤ x.done.length → s.op? x.tag = some o →
    let vals := fun row => (List.range x.tdb.dim0).map fun i => x.result (row * x.tdb.dim0 + i)
    let out := outRows x.tdb { satinf := x.satinf, ftz := x.ftz } ((List.range x.tdb.rows).map fun row => (row, vals row, []))
    ∃ (u : State) (p : Op) (bad : Bool), s.redCheck r = u.sendMade p ((outPieces x.tdb out.1 out.2.1 []).map fun q => { q with ans := bad }) ∧
      p.tag = o.tag ∧
      (u.redAt r).converted = true) ∧
  (∀ (e3 : Bool) (d : Nat) (rs : List PRec) (c : FoldCnt),
    let w := fun (mx : Nat) (r : PRec) => if e3 then exp3 r.m.toNat mx else exp1 r.m.toNat mx
    (rs = [] → (foldHead e3 d rs c).1 = .masked) ∧
    ((∃ r ∈ rs, recNan r = true ∨ recBad r = true) → (foldHead e3 d rs c).1 = .nan) ∧
    (∀ mx l o, (foldHead e3 d rs c).1 = .done mx l o →
      (∃ r ∈ rs, r.m.toNat = mx) ∧ o.length = d ∧ l ≠ 0 ∧
      l = rs.foldl (fun a r => f32Add a (f32Mul (w mx r) (if fld r.l 30 0 = 0 then 0 else r.l.toNat))) 0 ∧
      ∀ i < d, o.getD i 0 = rs.foldl (fun y r => f32Add y (f32Mul (w mx r) (clipInf (r.o.getD i 0).toNat))) 0)) ∧
  (∀ (x : Mrg) (heads : List (Nat × HeadOut)), x.outp = false →
    let out := outRows x.tdb { satinf := x.satinf, ftz := x.ftz } (heads.map fun h => (h.1, headVals x.ftz x.d h.2, []))
    (mergePieces x heads).1.flatMap Piece.puts = rowPuts x.tdb out.1 out.2.1)

/-- DISPATCH and COMBINE SEND issue; COMBINE COLLECT takes its tag and reads its header while the sequencer stalls on it. What DISPATCH places: no
expert gets more than CAP pairs, no more rows go out than the limit of the slot, every token has one entry of the outcome table, and a placed row is
written with its tag where Table 9-3 puts it. What COMBINE writes: for a token, element by element, the gated sum of its returns in the order of their
routing entries, and +0 for a DROPPED or SKIPPED one. -/
def Obligations.SparseIssue : Prop :=
  (∀ (s : State) (op : Nat) (w : W64), s.Issues op w → s.seq.pc < 16383 →
    (op = 0x60 → s.EngineIssues .dispatch (fun w => offOpt w [4, 5, 6, 7, 8, 9, 10, 11]) dispSpec canDispatch startDispatch w) ∧
    (isCombine false w = true → s.EngineIssues .combineSend (cmbOff true) (cmbSpec true) canConvert startCmbSend w) ∧
    (isCombine true w = true → cmbOff false w = [] → (∀ d ∈ (cmbSpec false s w).tds, ∀ k < 4, s.upsetAt 1 (4 * d.1 + k) = 0) →
      let i := (cmbSpec false s w).iss
      (∀ code info, (cmbSpec false s w).fail s = some (code, info) → exec .combineCollect s = .next (s.trap code info)) ∧
      ((cmbSpec false s w).fail s = none →
        (∀ tag, s.freeTag = some tag → canCollect s i = true → ∃ t, exec .combineCollect s = .next t ∧
          t.seq = { s.seq with lastTag := tag, stall := some i, op := i.opcode } ∧
          (t.cmbAt i.cmbSlot).busy = true ∧ (t.cmbAt i.cmbSlot).tag = tag) ∧
        (s.freeTag = none ∨ canCollect s i = false → exec .combineCollect s = .next { s with seq := { s.seq with stall := some i, op :=
          i.opcode } })))) ∧
  (∀ (i : Iss) (buf : List (Nat × Gran)) (pmax maxCarry room : Nat) (carried : List Carried) (own : List Tok),
    let p := placeAll i buf pmax maxCarry room carried own
    (∀ x, spGet 0 p.cnt x ≤ i.cap) ∧ p.pairs ≤ pmax ∧ p.rows.length = p.pairs ∧ p.outs.length = carried.length + own.length ∧
    p.outs.map (·.token) = carried.map (·.token) ++ own.map (·.token)) ∧
  (∀ (s : State) (i : Iss) (p : Place),
    let d := i.tdb
    let made := fun die => ((s.dispPieces i p).filter fun q => q.ddie == die).flatMap Piece.puts
    (∀ x ∈ p.rows, (∀ y ∈ putsAt (d.rowAddr x.row) x.data.row, y ∈ made x.die) ∧
      (∀ y ∈ putsAt (tagAt d (mapMost i.maps) i.nsrc + 8 * x.row)
        (leBytes 8 (tagWord x.token x.k x.late s.die s.inst i.dslot (i.tick % 256)).toNat), y ∈ made x.die) ∧
      (fmtMx d.fmt = true → ∀ y ∈ putsAt (d.side + x.row * d.rowBlocks) x.data.scales, y ∈ made x.die)) ∧
    (∀ m ∈ mapValid i.maps, ∀ e < mapCount m,
      ∀ y ∈ putsAt (countAt d + 4 * (e * i.nsrc + i.srcIdx)) (leBytes 4 (spGet 0 p.cnt (mapFirst m + e))), y ∈ made (mapDie m)) ∧
    (∀ k e, p.outs[k]? = some e → ∀ y ∈ putsAt (i.tdd.addr + 8 * (k + 1)) (leBytes 8 (entWord e).toNat), y ∈ made s.die)) ∧
  (∀ (x : Cmb) (d i : Nat) (e : TokEnt), i < d →
    let g := ((x.gates.find? fun y => y.1 == e.token).map (·.2)).getD []
    let ks := e.ks.filter fun k => x.taken.contains (e.token, k) && decide (k < g.length)
    (x.foldTok d e).1.getD i 0 = ks.foldl (fun a k => f32Add a (f32Mul (g.getD k 0).toNat ((x.yOf e.token k d).getD i 0))) 0) ∧
  (∀ (s : State) (d : Nat) (e : TokEnt) (o : Op), s.op? (s.cmbAt d).tag = some o →
    let b := o.iss.tdb
    let acc := if e.state = 1 then ((s.cmbAt d).foldTok b.dim0 e).1 else List.replicate b.dim0 0
    let out := outRows b o.iss.hvOpt [(e.token, acc.map f32Dec, [])]
    s.Writes (s.cmbWrite d e) (rowPuts b out.1 out.2.1) ∧ ((s.cmbWrite d e).cmbAt d).written = (s.cmbAt d).written ++ [e.token])

/-- The page instructions issue. What they do: PGUNPIN lowers the pin count of a pinned entry of the cache, and has an outcome of its own for each
other case; with RES the outcome words of every entry are written to TDB once none is open; PGGATHER writes its snapshot. Table 10-2: what READ, INC,
DEC, CAS and RDEC answer, and the reference count and generation that they leave. -/
def Obligations.PageIssue : Prop :=
  (∀ (s : State) (op : Nat) (w : W64), s.Issues op w → s.seq.pc < 16383 →
    (op = 0x70 → s.EngineIssues .pgfetch pgOff pgSpec canPage startPage w) ∧ (op = 0x71 → s.EngineIssues .pgpin pgOff pgSpec canPage startPage w) ∧
    (op = 0x72 → s.EngineIssues .pgunpin pgOff pgSpec canPage startPage w) ∧ (op = 0x73 → s.EngineIssues .pgatomic pgOff pgSpec canPage startPage w) ∧
    (op = 0x74 → s.EngineIssues .pggather pgOff pgSpec canPage startPage w)) ∧
  (∀ (s : State) (tag k : Nat) (x : PgEnt),
    (pidDie x.pid = s.die → s.unpinEnt tag k x = s.pageOut tag k 4 0) ∧
    (pidDie x.pid ≠ s.die → s.pageOk x.pid = false → s.unpinEnt tag k x = s.pageOut tag k 11 0) ∧
    (pidDie x.pid ≠ s.die → s.pageOk x.pid = true →
      let u := s.readSet (rpcSet x.pid)
      (u.findTag x.pid x.gen = none → s.unpinEnt tag k x = u.pageOut tag k 10 0) ∧
      (∀ e, u.findTag x.pid x.gen = some e → ((u.tag e).pin = 0 → s.unpinEnt tag k x = u.pageOut tag k 10 0) ∧
        ((u.tag e).pin ≠ 0 → s.unpinEnt tag k x =
          ((u.setTag e { u.tag e with pin := (u.tag e).pin - 1 }).retireWay e).pageOut tag k 5 ((u.tag e).pin - 1))))) ∧
  (∀ (s : State) (o : Op), o.phase = .run → o.rdLeft = 0 → (∀ x ∈ o.ents, x.out ≠ none) →
    ∃ u, s.pgNext o = u.opCheck o.tag ∧
      s.Writes u (if o.iss.res then putsAt o.iss.tdb.addr (o.ents.flatMap fun x => leBytes 8 x.word.toNat) else [])) ∧
  (∀ (s : State) (o : Op), ∃ u n, s.gatherDone o = u.each (List.range n) (fun s k => s.fetchEnt o.tag k false) ∧
    s.Writes u (putsAt o.iss.tdb.addr (leBytes 8 o.hdr.toNat ++ o.snap.flatMap fun e => leBytes 8 e.2.toNat)) ∧
    (o.iss.pgFetch = false → n = 0)) ∧
  (∀ (gen cmp new_ : Nat) (r : W64), cmp < 2 ^ 32 → new_ < 2 ^ 32 →
    let ok := gen = recGen r ∧ 0 < recCount r
    recordOp 0 gen cmp new_ r = (5, none) ∧
    (¬ ok → ∀ op, op = 1 ∨ op = 2 ∨ op = 3 ∨ op = 4 ∨ op = 5 → recordOp op gen cmp new_ r = (7, none)) ∧
    (ok → ∀ op, op = 1 ∨ op = 5 → (recCount r = 2 ^ 32 - 1 → recordOp op gen cmp new_ r = (8, none)) ∧
      (recCount r ≠ 2 ^ 32 - 1 → ∃ n, recordOp op gen cmp new_ r = (5, some n) ∧ recCount n = recCount r + 1 ∧ recGen n = recGen r)) ∧
    (ok → ∀ op, op = 2 ∨ op = 4 → ∃ n, recordOp op gen cmp new_ r = (5, some n) ∧ recCount n = recCount r - 1 ∧
      recGen n = if recCount r = 1 then (recGen r + 1) % 2 ^ 24 else recGen r) ∧
    (ok → recCount r ≠ cmp → recordOp 3 gen cmp new_ r = (6, none)) ∧
    (ok → recCount r = cmp → ∃ n, recordOp 3 gen cmp new_ r = (5, if n = r then none else some n) ∧ recCount n = new_ ∧
      recGen n = if new_ = 0 then (recGen r + 1) % 2 ^ 24 else recGen r))

/-- The events of the Harvest slots: a MERGE group folds once every record of it is there or masked; a cutoff that is reached cuts a merge or
a combine, and not before; a flush of a dispatch slot drops its carried tokens, at once when the slot is free; a clear of the calibration
counters. -/
def Obligations.HarvestSlots : Prop :=
  ∀ s : State, s.inReset = false →
    (∀ slot group, slot < 8 → (s.mrgAt slot).busy = true → group < (s.mrgAt slot).groups → (s.mrgAt slot).written.contains group = false →
      (∀ r ∈ (s.mrgAt slot).groupRows group, (s.mrgAt slot).rowReady r = true) →
        exec (.mergeGroupFold slot group) s = .next (s.foldGroup slot group)) ∧
    (∀ slot t o, slot < 8 → (s.mrgAt slot).cutoffAt = some t → s.op? (s.mrgAt slot).tag = some o → (s.mrgAt slot).busy = true →
      (s.mrgAt slot).cut = false → (s.mrgAt slot).allLast = false →
        (t ≤ s.now → exec (.mergeCutoff slot) s = .next ((s.setMrg slot { s.mrgAt slot with cut := true, lastAt := t - o.issuedAt }).mrgCheck slot)) ∧
        (s.now < t → exec (.mergeCutoff slot) s = .next s)) ∧
    (∀ slot t, slot < 4 → (s.cmbAt slot).cutoffAt = some t → (s.cmbAt slot).ready = true → (s.cmbAt slot).cut = false →
      (s.cmbAt slot).allTaken = false →
        (t ≤ s.now → exec (.combineCutoff slot) s = .next ((s.setCmb slot { s.cmbAt slot with cut := true }).cmbFold slot)) ∧
        (s.now < t → exec (.combineCutoff slot) s = .next s)) ∧
    (∀ k, k < 4 → s.cfgReady = true → (s.dslAt k).busy = true → exec (.sxDslotFlush k) s = .next (s.ported.setDsl k { s.dslAt k with flush :=
      true })) ∧
    (∀ k, k < 4 → s.cfgReady = true → (s.dslAt k).busy = false → ∃ t, exec (.sxDslotFlush k) s = .next t ∧ (t.dslAt k).carried = [] ∧
      t.rg 0x7003C = setFld (s.rg 0x7003C) 31 0 (min (fld (s.rg 0x7003C) 31 0 + (s.dslAt k).carried.length) 4294967295) ∧ t.mods = s.mods ∧
      t.seq = s.seq ∧ t.ops = s.ops) ∧
    (∀ d : W32, s.cfgReady = true → bit d 31 = true → ∃ t, exec (.hvCalClrGo d) s = .next t ∧ bit (t.rg 0x70008) 30 = false ∧
      t.calClr = some (fld d 11 0, min (max 1 (fld d 24 12)) (4096 - fld d 11 0), s.now) ∧ t.shadow = s.shadow ∧ t.seq = s.seq ∧ t.mods = s.mods) ∧
    (s.calClr ≠ none → ∃ t, exec .hvCalClrDone s = .next t ∧ t.calClr = none ∧ bit (t.rg 0x70008) 30 = true ∧
      ∀ k, k ≠ 0x70008 → t.rg k = s.rg k)

/-- The events of the pages and of a multi-tick copy: a walk that found an update begins again after its wait; a flush of the cache takes an entry
that was filling once its fill is over, and ends once no entry of it is still filling; EN of RPC_CFG is not cleared while an entry is in use, and in
the cc of a Solstice a write leaves the shadow copy until the commit is over; an aborted copy admits nothing more and
completes once what it admitted has (the model's reading, log entry 32). -/
def Obligations.PageControl : Prop :=
  ∀ s : State, s.inReset = false →
    (∀ tag o, s.op? tag = some o → o.phase = .walkWait → (o.retryAt ≤ s.now → exec (.pageWalkRetry tag) s = .next (s.walkHeader tag)) ∧
      (s.now < o.retryAt → exec (.pageWalkRetry tag) s = .next s)) ∧
    (s.cfgReady = true → s.flushSet = none → ∃ t, exec .rpcFlushGo s = .next t ∧ t.flushSet = some (s.tagsIn 1) ∧ bit (t.rg 0x80030) 30 = false) ∧
    (s.cfgReady = true → s.flushSet ≠ none → exec .rpcFlushGo s = .next s.ported) ∧
    (∀ e es, s.flushSet = some es → e ∈ es → (s.tag e).idle = true →
      s.flushNow e = ({ s with flushSet := some (es.filter (· != e)) } : State).evictTag e) ∧
    (∀ es, s.flushSet = some es → (∀ e ∈ es, (s.tag e).st ≠ 1) → ∃ t, exec .rpcFlushDone s = .next t ∧ t.flushSet = none ∧
      bit (t.rg 0x80030) 30 = true) ∧
    (∀ es e, s.flushSet = some es → e ∈ es → (s.tag e).st = 1 → exec .rpcFlushDone s = .next s) ∧
    (∀ d : W32, s.cfgReady = true → bit d 0 = true → ∃ t, exec (.rpcCfgWrite d) s = .next t ∧ bit (t.rg 0x80000) 0 = true ∧ t.tags = s.tags ∧
      t.seq = s.seq ∧ (s.solNow = true → t.shadow = s.shadow)) ∧
    (∀ d : W32, s.cfgReady = true → bit d 0 = false → (∃ e ∈ s.tags, e.2.st ≠ 0) → ∃ t, exec (.rpcCfgWrite d) s = .next t ∧
      bit (t.rg 0x80000) 0 = bit (s.rg 0x80000) 0 ∧ t.tags = s.tags) ∧
    (∀ k o, k < 4 → s.cfgReady = true → s.mtOp k = some o → o.abort = false → ∃ till, (o.thru = false ∨ o.msgs = [] → till = o.doneAt) ∧
      exec (.xeMtStatAbort k) s = .next
        (((({ s.accessed with free := s.free + 1 } : State).setOp
          { o.fail 6 false 0 with abort := true, msgs := [], pieces := [], sends := false, doneAt := till,
                                  await := if o.msgs.isEmpty then o.await else [] }).opCheck o.tag).cfgAnswer 32 0))

/-! ## The link -/

/-- A flit slot. In a retrain a module sends IDLE. A marker that is due goes before anything else, on the lowest-numbered active module alone; then
come the control flits that wait for this module (REPAIR, RETRAIN_REQ), FLOW and CREDIT, unless a repeat has waited for 7 slots; then the owed
repeats, the oldest first; IDLE with ACKREQ at 80 outstanding flits and 7 slots without it; new DATA of TC3, of TC0, then of TC1 and TC2; and IDLE.
What each item sends: an IDLE flit and a control flit carry the ACK, the NAK and the flags of now; new DATA is granted with the next sequence and
its stamp, and is launched 8 cc later with the ACK and NAK of that cc. A message enters the link for its class. That a flit which has lost its slot
keeps its stamp and gives its sequence to those behind it is the model's choice (log entry 77). -/
def Obligations.FlitSlot : Prop :=
  (∀ (s : State) (m : Nat) (frac : BitVec 3), s.inReset = false → m < 16 →
    (s.openMode = false → (s.mod m).carries = true ∨ (∃ r, (s.mod m).retrain = some r ∧ r.phase7 = true) →
      let u := s.stopBarred m
      (u.slotItem m = .marker ∨ u.slotItem m = .retx → exec (.flitSlot m frac) s = .next (u.sendItem m frac.toNat (u.slotItem m))) ∧
      (u.slotItem m ≠ .marker → u.slotItem m ≠ .retx →
        exec (.flitSlot m frac) s = .next ((u.sendItem m frac.toNat (u.slotItem m)).updMod m (·.retxWaits)))) ∧
    (s.openMode = true → (s.mod m).carries = true → exec (.flitSlot m frac) s = .next (s.openSlot m)) ∧
    (s.openMode = false → (s.mod m).carries = false → (∀ r, (s.mod m).retrain = some r → r.phase7 = false) →
      exec (.flitSlot m frac) s = .next s) ∧
    (∀ tc < 4, exec (.messageAdmission tc) s = .next (s.admitNext tc))) ∧
  (∀ (s : State) (m : Nat),
    let x := s.mod m
    let own := s.ctl.find? fun c => c.1 == m
    (∀ r, x.retrain = some r → s.slotItem m = .idle) ∧
    (x.retrain = none → s.tick.markerDue = true → s.active.head? = some m → s.slotItem m = .marker) ∧
    (x.retrain = none → s.tick.markerDue = false ∨ s.active.head? ≠ some m →
      (x.retxUrgent = false →
        (∀ c, own = some c → s.slotItem m = .ctl c.2) ∧
        (own = none → s.flowDue.contains m = true → s.slotItem m = .flow) ∧
        (own = none → s.flowDue.contains m = false → s.credDue = true → s.slotItem m = .credit)) ∧
      (x.retxUrgent = true ∨ (own = none ∧ s.flowDue.contains m = false ∧ s.credDue = false) → (∃ e ∈ x.rep, e.owed = true) →
        s.slotItem m = .retx) ∧
      (own = none → s.flowDue.contains m = false → s.credDue = false → (∀ e ∈ x.rep, e.owed = false) →
        (80 ≤ x.rep.length → 7 ≤ x.sinceReq → s.slotItem m = .ackIdle) ∧
        (x.rep.length < 80 ∨ x.sinceReq < 7 →
          (s.overdue m = true → s.slotItem m = .held) ∧
          (s.overdue m = false → (∃ c < 4, s.mayData m c = true) → s.slotItem m = .data) ∧
          (s.overdue m = false → (∀ c < 4, s.mayData m c = false) → s.slotItem m = .idle))))) ∧
  (∀ (s : State) (m frac : Nat),
    let x := s.mod m
    let hdr := x.header s.now s.free
    let flit := fun (type tc stream : Nat) (pay : List Byte) (seed : Nat) =>
      (.flit m (flitMake (flitHeader type tc stream hdr.1 hdr.2) pay seed) : Out)
    let ctrl := fun (sub : Nat) (content : List Byte) => flit 3 0 0 (ctlPay sub (x.ackReq false) x.txFrost content) 0x1FFF
    (∀ i, i = .idle ∨ i = .ackIdle → (s.sendItem m frac i).out = s.out ++ [flit 0 0 0 (ctlPay 0 (x.ackReq true) x.txFrost []) 0x1FFF]) ∧
    (s.sendItem m frac .marker).out = s.out ++ [ctrl 1 (s.markerBytes frac)] ∧ (s.sendItem m frac .marker).tick.markerDue = false ∧
    (∀ sub content, (s.sendItem m frac (.ctl (sub :: content))).out = s.out ++ [ctrl sub.toNat content]) ∧
    (s.sendItem m frac .flow).out = s.out ++ [ctrl 3 [BitVec.ofNat 8 s.xoffBits]] ∧ (s.sendItem m frac .flow).flowDue.contains m = false ∧
    (s.sendItem m frac .credit).out = s.out ++ [ctrl 2 s.creditBytes] ∧ (s.sendItem m frac .credit).credDue = false ∧
    (80 ≤ x.rep.length → x.ackReq true = true ∧ x.ackReq false = true) ∧
    (∀ e, x.rep.find? (·.owed) = some e → s.upsetAt 0xA (m * 96 + e.seq % 96) = 0 →
      (s.sendItem m frac .retx).out = s.out ++ [flit 2 e.tc e.stream e.pay e.seq]) ∧
    (∀ e es, x.grants = e :: es → (s.launchData m (8 * s.now + frac)).out = s.out ++ [flit 1 e.tc e.stream e.pay e.seq]) ∧
    (s.mayData m 3 = true → s.sendItem m frac .data = s.grantData m 3 frac) ∧
    (s.mayData m 3 = false → s.mayData m 0 = true → s.sendItem m frac .data = s.grantData m 0 frac) ∧
    (s.mayData m 3 = false → s.mayData m 0 = false → s.mayData m 1 = true ∨ s.mayData m 2 = true →
      ∃ u c, (c = 1 ∨ c = 2) ∧ s.mayData m c = true ∧ (∃ d1 d2, u = ({ s with d1 := d1, d2 := d2 } : State)) ∧
        s.sendItem m frac .data = u.grantData m c frac) ∧
    (∀ c stream pay f, s.stoppedFlit m c = none → s.fillData c = some (stream, pay, f) → ∀ t, t = s.grantData m c frac →
      t.tx = f.tx ∧ (t.mod m).next = (x.next + 1) % 4096 ∧ (∀ k, k ≠ m → t.mod k = s.mod k) ∧ t.out = s.out ∧
      (t.mod m).grants = x.grants ++ [{ seq := x.next, tc := c, stream := stream, pay := pay, ids := f.ids, sent := 8 * s.now + frac + 64,
                                        retx := 0, owed := false, rpt := false }]))

/-- What the link's receiver does with a flit that verifies, by its type: data in order, repeats, idle flits, control flits of credit and of
flow, and the reserved types and subtypes, which are counted. Which of them were outstanding when a retrain began is the model's reading (log entry
58). A failed slot is counted in its module's counter for its cause, and moves the receiver's count of failed slots, at most 8; a flit that comes
while the module holds no lock fails its slot, whatever it is. -/
def Obligations.FlitReceipt : Prop :=
  (∀ (s : State) (m : Nat) (f g : List Byte) (fixed : List Nat) (q : Nat), s.Accepts m f g fixed q →
    let u := s.rxCommon m g fixed
    let fl := rxFlitOf g (!fixed.isEmpty) (s.grantedBefore m (flitPay g))
    let slot := u.eccWritten 0xB (m * 96 + q % 96)
    let sub := (g.getD 4 0).toNat
    (flitType g = 1 → exec (.data m f) s = .next (slot.seqStep m (·.takeData q fl s.now))) ∧
    (flitType g = 2 → (∀ x, (u.mod m).takeRetx q fl s.now = some x → exec (.retx m f) s = .next (slot.seqStep m fun _ => x)) ∧
      ((u.mod m).takeRetx q fl s.now = none → exec (.retx m f) s = .next (u.count (0x20114 + 0x20 * m) 15 0 1))) ∧
    (flitType g = 0 → sub = 0 → exec (.idle m f) s = .next (s.heard m g fixed)) ∧
    (flitType g = 3 → sub = 2 → exec (.credit m f) s = .next ((s.heard m g fixed).takeCredits (slice g 6 16))) ∧
    (flitType g = 3 → sub = 3 → exec (.flow m f) s = .next ((s.heard m g fixed).takeFlow (g.getD 6 0))) ∧
    (4 ≤ flitType g → exec (.reservedTypeFlit m f) s = .next u.protoErr) ∧
    ((flitType g = 3 ∧ (sub = 0 ∨ 6 ≤ sub)) ∨ (flitType g = 0 ∧ sub ≠ 0) → exec (.reservedSubtypeFlit m f) s = .next u.protoErr)) ∧
  (∀ (x : Machine.Mod) (q now : Nat) (f : RxFlit), let y := x.takeData q f now
    y.n = (q + 1) % 4096 ∧ y.u = 0 ∧ y.p = x.p ∧ spFind y.reord q = some f ∧ y.missing = x.missing ++ skipped x.n q) ∧
  (∀ (s : State) (m : Nat) (f : List Byte), s.inReset = false → m < 16 → f.length = 256 → s.openMode = false → (s.mod m).carries = true →
    (s.mod m).rxLock = true →
    (rxClass f (s.mod m).p (s.mod m).n = .uncorrectable → ∃ t, exec (.failedSlot m (some f)) s = .next t ∧ (t.mod m).u = min 8 ((s.mod m).u + 1) ∧
      t.rf (0x10020 + 0x1000 * m) 31 0 = min (s.rf (0x10020 + 0x1000 * m) 31 0 + 1) 4294967295 ∧ (t.mod m).p = (s.mod m).p ∧
      (t.mod m).n = (s.mod m).n ∧ (∀ k, k ≠ m → t.mod k = s.mod k) ∧ (∀ o, o ≠ 0x10020 + 0x1000 * m → t.rg o = s.rg o)) ∧
    (∀ b, rxClass f (s.mod m).p (s.mod m).n = .crcFail b → ∃ t, exec (.failedSlot m (some f)) s = .next t ∧ (t.mod m).u = min 8 ((s.mod m).u + 1) ∧
      t.rf (0x10024 + 0x1000 * m) 31 0 = min (s.rf (0x10024 + 0x1000 * m) 31 0 + 1) 4294967295 ∧ (t.mod m).p = (s.mod m).p ∧
      (t.mod m).n = (s.mod m).n ∧ (∀ k, k ≠ m → t.mod k = s.mod k) ∧ (∀ o, o ≠ 0x10024 + 0x1000 * m → t.rg o = s.rg o))) ∧
  (∀ (s : State) (m : Nat) (f : List Byte), s.inReset = false → m < 16 → f.length = 256 → s.openMode = false → (s.mod m).carries = true →
    (s.mod m).rxLock = false →
    exec (.failedSlot m (some f)) s = .next (s.lockless m) ∧ exec (.data m f) s = .next (s.lockless m) ∧ exec (.retx m f) s = .next (s.lockless m) ∧
    exec (.idle m f) s = .next (s.lockless m) ∧ exec (.credit m f) s = .next (s.lockless m) ∧ exec (.flow m f) s = .next (s.lockless m) ∧
    ((s.mod m).vldGood < 3 → ((s.lockless m).mod m).u = min 8 ((s.mod m).u + 1) ∧
      (s.lockless m).rf (0x10020 + 0x1000 * m) 31 0 = min (s.rf (0x10020 + 0x1000 * m) 31 0 + 1) 4294967295 ∧
      (∀ o, o ≠ 0x10020 + 0x1000 * m → (s.lockless m).rg o = s.rg o)))

/-- The link's timers: an acknowledgement after ACK_TIMER cc, credits as they grow and every 1,024 cc, in a flit or, in Open mode, in a management
function, flow in its period; and the units of Open mode. -/
def Obligations.LinkTimers : Prop :=
  ∀ (s : State) (m : Nat), s.inReset = false → m < 16 →
    (∀ t, (s.mod m).ackAt = some t → (t + s.rf 0x20000 23 16 ≤ s.now → ∃ u, exec (.ackTimer m) s = .next u ∧ (u.mod m).a = (s.mod m).p ∧
        (u.mod m).ackAt = none ∧ u.regs = s.regs ∧ ∀ k, k ≠ m → u.mod k = s.mod k) ∧
      (s.now < t + s.rf 0x20000 23 16 → exec (.ackTimer m) s = .next s)) ∧
    (s.onOff = false → s.linkDownNow = false → s.creditOwed = true → s.openMode = false →
      exec .creditTimer s = .next { s with credDue := true, credLast := s.now }) ∧
    (s.onOff = false → s.linkDownNow = false → s.creditOwed = true → s.openMode = true →
      exec .creditTimer s = .next { (s.sendMgmt1 2 0 s.creditBytes).creditSent with credLast := s.now }) ∧
    (s.onOff = true ∨ s.linkDownNow = true ∨ s.creditOwed = false → exec .creditTimer s = .next s) ∧
    (s.onOff = true → s.openMode = false → s.flowLast + (if s.xoffBits = 0 then 1024 else 32) ≤ s.now →
      exec .flowTimer s = .next { s with flowDue := s.active, flowLast := s.now }) ∧
    (∀ u : List Byte, u.length = 244 → s.openMode = true → (s.mod m).carries = true →
      (flitType u = 1 → exec (.openDataUnit m u) s = .next
        (s.takeArea m (flitStream u) (flitTc u) ((slice u 4 240).set 7 ((slice u 4 240).getD 7 0 ||| 0x20)) false (s.now + 8))) ∧
      exec (.openPaddingUnit m u) s = .next s ∧
      (2 ≤ flitType u → exec (.openReservedUnit m u) s = .next s.protoErr))

/-- The repair handshake: the flits of REPAIR, by their phase in byte 7, about the module k in byte 6; a REQUEST is echoed and armed, and a
self test of that module gives way; an ECHO arms the requester, a CANCEL before the target drops it, a SWITCH moves the receiver to the new map. -/
def Obligations.RepairFlits : Prop :=
  ∀ (s : State) (m : Nat) (f g : List Byte) (fixed : List Nat) (q : Nat), s.Accepts m f g fixed q → flitType g = 3 → (g.getD 4 0).toNat = 4 →
    let u := s.heard m g fixed
    let k := (g.getD 6 0).toNat
    let id := (g.getD 8 0).toNat
    let target := leAt g 14 6
    ((g.getD 7 0).toNat = 1 → u.locked = true → future target u.tick.num = true → k < modules u.member → (g.getD 9 0).toNat < 3 →
      let r : Repair := { id := id, width := (g.getD 9 0).toNat, map := spareOf (u.mod k).spTx (slice g 10 4), target := target, echoed := true,
                          cancel := false, nextSend := 0, began := none }
      exec (.repairRequest m f) s = .next (((u.bistServe k).updMod k fun x => { x with repTx := some r }).sendRepair k 2 r)) ∧
    ((g.getD 7 0).toNat = 1 → u.locked = false → exec (.repairRequest m f) s = .next u) ∧
    (∀ r, (g.getD 7 0).toNat = 2 → (u.mod k).repRx = some r → r.id = id → r.cancel = false → ∃ t, exec (.repairEcho m f) s = .next t ∧
      (t.mod k).repRx = some { r with echoed := true } ∧ (∀ j, j ≠ k → t.mod j = u.mod j) ∧ t.regs = u.regs) ∧
    (∀ r, (g.getD 7 0).toNat = 3 → (u.mod k).repTx = some r → r.id = id → future r.target u.tick.num = true →
      ∃ t, exec (.repairCancel m f) s = .next t ∧ (t.mod k).repTx = none ∧ (∀ j, j ≠ k → t.mod j = u.mod j) ∧ t.regs = u.regs) ∧
    (∀ r, (g.getD 7 0).toNat = 4 → (u.mod k).swapRx = some r → r.id = id → (u.mod k).planWidth ≠ some r.width →
      exec (.repairSwitch m f) s = .next (u.applyRxSwap k r))

/-- The repair's own steps: its start by PA_REPAIR, its repetition every 64 cc, its cancellation for want of an ECHO, the switch at 480 cc, the
receiver's at 600 cc, and the end of the Frost at 720 cc; in Open mode none runs. -/
def Obligations.RepairSteps : Prop :=
  ∀ (s : State) (m : Nat), s.inReset = false → m < 16 →
    (∀ d, m < modules s.member → s.cfgReady = true → exec (.paRepairGo m d) s = .next ((s.accessed.writeRepair m d).cfgAnswer 32 0)) ∧
    (∀ d, bit d 31 = true → s.openMode = false → s.locked = false → (s.writeRepair m d).rf (0x10010 + 0x1000 * m) 30 28 = 4) ∧
    (∀ r, (s.mod m).repRx = some r →
      ((r.echoed = false ∧ s.locked = true) ∨ r.cancel = true → r.nextSend ≤ s.now → exec (.repairResend m) s = .next
        ((s.updMod m fun x => { x with repRx := some { r with nextSend := s.now + 64 } }).sendRepair m (if r.cancel then 3 else 1) r)) ∧
      (r.echoed = false → r.cancel = false → future r.target (s.tickPlus 1) = false → exec (.repairNoEcho m) s = .next
        (((s.updMod m fun x => { x with repRx := some { r with cancel := true, nextSend := s.now + 64 } }).repairEnds m 2).sendRepair m 3 r))) ∧
    (∀ fr r, (s.mod m).frost = some fr → (s.mod m).swapTx = some r → fr.kind = 1 → fr.tx = true → fr.switched = false → fr.since + 480 ≤ s.now →
      s.openMode = false → exec (.swapSwitchSend m) s = .next ((s.sendCtrl m 4 (repairContent m 4 r)).updMod m fun x =>
        { x with spTx := r.map, swapTx := none, frost := some { fr with switched := true } })) ∧
    (∀ r b, (s.mod m).swapRx = some r → (s.mod m).planWidth ≠ some r.width → r.began = some b → b + 600 ≤ s.now →
      s.openMode = false → exec (.swapReceiverTimeout m) s = .next (s.applyRxSwap m r)) ∧
    (s.openMode = true → (s.repairSolstice m).mod m = { s.mod m with repTx := none, repRx := none, swapTx := none, swapRx := none } ∧
      exec (.swapSwitchSend m) s = .next s ∧ exec (.swapReceiverTimeout m) s = .next s) ∧
    (∀ fr, (s.mod m).frost = some fr → fr.kind = 1 → fr.since + 720 ≤ s.now → ∃ t, exec (.swapFrostEnd m) s = .next t ∧
      (t.mod m).frost = none ∧ (t.mod m).st = (if (s.mod m).st = .frost then .active else (s.mod m).st) ∧
      (∀ r, (s.mod m).swapTx = some r → r.width = (s.mod m).width → (t.mod m).spTx = r.map ∧ (t.mod m).swapTx = none) ∧
      ((s.mod m).swapTx = none → (t.mod m).spTx = (s.mod m).spTx) ∧ t.regs = s.regs ∧ ∀ k, k ≠ m → t.mod k = s.mod k)

/-- A retrain: the peer's request is joined and answered with RETRAIN, and the answer to the own one starts its limit; the request is sent again
until then; the end repeats what is outstanding, and in the exit of Midwinter has the module wait for Thaw; the limit takes the module down. -/
def Obligations.RetrainHandshake : Prop :=
  ∀ (s : State) (m : Nat), s.inReset = false → m < 16 →
    (∀ f g fixed q, s.Accepts m f g fixed q → flitType g = 3 → (g.getD 4 0).toNat = 5 →
      let u := s.heard m g fixed
      let k := (g.getD 6 0).toNat
      let r := (g.getD 7 0).toNat
      let reason := if 1 ≤ r ∧ r ≤ 4 then r else 2
      (u.canRetrain k = true → u.openMode = false → exec (.retrainReq m f) s = .next
        ((u.enterRetrain k reason false false).sendSb k 0x16 [BitVec.ofNat 64 reason])) ∧
      (u.canRetrain k = false → exec (.retrainReq m f) s = .next u)) ∧
    (∀ x r, s.Hears x 0x16 1 m → (s.mod m).retrain = some r → r.mine = true → r.answered = false → ∃ t, exec (.retrain m x) s = .next t ∧
      (t.mod m).retrain = some { r with answered := true, limitFrom := some s.now } ∧ (∀ k, k ≠ m → t.mod k = s.mod k) ∧ t.regs = s.regs) ∧
    (∀ r, (s.mod m).retrain = some r →
      (r.mine = true → r.answered = false → r.nextReq ≤ s.now → exec (.retrainReqResend m) s = .next
        ((s.sendRetrainReq m r.reason.toNat).updMod m fun y => { y with retrain := some { r with nextReq := s.now + s.retrainGap m } })) ∧
      (r.phase7 = true → r.gotFlit = true → s.pwr.st ≠ 4 → exec (.retrainEnd m) s = .next
        (((((if r.planned then s.thaw m r else s).updMod m fun x => { x.repeatAll with prob := some 65536 }).modUp m).gapThaw).lateFrost m)) ∧
      (r.phase7 = true → r.gotFlit = true → s.pwr.st = 4 → exec (.retrainEnd m) s = .next (s.exitHold m)) ∧
      (r.phase7 = false ∨ r.gotFlit = false → exec (.retrainEnd m) s = .next s)) ∧
    (∀ r t, (s.mod m).retrain = some r → r.limitFrom = some t →
      (t + s.dur 7200 ≤ s.now → exec (.retrainTimeout m) s = .next (s.modDown m)) ∧
      (s.now < t + s.dur 7200 → exec (.retrainTimeout m) s = .next s)) ∧
    (s.cfgReady = true → s.canRetrain m = false → exec (.llModCtrlRetrain m) s = .next s.ported) ∧
    (s.cfgReady = true → s.canRetrain m = true → s.openMode = false → (s.mod m).st ≠ .fallow →
      exec (.llModCtrlRetrain m) s = .next ((s.accessed.requestRetrain m 2).cfgAnswer 32 0))

/-- Loss and return of lock, on either set of lanes. A loss on the set in use is recorded, or moves the receiver to the other set where ALT_AUTO
allows it and that set holds lock; after LOCK_TIMEOUT without lock the module is down. A loss on the other set only shows. A set that returns ends
the loss, with a retrain of reason 4 where the forwarded clock was lost; the set that is not in use does so only under ALT_AUTO, by a move. A member
without the alternate set has no events of it. A PRBS23 error on a checked lane is counted. That with ALT_AUTO at 0 the set in use is the only one
that is available is the model's reading (log entry 57), and so is that the loss ends with the lock and which loss asks for a retrain (log entry
47). -/
def Obligations.LockEvents : Prop :=
  ∀ (s : State) (m : Nat), s.inReset = false → m < 16 →
    let auto := bit (s.rg (0x10004 + 0x1000 * m)) 16
    (altSet s.member = false → (∀ clk, exec (.lockLoss m true clk) s = .next s) ∧ exec (.lockRegain m true) s = .next s) ∧
    (∀ alt : Bool, alt = false ∨ altSet s.member = true →
      let clkOf := fun (x : Machine.Mod) => if alt then x.clkA else x.clkP
      let frmOf := fun (x : Machine.Mod) => if alt then x.frmA else x.frmP
      let holds := if alt then (s.mod m).clkP && (s.mod m).frmP else (s.mod m).clkA && (s.mod m).frmA
      let shows := fun (t : State) (e : Nat) => bit (t.rg (0x1001C + 0x1000 * m)) e = true
      let rest := fun (t : State) => ∀ k, k ≠ m → t.mod k = s.mod k
      (∀ clk, ∃ t, exec (.lockLoss m alt clk) s = .next t ∧ frmOf (t.mod m) = false ∧ clkOf (t.mod m) = (clkOf (s.mod m) && !clk) ∧ rest t ∧
        ((s.mod m).altSel = alt → auto = false ∨ holds = false → (t.mod m).lostAt = some ((s.mod m).lostAt.getD s.now) ∧
          (t.mod m).clkLost = ((s.mod m).clkLost || clk) ∧ (t.mod m).altSel = alt ∧ shows t 0) ∧
        ((s.mod m).altSel = alt → auto = true → holds = true → (t.mod m).altSel = !alt ∧ (t.mod m).lostAt = (s.mod m).lostAt ∧ shows t 0 ∧
          shows t 2) ∧
        ((s.mod m).altSel ≠ alt → (t.mod m).altSel = (s.mod m).altSel ∧ (t.mod m).lostAt = (s.mod m).lostAt ∧ t.regs = s.regs)) ∧
      (∃ u, exec (.lockRegain m alt) s = .next (if (s.mod m).lostAt ≠ none ∧ (alt = (s.mod m).altSel ∨ auto = true) ∧ (s.mod m).clkLost = true ∧
          (s.mod m).carries = true then u.requestRetrain m 4 else u) ∧ frmOf (u.mod m) = true ∧ clkOf (u.mod m) = true ∧ rest u ∧
        ((s.mod m).lostAt = none ∨ (alt ≠ (s.mod m).altSel ∧ auto = false) → (u.mod m).lostAt = (s.mod m).lostAt ∧
          (u.mod m).altSel = (s.mod m).altSel ∧ u.regs = s.regs) ∧
        ((s.mod m).lostAt ≠ none → alt = (s.mod m).altSel ∨ auto = true → (u.mod m).lostAt = none ∧ (u.mod m).clkLost = false ∧
          (u.mod m).altSel = alt ∧ (alt = (s.mod m).altSel → u.regs = s.regs) ∧ (alt ≠ (s.mod m).altSel → shows u 2)))) ∧
    (∀ t, (s.mod m).lostAt = some t →
      (t + s.rf (0x10004 + 0x1000 * m) 15 0 < s.now → (s.mod m).rxLock = false → (s.mod m).carries = true →
        exec (.lockTimeout m) s = .next (((s.setBit (0x1001C + 0x1000 * m) 1).irq 0).modDown m)) ∧
      (s.now ≤ t + s.rf (0x10004 + 0x1000 * m) 15 0 → exec (.lockTimeout m) s = .next s)) ∧
    ((s.mod m).lostAt = none → exec (.lockTimeout m) s = .next s) ∧
    (∀ lane count, lane < 68 → m < modules s.member →
      (s.prbsWatched m lane = true → 0 < count → ∃ t, exec (.sparePrbsError m lane count) s = .next t ∧
        t.rf (0x10300 + 0x1000 * m + 4 * lane) 15 0 = min (s.rf (0x10300 + 0x1000 * m + 4 * lane) 15 0 + count) 65535 ∧
        bit (t.rg (0x1001C + 0x1000 * m)) 6 = true ∧ t.hm = { s.hm with nPrbs := spAdd s.hm.nPrbs (68 * m + lane) count } ∧ t.mods = s.mods) ∧
      (s.prbsWatched m lane = false ∨ count = 0 → exec (.sparePrbsError m lane count) s = .next s))

/-- The planned changes: a Frost that has drained, or lasted 480 cc, begins its retrain at the new width and rate; a gap that ends without
Thaw is an event; a plan waits for its tick, or is refused, and takes the place of one that waited (the model's choice, log entry 57). In Open mode
none is made. -/
def Obligations.PlannedChanges : Prop :=
  ∀ (s : State) (m : Nat), s.inReset = false → m < 16 →
    (∀ u : State, u = (s.updMod m fun x => { x with width := x.planWidth.getD x.width, rate := x.planRate.getD x.rate }) →
      ∀ f, (s.mod m).frost = some f → f.kind ≠ 1 →
      let mark := fun (x : Machine.Mod) => { x with retrain := x.retrain.map fun r =>
        { r with newRate := (s.mod m).planRate.isSome, newWidth := (s.mod m).planWidth.isSome } }
      ((s.mod m).retrain = none → s.drained m = true ∨ f.since + 480 ≤ s.now →
        (f.kind = 5 → exec (.frostEntryComplete m) s = .next (s.updMod m fun x => { x with frost := some { f with switched := true } })) ∧
        (f.kind = 4 → exec (.frostEntryComplete m) s = .next (((u.sendRetrainReq m 3).enterRetrain m 3 true true).updMod m mark)) ∧
        (f.kind ≠ 4 → f.kind ≠ 5 → exec (.frostEntryComplete m) s = .next
          (((u.enterRetrain m 0 false true).updMod m mark).when (u.planRun && (s.mod m).planRate.isSome) (·.sendRate m (u.mod m).rate)))) ∧
      ((s.mod m).retrain ≠ none ∨ (s.drained m = false ∧ s.now < f.since + 480) → exec (.frostEntryComplete m) s = .next s)) ∧
    (∀ t, s.gapEnd = some t → bit (s.rg 0x20074) 31 = true →
      (future t s.tick.num = false → ∃ u, exec .gapOver s = .next u ∧ u.gapEnd = none ∧ bit (u.rg 0x20058) 5 = true ∧ u.mods = s.mods) ∧
      (future t s.tick.num = true → exec .gapOver s = .next s)) ∧
    (∀ d : W32, s.cfgReady = true → bit d 31 = true → s.openMode = true → ∃ u, exec (.llPlanGo d) s = .next u ∧ u.plan = s.plan ∧ u.mods = s.mods) ∧
    (∀ d : W32, s.cfgReady = true → bit d 31 = true → s.openMode = false →
      let t := (s.rg64 0x20068).toNat % 2 ^ 48
      (s.locked = false → ∃ u, exec (.llPlanGo d) s = .next u ∧ u.rf 0x20060 30 28 = 4 ∧ u.plan = s.plan ∧ u.mods = s.mods) ∧
      (s.locked = true → future t s.tick.num = false → ∃ u, exec (.llPlanGo d) s = .next u ∧ u.rf 0x20060 30 28 = 2 ∧ u.plan = s.plan) ∧
      (s.locked = true → future t s.tick.num = true → ∃ u, exec (.llPlanGo d) s = .next u ∧ u.rf 0x20060 30 28 = 0 ∧
        u.plan = some (t, min (fld d 23 20) (maxRate s.member), max 1 (fld d 15 8)) ∧
        (∀ k, (s.mod k).st ≠ .fallow → u.mod k = s.mod k) ∧ ∀ k, k < modules s.member → (s.mod k).st = .fallow → (u.mod k).wantWake = true))

/-! ## Released messages and the memory port -/

/-- What leaves the reorder buffer and its ports: a fragment of the stream's next message, a WRITE, a READ_REQ and READ_DATA, each in its turn; a
stream that has gone to the other twin releases what stands before the E that it took over. A WRITE and a READ_DATA give their credits back once their
bytes have gone to the memory port; a READ_REQ waits for the writes before it; READ_DATA for another instance goes over the pass-through port, and
with the lost twin's ORIG it is discarded and counted. -/
def Obligations.ReleaseData : Prop :=
  ∀ (s : State) (n : Nat), s.inReset = false → n < 64 →
    (∀ u : State, u = s.joinStub n →
      let x := u.strm n
      (∀ h f, x.stopped = false ∨ (∃ e, x.runTo = some e ∧ e ≠ x.e) → (∀ r ∈ u.rel, r.held = true → r.dom ≠ n) →
        x.held.find? (fun h => h.sseq == x.e) = some h →
        lowFrag (h.frags.filter fun f => if x.stopped then !f.released && decide (f.rdy ≤ u.now) else u.fragReady h f) = some f →
          let h' := { h with late := h.late || h.resent,
                             frags := h.frags.map fun g => if g.moff = f.moff && g.flit = f.flit then { g with released := true } else g }
          exec (.fragmentRelease (some n)) s = .next (((u.noteFrag h f).updStrm n fun x =>
            { x with held := x.held.map fun g => if g.sseq = h.sseq then h' else g }).heldDone n h')) ∧
      (x.stopped = true → x.runTo = none ∨ x.runTo = some x.e → exec (.fragmentRelease (some n)) s = .next u)) ∧
    (∀ r, s.nextRel n (·.mtype == 0x01) 0x01 = some r → exec (.writeRelease n) s = .next (((s.takeWritten r).takeWrite r.msg r.dom r.ord).payOwed)) ∧
    (∀ r, s.nextRel n (·.mtype == 0x02) 0x02 = some r →
      (s.writesBefore r = false → exec (.readReqRelease n) s = .next ((s.takeRel r).takeReadReq r.msg)) ∧
      (s.writesBefore r = true → exec (.readReqRelease n) s = .next s)) ∧
    (∀ r, s.nextRel n (·.mtype == 0x03) 0x03 = some r →
      let orig := fld r.msg.arg 14 12
      (orig = s.inst.toNat → exec (.readDataRelease n) s = .next (((s.takeWritten r).takeReadData r.msg r.dom r.ord).payOwed)) ∧
      (orig ≠ s.inst.toNat → (s.op? (256 + r.msg.optag.toNat) = none ∨ orig ≠ s.sister.toNat) →
        (s.sisterGone = false ∨ orig ≠ s.sister.toNat → exec (.readDataRelease n) s = .next
          ((s.takeRel r).sendXpt (BitVec.ofNat 3 orig) (.msg s.inst r.msg))) ∧
        (s.sisterGone = true → orig = s.sister.toNat → exec (.readDataRelease n) s = .next ((s.takeRel r).count32 0x90028 1)))) ∧
    (∀ (u : State) (r : Rel), r.dom < 64 → (u.takeWritten r).owed = u.owed ++ [(r.ord, r.msg)] ∧
      (u.takeWritten r).flow = u.flow ∧ (∀ o ∈ u.payOwed.owed, u.writtenOut o.1 = false))

/-- A SIGNAL waits for the writes before it, then raises its counter and is answered with a COMPLETION; a COMPLETION of this instance ends what
awaits it, and one of another goes on to it; a unit of the pass-through port is for this die, or in transit. A received SIGNAL raises COUNT of
the counter that it names by its amount, with the sticky bits of its stream, and the other counters stay. -/
def Obligations.ReleaseSignals : Prop :=
  (∀ (s : State) (n : Nat), s.inReset = false → n < 64 →
    (∀ r, s.nextRel n (·.mtype == 0x04) 0x04 = some r →
      (s.writesBefore r = false → exec (.signalRelease n) s = .next ((s.takeRel r).takeSignal r)) ∧
      (s.writesBefore r = true → exec (.signalRelease n) s = .next s)) ∧
    (∀ r, s.nextRel n (·.mtype == 0x05) 0x05 = some r →
      (origOf r.msg = s.inst → exec (.completionRelease n) s = .next
        ((s.takeRel r).takeCompletion r.msg.optag.toNat r.msg.src.toNat (fld r.msg.arg 3 0) (bit r.msg.arg 4) (fld r.msg.arg 31 8))) ∧
      (origOf r.msg ≠ s.inst → (s.op? (256 + r.msg.optag.toNat) = none ∨ origOf r.msg ≠ s.sister) →
        s.sisterGone = false ∨ origOf r.msg ≠ s.sister → exec (.completionRelease n) s = .next
          ((s.takeRel r).sendXpt (origOf r.msg) (.msg s.inst r.msg)))) ∧
    (∀ (src : BitVec 3) (msg : Msg), s.blank = false → msg.stream < 64 → msg.tc < 4 → msg.data.length ≤ 4096 →
      (msg.dst.toNat = s.die → ∃ t, exec (.passThroughUnit (.msg src msg)) s = .next t ∧ t.transit = s.transit ∧ t.ord = s.ord + 1 ∧ t.rel = s.rel ++
        [{ ord := s.ord, dom := 64 * (1 + src.toNat) + msg.stream, msg := msg, due := none, tick := s.tick.num, held := false,
           psn := false, err := false }]) ∧
      (msg.dst.toNat ≠ s.die → msgCap msg = none → exec (.passThroughUnit (.msg src msg)) s =
        .next { s with transit := s.transit ++ [{ msg := msg, src := src, since := s.now }] }))) ∧
  (∀ (s : State) (r : Rel),
    let n := fld r.msg.arg 5 0
    let t := s.takeSignal r
    fld (t.evc n) 31 0 = (fld (s.evc n) 31 0 + fld r.msg.arg 47 16) % 0x100000000 ∧ bit (t.evc n) 32 = (r.err || bit (s.evc n) 32) ∧
    bit (t.evc n) 33 = (r.psn || bit (s.evc n) 33) ∧ (∀ k, k ≠ n → t.evc k = s.evc k) ∧ t.seq = s.seq ∧ t.g = s.g ∧ t.mods = s.mods)

/-- The messages of the Harvest engines and of the pages at their ports. Where none has its turn, nothing happens; one that names another instance of
the die goes on to it. A contribution, a partial record or a return whose slot is not open for its tag is held with its stream; one of an
older tag leaves and is counted; a contribution of an index that the reduction has not, or whose LAST it has taken, is dropped; a partial record
that fits is staged; the others reach their slot. A page request or atomic waits behind the earlier requests for its record; then the home
instance queues it under its place in the order of releases, and any other instance hands it on. A chunk and an atomic's answer to this
instance end the fill or the entry that waits for them. -/
def Obligations.ReleaseEngines : Prop :=
  (∀ (s : State) (n : Nat) (r : Rel), s.inReset = false → n < 64 →
    let tag := fld r.msg.arg 63 56
    let holds := fun (t : State) => t.rel = s.rel.map (fun y => if y.ord = r.ord then { y with held := true } else y) ∧
      t.red = s.red ∧ t.mrg = s.mrg ∧ t.cmb = s.cmb ∧ t.ops = s.ops
    (s.nextHv 0x10 n = none → exec (.hvContrib n) s = .next s) ∧ (s.nextHv 0x11 n = none → exec (.hvPartial n) s = .next s) ∧
    (s.nextHv 0x12 n = none → exec (.hvExpert n) s = .next s) ∧
    (rinstOf r.msg ≠ s.inst → s.sisterGone = false ∨ rinstOf r.msg ≠ s.sister →
      let on := (s.takeRel r).sendXpt (rinstOf r.msg) (.msg s.inst r.msg)
      (s.nextHv 0x10 n = some r → exec (.hvContrib n) s = .next on) ∧ (s.nextHv 0x11 n = some r → exec (.hvPartial n) s = .next on) ∧
      (s.nextHv 0x12 n = some r → exec (.hvExpert n) s = .next on)) ∧
    (s.nextHv 0x10 n = some r → rinstOf r.msg = s.inst →
      let k := fld r.msg.arg 19 16
      let x := s.redAt k
      (x.busy = false ∨ tagOlder x.rtag tag = true → ∃ t, exec (.hvContrib n) s = .next t ∧ holds t) ∧
      (x.busy = true → tagOlder x.rtag tag = false → x.rtag ≠ tag → x.gfinal = true →
        exec (.hvContrib n) s = .next (s.dropStale r (bit r.msg.arg 26) (contribOrig r.msg) 9)) ∧
      (x.busy = true → x.rtag = tag →
        (x.gfinal = true ∨ ((s.redTake k r).redAt k).gfinal = false → exec (.hvContrib n) s = .next (s.redTake k r)) ∧
        (x.gfinal = false → ((s.redTake k r).redAt k).gfinal = true → ∃ t, exec (.hvContrib n) s = .next t ∧
          t = match ((s.redTake k r).retryContribs k).op? (((s.redTake k r).retryContribs k).redAt k).tag with
            | some o => ((s.redTake k r).retryContribs k).foldRedNext o
            | none => (s.redTake k r).retryContribs k)) ∧
      (x.busy = true → x.rtag = tag → x.gfinal = true → x.k ≤ fld r.msg.arg 15 0 ∨ fld r.msg.arg 15 0 ∈ x.done →
        exec (.hvContrib n) s = .next (s.redFault k r))) ∧
    (s.nextHv 0x11 n = some r → rinstOf r.msg = s.inst →
      let k := fld r.msg.arg 18 16
      let x := s.mrgAt k
      let c := fld r.msg.arg 15 0
      let f := fld r.msg.arg 28 28
      let row := 8 + x.d * (if f = 0 then 4 else 2)
      (x.busy = false ∨ tagOlder x.rtag tag = true → ∃ t, exec (.hvPartial n) s = .next t ∧ holds t) ∧
      (x.busy = true → tagOlder x.rtag tag = false → x.rtag ≠ tag → bit r.msg.arg 26 = false →
        exec (.hvPartial n) s = .next ((s.takeRel r).count32 0x7002C 1)) ∧
      (x.busy = true → x.rtag = tag → exec (.hvPartial n) s = .next (s.mrgTake k r)) ∧
      (x.busy = true → x.rtag = tag → c < x.k → x.localIdx ≠ some c → c ∉ x.last → x.cut = false → fld r.msg.arg 36 29 + 1 = x.d →
        fld r.msg.arg 40 37 + 1 = x.gsize → (∀ e ∈ x.ofmt, e.1 = c → e.2 = f) → r.msg.data.length % row = 0 →
        fld r.msg.arg 55 41 + r.msg.data.length / row ≤ x.rows → bit r.msg.arg 27 = false → bit r.msg.arg 26 = false →
          ∃ t, exec (.hvPartial n) s = .next t ∧ t.rel = s.rel.filter (fun y => y.ord != r.ord) ∧
            (t.mrgAt k).recs = ((List.range (r.msg.data.length / row)).foldl
              (fun y j => y.stage c (partialRec x.d f (fld r.msg.arg 55 41) r.msg.data j)) x).recs ∧
            t.red = s.red ∧ t.cmb = s.cmb ∧ t.ops = s.ops)) ∧
    (s.nextHv 0x12 n = some r → rinstOf r.msg = s.inst →
      let k := fld r.msg.arg 29 28
      let x := s.cmbAt k
      (x.opened = false ∨ tagOlder x.rtag tag = true → ∃ t, exec (.hvExpert n) s = .next t ∧ holds t) ∧
      (x.opened = true → tagOlder x.rtag tag = false → x.rtag ≠ tag ∨ x.cut = true → bit r.msg.arg 36 = false →
        exec (.hvExpert n) s = .next ((s.takeRel r).count32 0x7002C 1)) ∧
      (x.opened = true → x.rtag = tag → x.cut = false → x.ready = false → ∃ t, exec (.hvExpert n) s = .next t ∧ holds t) ∧
      (x.opened = true → x.rtag = tag → x.cut = false → x.ready = true → exec (.hvExpert n) s = .next (s.cmbTake k r)))) ∧
  (∀ (s : State) (n : Nat) (r : Rel), s.inReset = false → n < 64 →
    let u := s.takeRel r
    let handed := (({ u with ackWait := u.ackWait + (if r.msg.mtype = 0x22 then 1 else 0) } : State).sendXpt u.home (.msg u.inst r.msg))
    let queued := ({ u with recOps := u.recOps ++
      [{ id := r.ord, msg := r.msg, started := false, rec_ := none, wr := false, src := r.sister }] } : State).startRecs
    let takes := fun (c : Instr) =>
      (s.recBefore (recPid r.msg) r.ord = true → exec c s = .next s) ∧
      (s.recBefore (recPid r.msg) r.ord = false →
        (u.home ≠ u.inst → exec c s = .next handed.startChecks) ∧
        (u.home = u.inst → pidDie (recPid r.msg) = u.die → u.pageOk (recPid r.msg) = true → exec c s = .next queued.startChecks) ∧
        (u.home = u.inst → pidDie (recPid r.msg) ≠ u.die ∨ u.pageOk (recPid r.msg) = false →
          exec c s = .next (u.takeRecord r.msg r.sister r.ord).startChecks))
    (s.nextRel n (·.mtype == 0x20) 0x20 = some r → takes (.pgReq n)) ∧
    (s.nextRel n (isAtomic 0) 0x22 = some r → takes (.pgAtomicRead n)) ∧
    (s.nextRel n (isAtomic 1) 0x22 = some r → takes (.pgAtomicInc n)) ∧
    (s.nextRel n (isAtomic 2) 0x22 = some r → takes (.pgAtomicDec n)) ∧
    (s.nextRel n (isAtomic 3) 0x22 = some r → takes (.pgAtomicCas n)) ∧
    (s.nextRel n (isAtomic 4) 0x22 = some r → takes (.pgAtomicRdec n)) ∧
    (s.nextRel n (·.mtype == 0x20) 0x20 = none → exec (.pgReq n) s = .next s) ∧
    (s.nextRel n (·.mtype == 0x21) 0x21 = some r → let orig := fld r.msg.arg 50 48
      (orig = s.inst.toNat → exec (.pgData n) s = .next ((((s.takeWritten r).pgData r).payOwed).pagePump)) ∧
      (orig ≠ s.inst.toNat → s.sisterGone = false ∨ orig ≠ s.sister.toNat →
        exec (.pgData n) s = .next (u.sendXpt (BitVec.ofNat 3 orig) (.msg s.inst r.msg)))) ∧
    (s.nextRel n (·.mtype == 0x23) 0x23 = some r → let orig := fld r.msg.arg 14 12
      (orig = s.inst.toNat → fld r.msg.arg 17 15 ≠ 4 → exec (.pgAtomicResp n) s = .next
        ((u.pageOut r.msg.optag.toNat (fld r.msg.arg 11 0) (fld r.msg.arg 21 18) (leAt r.msg.data 0 8 % 2 ^ 32)).pagePump)) ∧
      (orig = s.inst.toNat → fld r.msg.arg 17 15 = 4 → fld r.msg.arg 21 18 = 5 → exec (.pgAtomicResp n) s = .next
        (({ u with rdecs := dropFirst (fun p => pidDie p == r.msg.src.toNat) u.rdecs } : State).pagePump)) ∧
      (orig ≠ s.inst.toNat → s.sisterGone = false ∨ orig ≠ s.sister.toNat →
        exec (.pgAtomicResp n) s = .next (u.sendXpt (BitVec.ofNat 3 orig) (.msg s.inst r.msg)))))

/-- The memory port: a beat joins the read that its channel and tag name, whose last beat ends it; an acknowledgement ends its write, lets out the
writes that waited behind it, and tells its owner; a tag that no accepted transaction holds is ignored. A read and a write take a tag that no
outstanding request of their kind holds on the channel; a write goes out in windows of 128 bytes, its bytes at their places, its last beat marked, and
none of them in the cc of the acceptance of its request (in which cc the host accepts is free, log entry 63). -/
def Obligations.MemoryPort : Prop :=
  (∀ s : State, s.inReset = false →
    (∀ b : MemBeat, b.data.length = 128 →
      ((∀ r ∈ s.rdq, r.took = true → r.wire ≠ some b.tag) → exec (.memReadData b) s = .next s) ∧
      (∀ r, s.rdq.find? (fun r => r.took && r.wire == some b.tag) = some r →
        (b.last = false → exec (.memReadData b) s = .next
          { s with rdq := s.rdq.map fun q => if q.id = r.id then { q with got := r.got ++ r.take b } else q }) ∧
        (b.last = true → exec (.memReadData b) s = .next
          (({ s with rdq := s.rdq.filter fun q => q.id != r.id } : State).readDone r (r.got ++ r.take b))))) ∧
    (∀ tag err, ((∀ w ∈ s.wrq, w.took = true → w.wire ≠ some tag) → exec (.memWriteAck tag err) s = .next s) ∧
      (∀ w, s.wrq.find? (fun w => w.took && w.wire == some tag) = some w → (∀ b ∈ s.wd, b.wire ≠ tag) →
        let u := ({ s with wrq := s.wrq.filter fun v => v.id != w.id } : State).ackOwner w err
        exec (.memWriteAck tag err) s = .next (u.issueWrites.pump)))) ∧
  (∀ (held : List Nat) (c x : Nat), freeWire held c = some x → x / 1024 = c ∧ x ∉ held) ∧
  (∀ (w : WrReq) (x i k : Nat), 0 < w.data.length → i < 128 →
    let a := 128 * (w.addr / 128 + k) + i
    ∀ b, (w.beats x)[k]? = some b → b.wire = x ∧ b.data.length = 128 ∧
      b.data[i]? = some (if w.addr ≤ a ∧ a < w.addr + w.data.length then w.data[a - w.addr]? else none) ∧
      (b.last = true ↔ k + 1 = (w.beats x).length)) ∧
  (∀ (s : State) (c : Nat) (w : WrReq) (x : Nat), s.wrq.find? (·.onCh c) = some w → w.wire = some x →
    let t := s.acceptWrite c
    let took := { s with wrq := s.wrq.map (fun q => if q.id = w.id then { q with took := true } else q), wd := s.wd ++ w.beats x,
                         free := s.free + 1, out := s.out ++ [.memWrite c (x % 1024) (w.addr / 64 * 64) w.granules] }
    t = took ∨ t = { s with free := s.free + 1 }) ∧
  (∀ (s : State) (c : Nat), s.wrq.find? (·.onCh c) = none → s.acceptWrite c = s)

/-! ## Management, the twin pair, health and power -/

/-- The management functions and the retirement of a module: a DIGEST is compared and a CREDIT taken; a module that is to be retired takes no new
data from the request on, and loses a repair that it had pending; a REQUEST is answered with an ECHO and armed for its tick, also by an end that has
retired the module already, and the ECHO names the tick of the requester. No RATE_STEP is repeated while LL_PLAN is pending. That of two targets the
later holds, and that a retired module's end still answers, is the model's choice (log entry 21). -/
def Obligations.Management : Prop :=
  ∀ (s u : State) (x : MgmtIn),
    (s.Manages (fun m => mgmtFn m == 1) x u → exec .digest s = .next (u.takeDigest x)) ∧
    (s.Manages (fun m => mgmtFn m == 2) x u → (u.openMode = true → exec .mgmtCredit s = .next (u.takeCredits (slice x.msg.data 0 16))) ∧
      (u.openMode = false → exec .mgmtCredit s = .next u)) ∧
    (s.Manages (mgmtIs 0x42 1) x u →
      let m := retireMod x.msg
      let own : Shake := { target := mgmtTick x.msg, mine := false, echoed := true, nextSend := u.now + 256, arg := 0 }
      (m < modules u.member → (u.mod m).st ≠ .retired → (u.mod m).retire = none → exec .retireRequest s = .next
        (((u.dropRepair m).updMod m fun y => { y with retire := some own, retiring := true }).sendRetire 2 m (mgmtTick x.msg))) ∧
      (m < modules u.member → (u.mod m).st = .retired → exec .retireRequest s = .next (u.sendRetire 2 m (mgmtTick x.msg))) ∧
      (modules u.member ≤ m → exec .retireRequest s = .next u)) ∧
    (∀ k, s.Manages (mgmtIs 0x42 2) x u → (u.mod (retireMod x.msg)).retire = some k →
      ∃ t, exec .retireEcho s = .next t ∧ (t.mod (retireMod x.msg)).retire = some (if laterTick k.target (mgmtTick x.msg) = mgmtTick x.msg then
        { k with target := mgmtTick x.msg, echoed := true } else k) ∧
      (∀ j, j ≠ retireMod x.msg → t.mod j = u.mod j) ∧ t.regs = u.regs) ∧
    (s.cfgReady = true → ∀ d : W32, fld d 3 0 < modules s.member → (s.mod (fld d 3 0)).st ≠ .retired →
      (bit d 31 = true → exec (.llRetireGo d) s = .next
        ((((s.accessed.setRf 0x20080 3 0 (fld d 3 0)).startRetire (fld d 3 0) false).setRf 0x20080 31 31 1).cfgAnswer 32 0)) ∧
      (bit d 30 = true → ∃ t, exec (.llRetireForce d) s = .next t ∧ (t.mod (fld d 3 0)).retiring = true ∧ (t.mod (fld d 3 0)).retire = some
        { target := s.tickPlus 1, mine := true, echoed := true, nextSend := s.now, arg := 0 } ∧ ∀ j, j ≠ fld d 3 0 → t.mod j = s.mod j)) ∧
    (s.inReset = false → s.twin.rejoin = none → s.hm.stepReq = none → (∀ m < modules s.member, (s.mod m).retire = none) →
      (∀ k, s.twin.take = some k → k.mine = true → k.echoed = false → k.nextSend ≤ s.now → exec .mgmtResend s = .next
        ((s.updTwin fun x => { x with take := some { k with nextSend := s.now + 256 } }).sendTwinFn 0x40 1 k.arg s.twin.lost k.target [])) ∧
      (s.twin.take = none → exec .mgmtResend s = .next s)) ∧
    (s.inReset = false → s.twin.take = none → s.hm.stepReq = none → (∀ m < modules s.member, (s.mod m).retire = none) →
      ∀ k, s.twin.rejoin = some k → k.mine = true → k.echoed = false → k.nextSend ≤ s.now → exec .mgmtResend s = .next
        ((s.updTwin fun x => { x with rejoin := some { k with nextSend := s.now + 256 } }).sendTwinFn 0x43 1 k.arg false k.target [])) ∧
    (s.inReset = false → s.twin.take = none → s.twin.rejoin = none → (∀ m < modules s.member, (s.mod m).retire = none) →
      ∀ k, s.hm.stepReq = some k → k.mine = true → k.echoed = false → k.arg < 16 → k.nextSend ≤ s.now →
        (s.plan = none → exec .mgmtResend s = .next
          ((s.updHm fun h => { h with stepReq := some { k with nextSend := s.now + 256 } }).sendStep 1 k.arg k.target)) ∧
        (s.plan ≠ none → exec .mgmtResend s = .next s))

/-- The handshakes of a twin pair: TAKEOVER and REJOIN are answered with an ECHO and armed, an ECHO arms the requester, FORCE reports the own link
failed, REJOIN asks, and STREAM_STATE names where the adopted streams go on. What an ECHO of an older target fixes, when FORCE is taken, and that a
late REQUEST is still answered, are the model's choices (log entry 20). -/
def Obligations.TwinHandshakes : Prop :=
  ∀ (s u : State) (x : MgmtIn),
    (s.Manages (mgmtIs 0x40 1) x u → u.paired = true → twinRole x.msg = u.sisRole →
      u.twin.st < 3 ∨ ((u.twin.st = 3 ∨ u.twin.st = 5) ∧ twinLost x.msg = true) → u.twin.take = none →
      exec .takeoverRequest s = .next (((((u.updTwin fun y =>
        { y with st := 2, take := some { target := mgmtTick x.msg, mine := false, echoed := true, nextSend := u.now + 256, arg := u.sisRole },
                 lost := u.twin.lost || twinLost x.msg }).freeze (roleStreams u.sisRole) true).twinEvent 0).sendTwinFn 0x40 2 u.sisRole
          (u.twin.lost || twinLost x.msg) (mgmtTick x.msg) []).sendHeartbeat)) ∧
    (s.Manages (mgmtIs 0x40 1) x u → u.hearsTakeover x.msg = false → exec .takeoverRequest s = .next u) ∧
    (∀ k, s.Manages (mgmtIs 0x40 2) x u → u.twin.take = some k →
      u.paired = false ∨ k.arg = u.role ∨ laterTick k.target (mgmtTick x.msg) ≠ mgmtTick x.msg → exec .takeoverEcho s = .next u) ∧
    (∀ k, s.Manages (mgmtIs 0x40 2) x u → u.paired = true → u.twin.take = some k → k.arg ≠ u.role →
      laterTick k.target (mgmtTick x.msg) = mgmtTick x.msg → ∃ t, exec .takeoverEcho s = .next t ∧
      t.twin.take = some { k with target := mgmtTick x.msg, echoed := true } ∧ t.twin.lost = (u.twin.lost || twinLost x.msg) ∧
      t.twin.st = u.twin.st ∧ t.streams = u.streams ∧ t.regs = u.regs) ∧
    (s.Manages (fun m => mgmtFn m == 0x41) x u → u.paired = true → u.twin.st = 3 → twinRole x.msg = u.sisRole → ∃ t, exec .streamState s = .next t ∧
      t.twin.peerE = some ((List.range 32).map fun i => leAt x.msg.data (2 * i) 2) ∧
      (∀ n ∈ roleStreams u.sisRole, (t.strm n).moving = false) ∧ t.mods = u.mods ∧ t.regs = u.regs) ∧
    (s.Manages (mgmtIs 0x43 1) x u → u.paired = true → u.twin.st = 3 → u.twin.moving = false → u.twin.rejoin = none →
      exec .rejoinRequest s = .next ((u.updTwin fun y =>
        { y with rejoin := some { target := mgmtTick x.msg, mine := false, echoed := true, nextSend := u.now + 256, arg := u.sisRole } }).sendTwinFn
          0x43 2 u.sisRole false (mgmtTick x.msg) [])) ∧
    (∀ k, s.Manages (mgmtIs 0x43 2) x u → u.twin.rejoin = some k → ∃ t, exec .rejoinEcho s = .next t ∧
      t.twin.rejoin = some (if laterTick k.target (mgmtTick x.msg) = mgmtTick x.msg then { k with target := mgmtTick x.msg, echoed := true } else k) ∧
      t.twin.st = u.twin.st ∧ t.streams = u.streams ∧ t.regs = u.regs) ∧
    (s.cfgReady = true → (s.paired = true → s.twin.st = 1 → exec .twnCtrlForce s = .next (s.accessed.failOwn.sendHeartbeat.cfgAnswer 32 0)) ∧
      (s.paired = false ∨ s.twin.st ≠ 1 → exec .twnCtrlForce s = .next s.ported)) ∧
    (s.cfgReady = true → s.paired = true → s.twin.st = 3 → s.twin.sisOk = true → s.twin.alive = true → s.twin.rejoin = none →
      let t := (s.rg64 0x90008).toNat % 2 ^ 48
      (future t s.tick.num = true → exec .twnCtrlRejoin s = .next (((s.accessed.updTwin fun y =>
        { y with rejoin := some { target := t, mine := true, echoed := false, nextSend := s.now + 256, arg := s.sisRole },
                 asked := true }).sendTwinFn 0x43 1 s.sisRole false t []).cfgAnswer 32 0)) ∧
      (future t s.tick.num = false → exec .twnCtrlRejoin s = .next s.ported))

/-- The twin bus: a heartbeat every 64 cc, at once where the own link fails, and the sister's; its loss after HB_LIMIT periods and its absence
after 2,400,000 cc; and the records that the survivor passes on. What a heartbeat tells of a takeover under way is the model's choice (log entry
20). -/
def Obligations.TwinBus : Prop :=
  ∀ s : State, s.inReset = false → s.paired = true →
    (s.twin.st ≠ 1 ∨ s.twin.failed = true ∨ s.linkFails = false →
      (s.twin.nextHb ≤ s.now → ∃ t, exec .heartbeatSend s = .next t ∧ t.twin = { s.twin with nextHb := s.now + 64 } ∧
        (∃ take, t.out = s.out ++ [.twin (.heartbeat s.linkOk s.halves { waking := s.pwr.wakeSent || s.pwr.st == 4, take := take })]) ∧
        t.regs = s.regs ∧ t.mods = s.mods) ∧
      (s.now < s.twin.nextHb → exec .heartbeatSend s = .next s)) ∧
    (s.twin.st = 1 → s.twin.failed = false → s.linkFails = true → exec .heartbeatSend s = .next s.failOwn.sendHeartbeat) ∧
    (∀ (ok : Bool) (half : Nat),
      let u : State := { s with twin := { s.twin with alive := true, lastHb := some s.now, sisOk := ok, sisHalf := half } }
      (s.twin.st = 0 → s.linkOk = true → ok = true →
        exec (.heartbeat ok half ⟨false, none⟩) s = .next { u with twin := { u.twin with st := 1 } }) ∧
      (s.twin.st = 1 → s.linkFails = false → ok = false → exec (.heartbeat ok half ⟨false, none⟩) s = .next (u.requestTakeover false)) ∧
      (s.twin.st = 1 → (ok = true ∨ s.linkFails = true) → exec (.heartbeat ok half ⟨false, none⟩) s = .next u) ∧
      (∀ p : Pending, s.twin.st = 1 → exec (.heartbeat ok half ⟨false, some p⟩) s = .next ((({ u with twin := { u.twin with
        st := 2, lost := p.lost, take := some { target := p.target.getD ((s.tick.num + 2) % 2 ^ 48), mine := false, echoed := p.target.isSome,
                                                nextSend := s.now, arg := s.role } } } : State).freeze (roleStreams s.role) true).twinEvent 0))) ∧
    (∀ t, s.twin.lastHb = some t → (t + 64 * s.rf 0x90000 15 8 ≤ s.now → exec .instLost s = .next s.sisterLost) ∧
      (s.now < t + 64 * s.rf 0x90000 15 8 → exec .instLost s = .next s)) ∧
    (∀ t, s.twin.enAt = some t → s.twin.st = 0 → s.twin.alive = false →
      (t + 2400000 ≤ s.now → ∃ u, exec .noSister s = .next u ∧ u.twin = { s.twin with st := 5 } ∧ bit (u.rg 0x90014) 2 = true ∧
        bit (u.rg 0x30) 7 = true) ∧
      (s.now < t + 2400000 → exec .noSister s = .next s)) ∧
    (∀ r, recordOk r = true → exec (.operationRecord r) s = .next (s.takeRecordOp r)) ∧
    (∀ tag (st : BitVec 4) psn ecount o, tag < 256 → s.op? tag = some o → o.handed = true →
      let o' : Op := { o with handed := false, psn := o.psn || psn || st == 1, farPsn := o.farPsn || psn,
                              await := if st = 5 then [] else o.await, trk := if st = 5 then o.trk.filter (·.2.ans) else o.trk }
      exec (.completionReport tag st psn ecount) s = .next
        ((s.setOp { o'.fail st.toNat true 0 with ecount := max o.ecount (min ecount 0xFFFFFF) }).opCheck tag)) ∧
    (∀ x : StreamState, x.stream < 64 →
      (s.twin.st = 3 → roleStream s.sisRole x.stream = true →
        exec (.twinStreamState x) s = .next (if s.twin.lost then s else s.adoptStream x)) ∧
      (s.twin.st = 2 → roleStream s.sisRole x.stream = true →
        exec (.twinStreamState x) s = .next { s with twin := { s.twin with early := s.twin.early ++ [x] } }) ∧
      (roleStream s.sisRole x.stream = false → roleStream s.role x.stream = true → exec (.twinStreamState x) s = .next (s.regainStream x))) ∧
    (∀ (xs : List LogEnt) (hit : Bool) (u : State), (∀ x ∈ xs, x.stream < 64 ∧ x.msg.tc < 4) → s.memHit 9 = (hit, u) →
      exec (.responseLogTransfer xs) s = .next ((u.addResend (xs.map (logAgain · hit))).each xs fun v x => match x.src with
        | some (a, n) => v.reread (logAgain x hit) a n
        | none => v)) ∧
    (∀ n q, n < 64 → (∀ h ∈ (s.strm n).held, h.sseq ≠ q) → exec (.releaseCommand n q) s = .next s) ∧
    (∀ n q h k, n < 64 → (s.strm n).held.find? (fun h => h.sseq == q) = some h → heldLen h.frags = some k →
      exec (.releaseCommand n q) s = .next
        ((((((s.count32 0x20078 1).setBit 0x20058 1).updStrm n fun x => { x with held := x.held.filter fun g => g.sseq != q }).updTc h.tc fun c =>
          { c with buf := c.buf - ((h.frags.map fun f => f.bytes.length).sum - k) }).releaseMsg n (msgOf n h.tc (fragBytes h.frags k)) none)))

/-- The Health Monitor samples once every HM_CFG.SAMPLE cycles of aon_clk while it is on (how long such a cycle is stays open, log entry 80), and what
it decides waits while a rate step-down is pending; while a warm reset is held its filters go on. A REQUEST of a step-down is refused where HM_LIMIT
forbids it or LL_PLAN is pending; else it is echoed and armed, and where both ends have asked, the lower rate and the later target hold; an ECHO arms
the requester, a REFUSE ends its request, a CANCEL ends the step-down at either end, and one without ECHO is cancelled every 64 cc before its tick. At
its tick the step begins where an ECHO is held. Traffic that has waited wakes a link asleep. How a step-down that CANCEL has ended is kept is the
model's choice (log entry 41). -/
def Obligations.HealthAndRate : Prop :=
  ∀ (s u : State) (x : MgmtIn),
    (∀ h, (s.inReset = false → exec (.hmSample h) s = .next (s.hmSample h)) ∧
      (s.inReset = true → s.env.cold = true → exec (.hmSample h) s = .next s) ∧
      (s.inReset = true → s.env.cold = false → exec (.hmSample h) s = .next (if s.sampleDue = true then (s.hmFilter h).supplyAlarm else s)) ∧
      (s.bist.cur = none → let v : State := { s with bist := { s.bist with mhz := some h.coreMhz } }
        (s.sampleDue = false → s.hmSample h = v) ∧
        (s.sampleDue = true → let f := v.hmFilter h
          s.hmSample h = ((f.each f.allMods (·.hmModule f.hm.stepReq.isSome ·)).when (!f.hm.stepReq.isSome) (·.hmLink)).hmAlarms ∧
          f.hm.lastAt = s.now ∧ f.hm.nLane = [] ∧ f.hm.nPrbs = [] ∧ f.hm.nCrc = [] ∧ f.hm.vdd = h.vdd ∧
          f.hm.vddA = filt (s.rf 0xA0004 15 12) s.hm.vddA h.vdd ∧ f.hm.crc = filtMap (s.rf 0xA0004 7 4) s.hm.crc s.hm.nCrc ∧
          f.mods = s.mods ∧ f.regs = s.regs))) ∧
    (s.sampleDue = true ↔ bit (s.rg 0xA0000) 31 = true ∧ s.hm.lastAt * s.env.aon + s.rf 0xA0000 15 0 * s.clk ≤ s.now * s.env.aon) ∧
    (s.Manages (stepIs 1) x u → let rate := stepRate x.msg
      (bit (u.rg 0xA0008) 4 = false ∨ rate < u.rf 0xA0008 15 12 ∨ u.plan ≠ none →
        exec .rateStepRequest s = .next (u.sendStep 3 rate (mgmtTick x.msg))) ∧
      (bit (u.rg 0xA0008) 4 = true → u.rf 0xA0008 15 12 ≤ rate → u.plan = none →
        (u.hm.stepReq = none ∨ (∃ k, u.hm.stepReq = some k ∧ 16 ≤ k.arg) → exec .rateStepRequest s = .next ((u.updHm fun h =>
          { h with stepReq := some { target := mgmtTick x.msg, mine := false, echoed := true, nextSend := u.now + 256, arg := rate } }).sendStep
            2 rate (mgmtTick x.msg))) ∧
        (∀ k, u.hm.stepReq = some k → k.arg < 16 → let target := laterTick k.target (mgmtTick x.msg)
          let met : Shake := { target := target, mine := k.mine, echoed := !k.mine || k.echoed, nextSend := u.now + 256, arg := min rate k.arg }
          exec .rateStepRequest s = .next ((u.updHm fun h => { h with stepReq := some met }).sendStep 2 (min rate k.arg) target)))) ∧
    (∀ k, u.hm.stepReq = some k → k.mine = true →
      (s.Manages (stepIs 2) x u → k.arg < 16 → laterTick k.target (mgmtTick x.msg) = mgmtTick x.msg → exec .rateStepEcho s = .next
        { u with hm := { u.hm with stepReq := some { k with target := mgmtTick x.msg, echoed := true, arg := min k.arg (stepRate x.msg) } } }) ∧
      (s.Manages (stepIs 2) x u → 16 ≤ k.arg ∨ laterTick k.target (mgmtTick x.msg) ≠ mgmtTick x.msg → exec .rateStepEcho s = .next u) ∧
      (s.Manages (stepIs 3) x u → k.echoed = false → exec .rateStepRefuse s = .next { u with hm := { u.hm with stepReq := none } }) ∧
      (s.Manages (stepIs 3) x u → k.echoed = true → exec .rateStepRefuse s = .next u)) ∧
    (∀ k, u.hm.stepReq = some k → k.mine = false → (s.Manages (stepIs 2) x u → exec .rateStepEcho s = .next u) ∧
      (s.Manages (stepIs 3) x u → exec .rateStepRefuse s = .next u)) ∧
    (s.Manages (stepIs 4) x u → exec .rateStepCancel s = .next { u with hm := { u.hm with stepReq := none } }) ∧
    (∀ k, s.inReset = false → s.hm.stepReq = some k →
      (k.mine = true → k.echoed = false → k.arg < 16 ∨ k.nextSend ≤ s.now → future k.target (s.tickPlus 1) = false →
        future k.target s.tick.num = true → exec .rateStepNoEcho s = .next ((s.updHm fun h =>
          { h with stepReq := some { k with arg := k.arg % 16 + 16, nextSend := s.now + 64 } }).sendStep 4 (k.arg % 16) k.target)) ∧
      (k.mine = false ∨ k.echoed = true ∨ future k.target (s.tickPlus 1) = true ∨ future k.target s.tick.num = false →
        exec .rateStepNoEcho s = .next s) ∧
      (k.target = s.tick.num → let v : State := { s with hm := { s.hm with stepReq := none } }
        (k.echoed = true → s.stepSolstice = (v.frostAll 3 (some k.arg)).setGap 3 v.gapTicks) ∧
        (k.echoed = false → s.stepSolstice = v))) ∧
    (s.inReset = false → s.pwr.st = 3 → s.pwr.wakeSent = false → bit (s.rg 0xA0104) 30 = true → bit (s.rg 0xA0008) 5 = true →
      (s.waitedLong false = true → exec .trafficWake s = .next (s.startWake.hmAct 8 8 s.powerMod 0x7F)) ∧
      (s.waitedLong false = false → exec .trafficWake s = .next s))

/-- Fallow: the highest-numbered module that is idle asks, the peer agrees or not by its own transmit direction, and either end wakes it, 96 cc at
2.4 GHz from the wake; a retrain that waited for it begins then. That a request without an answer is sent again after 2,400 cc is the model's choice
(log entry 41). -/
def Obligations.FallowResults : Prop :=
  ∀ (s : State) (m : Nat), s.inReset = false → m < 16 →
    (s.activeMods.getLast? = some m → bit (s.rg 0xA0104) 31 = true → s.rf 0xA0104 20 16 < s.activeMods.length → s.modIdle m = true →
      (s.mod m).fallowReq = false → s.openMode = false → 1 < s.activeMods.length → ∃ t, exec .fallowIdle s = .next t ∧
        (t.mod m) = { s.mod m with fallowReq := true, fallowAt := s.now } ∧ t.out = s.out ++ [.sideband m (sbMake 1 m [])] ∧
        (∀ k, k ≠ m → t.mod k = s.mod k) ∧ t.regs = s.regs) ∧
    (∀ x, s.Hears x 1 0 m →
      (s.txIdle m = true → ∃ t, exec (.fallowReq x) s = .next t ∧ (t.mod m).st = .fallow ∧ t.out = s.out ++ [.sideband m (sbMake 2 m [])] ∧
        (∀ k, k ≠ m → t.mod k = s.mod k) ∧ t.regs = s.regs) ∧
      (s.txIdle m = false → (s.mod m).st = .fallow → (s.mod m).wakeAt = none → exec (.fallowReq x) s = .next (s.sendSb m 2 [])) ∧
      (s.txIdle m = false → (s.mod m).st ≠ .fallow ∨ (s.mod m).wakeAt ≠ none → exec (.fallowReq x) s = .next (s.sendSb m 3 []))) ∧
    (∀ x, s.Hears x 2 0 m → (s.mod m).fallowReq = true → (s.mod m).st = .active → exec (.fallowAck x) s = .next (s.enterFallow m)) ∧
    (∀ x, s.Hears x 3 0 m → exec (.fallowNak x) s = .next (s.updMod m fun y => { y with fallowReq := false })) ∧
    (m < modules s.member → (s.mod m).st = .fallow → (s.mod m).wakeAt = none → (s.mod m).wantWake = true →
      (∀ k < m, (s.mod k).st ≠ .fallow) → s.mayWake = true → exec .fallowWake s = .next (s.beginWake m)) ∧
    ((s.mod m).st = .fallow → (s.mod m).wakeAt = none → s.bist.cur = none → exec (.fallowWakeDetect m) s = .next
      (s.updMod m fun y => { y with wakeAt := some s.now })) ∧
    (∀ t, (s.mod m).wakeAt = some t → (s.mod m).st = .fallow →
      (t + s.dur 96 ≤ s.now → let u := ((s.updMod m fun y =>
          { y with st := .active, wakeAt := none, wantWake := false, wantRetrain := none, lastUse := s.now, rxUse := s.now }).flowAll).lateFrost m
        ((s.mod m).wantRetrain = none → exec (.fallowWakeDone m) s = .next u) ∧
        (∀ r, (s.mod m).wantRetrain = some r → exec (.fallowWakeDone m) s = .next (u.requestRetrain m r))) ∧
      (s.now < t + s.dur 96 → exec (.fallowWakeDone m) s = .next s)) ∧
    (s.cfgReady = true → (∀ d, exec (.pwrFallowWrite d) s = .next ((s.accessed.writeFallow d).cfgAnswer 32 0)) ∧
      exec (.pwrFallowWrite 0) s = .next s.ported) ∧
    (s.txIdle m = true ↔ (s.mod m).st = .active ∧ (s.mod m).quiet = true ∧ s.plan = none ∧ s.hm.stepReq = none ∧ s.pwr.mwGo = none ∧
      (s.mod m).rep = [] ∧ (s.mod m).grants = [] ∧ (s.mod m).stopped = [] ∧ (s.mod m).lastUse + s.rf 0xA0104 15 0 ≤ s.now)

/-- Midwinter: the request by its target tick, the agreement of both ends, its end without one, the PHY off once the modules are drained, the
wake and its steps, among them the retrain of every module before Thaw; and the caps that CAP records ask for, in their order. That RESULT 2
answers a target which is not in the future is the model's choice (log entry 62), and so is that a GO elsewhere than in ACTIVE, with the link down or
in Open mode is ignored (log entry 64). -/
def Obligations.MidwinterResults : Prop :=
  ∀ s : State, s.inReset = false →
    let t := (s.rg64 0xA0108).toNat % 2 ^ 48
    (s.cfgReady = true → s.pwr.st = 0 → s.linkDownNow = false → s.openMode = false →
      (s.locked = false → exec .mwGo s = .next ((({ s.accessed with pwr :=
        { s.pwr with st := 0, mwGo := none, acked := false, result := 4, peerGo := none } } : State).sendPower 6 (some 0)).cfgAnswer 32 0)) ∧
      (s.locked = true → future t s.tick.num = false → exec .mwGo s = .next { s.ported with pwr := { s.pwr with result := 2 } }) ∧
      (s.locked = true → future t s.tick.num = true → exec .mwGo s = .next (((({ s.accessed with pwr :=
        { s.pwr with st := 1, mwGo := some t, acked := false, result := 0 } } : State).sendPower 6 (some t)).mwAgree).cfgAnswer 32 0))) ∧
    (s.cfgReady = true → s.pwr.st ≠ 0 ∨ s.linkDownNow = true ∨ s.openMode = true → exec .mwGo s = .next s.ported) ∧
    (∀ x m, s.Hears x 6 1 m →
      (fld (sbWord x 0) 47 0 ≠ 0 → exec (.mwReq x) s = .next
        (({ s with pwr := { s.pwr with peerGo := some (fld (sbWord x 0) 47 0) } } : State).mwAgree)) ∧
      (fld (sbWord x 0) 47 0 = 0 → s.pwr.st ≠ 1 → exec (.mwReq x) s = .next { s with pwr := { s.pwr with peerGo := none } }) ∧
      (fld (sbWord x 0) 47 0 = 0 → s.pwr.st = 1 → exec (.mwReq x) s = .next
        { s with pwr := { s.pwr with peerGo := none, st := 0, mwGo := none, acked := false, result := 3 } })) ∧
    (∀ x m, s.Hears x 7 1 m → s.pwr.mwGo = some (fld (sbWord x 0) 47 0) → exec (.mwAck x) s = .next { s with pwr := { s.pwr with acked := true } }) ∧
    (∀ t, s.pwr.mwGo = some t → s.pwr.st = 1 → future t (s.tickPlus 1) = false → s.locked = true → s.pwr.acked = false → exec .mwNoAck s =
      .next (({ s with pwr := { s.pwr with st := 0, mwGo := none, acked := false, result := 3, peerGo := none } } : State).sendPower 6 (some 0))) ∧
    (s.pwr.st = 2 → s.pwr.entryAt + s.dur 2400 ≤ s.now → ∃ t, exec .phyOff s = .next t ∧ t.pwr = { s.pwr with st := 3, result := 1 } ∧
      (∀ m < modules s.member, (t.mod m).st = if (s.mod m).sleeps then .midwinter else (s.mod m).st) ∧ t.regs = s.regs) ∧
    (s.cfgReady = true → s.pwr.st = 3 → s.pwr.wakeSent = false → exec .pwrCtrlWake s = .next
      ((({ s.accessed with pwr := { s.pwr with wakeSent := true, nextSend := s.now + s.dur 2400 } } : State).sendPower 8 none).cfgAnswer 32 0)) ∧
    (s.cfgReady = true → s.pwr.st ≠ 3 → exec .pwrCtrlWake s = .next s.ported) ∧
    (∀ x m, s.Hears x 8 0 m → (s.pwr.st = 3 ∨ s.pwr.st = 4 → exec (.mwWake x) s = .next (s.sendPower 9 none).beginExit) ∧
      (s.pwr.st ≠ 3 → s.pwr.st ≠ 4 → exec (.mwWake x) s = .next s)) ∧
    (∀ x m, s.Hears x 9 0 m → s.pwr.wakeSent = true → exec (.mwWakeAck x) s = .next s.beginExit) ∧
    (s.pwr.st = 3 → s.beginExit.pwr = { s.pwr with st := 4, wakeSent := false, exitAt := s.now, exitStep := 0 }) ∧
    (s.pwr.st = 3 → s.pwr.wakeSent = true → s.pwr.nextSend ≤ s.now → exec .mwWakeResend s = .next
      (({ s with pwr := { s.pwr with nextSend := s.now + s.dur 2400 } } : State).sendPower 8 none)) ∧
    (∀ t, s.pwr.st = 4 → exitTimes[s.pwr.exitStep]? = some t →
      let done := ∀ m < modules s.member, (s.mod m).retrain = none
      (s.pwr.exitAt + s.dur t ≤ s.now →
        (s.pwr.exitStep < 2 ∨ (s.pwr.exitStep = 3 ∧ done) → exec .midwinterExitStep s = .next
          { s with pwr := { s.pwr with exitStep := s.pwr.exitStep + 1 } }) ∧
        (s.pwr.exitStep = 2 → exec .midwinterExitStep s = .next
          { s.exitRetrain with pwr := { s.exitRetrain.pwr with exitStep := s.exitRetrain.pwr.exitStep + 1 } }) ∧
        (s.pwr.exitStep = 4 → done → exec .midwinterExitStep s = .next s.exitThaw) ∧
        (3 ≤ s.pwr.exitStep → ¬ done → exec .midwinterExitStep s = .next s)) ∧
      (s.now < s.pwr.exitAt + s.dur t → exec .midwinterExitStep s = .next s)) ∧
    (∀ m < modules s.member, (s.mod m).st = .midwinter → (s.exitRetrain.mod m).st = .training ∧ (s.exitRetrain.mod m).retrain ≠ none) ∧
    (∀ m < modules s.member, (s.mod m).st = .frost → (s.exitThaw.mod m).st = .active) ∧ s.exitThaw.pwr.st = 0 ∧ s.exitThaw.pwr.result = 5 ∧
    (∀ r : BitVec 128, s.capOn = true →
      (fld r 3 0 = 8 → exec (.capRecord r) s = .next
        { s with pwr := { s.pwr with capPend := s.pwr.capPend ++ [(fld r 68 64, fld r 75 72)] } }) ∧
      (fld r 3 0 = 9 → exec (.wakeRecord r) s = .next s.startWake)) ∧
    (∀ r : BitVec 128, s.capOn = false → exec (.capRecord r) s = .next s ∧ exec (.wakeRecord r) s = .next s) ∧
    (∀ c, s.pwr.capPend.getLast? = some c → s.capSolstice.pwr.maxmod = c.1 ∧ s.capSolstice.pwr.duty = c.2 ∧ s.capSolstice.pwr.capPend = [])

/-! ## Error memories, self test and the wrapper -/

/-- The error memories: an entry that recurred is rewritten; a scrub takes its range and reads word by word, GAP cc apart, and its GO is refused while
one runs and for the replay and reorder memories; a unit that ECC_RETIRE names is replaced by a spare, which its words then reach, a receive buffer
only while the link is untrained. -/
def Obligations.ErrorMemory : Prop :=
  ∀ s : State, s.inReset = false →
    (∀ n, s.ecc.pend.contains n = true → bit (s.rg (eccLogOff n + 4)) 31 = true → exec (.eccRewrite n) s = .next (s.eccRewriteEntry n)) ∧
    (∀ n, s.ecc.pend.contains n = false → exec (.eccRewrite n) s = .next s) ∧
    (∀ n, n < 16 → let t := s.eccRewriteEntry n
      t.rf (eccLogOff n + 4) 30 29 = 1 ∧ bit (t.rg 0xC0004) 4 = true ∧ t.ecc.pend.contains n = false ∧ t.mods = s.mods ∧ t.pm = s.pm) ∧
    (∀ d : W32, s.cfgReady = true → bit d 31 = true → s.ecc.scrub = none → fld d 27 24 ≠ 0xA → fld d 27 24 ≠ 0xB → ∃ t,
      exec (.eccScrubGo d) s = .next t ∧ t.rf 0xC0020 15 8 = max 1 (fld d 15 8) ∧ t.rf 0xC002C 23 0 = s.rf 0xC0024 23 0 ∧ t.rg 0xC0030 = 0 ∧
      t.rg 0xC0034 = 0 ∧
      (s.rf 0xC0028 23 0 ≠ 0 → t.ecc.scrub = some (fld d 27 24, s.rf 0xC0024 23 0, s.rf 0xC0028 23 0) ∧ t.ecc.nextAt = s.now ∧
        t.rf 0xC0020 30 29 = 2 ∧ t.rf 0xC0020 6 0 = 0) ∧
      (s.rf 0xC0028 23 0 = 0 → t.ecc.scrub = none ∧ t.rf 0xC0020 30 29 = 1 ∧ t.rf 0xC0020 6 0 = 100)) ∧
    (∀ d : W32, s.cfgReady = true → bit d 31 = true → s.ecc.scrub ≠ none ∨ fld d 27 24 = 0xA ∨ fld d 27 24 = 0xB → ∃ t,
      exec (.eccScrubGo d) s = .next t ∧ bit (t.rg 0xC0020) 28 = true ∧ t.ecc = s.ecc ∧ t.rf 0xC0020 30 29 = s.rf 0xC0020 30 29 ∧
      (∀ o, o ≠ 0xC0020 → t.rg o = s.rg o)) ∧
    (s.ecc.scrub = none → exec .scrubRead s = .next s) ∧
    (∀ id pos left, s.ecc.scrub = some (id, pos, left) → (s.now < s.ecc.nextAt → exec .scrubRead s = .next s) ∧
      (s.ecc.nextAt ≤ s.now → ∃ t, exec .scrubRead s = .next t ∧ t.rg 0xC002C = BitVec.ofNat 32 ((pos + 1) % 2 ^ 24) ∧
        (left ≤ 1 → t.ecc.scrub = none ∧ t.rf 0xC0020 30 29 = 1 ∧ t.rf 0xC0020 6 0 = 100) ∧
        (1 < left → t.ecc.scrub = some (id, pos + 1, left - 1) ∧ t.ecc.nextAt = s.now + s.rf 0xC0020 15 8) ∧
        (s.upsetAt id (s.physWord id pos) = 0 → t.rg 0xC0030 = s.rg 0xC0030 ∧ t.rg 0xC0034 = s.rg 0xC0034))) ∧
    (∀ k (d : W32), k < 8 → s.cfgReady = true → bit d 31 = false → exec (.eccRetireWrite k d) s = .next
      (s.ported.setRg (0xC0080 + 4 * k) (d &&& 0x8F0FFFFF))) ∧
    (∀ k (d : W32), k < 8 → s.cfgReady = true → bit d 31 = true → exec (.eccRetireWrite k d) s = .next
      ((((s.accessed.setRg (0xC0080 + 4 * k) (d &&& 0x8F0FFFFF)).retireUnit (fld d 27 24) (fld d 19 0)).when (fld d 27 24 == 6)
        (·.retireWay (fld d 19 0))).cfgAnswer 32 0)) ∧
    (∀ k u, u = (fld (s.rg (0xC0080 + 4 * k)) 27 24, fld (s.rg (0xC0080 + 4 * k)) 19 0) →
      (s.ecc.retire.contains u = false → exec (.spareUnitReplace k) s = .next s) ∧
      (s.ecc.retire.contains u = true →
        (u.1 = 7 → exec (.spareUnitReplace k) s = .next
          { s with ecc := { s.ecc with retire := s.ecc.retire.filter (· != u), spStage := s.ecc.spStage ++ [u.2] } }) ∧
        (u.1 ≠ 7 → s.trainRuns = false → exec (.spareUnitReplace k) s = .next s) ∧
        (u.1 ≠ 7 → s.trainRuns = true → exec (.spareUnitReplace k) s = .next
          { s with ecc := { s.ecc with retire := s.ecc.retire.filter (· != u), spRx := s.ecc.spRx ++ [u.2] } }))) ∧
    (∀ j unit i, i < 512 → s.ecc.spStage.findIdx? (· == unit) = some j → s.physWord 7 (512 * unit + i) = (1024 + j) * 512 + i) ∧
    (∀ j unit i, i < 512 → s.ecc.spRx.findIdx? (· == unit) = some j → s.physWord 8 (512 * unit + i) = (896 + j) * 512 + i)

/-- The self test and the assembly test: a run of a month starts at once, and is refused while one runs or for a month that is none; a slice under
test ends by its signature and its count; a month ends after its time; the assembly test starts while the link is untrained and steps on. Which slice
of those that may start does so is free (log entry 27), and the wires of an AIT beyond the lanes are numbered as log entry 28 chooses. -/
def Obligations.SelfTest : Prop :=
  ∀ s : State, s.inReset = false →
    (∀ d : W32, s.cfgReady = true → bit d 31 = true → s.blank = false → s.bist.run = none → 0 < fld d 3 0 → fld d 3 0 ≤ 12 →
      0 < bistSlices s.member (fld d 3 0) → ∃ t, exec (.bistRunGo d) s = .next t ∧
        t.bist = { s.bist with run := some (fld d 3 0), runBegan := s.tick.num, runSlices := [], runFail := [] } ∧
        t.rf 0xB0028 3 0 = fld d 3 0 ∧ t.rf 0xB0028 15 8 = fld d 15 8 ∧ t.seq = s.seq ∧ t.mods = s.mods) ∧
    (∀ d : W32, s.cfgReady = true → bit d 31 = true → bit d 30 = false → s.blank = false → s.bist.run ≠ none ∨ fld d 3 0 = 0 ∨ 12 < fld d 3 0 →
      ∃ t, exec (.bistRunGo d) s = .next t ∧ bit (t.rg 0xB0028) 30 = true ∧ t.bist = s.bist) ∧
    (∀ d : W32, s.cfgReady = true → bit d 31 = false → bit d 30 = false → ∃ t, exec (.bistRunGo d) s = .next t ∧ t.rf 0xB0028 3 0 = fld d 3 0 ∧
      t.rf 0xB0028 15 8 = fld d 15 8 ∧ t.bist = s.bist) ∧
    (s.bist.cur ≠ none → exec .bistSliceStart s = .next s) ∧
    (s.bist.cur = none → s.blank = false → s.bist.run = none → bit (s.rg 0xB0000) 31 = true → s.bist.lastEnd + 64 * s.rf 0xB0000 15 8 ≤ s.now →
      (∀ t, s.tick.nextSol = some t → s.now + 1040 ≤ t) → s.bistNext s.bist.month s.bist.slices ≠ [] →
      (s.envelope = true → ∃ t k, exec .bistSliceStart s = .next t ∧ t.bist = { s.bist with cur := some (s.bist.month, k, false) } ∧
        t.regs = s.regs) ∧
      (s.envelope = false → exec .bistSliceStart s = .next (((s.count32 0xB0024 1).setBit 0xB000C 1).irq 5))) ∧
    (∀ misr count month k demand, s.bist.cur = some (month, k, demand) →
      exec (.bistSliceEnd misr count) s = .next (s.bistResult month k demand
        (misr == Config.bistMisr month k && count == (if isMarch month then 640 else Config.bistCount month k)))) ∧
    (∀ m, s.bist.run = some m → (4096 * s.rf 0xB0000 23 16 ≤ (s.tick.num + 2 ^ 48 - s.bist.runBegan) % 2 ^ 48 → exec .bistMonthTimeout s = .next
        (s.runEnd (monthResult s.bist.runSlices (bistSlices s.member m)))) ∧
      ((s.tick.num + 2 ^ 48 - s.bist.runBegan) % 2 ^ 48 < 4096 * s.rf 0xB0000 23 16 → exec .bistMonthTimeout s = .next s)) ∧
    (s.bist.run = none → let isDue := 4096 * s.rf 0xB0000 23 16 ≤ (s.tick.num + 2 ^ 48 - s.bist.began) % 2 ^ 48
      (bit (s.rg 0xB0000) 31 = true → isDue → exec .bistMonthTimeout s = .next
        (State.monthEnd 13 s (monthResult s.bist.slices (bistSlices s.member s.bist.month)))) ∧
      (bit (s.rg 0xB0000) 31 = false ∨ ¬ isDue → exec .bistMonthTimeout s = .next s)) ∧
    (∀ d : W32, s.cfgReady = true → bit d 31 = true → s.bist.aitStep = 0 → s.trn.st = 0 ∨ s.trn.st = 6 → ∃ t, exec (.aitCtrlGo d) s = .next t ∧
      t.bist.aitStep = 1 ∧
      t.bist.aitBad = [] ∧ t.seq = s.seq ∧ t.mods = s.mods) ∧
    (∀ d : W32, s.cfgReady = true → s.trn.st ≠ 0 → s.trn.st ≠ 6 → exec (.aitCtrlGo d) s = .next (s.ported.setRf 0xB0080 0 0 (fld d 0 0))) ∧
    (∀ r, aitWf r = true → s.bist.aitStep = 1 ∨ s.bist.aitStep = 2 → ∃ t, exec (.aitStepComplete r) s = .next t ∧
      t.bist.aitStep = s.bist.aitStep + 1 ∧ t.bist.aitBad = (s.bist.aitBad ++ r.wires).eraseDups ∧ t.regs = s.regs ∧ t.mods = s.mods) ∧
    (∀ r, aitWf r = true → s.bist.aitStep = 3 → ∃ t, exec (.aitStepComplete r) s = .next t ∧ t.bist.aitStep = 4 ∧
      t.bist.aitBad = (s.bist.aitBad ++ s.aitFound r).eraseDups ∧ bit (t.rg 0x30) 5 = true ∧ t.mods = s.mods)

/-- The test wrapper, which works also while reset is held: each instruction selects its register, and CFG_ACCESS reads or writes the window as
the port does, or waits for the release of reset. What comes into the bypass bit and the boundary cells, and the level of tst_wso, are free (the
model's choice, log entry 29); the form of CFG_ACCESS's answer is its reading (log entry 49), and the width of DWELL too (log entry 28). -/
def Obligations.WrapperResults : Prop :=
  ∀ s : State,
    (∃ b o, exec .wsBypass s = .next { s with free := s.free + 3, bist := { s.bist with wir := 0x00, bypass := b, wso := o } }) ∧
    (∃ c o, exec .wsExtest s = .next { s with free := s.free + 3, bist := { s.bist with wir := 0x01, cells := c, wso := o } }) ∧
    (∃ c o, exec .wsIntest s = .next { s with free := s.free + 3, bist := { s.bist with wir := 0x02, cells := c, wso := o } }) ∧
    (∀ dr, s.inReset = true → exec (.cfgAccess dr) s = .next
      { s with bist := { s.bist with wir := 0x08, dr := dr &&& 0x7FFFFFFFFFFFFFFF, wait := some dr } }) ∧
    (∀ dr, s.inReset = false → bit dr 20 = true → ∃ t, exec (.cfgAccess dr) s = .next t ∧
      fld t.bist.dr 20 0 = fld dr 20 0 ∧ fld t.bist.dr 52 21 = 0 ∧ bit t.bist.dr 63 = true ∧ t.bist.wait = none ∧
      (let o := fld dr 19 0 / 4 * 4
       let d := BitVec.ofNat 32 (fld dr 52 21)
       ∀ r, regRow (modules s.member) o = some r → r.half = 0 → r.rws = 0 → merges o = false → s.seq.stopReq = none → s.hits = [] →
        ({ s with portRd := none, portWr := none, bist := { s.bist with wir := 0x08 } } : State).writeSpecial o d = none →
        o < 0x30400 ∨ 0x30600 ≤ o → o ≠ 0x20008 → o ≠ 0x90000 →
        t.rg o = (((s.rg o &&& ~~~(d &&& r.w1c)) &&& ~~~r.rw) ||| (limited s.member o d &&& r.rw)) ∧ (∀ k, k ≠ o → t.rg k = s.rg k) ∧
        t.shadow = s.shadow ∧ t.seq = s.seq ∧ t.mods = s.mods)) ∧
    (∀ dr, s.inReset = false → bit dr 20 = false → s.seq.stopReq = none → s.portRd = none → merges (fld dr 19 0 / 4 * 4) = false →
      memWords (fld dr 19 0 / 4 * 4) = [] → ∃ t, exec (.cfgAccess dr) s = .next t ∧ fld t.bist.dr 20 0 = fld dr 20 0 ∧
        fld t.bist.dr 52 21 = (({ s with bist := { s.bist with wir := 0x08 }, portWr := none } : State).viewWord (fld dr 19 0 / 4 * 4)).toNat ∧
        bit t.bist.dr 63 = true ∧ t.bist.wait = none ∧ t.regs = s.regs ∧ t.mods = s.mods) ∧
    (∀ ctrl cfg : W32, bit ctrl 31 = false → ∃ t, exec (.aitRun ctrl cfg) s = .next t ∧ t.bist.wir = 0x09 ∧
      t.rf 0xB0084 3 0 = min (fld cfg 3 0) (maxRate s.member) ∧ t.rf 0xB0084 13 8 = fld cfg 13 8 ∧ t.rf 0xB0084 31 16 = fld cfg 31 16 ∧
      t.rf 0xB0080 0 0 = fld ctrl 0 0 ∧ t.out = s.out ++ [.wrapper [t.rg 0xB0084 ++ t.rg 0xB0080]]) ∧
    (∀ ctrl cfg : W32, bit ctrl 31 = true → s.bist.aitStep = 0 → s.inReset = true ∨ s.trn.st = 0 ∨ s.trn.st = 6 → ∃ t,
      exec (.aitRun ctrl cfg) s = .next t ∧ t.bist.wir = 0x09 ∧ t.bist.aitStep = 1 ∧ t.bist.aitBad = [] ∧
      t.rf 0xB0084 31 16 = fld cfg 31 16 ∧ t.rf 0xB0080 0 0 = fld ctrl 0 0 ∧ t.mods = s.mods) ∧
    (∃ t, exec .aitRead s = .next t ∧ t.bist.wir = 0x0A ∧ t.regs = s.regs ∧
      t.out = s.out ++ [.wrapper (t.aitStatus.setWidth 64 :: (List.range 16).map fun m => s.rg64 (0xB0100 + 8 * m))]) ∧
    (∀ d : W32, bit d 31 = false → ∃ t, exec (.bistRun d) s = .next t ∧ t.bist = { s.bist with wir := 0x0B, wso := t.bist.wso } ∧
      t.out = s.out ++ [.wrapper [(t.viewWord 0xB0028).setWidth 64]]) ∧
    (∀ d : W32, bit d 31 = true → s.blank = false → s.bist.run = none → 0 < fld d 3 0 → fld d 3 0 ≤ 12 → 0 < bistSlices s.member (fld d 3 0) →
      ∃ t, exec (.bistRun d) s = .next t ∧
        t.bist = { s.bist with wir := 0x0B, wso := t.bist.wso, run := some (fld d 3 0), runBegan := s.tick.num, runSlices := [], runFail := [] } ∧
        t.mods = s.mods)
end

