-- ==== Sys2Proof/Laws/Bits.lean ====
section
/-! SUPPORT. Bit fields: what a field of a word built from fields reads. -/
namespace Sys2Proof.Machine

theorem fld_lt {n : Nat} (w : BitVec n) (hi lo : Nat) : fld w hi lo < 2 ^ (hi - lo + 1) := Nat.mod_lt _ (Nat.two_pow_pos _)

theorem fld_testBit {n : Nat} (w : BitVec n) (hi lo i : Nat) :
    (fld w hi lo).testBit i = (decide (i < hi - lo + 1) && w.getLsbD (lo + i)) := by
  simp [fld, Nat.testBit_mod_two_pow, Nat.testBit_shiftRight, BitVec.testBit_toNat]

/-- A field of a disjunction. -/
theorem fld_or {n : Nat} (a b : BitVec n) (hi lo : Nat) : fld (a ||| b) hi lo = fld a hi lo ||| fld b hi lo := by
  apply Nat.eq_of_testBit_eq
  intro i
  simp only [fld_testBit, Nat.testBit_or, BitVec.getLsbD_or]
  cases decide (i < hi - lo + 1) <;> simp

/-- A bit of a field placed in a word. -/
theorem bf_getLsbD (n hi lo v i : Nat) :
    (bf n hi lo v).getLsbD i = (decide (i < n) && decide (lo ≤ i) && decide (i < lo + (hi - lo + 1)) && v.testBit (i - lo)) := by
  simp only [bf, BitVec.getLsbD_ofNat, Nat.testBit_shiftLeft, Nat.testBit_mod_two_pow]
  by_cases h1 : i < n <;> by_cases h2 : lo ≤ i <;> by_cases h3 : i < lo + (hi - lo + 1) <;>
    simp [h1, h2, h3] <;> (intro; omega)

/-- The field placed in a word reads back. -/
theorem fld_bf_same {n hi lo : Nat} (v : Nat) (h : hi < n) (hl : lo ≤ hi) : fld (bf n hi lo v) hi lo = v % 2 ^ (hi - lo + 1) := by
  apply Nat.eq_of_testBit_eq
  intro i
  simp only [fld_testBit, bf_getLsbD, Nat.testBit_mod_two_pow]
  by_cases hi' : i < hi - lo + 1
  · have h1 : lo + i < n := by omega
    have h2 : lo + i < lo + (hi - lo + 1) := by omega
    simp [hi', h1]
  · simp [hi']

/-- A field reads 0 where another one was placed. -/
theorem fld_bf_apart {n hi lo : Nat} (v : Nat) {hi' lo' : Nat} (h : hi' < lo ∨ hi < lo') (h1 : lo ≤ hi) (h2 : lo' ≤ hi') :
    fld (bf n hi lo v) hi' lo' = 0 := by
  apply Nat.eq_of_testBit_eq
  intro i
  simp only [fld_testBit, bf_getLsbD, Nat.zero_testBit]
  by_cases hc : i < hi' - lo' + 1
  · obtain h | h := h
    · have : ¬ lo ≤ lo' + i := by omega
      simp [this]
    · have : ¬ lo' + i < lo + (hi - lo + 1) := by omega
      rw [decide_eq_false this]
      simp
  · simp [hc]

/-- A bit of a word with a field replaced. -/
theorem bit_setFld {n : Nat} (w : BitVec n) {hi lo : Nat} (v i : Nat) (hn : hi < n) (h : lo ≤ hi) :
    bit (setFld w hi lo v) i = if lo ≤ i ∧ i ≤ hi then v.testBit (i - lo) else bit w i := by
  simp only [setFld, bit, BitVec.getLsbD_or, BitVec.getLsbD_and, BitVec.getLsbD_not, bf_getLsbD, Nat.testBit_two_pow_sub_one]
  by_cases a : lo ≤ i <;> by_cases b : i ≤ hi
  · have h1 : i < n := by omega
    have h2 : i < lo + (hi - lo + 1) := by omega
    have h3 : i - lo < hi - lo + 1 := by omega
    simp [a, b, h1, h2, h3]
  · have h2 : ¬ i < lo + (hi - lo + 1) := by omega
    simp [a, b, h2]
    exact fun h => BitVec.lt_of_getLsbD h
  · simp [a]
    exact fun h => BitVec.lt_of_getLsbD h
  · simp [a]
    exact fun h => BitVec.lt_of_getLsbD h

/-- The field replaced reads back. -/
theorem fld_setFld_same {n : Nat} (w : BitVec n) {hi lo : Nat} (v : Nat) (hn : hi < n) (h : lo ≤ hi) :
    fld (setFld w hi lo v) hi lo = v % 2 ^ (hi - lo + 1) := by
  apply Nat.eq_of_testBit_eq
  intro i
  rw [fld_testBit, Nat.testBit_mod_two_pow]
  by_cases c : i < hi - lo + 1
  · have := bit_setFld w v (lo + i) hn h
    rw [show lo + i - lo = i by omega, if_pos (by omega)] at this
    rw [← this]; rfl
  · simp [c]

/-- Another field of it stays. -/
theorem fld_setFld_other {n : Nat} (w : BitVec n) {hi lo : Nat} (v : Nat) {hi' lo' : Nat} (hn : hi < n) (h : lo ≤ hi)
    (h' : lo' ≤ hi') (hd : hi' < lo ∨ hi < lo') : fld (setFld w hi lo v) hi' lo' = fld w hi' lo' := by
  apply Nat.eq_of_testBit_eq
  intro i
  rw [fld_testBit, fld_testBit]
  by_cases c : i < hi' - lo' + 1
  · have := bit_setFld w v (lo' + i) hn h
    rw [if_neg (by omega)] at this
    rw [show (setFld w hi lo v).getLsbD (lo' + i) = w.getLsbD (lo' + i) from this]
  · simp [c]

end Sys2Proof.Machine
end

