-- ==== Sys2Proof/Laws/Sparse.lean ====
section
/-! SUPPORT. Sparse maps: a read after a write, and the canonical form that every write keeps. -/
namespace Sys2Proof.Machine

@[simp] theorem spFind_spErase_same {α : Type} (m : Sp α) (i : Nat) : spFind (spErase m i) i = none := by
  induction m with
  | nil => rfl
  | cons e r ih => obtain ⟨k, v⟩ := e; by_cases h : k = i <;> simp [spErase, spFind, h, ih]

theorem spFind_spErase_other {α : Type} (m : Sp α) {i j : Nat} (h : i ≠ j) : spFind (spErase m i) j = spFind m j := by
  induction m with
  | nil => rfl
  | cons e r ih =>
    obtain ⟨k, v⟩ := e
    by_cases hk : k = i
    · subst hk; simp [spErase, spFind, h, ih]
    · simp [spErase, spFind, hk, ih]

@[simp] theorem spFind_spIns_same {α : Type} (m : Sp α) (i : Nat) (v : α) (h : spFind m i = none) :
    spFind (spIns m i v) i = some v := by
  induction m with
  | nil => simp [spIns, spFind]
  | cons e r ih =>
    obtain ⟨k, w⟩ := e
    have hk : k ≠ i := fun hk => by simp [spFind, hk] at h
    simp only [spFind, if_neg hk] at h
    by_cases hi : i < k <;> simp [spIns, spFind, hi, hk, ih h]

theorem spFind_spIns_other {α : Type} (m : Sp α) {i j : Nat} (v : α) (h : i ≠ j) : spFind (spIns m i v) j = spFind m j := by
  induction m with
  | nil => simp [spIns, spFind, h]
  | cons e r ih =>
    obtain ⟨k, w⟩ := e
    by_cases hi : i < k <;> simp [spIns, spFind, hi, h, ih]

/-- A read after a write of the same key. -/
@[simp] theorem spFind_spPut_same {α : Type} [DecidableEq α] (d : α) (m : Sp α) (i : Nat) (v : α) :
    (spFind (spPut d m i v) i).getD d = v := by
  unfold spPut; split
  · simp [*]
  · simp

/-- A write leaves every other key alone. -/
theorem spFind_spPut_other {α : Type} [DecidableEq α] (d : α) (m : Sp α) {i j : Nat} (v : α) (h : i ≠ j) :
    spFind (spPut d m i v) j = spFind m j := by
  unfold spPut; split
  · exact spFind_spErase_other m h
  · rw [spFind_spIns_other _ _ h, spFind_spErase_other _ h]

@[simp] theorem spGet_spPut_same {α : Type} [DecidableEq α] (d : α) (m : Sp α) (i : Nat) (v : α) :
    spGet d (spPut d m i v) i = v := by simp [spGet]

theorem spGet_spPut_other {α : Type} [DecidableEq α] (d d' : α) (m : Sp α) {i j : Nat} (v : α) (h : i ≠ j) :
    spGet d' (spPut d m i v) j = spGet d' m j := by simp [spGet, spFind_spPut_other d m v h]

/-- The canonical form in terms of the list: keys rising, and no entry at its default. -/
theorem spWf_iff {α : Type} [DecidableEq α] (d : Nat → α) (m : Sp α) :
    spWf d m = true ↔ m.Pairwise (fun a b => a.1 < b.1) ∧ ∀ e ∈ m, e.2 ≠ d e.1 := by
  induction m with
  | nil => simp [spWf]
  | cons e r ih =>
    obtain ⟨k, v⟩ := e
    cases r with
    | nil => simp [spWf]
    | cons e' r =>
      obtain ⟨k', v'⟩ := e'
      simp only [spWf, Bool.and_eq_true, decide_eq_true_eq, ih, List.pairwise_cons, List.mem_cons, forall_eq_or_imp]
      constructor
      · rintro ⟨⟨h1, h2⟩, ⟨h3, h4⟩, h5⟩
        exact ⟨⟨⟨h2, fun a ha => Nat.lt_trans h2 (h3 a ha)⟩, h3, h4⟩, h1, h5⟩
      · rintro ⟨⟨⟨h2, -⟩, h3, h4⟩, h1, h5⟩
        exact ⟨⟨h1, h2⟩, ⟨h3, h4⟩, h5⟩

@[simp] theorem spWf_nil {α : Type} [DecidableEq α] (d : Nat → α) : spWf d [] = true := rfl

/-- Dropping entries keeps the canonical form. -/
theorem spWf_sublist {α : Type} [DecidableEq α] {d : Nat → α} {m r : Sp α} (h : spWf d m = true) (hr : r.Sublist m) :
    spWf d r = true := by
  rw [spWf_iff] at *
  exact ⟨h.1.sublist hr, fun e he => h.2 e (hr.subset he)⟩

theorem spWf_filter {α : Type} [DecidableEq α] {d : Nat → α} {m : Sp α} (p : Nat × α → Bool) (h : spWf d m = true) :
    spWf d (m.filter p) = true := spWf_sublist h List.filter_sublist

theorem spErase_sublist {α : Type} (m : Sp α) (i : Nat) : (spErase m i).Sublist m := by
  induction m with
  | nil => exact .slnil
  | cons e r ih =>
    obtain ⟨k, v⟩ := e
    unfold spErase; split
    · exact ih.cons _
    · exact ih.cons_cons _

theorem spWf_spErase {α : Type} [DecidableEq α] {d : Nat → α} {m : Sp α} (i : Nat) (h : spWf d m = true) :
    spWf d (spErase m i) = true := spWf_sublist h (spErase_sublist m i)

theorem mem_spIns {α : Type} {m : Sp α} {i : Nat} {v : α} {e : Nat × α} : e ∈ spIns m i v ↔ e = (i, v) ∨ e ∈ m := by
  induction m with
  | nil => simp [spIns]
  | cons f r ih => obtain ⟨k, w⟩ := f; by_cases h : i < k <;> simp [spIns, h, ih, or_left_comm]

theorem key_ne_of_spFind {α : Type} {m : Sp α} {i : Nat} (h : spFind m i = none) : ∀ e ∈ m, e.1 ≠ i := by
  induction m with
  | nil => simp
  | cons f r ih =>
    obtain ⟨k, w⟩ := f
    have hk : k ≠ i := fun hk => by simp [spFind, hk] at h
    simp only [spFind, if_neg hk] at h
    rintro e (_ | ⟨_, he⟩)
    · exact hk
    · exact ih h e he

theorem spWf_spIns {α : Type} [DecidableEq α] {d : Nat → α} {m : Sp α} {i : Nat} {v : α} (h : spWf d m = true)
    (hi : spFind m i = none) (hv : v ≠ d i) : spWf d (spIns m i v) = true := by
  rw [spWf_iff] at *
  refine ⟨?_, fun e he => ?_⟩
  · have hk := key_ne_of_spFind hi
    obtain ⟨h, -⟩ := h
    clear hi
    induction m with
    | nil => simp [spIns]
    | cons f r ih =>
      obtain ⟨k, w⟩ := f
      obtain ⟨h1, h2⟩ := List.pairwise_cons.1 h
      have hne : k ≠ i := hk (k, w) List.mem_cons_self
      unfold spIns; split
      · rename_i hlt
        refine List.pairwise_cons.2 ⟨fun e he => ?_, h⟩
        obtain rfl | he := List.mem_cons.1 he
        · exact hlt
        · exact Nat.lt_trans hlt (h1 e he)
      · rename_i hlt
        refine List.pairwise_cons.2 ⟨fun e he => ?_, ih (fun e he => hk e (List.mem_cons_of_mem _ he)) h2⟩
        obtain rfl | he := mem_spIns.1 he
        · exact Nat.lt_of_le_of_ne (Nat.le_of_not_lt hlt) hne
        · exact h1 e he
  · obtain rfl | he := mem_spIns.1 he
    · exact hv
    · exact h.2 e he

/-- Every write keeps the canonical form. -/
theorem spWf_spPut {α : Type} [DecidableEq α] {d : Nat → α} {m : Sp α} (i : Nat) (v : α) {x : α} (hx : x = d i)
    (h : spWf d m = true) : spWf d (spPut x m i v) = true := by
  unfold spPut; split
  · exact spWf_spErase i h
  · exact spWf_spIns (spWf_spErase i h) (spFind_spErase_same m i) (hx ▸ ‹_›)

end Sys2Proof.Machine
end

