-- ==== Sys2Proof/Laws/State.lean ====
section
/-! SUPPORT. Each update of the state, field by field: what it leaves alone, and what a reader of the updated field reads after it. -/
namespace Sys2Proof.Machine

@[simp] theorem State.setRg_fields (s : State) (off : Nat) (v : W32) :
    (s.setRg off v).pending = s.pending ∧ (s.setRg off v).env = s.env ∧ (s.setRg off v).free = s.free ∧ (s.setRg off v).out = s.out ∧ (s.setRg
    off v).upset = s.upset ∧ (s.setRg off v).shadow = s.shadow ∧ (s.setRg off v).hits = s.hits ∧ (s.setRg off v).merge = s.merge ∧ (s.setRg off
    v).commit = s.commit ∧ (s.setRg off v).tick = s.tick ∧ (s.setRg off v).seq = s.seq ∧ (s.setRg off v).pm = s.pm ∧ (s.setRg off v).g = s.g ∧
    (s.setRg off v).scratch = s.scratch ∧ (s.setRg off v).td = s.td ∧ (s.setRg off v).ev = s.ev ∧ (s.setRg off v).ops = s.ops ∧ (s.setRg off
    v).far = s.far ∧ (s.setRg off v).rdq = s.rdq ∧ (s.setRg off v).wrq = s.wrq ∧ (s.setRg off v).ord = s.ord ∧ (s.setRg off v).red = s.red ∧
    (s.setRg off v).mrg = s.mrg ∧ (s.setRg off v).dsl = s.dsl ∧ (s.setRg off v).cmb = s.cmb ∧ (s.setRg off v).mods = s.mods ∧ (s.setRg off
    v).flow = s.flow ∧ (s.setRg off v).streams = s.streams ∧ (s.setRg off v).ctl = s.ctl ∧ (s.setRg off v).tx = s.tx ∧ (s.setRg off v).rsp =
    s.rsp ∧ (s.setRg off v).rel = s.rel ∧ (s.setRg off v).mgmtQ = s.mgmtQ ∧ (s.setRg off v).plan = s.plan ∧ (s.setRg off v).gapEnd = s.gapEnd ∧
    (s.setRg off v).tags = s.tags ∧ (s.setRg off v).trn = s.trn ∧ (s.setRg off v).twin = s.twin ∧ (s.setRg off v).hm = s.hm ∧ (s.setRg off
    v).pwr = s.pwr ∧ (s.setRg off v).ecc = s.ecc ∧ (s.setRg off v).bist = s.bist :=
  ⟨Eq.refl _, Eq.refl _, Eq.refl _, Eq.refl _, Eq.refl _, Eq.refl _, Eq.refl _, Eq.refl _, Eq.refl _, Eq.refl _, Eq.refl _, Eq.refl _, Eq.refl
    _, Eq.refl _, Eq.refl _, Eq.refl _, Eq.refl _, Eq.refl _, Eq.refl _, Eq.refl _, Eq.refl _, Eq.refl _, Eq.refl _, Eq.refl _, Eq.refl _,
    Eq.refl _, Eq.refl _, Eq.refl _, Eq.refl _, Eq.refl _, Eq.refl _, Eq.refl _, Eq.refl _, Eq.refl _, Eq.refl _, Eq.refl _, Eq.refl _, Eq.refl
    _, Eq.refl _, Eq.refl _, Eq.refl _, Eq.refl _⟩

@[simp] theorem State.setSh_fields (s : State) (off : Nat) (v : W32) :
    (s.setSh off v).pending = s.pending ∧ (s.setSh off v).env = s.env ∧ (s.setSh off v).free = s.free ∧ (s.setSh off v).out = s.out ∧ (s.setSh
    off v).upset = s.upset ∧ (s.setSh off v).regs = s.regs ∧ (s.setSh off v).hits = s.hits ∧ (s.setSh off v).merge = s.merge ∧ (s.setSh off
    v).commit = s.commit ∧ (s.setSh off v).tick = s.tick ∧ (s.setSh off v).seq = s.seq ∧ (s.setSh off v).pm = s.pm ∧ (s.setSh off v).g = s.g ∧
    (s.setSh off v).scratch = s.scratch ∧ (s.setSh off v).td = s.td ∧ (s.setSh off v).ev = s.ev ∧ (s.setSh off v).ops = s.ops ∧ (s.setSh off
    v).far = s.far ∧ (s.setSh off v).rdq = s.rdq ∧ (s.setSh off v).wrq = s.wrq ∧ (s.setSh off v).ord = s.ord ∧ (s.setSh off v).red = s.red ∧
    (s.setSh off v).mrg = s.mrg ∧ (s.setSh off v).dsl = s.dsl ∧ (s.setSh off v).cmb = s.cmb ∧ (s.setSh off v).mods = s.mods ∧ (s.setSh off
    v).flow = s.flow ∧ (s.setSh off v).streams = s.streams ∧ (s.setSh off v).ctl = s.ctl ∧ (s.setSh off v).tx = s.tx ∧ (s.setSh off v).rsp =
    s.rsp ∧ (s.setSh off v).rel = s.rel ∧ (s.setSh off v).mgmtQ = s.mgmtQ ∧ (s.setSh off v).plan = s.plan ∧ (s.setSh off v).gapEnd = s.gapEnd ∧
    (s.setSh off v).tags = s.tags ∧ (s.setSh off v).trn = s.trn ∧ (s.setSh off v).twin = s.twin ∧ (s.setSh off v).hm = s.hm ∧ (s.setSh off
    v).pwr = s.pwr ∧ (s.setSh off v).ecc = s.ecc ∧ (s.setSh off v).bist = s.bist :=
  ⟨Eq.refl _, Eq.refl _, Eq.refl _, Eq.refl _, Eq.refl _, Eq.refl _, Eq.refl _, Eq.refl _, Eq.refl _, Eq.refl _, Eq.refl _, Eq.refl _, Eq.refl
    _, Eq.refl _, Eq.refl _, Eq.refl _, Eq.refl _, Eq.refl _, Eq.refl _, Eq.refl _, Eq.refl _, Eq.refl _, Eq.refl _, Eq.refl _, Eq.refl _,
    Eq.refl _, Eq.refl _, Eq.refl _, Eq.refl _, Eq.refl _, Eq.refl _, Eq.refl _, Eq.refl _, Eq.refl _, Eq.refl _, Eq.refl _, Eq.refl _, Eq.refl
    _, Eq.refl _, Eq.refl _, Eq.refl _, Eq.refl _⟩

@[simp] theorem State.hit_fields (s : State) (off hi lo n : Nat) :
    (s.hit off hi lo n).pending = s.pending ∧ (s.hit off hi lo n).env = s.env ∧ (s.hit off hi lo n).free = s.free ∧ (s.hit off hi lo n).out =
    s.out ∧ (s.hit off hi lo n).upset = s.upset ∧ (s.hit off hi lo n).regs = s.regs ∧ (s.hit off hi lo n).shadow = s.shadow ∧ (s.hit off hi lo
    n).merge = s.merge ∧ (s.hit off hi lo n).commit = s.commit ∧ (s.hit off hi lo n).tick = s.tick ∧ (s.hit off hi lo n).seq = s.seq ∧ (s.hit
    off hi lo n).pm = s.pm ∧ (s.hit off hi lo n).g = s.g ∧ (s.hit off hi lo n).scratch = s.scratch ∧ (s.hit off hi lo n).td = s.td ∧ (s.hit off
    hi lo n).ev = s.ev ∧ (s.hit off hi lo n).ops = s.ops ∧ (s.hit off hi lo n).far = s.far ∧ (s.hit off hi lo n).rdq = s.rdq ∧ (s.hit off hi lo
    n).wrq = s.wrq ∧ (s.hit off hi lo n).ord = s.ord ∧ (s.hit off hi lo n).red = s.red ∧ (s.hit off hi lo n).mrg = s.mrg ∧ (s.hit off hi lo
    n).dsl = s.dsl ∧ (s.hit off hi lo n).cmb = s.cmb ∧ (s.hit off hi lo n).mods = s.mods ∧ (s.hit off hi lo n).flow = s.flow ∧ (s.hit off hi lo
    n).streams = s.streams ∧ (s.hit off hi lo n).ctl = s.ctl ∧ (s.hit off hi lo n).tx = s.tx ∧ (s.hit off hi lo n).rsp = s.rsp ∧ (s.hit off hi
    lo n).rel = s.rel ∧ (s.hit off hi lo n).mgmtQ = s.mgmtQ ∧ (s.hit off hi lo n).plan = s.plan ∧ (s.hit off hi lo n).gapEnd = s.gapEnd ∧ (s.hit
    off hi lo n).tags = s.tags ∧ (s.hit off hi lo n).trn = s.trn ∧ (s.hit off hi lo n).twin = s.twin ∧ (s.hit off hi lo n).hm = s.hm ∧ (s.hit
    off hi lo n).pwr = s.pwr ∧ (s.hit off hi lo n).ecc = s.ecc ∧ (s.hit off hi lo n).bist = s.bist :=
  ⟨Eq.refl _, Eq.refl _, Eq.refl _, Eq.refl _, Eq.refl _, Eq.refl _, Eq.refl _, Eq.refl _, Eq.refl _, Eq.refl _, Eq.refl _, Eq.refl _, Eq.refl
    _, Eq.refl _, Eq.refl _, Eq.refl _, Eq.refl _, Eq.refl _, Eq.refl _, Eq.refl _, Eq.refl _, Eq.refl _, Eq.refl _, Eq.refl _, Eq.refl _,
    Eq.refl _, Eq.refl _, Eq.refl _, Eq.refl _, Eq.refl _, Eq.refl _, Eq.refl _, Eq.refl _, Eq.refl _, Eq.refl _, Eq.refl _, Eq.refl _, Eq.refl
    _, Eq.refl _, Eq.refl _, Eq.refl _, Eq.refl _⟩

@[simp] theorem State.setBit_fields (s : State) (off i : Nat) :
    (s.setBit off i).pending = s.pending ∧ (s.setBit off i).env = s.env ∧ (s.setBit off i).free = s.free ∧ (s.setBit off i).out = s.out ∧
    (s.setBit off i).upset = s.upset ∧ (s.setBit off i).shadow = s.shadow ∧ (s.setBit off i).merge = s.merge ∧ (s.setBit off i).commit =
    s.commit ∧ (s.setBit off i).tick = s.tick ∧ (s.setBit off i).seq = s.seq ∧ (s.setBit off i).pm = s.pm ∧ (s.setBit off i).g = s.g ∧ (s.setBit
    off i).scratch = s.scratch ∧ (s.setBit off i).td = s.td ∧ (s.setBit off i).ev = s.ev ∧ (s.setBit off i).ops = s.ops ∧ (s.setBit off i).far =
    s.far ∧ (s.setBit off i).rdq = s.rdq ∧ (s.setBit off i).wrq = s.wrq ∧ (s.setBit off i).ord = s.ord ∧ (s.setBit off i).red = s.red ∧
    (s.setBit off i).mrg = s.mrg ∧ (s.setBit off i).dsl = s.dsl ∧ (s.setBit off i).cmb = s.cmb ∧ (s.setBit off i).mods = s.mods ∧ (s.setBit off
    i).flow = s.flow ∧ (s.setBit off i).streams = s.streams ∧ (s.setBit off i).ctl = s.ctl ∧ (s.setBit off i).tx = s.tx ∧ (s.setBit off i).rsp =
    s.rsp ∧ (s.setBit off i).rel = s.rel ∧ (s.setBit off i).mgmtQ = s.mgmtQ ∧ (s.setBit off i).plan = s.plan ∧ (s.setBit off i).gapEnd =
    s.gapEnd ∧ (s.setBit off i).tags = s.tags ∧ (s.setBit off i).trn = s.trn ∧ (s.setBit off i).twin = s.twin ∧ (s.setBit off i).hm = s.hm ∧
    (s.setBit off i).pwr = s.pwr ∧ (s.setBit off i).ecc = s.ecc ∧ (s.setBit off i).bist = s.bist :=
  ⟨Eq.refl _, Eq.refl _, Eq.refl _, Eq.refl _, Eq.refl _, Eq.refl _, Eq.refl _, Eq.refl _, Eq.refl _, Eq.refl _, Eq.refl _, Eq.refl _, Eq.refl
    _, Eq.refl _, Eq.refl _, Eq.refl _, Eq.refl _, Eq.refl _, Eq.refl _, Eq.refl _, Eq.refl _, Eq.refl _, Eq.refl _, Eq.refl _, Eq.refl _,
    Eq.refl _, Eq.refl _, Eq.refl _, Eq.refl _, Eq.refl _, Eq.refl _, Eq.refl _, Eq.refl _, Eq.refl _, Eq.refl _, Eq.refl _, Eq.refl _, Eq.refl
    _, Eq.refl _, Eq.refl _, Eq.refl _⟩

@[simp] theorem State.setRf_fields (s : State) (off hi lo v : Nat) :
    (s.setRf off hi lo v).pending = s.pending ∧ (s.setRf off hi lo v).env = s.env ∧ (s.setRf off hi lo v).free = s.free ∧ (s.setRf off hi lo
    v).out = s.out ∧ (s.setRf off hi lo v).upset = s.upset ∧ (s.setRf off hi lo v).shadow = s.shadow ∧ (s.setRf off hi lo v).hits = s.hits ∧
    (s.setRf off hi lo v).merge = s.merge ∧ (s.setRf off hi lo v).commit = s.commit ∧ (s.setRf off hi lo v).tick = s.tick ∧ (s.setRf off hi lo
    v).seq = s.seq ∧ (s.setRf off hi lo v).pm = s.pm ∧ (s.setRf off hi lo v).g = s.g ∧ (s.setRf off hi lo v).scratch = s.scratch ∧ (s.setRf off
    hi lo v).td = s.td ∧ (s.setRf off hi lo v).ev = s.ev ∧ (s.setRf off hi lo v).ops = s.ops ∧ (s.setRf off hi lo v).far = s.far ∧ (s.setRf off
    hi lo v).rdq = s.rdq ∧ (s.setRf off hi lo v).wrq = s.wrq ∧ (s.setRf off hi lo v).ord = s.ord ∧ (s.setRf off hi lo v).red = s.red ∧ (s.setRf
    off hi lo v).mrg = s.mrg ∧ (s.setRf off hi lo v).dsl = s.dsl ∧ (s.setRf off hi lo v).cmb = s.cmb ∧ (s.setRf off hi lo v).mods = s.mods ∧
    (s.setRf off hi lo v).flow = s.flow ∧ (s.setRf off hi lo v).streams = s.streams ∧ (s.setRf off hi lo v).ctl = s.ctl ∧ (s.setRf off hi lo
    v).tx = s.tx ∧ (s.setRf off hi lo v).rsp = s.rsp ∧ (s.setRf off hi lo v).rel = s.rel ∧ (s.setRf off hi lo v).mgmtQ = s.mgmtQ ∧ (s.setRf off
    hi lo v).plan = s.plan ∧ (s.setRf off hi lo v).gapEnd = s.gapEnd ∧ (s.setRf off hi lo v).tags = s.tags ∧ (s.setRf off hi lo v).trn = s.trn ∧
    (s.setRf off hi lo v).twin = s.twin ∧ (s.setRf off hi lo v).hm = s.hm ∧ (s.setRf off hi lo v).pwr = s.pwr ∧ (s.setRf off hi lo v).ecc =
    s.ecc ∧ (s.setRf off hi lo v).bist = s.bist :=
  ⟨Eq.refl _, Eq.refl _, Eq.refl _, Eq.refl _, Eq.refl _, Eq.refl _, Eq.refl _, Eq.refl _, Eq.refl _, Eq.refl _, Eq.refl _, Eq.refl _, Eq.refl
    _, Eq.refl _, Eq.refl _, Eq.refl _, Eq.refl _, Eq.refl _, Eq.refl _, Eq.refl _, Eq.refl _, Eq.refl _, Eq.refl _, Eq.refl _, Eq.refl _,
    Eq.refl _, Eq.refl _, Eq.refl _, Eq.refl _, Eq.refl _, Eq.refl _, Eq.refl _, Eq.refl _, Eq.refl _, Eq.refl _, Eq.refl _, Eq.refl _, Eq.refl
    _, Eq.refl _, Eq.refl _, Eq.refl _, Eq.refl _⟩

@[simp] theorem State.setRg64_fields (s : State) (off : Nat) (v : W64) :
    (s.setRg64 off v).pending = s.pending ∧ (s.setRg64 off v).env = s.env ∧ (s.setRg64 off v).free = s.free ∧ (s.setRg64 off v).out = s.out ∧
    (s.setRg64 off v).upset = s.upset ∧ (s.setRg64 off v).shadow = s.shadow ∧ (s.setRg64 off v).hits = s.hits ∧ (s.setRg64 off v).merge =
    s.merge ∧ (s.setRg64 off v).commit = s.commit ∧ (s.setRg64 off v).tick = s.tick ∧ (s.setRg64 off v).seq = s.seq ∧ (s.setRg64 off v).pm =
    s.pm ∧ (s.setRg64 off v).g = s.g ∧ (s.setRg64 off v).scratch = s.scratch ∧ (s.setRg64 off v).td = s.td ∧ (s.setRg64 off v).ev = s.ev ∧
    (s.setRg64 off v).ops = s.ops ∧ (s.setRg64 off v).far = s.far ∧ (s.setRg64 off v).rdq = s.rdq ∧ (s.setRg64 off v).wrq = s.wrq ∧ (s.setRg64
    off v).ord = s.ord ∧ (s.setRg64 off v).red = s.red ∧ (s.setRg64 off v).mrg = s.mrg ∧ (s.setRg64 off v).dsl = s.dsl ∧ (s.setRg64 off v).cmb =
    s.cmb ∧ (s.setRg64 off v).mods = s.mods ∧ (s.setRg64 off v).flow = s.flow ∧ (s.setRg64 off v).streams = s.streams ∧ (s.setRg64 off v).ctl =
    s.ctl ∧ (s.setRg64 off v).tx = s.tx ∧ (s.setRg64 off v).rsp = s.rsp ∧ (s.setRg64 off v).rel = s.rel ∧ (s.setRg64 off v).mgmtQ = s.mgmtQ ∧
    (s.setRg64 off v).plan = s.plan ∧ (s.setRg64 off v).gapEnd = s.gapEnd ∧ (s.setRg64 off v).tags = s.tags ∧ (s.setRg64 off v).trn = s.trn ∧
    (s.setRg64 off v).twin = s.twin ∧ (s.setRg64 off v).hm = s.hm ∧ (s.setRg64 off v).pwr = s.pwr ∧ (s.setRg64 off v).ecc = s.ecc ∧ (s.setRg64
    off v).bist = s.bist :=
  ⟨Eq.refl _, Eq.refl _, Eq.refl _, Eq.refl _, Eq.refl _, Eq.refl _, Eq.refl _, Eq.refl _, Eq.refl _, Eq.refl _, Eq.refl _, Eq.refl _, Eq.refl
    _, Eq.refl _, Eq.refl _, Eq.refl _, Eq.refl _, Eq.refl _, Eq.refl _, Eq.refl _, Eq.refl _, Eq.refl _, Eq.refl _, Eq.refl _, Eq.refl _,
    Eq.refl _, Eq.refl _, Eq.refl _, Eq.refl _, Eq.refl _, Eq.refl _, Eq.refl _, Eq.refl _, Eq.refl _, Eq.refl _, Eq.refl _, Eq.refl _, Eq.refl
    _, Eq.refl _, Eq.refl _, Eq.refl _, Eq.refl _⟩

@[simp] theorem State.clrBits_fields (s : State) (off : Nat) (mask : W32) :
    (s.clrBits off mask).pending = s.pending ∧ (s.clrBits off mask).env = s.env ∧ (s.clrBits off mask).free = s.free ∧ (s.clrBits off mask).out
    = s.out ∧ (s.clrBits off mask).upset = s.upset ∧ (s.clrBits off mask).shadow = s.shadow ∧ (s.clrBits off mask).hits = s.hits ∧ (s.clrBits
    off mask).merge = s.merge ∧ (s.clrBits off mask).commit = s.commit ∧ (s.clrBits off mask).tick = s.tick ∧ (s.clrBits off mask).seq = s.seq ∧
    (s.clrBits off mask).pm = s.pm ∧ (s.clrBits off mask).g = s.g ∧ (s.clrBits off mask).scratch = s.scratch ∧ (s.clrBits off mask).td = s.td ∧
    (s.clrBits off mask).ev = s.ev ∧ (s.clrBits off mask).ops = s.ops ∧ (s.clrBits off mask).far = s.far ∧ (s.clrBits off mask).rdq = s.rdq ∧
    (s.clrBits off mask).wrq = s.wrq ∧ (s.clrBits off mask).ord = s.ord ∧ (s.clrBits off mask).red = s.red ∧ (s.clrBits off mask).mrg = s.mrg ∧
    (s.clrBits off mask).dsl = s.dsl ∧ (s.clrBits off mask).cmb = s.cmb ∧ (s.clrBits off mask).mods = s.mods ∧ (s.clrBits off mask).flow =
    s.flow ∧ (s.clrBits off mask).streams = s.streams ∧ (s.clrBits off mask).ctl = s.ctl ∧ (s.clrBits off mask).tx = s.tx ∧ (s.clrBits off
    mask).rsp = s.rsp ∧ (s.clrBits off mask).rel = s.rel ∧ (s.clrBits off mask).mgmtQ = s.mgmtQ ∧ (s.clrBits off mask).plan = s.plan ∧
    (s.clrBits off mask).gapEnd = s.gapEnd ∧ (s.clrBits off mask).tags = s.tags ∧ (s.clrBits off mask).trn = s.trn ∧ (s.clrBits off mask).twin =
    s.twin ∧ (s.clrBits off mask).hm = s.hm ∧ (s.clrBits off mask).pwr = s.pwr ∧ (s.clrBits off mask).ecc = s.ecc ∧ (s.clrBits off mask).bist =
    s.bist :=
  ⟨Eq.refl _, Eq.refl _, Eq.refl _, Eq.refl _, Eq.refl _, Eq.refl _, Eq.refl _, Eq.refl _, Eq.refl _, Eq.refl _, Eq.refl _, Eq.refl _, Eq.refl
    _, Eq.refl _, Eq.refl _, Eq.refl _, Eq.refl _, Eq.refl _, Eq.refl _, Eq.refl _, Eq.refl _, Eq.refl _, Eq.refl _, Eq.refl _, Eq.refl _,
    Eq.refl _, Eq.refl _, Eq.refl _, Eq.refl _, Eq.refl _, Eq.refl _, Eq.refl _, Eq.refl _, Eq.refl _, Eq.refl _, Eq.refl _, Eq.refl _, Eq.refl
    _, Eq.refl _, Eq.refl _, Eq.refl _, Eq.refl _⟩

@[simp] theorem State.count_fields (s : State) (off hi lo n : Nat) :
    (s.count off hi lo n).pending = s.pending ∧ (s.count off hi lo n).env = s.env ∧ (s.count off hi lo n).free = s.free ∧ (s.count off hi lo
    n).out = s.out ∧ (s.count off hi lo n).upset = s.upset ∧ (s.count off hi lo n).shadow = s.shadow ∧ (s.count off hi lo n).merge = s.merge ∧
    (s.count off hi lo n).commit = s.commit ∧ (s.count off hi lo n).tick = s.tick ∧ (s.count off hi lo n).seq = s.seq ∧ (s.count off hi lo n).pm
    = s.pm ∧ (s.count off hi lo n).g = s.g ∧ (s.count off hi lo n).scratch = s.scratch ∧ (s.count off hi lo n).td = s.td ∧ (s.count off hi lo
    n).ev = s.ev ∧ (s.count off hi lo n).ops = s.ops ∧ (s.count off hi lo n).far = s.far ∧ (s.count off hi lo n).rdq = s.rdq ∧ (s.count off hi
    lo n).wrq = s.wrq ∧ (s.count off hi lo n).ord = s.ord ∧ (s.count off hi lo n).red = s.red ∧ (s.count off hi lo n).mrg = s.mrg ∧ (s.count off
    hi lo n).dsl = s.dsl ∧ (s.count off hi lo n).cmb = s.cmb ∧ (s.count off hi lo n).mods = s.mods ∧ (s.count off hi lo n).flow = s.flow ∧
    (s.count off hi lo n).streams = s.streams ∧ (s.count off hi lo n).ctl = s.ctl ∧ (s.count off hi lo n).tx = s.tx ∧ (s.count off hi lo n).rsp
    = s.rsp ∧ (s.count off hi lo n).rel = s.rel ∧ (s.count off hi lo n).mgmtQ = s.mgmtQ ∧ (s.count off hi lo n).plan = s.plan ∧ (s.count off hi
    lo n).gapEnd = s.gapEnd ∧ (s.count off hi lo n).tags = s.tags ∧ (s.count off hi lo n).trn = s.trn ∧ (s.count off hi lo n).twin = s.twin ∧
    (s.count off hi lo n).hm = s.hm ∧ (s.count off hi lo n).pwr = s.pwr ∧ (s.count off hi lo n).ecc = s.ecc ∧ (s.count off hi lo n).bist =
    s.bist :=
  ⟨Eq.refl _, Eq.refl _, Eq.refl _, Eq.refl _, Eq.refl _, Eq.refl _, Eq.refl _, Eq.refl _, Eq.refl _, Eq.refl _, Eq.refl _, Eq.refl _, Eq.refl
    _, Eq.refl _, Eq.refl _, Eq.refl _, Eq.refl _, Eq.refl _, Eq.refl _, Eq.refl _, Eq.refl _, Eq.refl _, Eq.refl _, Eq.refl _, Eq.refl _,
    Eq.refl _, Eq.refl _, Eq.refl _, Eq.refl _, Eq.refl _, Eq.refl _, Eq.refl _, Eq.refl _, Eq.refl _, Eq.refl _, Eq.refl _, Eq.refl _, Eq.refl
    _, Eq.refl _, Eq.refl _, Eq.refl _⟩

@[simp] theorem State.count32_fields (s : State) (off n : Nat) :
    (s.count32 off n).pending = s.pending ∧ (s.count32 off n).env = s.env ∧ (s.count32 off n).free = s.free ∧ (s.count32 off n).out = s.out ∧
    (s.count32 off n).upset = s.upset ∧ (s.count32 off n).shadow = s.shadow ∧ (s.count32 off n).merge = s.merge ∧ (s.count32 off n).commit =
    s.commit ∧ (s.count32 off n).tick = s.tick ∧ (s.count32 off n).seq = s.seq ∧ (s.count32 off n).pm = s.pm ∧ (s.count32 off n).g = s.g ∧
    (s.count32 off n).scratch = s.scratch ∧ (s.count32 off n).td = s.td ∧ (s.count32 off n).ev = s.ev ∧ (s.count32 off n).ops = s.ops ∧
    (s.count32 off n).far = s.far ∧ (s.count32 off n).rdq = s.rdq ∧ (s.count32 off n).wrq = s.wrq ∧ (s.count32 off n).ord = s.ord ∧ (s.count32
    off n).red = s.red ∧ (s.count32 off n).mrg = s.mrg ∧ (s.count32 off n).dsl = s.dsl ∧ (s.count32 off n).cmb = s.cmb ∧ (s.count32 off n).mods
    = s.mods ∧ (s.count32 off n).flow = s.flow ∧ (s.count32 off n).streams = s.streams ∧ (s.count32 off n).ctl = s.ctl ∧ (s.count32 off n).tx =
    s.tx ∧ (s.count32 off n).rsp = s.rsp ∧ (s.count32 off n).rel = s.rel ∧ (s.count32 off n).mgmtQ = s.mgmtQ ∧ (s.count32 off n).plan = s.plan ∧
    (s.count32 off n).gapEnd = s.gapEnd ∧ (s.count32 off n).tags = s.tags ∧ (s.count32 off n).trn = s.trn ∧ (s.count32 off n).twin = s.twin ∧
    (s.count32 off n).hm = s.hm ∧ (s.count32 off n).pwr = s.pwr ∧ (s.count32 off n).ecc = s.ecc ∧ (s.count32 off n).bist = s.bist :=
  ⟨Eq.refl _, Eq.refl _, Eq.refl _, Eq.refl _, Eq.refl _, Eq.refl _, Eq.refl _, Eq.refl _, Eq.refl _, Eq.refl _, Eq.refl _, Eq.refl _, Eq.refl
    _, Eq.refl _, Eq.refl _, Eq.refl _, Eq.refl _, Eq.refl _, Eq.refl _, Eq.refl _, Eq.refl _, Eq.refl _, Eq.refl _, Eq.refl _, Eq.refl _,
    Eq.refl _, Eq.refl _, Eq.refl _, Eq.refl _, Eq.refl _, Eq.refl _, Eq.refl _, Eq.refl _, Eq.refl _, Eq.refl _, Eq.refl _, Eq.refl _, Eq.refl
    _, Eq.refl _, Eq.refl _, Eq.refl _⟩

@[simp] theorem State.irq_fields (s : State) (n : Nat) :
    (s.irq n).pending = s.pending ∧ (s.irq n).env = s.env ∧ (s.irq n).free = s.free ∧ (s.irq n).out = s.out ∧ (s.irq n).upset = s.upset ∧ (s.irq
    n).shadow = s.shadow ∧ (s.irq n).merge = s.merge ∧ (s.irq n).commit = s.commit ∧ (s.irq n).tick = s.tick ∧ (s.irq n).seq = s.seq ∧ (s.irq
    n).pm = s.pm ∧ (s.irq n).g = s.g ∧ (s.irq n).scratch = s.scratch ∧ (s.irq n).td = s.td ∧ (s.irq n).ev = s.ev ∧ (s.irq n).ops = s.ops ∧
    (s.irq n).far = s.far ∧ (s.irq n).rdq = s.rdq ∧ (s.irq n).wrq = s.wrq ∧ (s.irq n).ord = s.ord ∧ (s.irq n).red = s.red ∧ (s.irq n).mrg =
    s.mrg ∧ (s.irq n).dsl = s.dsl ∧ (s.irq n).cmb = s.cmb ∧ (s.irq n).mods = s.mods ∧ (s.irq n).flow = s.flow ∧ (s.irq n).streams = s.streams ∧
    (s.irq n).ctl = s.ctl ∧ (s.irq n).tx = s.tx ∧ (s.irq n).rsp = s.rsp ∧ (s.irq n).rel = s.rel ∧ (s.irq n).mgmtQ = s.mgmtQ ∧ (s.irq n).plan =
    s.plan ∧ (s.irq n).gapEnd = s.gapEnd ∧ (s.irq n).tags = s.tags ∧ (s.irq n).trn = s.trn ∧ (s.irq n).twin = s.twin ∧ (s.irq n).hm = s.hm ∧
    (s.irq n).pwr = s.pwr ∧ (s.irq n).ecc = s.ecc ∧ (s.irq n).bist = s.bist :=
  ⟨Eq.refl _, Eq.refl _, Eq.refl _, Eq.refl _, Eq.refl _, Eq.refl _, Eq.refl _, Eq.refl _, Eq.refl _, Eq.refl _, Eq.refl _, Eq.refl _, Eq.refl
    _, Eq.refl _, Eq.refl _, Eq.refl _, Eq.refl _, Eq.refl _, Eq.refl _, Eq.refl _, Eq.refl _, Eq.refl _, Eq.refl _, Eq.refl _, Eq.refl _,
    Eq.refl _, Eq.refl _, Eq.refl _, Eq.refl _, Eq.refl _, Eq.refl _, Eq.refl _, Eq.refl _, Eq.refl _, Eq.refl _, Eq.refl _, Eq.refl _, Eq.refl
    _, Eq.refl _, Eq.refl _, Eq.refl _⟩

@[simp] theorem State.updEnv_fields (s : State) (f : Env → Env) :
    (s.updEnv f).pending = s.pending ∧ (s.updEnv f).free = s.free ∧ (s.updEnv f).out = s.out ∧ (s.updEnv f).upset = s.upset ∧ (s.updEnv f).regs
    = s.regs ∧ (s.updEnv f).shadow = s.shadow ∧ (s.updEnv f).hits = s.hits ∧ (s.updEnv f).merge = s.merge ∧ (s.updEnv f).commit = s.commit ∧
    (s.updEnv f).tick = s.tick ∧ (s.updEnv f).seq = s.seq ∧ (s.updEnv f).pm = s.pm ∧ (s.updEnv f).g = s.g ∧ (s.updEnv f).scratch = s.scratch ∧
    (s.updEnv f).td = s.td ∧ (s.updEnv f).ev = s.ev ∧ (s.updEnv f).ops = s.ops ∧ (s.updEnv f).far = s.far ∧ (s.updEnv f).rdq = s.rdq ∧ (s.updEnv
    f).wrq = s.wrq ∧ (s.updEnv f).ord = s.ord ∧ (s.updEnv f).red = s.red ∧ (s.updEnv f).mrg = s.mrg ∧ (s.updEnv f).dsl = s.dsl ∧ (s.updEnv
    f).cmb = s.cmb ∧ (s.updEnv f).mods = s.mods ∧ (s.updEnv f).flow = s.flow ∧ (s.updEnv f).streams = s.streams ∧ (s.updEnv f).ctl = s.ctl ∧
    (s.updEnv f).tx = s.tx ∧ (s.updEnv f).rsp = s.rsp ∧ (s.updEnv f).rel = s.rel ∧ (s.updEnv f).mgmtQ = s.mgmtQ ∧ (s.updEnv f).plan = s.plan ∧
    (s.updEnv f).gapEnd = s.gapEnd ∧ (s.updEnv f).tags = s.tags ∧ (s.updEnv f).trn = s.trn ∧ (s.updEnv f).twin = s.twin ∧ (s.updEnv f).hm = s.hm
    ∧ (s.updEnv f).pwr = s.pwr ∧ (s.updEnv f).ecc = s.ecc ∧ (s.updEnv f).bist = s.bist :=
  ⟨Eq.refl _, Eq.refl _, Eq.refl _, Eq.refl _, Eq.refl _, Eq.refl _, Eq.refl _, Eq.refl _, Eq.refl _, Eq.refl _, Eq.refl _, Eq.refl _, Eq.refl
    _, Eq.refl _, Eq.refl _, Eq.refl _, Eq.refl _, Eq.refl _, Eq.refl _, Eq.refl _, Eq.refl _, Eq.refl _, Eq.refl _, Eq.refl _, Eq.refl _,
    Eq.refl _, Eq.refl _, Eq.refl _, Eq.refl _, Eq.refl _, Eq.refl _, Eq.refl _, Eq.refl _, Eq.refl _, Eq.refl _, Eq.refl _, Eq.refl _, Eq.refl
    _, Eq.refl _, Eq.refl _, Eq.refl _, Eq.refl _⟩

@[simp] theorem State.emit_fields (s : State) (o : Out) :
    (s.emit o).pending = s.pending ∧ (s.emit o).env = s.env ∧ (s.emit o).free = s.free ∧ (s.emit o).upset = s.upset ∧ (s.emit o).regs = s.regs ∧
    (s.emit o).shadow = s.shadow ∧ (s.emit o).hits = s.hits ∧ (s.emit o).merge = s.merge ∧ (s.emit o).commit = s.commit ∧ (s.emit o).tick =
    s.tick ∧ (s.emit o).seq = s.seq ∧ (s.emit o).pm = s.pm ∧ (s.emit o).g = s.g ∧ (s.emit o).scratch = s.scratch ∧ (s.emit o).td = s.td ∧
    (s.emit o).ev = s.ev ∧ (s.emit o).ops = s.ops ∧ (s.emit o).far = s.far ∧ (s.emit o).rdq = s.rdq ∧ (s.emit o).wrq = s.wrq ∧ (s.emit o).ord =
    s.ord ∧ (s.emit o).red = s.red ∧ (s.emit o).mrg = s.mrg ∧ (s.emit o).dsl = s.dsl ∧ (s.emit o).cmb = s.cmb ∧ (s.emit o).mods = s.mods ∧
    (s.emit o).flow = s.flow ∧ (s.emit o).streams = s.streams ∧ (s.emit o).ctl = s.ctl ∧ (s.emit o).tx = s.tx ∧ (s.emit o).rsp = s.rsp ∧ (s.emit
    o).rel = s.rel ∧ (s.emit o).mgmtQ = s.mgmtQ ∧ (s.emit o).plan = s.plan ∧ (s.emit o).gapEnd = s.gapEnd ∧ (s.emit o).tags = s.tags ∧ (s.emit
    o).trn = s.trn ∧ (s.emit o).twin = s.twin ∧ (s.emit o).hm = s.hm ∧ (s.emit o).pwr = s.pwr ∧ (s.emit o).ecc = s.ecc ∧ (s.emit o).bist =
    s.bist :=
  ⟨Eq.refl _, Eq.refl _, Eq.refl _, Eq.refl _, Eq.refl _, Eq.refl _, Eq.refl _, Eq.refl _, Eq.refl _, Eq.refl _, Eq.refl _, Eq.refl _, Eq.refl
    _, Eq.refl _, Eq.refl _, Eq.refl _, Eq.refl _, Eq.refl _, Eq.refl _, Eq.refl _, Eq.refl _, Eq.refl _, Eq.refl _, Eq.refl _, Eq.refl _,
    Eq.refl _, Eq.refl _, Eq.refl _, Eq.refl _, Eq.refl _, Eq.refl _, Eq.refl _, Eq.refl _, Eq.refl _, Eq.refl _, Eq.refl _, Eq.refl _, Eq.refl
    _, Eq.refl _, Eq.refl _, Eq.refl _, Eq.refl _⟩

@[simp] theorem State.setMod_fields (s : State) (m : Nat) (x : Mod) :
    (s.setMod m x).pending = s.pending ∧ (s.setMod m x).env = s.env ∧ (s.setMod m x).free = s.free ∧ (s.setMod m x).out = s.out ∧ (s.setMod m
    x).upset = s.upset ∧ (s.setMod m x).regs = s.regs ∧ (s.setMod m x).shadow = s.shadow ∧ (s.setMod m x).hits = s.hits ∧ (s.setMod m x).merge =
    s.merge ∧ (s.setMod m x).commit = s.commit ∧ (s.setMod m x).tick = s.tick ∧ (s.setMod m x).seq = s.seq ∧ (s.setMod m x).pm = s.pm ∧
    (s.setMod m x).g = s.g ∧ (s.setMod m x).scratch = s.scratch ∧ (s.setMod m x).td = s.td ∧ (s.setMod m x).ev = s.ev ∧ (s.setMod m x).ops =
    s.ops ∧ (s.setMod m x).far = s.far ∧ (s.setMod m x).rdq = s.rdq ∧ (s.setMod m x).wrq = s.wrq ∧ (s.setMod m x).ord = s.ord ∧ (s.setMod m
    x).red = s.red ∧ (s.setMod m x).mrg = s.mrg ∧ (s.setMod m x).dsl = s.dsl ∧ (s.setMod m x).cmb = s.cmb ∧ (s.setMod m x).flow = s.flow ∧
    (s.setMod m x).streams = s.streams ∧ (s.setMod m x).ctl = s.ctl ∧ (s.setMod m x).tx = s.tx ∧ (s.setMod m x).rsp = s.rsp ∧ (s.setMod m x).rel
    = s.rel ∧ (s.setMod m x).mgmtQ = s.mgmtQ ∧ (s.setMod m x).plan = s.plan ∧ (s.setMod m x).gapEnd = s.gapEnd ∧ (s.setMod m x).tags = s.tags ∧
    (s.setMod m x).trn = s.trn ∧ (s.setMod m x).twin = s.twin ∧ (s.setMod m x).hm = s.hm ∧ (s.setMod m x).pwr = s.pwr ∧ (s.setMod m x).ecc =
    s.ecc ∧ (s.setMod m x).bist = s.bist :=
  ⟨Eq.refl _, Eq.refl _, Eq.refl _, Eq.refl _, Eq.refl _, Eq.refl _, Eq.refl _, Eq.refl _, Eq.refl _, Eq.refl _, Eq.refl _, Eq.refl _, Eq.refl
    _, Eq.refl _, Eq.refl _, Eq.refl _, Eq.refl _, Eq.refl _, Eq.refl _, Eq.refl _, Eq.refl _, Eq.refl _, Eq.refl _, Eq.refl _, Eq.refl _,
    Eq.refl _, Eq.refl _, Eq.refl _, Eq.refl _, Eq.refl _, Eq.refl _, Eq.refl _, Eq.refl _, Eq.refl _, Eq.refl _, Eq.refl _, Eq.refl _, Eq.refl
    _, Eq.refl _, Eq.refl _, Eq.refl _, Eq.refl _⟩

@[simp] theorem State.updMod_fields (s : State) (m : Nat) (f : Mod → Mod) :
    (s.updMod m f).pending = s.pending ∧ (s.updMod m f).env = s.env ∧ (s.updMod m f).free = s.free ∧ (s.updMod m f).out = s.out ∧ (s.updMod m
    f).upset = s.upset ∧ (s.updMod m f).regs = s.regs ∧ (s.updMod m f).shadow = s.shadow ∧ (s.updMod m f).hits = s.hits ∧ (s.updMod m f).merge =
    s.merge ∧ (s.updMod m f).commit = s.commit ∧ (s.updMod m f).tick = s.tick ∧ (s.updMod m f).seq = s.seq ∧ (s.updMod m f).pm = s.pm ∧
    (s.updMod m f).g = s.g ∧ (s.updMod m f).scratch = s.scratch ∧ (s.updMod m f).td = s.td ∧ (s.updMod m f).ev = s.ev ∧ (s.updMod m f).ops =
    s.ops ∧ (s.updMod m f).far = s.far ∧ (s.updMod m f).rdq = s.rdq ∧ (s.updMod m f).wrq = s.wrq ∧ (s.updMod m f).ord = s.ord ∧ (s.updMod m
    f).red = s.red ∧ (s.updMod m f).mrg = s.mrg ∧ (s.updMod m f).dsl = s.dsl ∧ (s.updMod m f).cmb = s.cmb ∧ (s.updMod m f).flow = s.flow ∧
    (s.updMod m f).streams = s.streams ∧ (s.updMod m f).ctl = s.ctl ∧ (s.updMod m f).tx = s.tx ∧ (s.updMod m f).rsp = s.rsp ∧ (s.updMod m f).rel
    = s.rel ∧ (s.updMod m f).mgmtQ = s.mgmtQ ∧ (s.updMod m f).plan = s.plan ∧ (s.updMod m f).gapEnd = s.gapEnd ∧ (s.updMod m f).tags = s.tags ∧
    (s.updMod m f).trn = s.trn ∧ (s.updMod m f).twin = s.twin ∧ (s.updMod m f).hm = s.hm ∧ (s.updMod m f).pwr = s.pwr ∧ (s.updMod m f).ecc =
    s.ecc ∧ (s.updMod m f).bist = s.bist :=
  ⟨Eq.refl _, Eq.refl _, Eq.refl _, Eq.refl _, Eq.refl _, Eq.refl _, Eq.refl _, Eq.refl _, Eq.refl _, Eq.refl _, Eq.refl _, Eq.refl _, Eq.refl
    _, Eq.refl _, Eq.refl _, Eq.refl _, Eq.refl _, Eq.refl _, Eq.refl _, Eq.refl _, Eq.refl _, Eq.refl _, Eq.refl _, Eq.refl _, Eq.refl _,
    Eq.refl _, Eq.refl _, Eq.refl _, Eq.refl _, Eq.refl _, Eq.refl _, Eq.refl _, Eq.refl _, Eq.refl _, Eq.refl _, Eq.refl _, Eq.refl _, Eq.refl
    _, Eq.refl _, Eq.refl _, Eq.refl _, Eq.refl _⟩

@[simp] theorem State.updStrm_fields (s : State) (n : Nat) (f : Stream → Stream) :
    (s.updStrm n f).pending = s.pending ∧ (s.updStrm n f).env = s.env ∧ (s.updStrm n f).free = s.free ∧ (s.updStrm n f).out = s.out ∧ (s.updStrm
    n f).upset = s.upset ∧ (s.updStrm n f).regs = s.regs ∧ (s.updStrm n f).shadow = s.shadow ∧ (s.updStrm n f).hits = s.hits ∧ (s.updStrm n
    f).merge = s.merge ∧ (s.updStrm n f).commit = s.commit ∧ (s.updStrm n f).tick = s.tick ∧ (s.updStrm n f).seq = s.seq ∧ (s.updStrm n f).pm =
    s.pm ∧ (s.updStrm n f).g = s.g ∧ (s.updStrm n f).scratch = s.scratch ∧ (s.updStrm n f).td = s.td ∧ (s.updStrm n f).ev = s.ev ∧ (s.updStrm n
    f).ops = s.ops ∧ (s.updStrm n f).far = s.far ∧ (s.updStrm n f).rdq = s.rdq ∧ (s.updStrm n f).wrq = s.wrq ∧ (s.updStrm n f).ord = s.ord ∧
    (s.updStrm n f).red = s.red ∧ (s.updStrm n f).mrg = s.mrg ∧ (s.updStrm n f).dsl = s.dsl ∧ (s.updStrm n f).cmb = s.cmb ∧ (s.updStrm n f).mods
    = s.mods ∧ (s.updStrm n f).flow = s.flow ∧ (s.updStrm n f).ctl = s.ctl ∧ (s.updStrm n f).tx = s.tx ∧ (s.updStrm n f).rsp = s.rsp ∧
    (s.updStrm n f).rel = s.rel ∧ (s.updStrm n f).mgmtQ = s.mgmtQ ∧ (s.updStrm n f).plan = s.plan ∧ (s.updStrm n f).gapEnd = s.gapEnd ∧
    (s.updStrm n f).tags = s.tags ∧ (s.updStrm n f).trn = s.trn ∧ (s.updStrm n f).twin = s.twin ∧ (s.updStrm n f).hm = s.hm ∧ (s.updStrm n
    f).pwr = s.pwr ∧ (s.updStrm n f).ecc = s.ecc ∧ (s.updStrm n f).bist = s.bist :=
  ⟨Eq.refl _, Eq.refl _, Eq.refl _, Eq.refl _, Eq.refl _, Eq.refl _, Eq.refl _, Eq.refl _, Eq.refl _, Eq.refl _, Eq.refl _, Eq.refl _, Eq.refl
    _, Eq.refl _, Eq.refl _, Eq.refl _, Eq.refl _, Eq.refl _, Eq.refl _, Eq.refl _, Eq.refl _, Eq.refl _, Eq.refl _, Eq.refl _, Eq.refl _,
    Eq.refl _, Eq.refl _, Eq.refl _, Eq.refl _, Eq.refl _, Eq.refl _, Eq.refl _, Eq.refl _, Eq.refl _, Eq.refl _, Eq.refl _, Eq.refl _, Eq.refl
    _, Eq.refl _, Eq.refl _, Eq.refl _, Eq.refl _⟩

@[simp] theorem State.updTc_fields (s : State) (c : Nat) (f : Flow → Flow) :
    (s.updTc c f).pending = s.pending ∧ (s.updTc c f).env = s.env ∧ (s.updTc c f).free = s.free ∧ (s.updTc c f).out = s.out ∧ (s.updTc c
    f).upset = s.upset ∧ (s.updTc c f).regs = s.regs ∧ (s.updTc c f).shadow = s.shadow ∧ (s.updTc c f).hits = s.hits ∧ (s.updTc c f).merge =
    s.merge ∧ (s.updTc c f).commit = s.commit ∧ (s.updTc c f).tick = s.tick ∧ (s.updTc c f).seq = s.seq ∧ (s.updTc c f).pm = s.pm ∧ (s.updTc c
    f).g = s.g ∧ (s.updTc c f).scratch = s.scratch ∧ (s.updTc c f).td = s.td ∧ (s.updTc c f).ev = s.ev ∧ (s.updTc c f).ops = s.ops ∧ (s.updTc c
    f).far = s.far ∧ (s.updTc c f).rdq = s.rdq ∧ (s.updTc c f).wrq = s.wrq ∧ (s.updTc c f).ord = s.ord ∧ (s.updTc c f).red = s.red ∧ (s.updTc c
    f).mrg = s.mrg ∧ (s.updTc c f).dsl = s.dsl ∧ (s.updTc c f).cmb = s.cmb ∧ (s.updTc c f).mods = s.mods ∧ (s.updTc c f).streams = s.streams ∧
    (s.updTc c f).ctl = s.ctl ∧ (s.updTc c f).tx = s.tx ∧ (s.updTc c f).rsp = s.rsp ∧ (s.updTc c f).rel = s.rel ∧ (s.updTc c f).mgmtQ = s.mgmtQ
    ∧ (s.updTc c f).plan = s.plan ∧ (s.updTc c f).gapEnd = s.gapEnd ∧ (s.updTc c f).tags = s.tags ∧ (s.updTc c f).trn = s.trn ∧ (s.updTc c
    f).twin = s.twin ∧ (s.updTc c f).hm = s.hm ∧ (s.updTc c f).pwr = s.pwr ∧ (s.updTc c f).ecc = s.ecc ∧ (s.updTc c f).bist = s.bist :=
  ⟨Eq.refl _, Eq.refl _, Eq.refl _, Eq.refl _, Eq.refl _, Eq.refl _, Eq.refl _, Eq.refl _, Eq.refl _, Eq.refl _, Eq.refl _, Eq.refl _, Eq.refl
    _, Eq.refl _, Eq.refl _, Eq.refl _, Eq.refl _, Eq.refl _, Eq.refl _, Eq.refl _, Eq.refl _, Eq.refl _, Eq.refl _, Eq.refl _, Eq.refl _,
    Eq.refl _, Eq.refl _, Eq.refl _, Eq.refl _, Eq.refl _, Eq.refl _, Eq.refl _, Eq.refl _, Eq.refl _, Eq.refl _, Eq.refl _, Eq.refl _, Eq.refl
    _, Eq.refl _, Eq.refl _, Eq.refl _, Eq.refl _⟩

@[simp] theorem State.setEvc_fields (s : State) (n : Nat) (v : W64) :
    (s.setEvc n v).pending = s.pending ∧ (s.setEvc n v).env = s.env ∧ (s.setEvc n v).free = s.free ∧ (s.setEvc n v).out = s.out ∧ (s.setEvc n
    v).upset = s.upset ∧ (s.setEvc n v).regs = s.regs ∧ (s.setEvc n v).shadow = s.shadow ∧ (s.setEvc n v).hits = s.hits ∧ (s.setEvc n v).merge =
    s.merge ∧ (s.setEvc n v).commit = s.commit ∧ (s.setEvc n v).tick = s.tick ∧ (s.setEvc n v).seq = s.seq ∧ (s.setEvc n v).pm = s.pm ∧
    (s.setEvc n v).g = s.g ∧ (s.setEvc n v).scratch = s.scratch ∧ (s.setEvc n v).td = s.td ∧ (s.setEvc n v).ops = s.ops ∧ (s.setEvc n v).far =
    s.far ∧ (s.setEvc n v).rdq = s.rdq ∧ (s.setEvc n v).wrq = s.wrq ∧ (s.setEvc n v).ord = s.ord ∧ (s.setEvc n v).red = s.red ∧ (s.setEvc n
    v).mrg = s.mrg ∧ (s.setEvc n v).dsl = s.dsl ∧ (s.setEvc n v).cmb = s.cmb ∧ (s.setEvc n v).mods = s.mods ∧ (s.setEvc n v).flow = s.flow ∧
    (s.setEvc n v).streams = s.streams ∧ (s.setEvc n v).ctl = s.ctl ∧ (s.setEvc n v).tx = s.tx ∧ (s.setEvc n v).rsp = s.rsp ∧ (s.setEvc n v).rel
    = s.rel ∧ (s.setEvc n v).mgmtQ = s.mgmtQ ∧ (s.setEvc n v).plan = s.plan ∧ (s.setEvc n v).gapEnd = s.gapEnd ∧ (s.setEvc n v).tags = s.tags ∧
    (s.setEvc n v).trn = s.trn ∧ (s.setEvc n v).twin = s.twin ∧ (s.setEvc n v).hm = s.hm ∧ (s.setEvc n v).pwr = s.pwr ∧ (s.setEvc n v).ecc =
    s.ecc ∧ (s.setEvc n v).bist = s.bist :=
  ⟨Eq.refl _, Eq.refl _, Eq.refl _, Eq.refl _, Eq.refl _, Eq.refl _, Eq.refl _, Eq.refl _, Eq.refl _, Eq.refl _, Eq.refl _, Eq.refl _, Eq.refl
    _, Eq.refl _, Eq.refl _, Eq.refl _, Eq.refl _, Eq.refl _, Eq.refl _, Eq.refl _, Eq.refl _, Eq.refl _, Eq.refl _, Eq.refl _, Eq.refl _,
    Eq.refl _, Eq.refl _, Eq.refl _, Eq.refl _, Eq.refl _, Eq.refl _, Eq.refl _, Eq.refl _, Eq.refl _, Eq.refl _, Eq.refl _, Eq.refl _, Eq.refl
    _, Eq.refl _, Eq.refl _, Eq.refl _, Eq.refl _⟩

@[simp] theorem State.setOp_fields (s : State) (o : Op) :
    (s.setOp o).pending = s.pending ∧ (s.setOp o).env = s.env ∧ (s.setOp o).free = s.free ∧ (s.setOp o).out = s.out ∧ (s.setOp o).upset =
    s.upset ∧ (s.setOp o).regs = s.regs ∧ (s.setOp o).shadow = s.shadow ∧ (s.setOp o).hits = s.hits ∧ (s.setOp o).merge = s.merge ∧ (s.setOp
    o).commit = s.commit ∧ (s.setOp o).tick = s.tick ∧ (s.setOp o).seq = s.seq ∧ (s.setOp o).pm = s.pm ∧ (s.setOp o).g = s.g ∧ (s.setOp
    o).scratch = s.scratch ∧ (s.setOp o).td = s.td ∧ (s.setOp o).ev = s.ev ∧ (s.setOp o).far = s.far ∧ (s.setOp o).rdq = s.rdq ∧ (s.setOp o).wrq
    = s.wrq ∧ (s.setOp o).ord = s.ord ∧ (s.setOp o).red = s.red ∧ (s.setOp o).mrg = s.mrg ∧ (s.setOp o).dsl = s.dsl ∧ (s.setOp o).cmb = s.cmb ∧
    (s.setOp o).mods = s.mods ∧ (s.setOp o).flow = s.flow ∧ (s.setOp o).streams = s.streams ∧ (s.setOp o).ctl = s.ctl ∧ (s.setOp o).tx = s.tx ∧
    (s.setOp o).rsp = s.rsp ∧ (s.setOp o).rel = s.rel ∧ (s.setOp o).mgmtQ = s.mgmtQ ∧ (s.setOp o).plan = s.plan ∧ (s.setOp o).gapEnd = s.gapEnd
    ∧ (s.setOp o).tags = s.tags ∧ (s.setOp o).trn = s.trn ∧ (s.setOp o).twin = s.twin ∧ (s.setOp o).hm = s.hm ∧ (s.setOp o).pwr = s.pwr ∧
    (s.setOp o).ecc = s.ecc ∧ (s.setOp o).bist = s.bist :=
  ⟨Eq.refl _, Eq.refl _, Eq.refl _, Eq.refl _, Eq.refl _, Eq.refl _, Eq.refl _, Eq.refl _, Eq.refl _, Eq.refl _, Eq.refl _, Eq.refl _, Eq.refl
    _, Eq.refl _, Eq.refl _, Eq.refl _, Eq.refl _, Eq.refl _, Eq.refl _, Eq.refl _, Eq.refl _, Eq.refl _, Eq.refl _, Eq.refl _, Eq.refl _,
    Eq.refl _, Eq.refl _, Eq.refl _, Eq.refl _, Eq.refl _, Eq.refl _, Eq.refl _, Eq.refl _, Eq.refl _, Eq.refl _, Eq.refl _, Eq.refl _, Eq.refl
    _, Eq.refl _, Eq.refl _, Eq.refl _, Eq.refl _⟩

@[simp] theorem State.updOp_fields (s : State) (tag : Nat) (f : Op → Op) :
    (s.updOp tag f).pending = s.pending ∧ (s.updOp tag f).env = s.env ∧ (s.updOp tag f).free = s.free ∧ (s.updOp tag f).out = s.out ∧ (s.updOp
    tag f).upset = s.upset ∧ (s.updOp tag f).regs = s.regs ∧ (s.updOp tag f).shadow = s.shadow ∧ (s.updOp tag f).hits = s.hits ∧ (s.updOp tag
    f).merge = s.merge ∧ (s.updOp tag f).commit = s.commit ∧ (s.updOp tag f).tick = s.tick ∧ (s.updOp tag f).seq = s.seq ∧ (s.updOp tag f).pm =
    s.pm ∧ (s.updOp tag f).g = s.g ∧ (s.updOp tag f).scratch = s.scratch ∧ (s.updOp tag f).td = s.td ∧ (s.updOp tag f).ev = s.ev ∧ (s.updOp tag
    f).far = s.far ∧ (s.updOp tag f).rdq = s.rdq ∧ (s.updOp tag f).wrq = s.wrq ∧ (s.updOp tag f).ord = s.ord ∧ (s.updOp tag f).red = s.red ∧
    (s.updOp tag f).mrg = s.mrg ∧ (s.updOp tag f).dsl = s.dsl ∧ (s.updOp tag f).cmb = s.cmb ∧ (s.updOp tag f).mods = s.mods ∧ (s.updOp tag
    f).flow = s.flow ∧ (s.updOp tag f).streams = s.streams ∧ (s.updOp tag f).ctl = s.ctl ∧ (s.updOp tag f).tx = s.tx ∧ (s.updOp tag f).rsp =
    s.rsp ∧ (s.updOp tag f).rel = s.rel ∧ (s.updOp tag f).mgmtQ = s.mgmtQ ∧ (s.updOp tag f).plan = s.plan ∧ (s.updOp tag f).gapEnd = s.gapEnd ∧
    (s.updOp tag f).tags = s.tags ∧ (s.updOp tag f).trn = s.trn ∧ (s.updOp tag f).twin = s.twin ∧ (s.updOp tag f).hm = s.hm ∧ (s.updOp tag
    f).pwr = s.pwr ∧ (s.updOp tag f).ecc = s.ecc ∧ (s.updOp tag f).bist = s.bist :=
  ⟨Eq.refl _, Eq.refl _, Eq.refl _, Eq.refl _, Eq.refl _, Eq.refl _, Eq.refl _, Eq.refl _, Eq.refl _, Eq.refl _, Eq.refl _, Eq.refl _, Eq.refl
    _, Eq.refl _, Eq.refl _, Eq.refl _, Eq.refl _, Eq.refl _, Eq.refl _, Eq.refl _, Eq.refl _, Eq.refl _, Eq.refl _, Eq.refl _, Eq.refl _,
    Eq.refl _, Eq.refl _, Eq.refl _, Eq.refl _, Eq.refl _, Eq.refl _, Eq.refl _, Eq.refl _, Eq.refl _, Eq.refl _, Eq.refl _, Eq.refl _, Eq.refl
    _, Eq.refl _, Eq.refl _, Eq.refl _, Eq.refl _⟩

@[simp] theorem State.setFlag_fields (s : State) (n : Nat) (v : Bool) :
    (s.setFlag n v).pending = s.pending ∧ (s.setFlag n v).env = s.env ∧ (s.setFlag n v).free = s.free ∧ (s.setFlag n v).out = s.out ∧ (s.setFlag
    n v).upset = s.upset ∧ (s.setFlag n v).regs = s.regs ∧ (s.setFlag n v).shadow = s.shadow ∧ (s.setFlag n v).hits = s.hits ∧ (s.setFlag n
    v).merge = s.merge ∧ (s.setFlag n v).commit = s.commit ∧ (s.setFlag n v).tick = s.tick ∧ (s.setFlag n v).pm = s.pm ∧ (s.setFlag n v).g = s.g
    ∧ (s.setFlag n v).scratch = s.scratch ∧ (s.setFlag n v).td = s.td ∧ (s.setFlag n v).ev = s.ev ∧ (s.setFlag n v).ops = s.ops ∧ (s.setFlag n
    v).far = s.far ∧ (s.setFlag n v).rdq = s.rdq ∧ (s.setFlag n v).wrq = s.wrq ∧ (s.setFlag n v).ord = s.ord ∧ (s.setFlag n v).red = s.red ∧
    (s.setFlag n v).mrg = s.mrg ∧ (s.setFlag n v).dsl = s.dsl ∧ (s.setFlag n v).cmb = s.cmb ∧ (s.setFlag n v).mods = s.mods ∧ (s.setFlag n
    v).flow = s.flow ∧ (s.setFlag n v).streams = s.streams ∧ (s.setFlag n v).ctl = s.ctl ∧ (s.setFlag n v).tx = s.tx ∧ (s.setFlag n v).rsp =
    s.rsp ∧ (s.setFlag n v).rel = s.rel ∧ (s.setFlag n v).mgmtQ = s.mgmtQ ∧ (s.setFlag n v).plan = s.plan ∧ (s.setFlag n v).gapEnd = s.gapEnd ∧
    (s.setFlag n v).tags = s.tags ∧ (s.setFlag n v).trn = s.trn ∧ (s.setFlag n v).twin = s.twin ∧ (s.setFlag n v).hm = s.hm ∧ (s.setFlag n
    v).pwr = s.pwr ∧ (s.setFlag n v).ecc = s.ecc ∧ (s.setFlag n v).bist = s.bist :=
  ⟨Eq.refl _, Eq.refl _, Eq.refl _, Eq.refl _, Eq.refl _, Eq.refl _, Eq.refl _, Eq.refl _, Eq.refl _, Eq.refl _, Eq.refl _, Eq.refl _, Eq.refl
    _, Eq.refl _, Eq.refl _, Eq.refl _, Eq.refl _, Eq.refl _, Eq.refl _, Eq.refl _, Eq.refl _, Eq.refl _, Eq.refl _, Eq.refl _, Eq.refl _,
    Eq.refl _, Eq.refl _, Eq.refl _, Eq.refl _, Eq.refl _, Eq.refl _, Eq.refl _, Eq.refl _, Eq.refl _, Eq.refl _, Eq.refl _, Eq.refl _, Eq.refl
    _, Eq.refl _, Eq.refl _, Eq.refl _, Eq.refl _⟩

@[simp] theorem State.stallOn_fields (s : State) (i : Iss) :
    (s.stallOn i).pending = s.pending ∧ (s.stallOn i).env = s.env ∧ (s.stallOn i).free = s.free ∧ (s.stallOn i).out = s.out ∧ (s.stallOn
    i).upset = s.upset ∧ (s.stallOn i).regs = s.regs ∧ (s.stallOn i).shadow = s.shadow ∧ (s.stallOn i).hits = s.hits ∧ (s.stallOn i).merge =
    s.merge ∧ (s.stallOn i).commit = s.commit ∧ (s.stallOn i).tick = s.tick ∧ (s.stallOn i).pm = s.pm ∧ (s.stallOn i).g = s.g ∧ (s.stallOn
    i).scratch = s.scratch ∧ (s.stallOn i).td = s.td ∧ (s.stallOn i).ev = s.ev ∧ (s.stallOn i).ops = s.ops ∧ (s.stallOn i).far = s.far ∧
    (s.stallOn i).rdq = s.rdq ∧ (s.stallOn i).wrq = s.wrq ∧ (s.stallOn i).ord = s.ord ∧ (s.stallOn i).red = s.red ∧ (s.stallOn i).mrg = s.mrg ∧
    (s.stallOn i).dsl = s.dsl ∧ (s.stallOn i).cmb = s.cmb ∧ (s.stallOn i).mods = s.mods ∧ (s.stallOn i).flow = s.flow ∧ (s.stallOn i).streams =
    s.streams ∧ (s.stallOn i).ctl = s.ctl ∧ (s.stallOn i).tx = s.tx ∧ (s.stallOn i).rsp = s.rsp ∧ (s.stallOn i).rel = s.rel ∧ (s.stallOn
    i).mgmtQ = s.mgmtQ ∧ (s.stallOn i).plan = s.plan ∧ (s.stallOn i).gapEnd = s.gapEnd ∧ (s.stallOn i).tags = s.tags ∧ (s.stallOn i).trn = s.trn
    ∧ (s.stallOn i).twin = s.twin ∧ (s.stallOn i).hm = s.hm ∧ (s.stallOn i).pwr = s.pwr ∧ (s.stallOn i).ecc = s.ecc ∧ (s.stallOn i).bist =
    s.bist :=
  ⟨Eq.refl _, Eq.refl _, Eq.refl _, Eq.refl _, Eq.refl _, Eq.refl _, Eq.refl _, Eq.refl _, Eq.refl _, Eq.refl _, Eq.refl _, Eq.refl _, Eq.refl
    _, Eq.refl _, Eq.refl _, Eq.refl _, Eq.refl _, Eq.refl _, Eq.refl _, Eq.refl _, Eq.refl _, Eq.refl _, Eq.refl _, Eq.refl _, Eq.refl _,
    Eq.refl _, Eq.refl _, Eq.refl _, Eq.refl _, Eq.refl _, Eq.refl _, Eq.refl _, Eq.refl _, Eq.refl _, Eq.refl _, Eq.refl _, Eq.refl _, Eq.refl
    _, Eq.refl _, Eq.refl _, Eq.refl _, Eq.refl _⟩

@[simp] theorem State.jump_fields (s : State) (target : Nat) :
    (s.jump target).pending = s.pending ∧ (s.jump target).env = s.env ∧ (s.jump target).free = s.free ∧ (s.jump target).out = s.out ∧ (s.jump
    target).upset = s.upset ∧ (s.jump target).regs = s.regs ∧ (s.jump target).shadow = s.shadow ∧ (s.jump target).hits = s.hits ∧ (s.jump
    target).merge = s.merge ∧ (s.jump target).commit = s.commit ∧ (s.jump target).tick = s.tick ∧ (s.jump target).pm = s.pm ∧ (s.jump target).g
    = s.g ∧ (s.jump target).scratch = s.scratch ∧ (s.jump target).td = s.td ∧ (s.jump target).ev = s.ev ∧ (s.jump target).ops = s.ops ∧ (s.jump
    target).far = s.far ∧ (s.jump target).rdq = s.rdq ∧ (s.jump target).wrq = s.wrq ∧ (s.jump target).ord = s.ord ∧ (s.jump target).red = s.red
    ∧ (s.jump target).mrg = s.mrg ∧ (s.jump target).dsl = s.dsl ∧ (s.jump target).cmb = s.cmb ∧ (s.jump target).mods = s.mods ∧ (s.jump
    target).flow = s.flow ∧ (s.jump target).streams = s.streams ∧ (s.jump target).ctl = s.ctl ∧ (s.jump target).tx = s.tx ∧ (s.jump target).rsp
    = s.rsp ∧ (s.jump target).rel = s.rel ∧ (s.jump target).mgmtQ = s.mgmtQ ∧ (s.jump target).plan = s.plan ∧ (s.jump target).gapEnd = s.gapEnd
    ∧ (s.jump target).tags = s.tags ∧ (s.jump target).trn = s.trn ∧ (s.jump target).twin = s.twin ∧ (s.jump target).hm = s.hm ∧ (s.jump
    target).pwr = s.pwr ∧ (s.jump target).ecc = s.ecc ∧ (s.jump target).bist = s.bist :=
  ⟨Eq.refl _, Eq.refl _, Eq.refl _, Eq.refl _, Eq.refl _, Eq.refl _, Eq.refl _, Eq.refl _, Eq.refl _, Eq.refl _, Eq.refl _, Eq.refl _, Eq.refl
    _, Eq.refl _, Eq.refl _, Eq.refl _, Eq.refl _, Eq.refl _, Eq.refl _, Eq.refl _, Eq.refl _, Eq.refl _, Eq.refl _, Eq.refl _, Eq.refl _,
    Eq.refl _, Eq.refl _, Eq.refl _, Eq.refl _, Eq.refl _, Eq.refl _, Eq.refl _, Eq.refl _, Eq.refl _, Eq.refl _, Eq.refl _, Eq.refl _, Eq.refl
    _, Eq.refl _, Eq.refl _, Eq.refl _, Eq.refl _⟩

@[simp] theorem State.clrSeq_fields (s : State) :
    (s.clrSeq).pending = s.pending ∧ (s.clrSeq).env = s.env ∧ (s.clrSeq).free = s.free ∧ (s.clrSeq).out = s.out ∧ (s.clrSeq).upset = s.upset ∧
    (s.clrSeq).regs = s.regs ∧ (s.clrSeq).shadow = s.shadow ∧ (s.clrSeq).hits = s.hits ∧ (s.clrSeq).merge = s.merge ∧ (s.clrSeq).commit =
    s.commit ∧ (s.clrSeq).tick = s.tick ∧ (s.clrSeq).pm = s.pm ∧ (s.clrSeq).scratch = s.scratch ∧ (s.clrSeq).td = s.td ∧ (s.clrSeq).ev = s.ev ∧
    (s.clrSeq).ops = s.ops ∧ (s.clrSeq).far = s.far ∧ (s.clrSeq).rdq = s.rdq ∧ (s.clrSeq).wrq = s.wrq ∧ (s.clrSeq).ord = s.ord ∧ (s.clrSeq).red
    = s.red ∧ (s.clrSeq).mrg = s.mrg ∧ (s.clrSeq).dsl = s.dsl ∧ (s.clrSeq).cmb = s.cmb ∧ (s.clrSeq).mods = s.mods ∧ (s.clrSeq).flow = s.flow ∧
    (s.clrSeq).streams = s.streams ∧ (s.clrSeq).ctl = s.ctl ∧ (s.clrSeq).tx = s.tx ∧ (s.clrSeq).rsp = s.rsp ∧ (s.clrSeq).rel = s.rel ∧
    (s.clrSeq).mgmtQ = s.mgmtQ ∧ (s.clrSeq).plan = s.plan ∧ (s.clrSeq).gapEnd = s.gapEnd ∧ (s.clrSeq).tags = s.tags ∧ (s.clrSeq).trn = s.trn ∧
    (s.clrSeq).twin = s.twin ∧ (s.clrSeq).hm = s.hm ∧ (s.clrSeq).pwr = s.pwr ∧ (s.clrSeq).ecc = s.ecc ∧ (s.clrSeq).bist = s.bist :=
  ⟨Eq.refl _, Eq.refl _, Eq.refl _, Eq.refl _, Eq.refl _, Eq.refl _, Eq.refl _, Eq.refl _, Eq.refl _, Eq.refl _, Eq.refl _, Eq.refl _, Eq.refl
    _, Eq.refl _, Eq.refl _, Eq.refl _, Eq.refl _, Eq.refl _, Eq.refl _, Eq.refl _, Eq.refl _, Eq.refl _, Eq.refl _, Eq.refl _, Eq.refl _,
    Eq.refl _, Eq.refl _, Eq.refl _, Eq.refl _, Eq.refl _, Eq.refl _, Eq.refl _, Eq.refl _, Eq.refl _, Eq.refl _, Eq.refl _, Eq.refl _, Eq.refl
    _, Eq.refl _, Eq.refl _, Eq.refl _⟩

@[simp] theorem State.updTick_fields (s : State) (f : Tick → Tick) :
    (s.updTick f).pending = s.pending ∧ (s.updTick f).env = s.env ∧ (s.updTick f).free = s.free ∧ (s.updTick f).out = s.out ∧ (s.updTick
    f).upset = s.upset ∧ (s.updTick f).regs = s.regs ∧ (s.updTick f).shadow = s.shadow ∧ (s.updTick f).hits = s.hits ∧ (s.updTick f).merge =
    s.merge ∧ (s.updTick f).commit = s.commit ∧ (s.updTick f).seq = s.seq ∧ (s.updTick f).pm = s.pm ∧ (s.updTick f).g = s.g ∧ (s.updTick
    f).scratch = s.scratch ∧ (s.updTick f).td = s.td ∧ (s.updTick f).ev = s.ev ∧ (s.updTick f).ops = s.ops ∧ (s.updTick f).far = s.far ∧
    (s.updTick f).rdq = s.rdq ∧ (s.updTick f).wrq = s.wrq ∧ (s.updTick f).ord = s.ord ∧ (s.updTick f).red = s.red ∧ (s.updTick f).mrg = s.mrg ∧
    (s.updTick f).dsl = s.dsl ∧ (s.updTick f).cmb = s.cmb ∧ (s.updTick f).mods = s.mods ∧ (s.updTick f).flow = s.flow ∧ (s.updTick f).streams =
    s.streams ∧ (s.updTick f).ctl = s.ctl ∧ (s.updTick f).tx = s.tx ∧ (s.updTick f).rsp = s.rsp ∧ (s.updTick f).rel = s.rel ∧ (s.updTick
    f).mgmtQ = s.mgmtQ ∧ (s.updTick f).plan = s.plan ∧ (s.updTick f).gapEnd = s.gapEnd ∧ (s.updTick f).tags = s.tags ∧ (s.updTick f).trn = s.trn
    ∧ (s.updTick f).twin = s.twin ∧ (s.updTick f).hm = s.hm ∧ (s.updTick f).pwr = s.pwr ∧ (s.updTick f).ecc = s.ecc ∧ (s.updTick f).bist =
    s.bist :=
  ⟨Eq.refl _, Eq.refl _, Eq.refl _, Eq.refl _, Eq.refl _, Eq.refl _, Eq.refl _, Eq.refl _, Eq.refl _, Eq.refl _, Eq.refl _, Eq.refl _, Eq.refl
    _, Eq.refl _, Eq.refl _, Eq.refl _, Eq.refl _, Eq.refl _, Eq.refl _, Eq.refl _, Eq.refl _, Eq.refl _, Eq.refl _, Eq.refl _, Eq.refl _,
    Eq.refl _, Eq.refl _, Eq.refl _, Eq.refl _, Eq.refl _, Eq.refl _, Eq.refl _, Eq.refl _, Eq.refl _, Eq.refl _, Eq.refl _, Eq.refl _, Eq.refl
    _, Eq.refl _, Eq.refl _, Eq.refl _, Eq.refl _⟩

@[simp] theorem State.updTrn_fields (s : State) (f : Trn → Trn) :
    (s.updTrn f).pending = s.pending ∧ (s.updTrn f).env = s.env ∧ (s.updTrn f).free = s.free ∧ (s.updTrn f).out = s.out ∧ (s.updTrn f).upset =
    s.upset ∧ (s.updTrn f).regs = s.regs ∧ (s.updTrn f).shadow = s.shadow ∧ (s.updTrn f).hits = s.hits ∧ (s.updTrn f).merge = s.merge ∧
    (s.updTrn f).commit = s.commit ∧ (s.updTrn f).tick = s.tick ∧ (s.updTrn f).seq = s.seq ∧ (s.updTrn f).pm = s.pm ∧ (s.updTrn f).g = s.g ∧
    (s.updTrn f).scratch = s.scratch ∧ (s.updTrn f).td = s.td ∧ (s.updTrn f).ev = s.ev ∧ (s.updTrn f).ops = s.ops ∧ (s.updTrn f).far = s.far ∧
    (s.updTrn f).rdq = s.rdq ∧ (s.updTrn f).wrq = s.wrq ∧ (s.updTrn f).ord = s.ord ∧ (s.updTrn f).red = s.red ∧ (s.updTrn f).mrg = s.mrg ∧
    (s.updTrn f).dsl = s.dsl ∧ (s.updTrn f).cmb = s.cmb ∧ (s.updTrn f).mods = s.mods ∧ (s.updTrn f).flow = s.flow ∧ (s.updTrn f).streams =
    s.streams ∧ (s.updTrn f).ctl = s.ctl ∧ (s.updTrn f).tx = s.tx ∧ (s.updTrn f).rsp = s.rsp ∧ (s.updTrn f).rel = s.rel ∧ (s.updTrn f).mgmtQ =
    s.mgmtQ ∧ (s.updTrn f).plan = s.plan ∧ (s.updTrn f).gapEnd = s.gapEnd ∧ (s.updTrn f).tags = s.tags ∧ (s.updTrn f).twin = s.twin ∧ (s.updTrn
    f).hm = s.hm ∧ (s.updTrn f).pwr = s.pwr ∧ (s.updTrn f).ecc = s.ecc ∧ (s.updTrn f).bist = s.bist :=
  ⟨Eq.refl _, Eq.refl _, Eq.refl _, Eq.refl _, Eq.refl _, Eq.refl _, Eq.refl _, Eq.refl _, Eq.refl _, Eq.refl _, Eq.refl _, Eq.refl _, Eq.refl
    _, Eq.refl _, Eq.refl _, Eq.refl _, Eq.refl _, Eq.refl _, Eq.refl _, Eq.refl _, Eq.refl _, Eq.refl _, Eq.refl _, Eq.refl _, Eq.refl _,
    Eq.refl _, Eq.refl _, Eq.refl _, Eq.refl _, Eq.refl _, Eq.refl _, Eq.refl _, Eq.refl _, Eq.refl _, Eq.refl _, Eq.refl _, Eq.refl _, Eq.refl
    _, Eq.refl _, Eq.refl _, Eq.refl _, Eq.refl _⟩

@[simp] theorem State.updTwin_fields (s : State) (f : Twin → Twin) :
    (s.updTwin f).pending = s.pending ∧ (s.updTwin f).env = s.env ∧ (s.updTwin f).free = s.free ∧ (s.updTwin f).out = s.out ∧ (s.updTwin
    f).upset = s.upset ∧ (s.updTwin f).regs = s.regs ∧ (s.updTwin f).shadow = s.shadow ∧ (s.updTwin f).hits = s.hits ∧ (s.updTwin f).merge =
    s.merge ∧ (s.updTwin f).commit = s.commit ∧ (s.updTwin f).tick = s.tick ∧ (s.updTwin f).seq = s.seq ∧ (s.updTwin f).pm = s.pm ∧ (s.updTwin
    f).g = s.g ∧ (s.updTwin f).scratch = s.scratch ∧ (s.updTwin f).td = s.td ∧ (s.updTwin f).ev = s.ev ∧ (s.updTwin f).ops = s.ops ∧ (s.updTwin
    f).far = s.far ∧ (s.updTwin f).rdq = s.rdq ∧ (s.updTwin f).wrq = s.wrq ∧ (s.updTwin f).ord = s.ord ∧ (s.updTwin f).red = s.red ∧ (s.updTwin
    f).mrg = s.mrg ∧ (s.updTwin f).dsl = s.dsl ∧ (s.updTwin f).cmb = s.cmb ∧ (s.updTwin f).mods = s.mods ∧ (s.updTwin f).flow = s.flow ∧
    (s.updTwin f).streams = s.streams ∧ (s.updTwin f).ctl = s.ctl ∧ (s.updTwin f).tx = s.tx ∧ (s.updTwin f).rsp = s.rsp ∧ (s.updTwin f).rel =
    s.rel ∧ (s.updTwin f).mgmtQ = s.mgmtQ ∧ (s.updTwin f).plan = s.plan ∧ (s.updTwin f).gapEnd = s.gapEnd ∧ (s.updTwin f).tags = s.tags ∧
    (s.updTwin f).trn = s.trn ∧ (s.updTwin f).hm = s.hm ∧ (s.updTwin f).pwr = s.pwr ∧ (s.updTwin f).ecc = s.ecc ∧ (s.updTwin f).bist = s.bist :=
  ⟨Eq.refl _, Eq.refl _, Eq.refl _, Eq.refl _, Eq.refl _, Eq.refl _, Eq.refl _, Eq.refl _, Eq.refl _, Eq.refl _, Eq.refl _, Eq.refl _, Eq.refl
    _, Eq.refl _, Eq.refl _, Eq.refl _, Eq.refl _, Eq.refl _, Eq.refl _, Eq.refl _, Eq.refl _, Eq.refl _, Eq.refl _, Eq.refl _, Eq.refl _,
    Eq.refl _, Eq.refl _, Eq.refl _, Eq.refl _, Eq.refl _, Eq.refl _, Eq.refl _, Eq.refl _, Eq.refl _, Eq.refl _, Eq.refl _, Eq.refl _, Eq.refl
    _, Eq.refl _, Eq.refl _, Eq.refl _, Eq.refl _⟩

@[simp] theorem State.updHm_fields (s : State) (f : Hm → Hm) :
    (s.updHm f).pending = s.pending ∧ (s.updHm f).env = s.env ∧ (s.updHm f).free = s.free ∧ (s.updHm f).out = s.out ∧ (s.updHm f).upset =
    s.upset ∧ (s.updHm f).regs = s.regs ∧ (s.updHm f).shadow = s.shadow ∧ (s.updHm f).hits = s.hits ∧ (s.updHm f).merge = s.merge ∧ (s.updHm
    f).commit = s.commit ∧ (s.updHm f).tick = s.tick ∧ (s.updHm f).seq = s.seq ∧ (s.updHm f).pm = s.pm ∧ (s.updHm f).g = s.g ∧ (s.updHm
    f).scratch = s.scratch ∧ (s.updHm f).td = s.td ∧ (s.updHm f).ev = s.ev ∧ (s.updHm f).ops = s.ops ∧ (s.updHm f).far = s.far ∧ (s.updHm f).rdq
    = s.rdq ∧ (s.updHm f).wrq = s.wrq ∧ (s.updHm f).ord = s.ord ∧ (s.updHm f).red = s.red ∧ (s.updHm f).mrg = s.mrg ∧ (s.updHm f).dsl = s.dsl ∧
    (s.updHm f).cmb = s.cmb ∧ (s.updHm f).mods = s.mods ∧ (s.updHm f).flow = s.flow ∧ (s.updHm f).streams = s.streams ∧ (s.updHm f).ctl = s.ctl
    ∧ (s.updHm f).tx = s.tx ∧ (s.updHm f).rsp = s.rsp ∧ (s.updHm f).rel = s.rel ∧ (s.updHm f).mgmtQ = s.mgmtQ ∧ (s.updHm f).plan = s.plan ∧
    (s.updHm f).gapEnd = s.gapEnd ∧ (s.updHm f).tags = s.tags ∧ (s.updHm f).trn = s.trn ∧ (s.updHm f).twin = s.twin ∧ (s.updHm f).pwr = s.pwr ∧
    (s.updHm f).ecc = s.ecc ∧ (s.updHm f).bist = s.bist :=
  ⟨Eq.refl _, Eq.refl _, Eq.refl _, Eq.refl _, Eq.refl _, Eq.refl _, Eq.refl _, Eq.refl _, Eq.refl _, Eq.refl _, Eq.refl _, Eq.refl _, Eq.refl
    _, Eq.refl _, Eq.refl _, Eq.refl _, Eq.refl _, Eq.refl _, Eq.refl _, Eq.refl _, Eq.refl _, Eq.refl _, Eq.refl _, Eq.refl _, Eq.refl _,
    Eq.refl _, Eq.refl _, Eq.refl _, Eq.refl _, Eq.refl _, Eq.refl _, Eq.refl _, Eq.refl _, Eq.refl _, Eq.refl _, Eq.refl _, Eq.refl _, Eq.refl
    _, Eq.refl _, Eq.refl _, Eq.refl _, Eq.refl _⟩

@[simp] theorem State.updPwr_fields (s : State) (f : Pwr → Pwr) :
    (s.updPwr f).pending = s.pending ∧ (s.updPwr f).env = s.env ∧ (s.updPwr f).free = s.free ∧ (s.updPwr f).out = s.out ∧ (s.updPwr f).upset =
    s.upset ∧ (s.updPwr f).regs = s.regs ∧ (s.updPwr f).shadow = s.shadow ∧ (s.updPwr f).hits = s.hits ∧ (s.updPwr f).merge = s.merge ∧
    (s.updPwr f).commit = s.commit ∧ (s.updPwr f).tick = s.tick ∧ (s.updPwr f).seq = s.seq ∧ (s.updPwr f).pm = s.pm ∧ (s.updPwr f).g = s.g ∧
    (s.updPwr f).scratch = s.scratch ∧ (s.updPwr f).td = s.td ∧ (s.updPwr f).ev = s.ev ∧ (s.updPwr f).ops = s.ops ∧ (s.updPwr f).far = s.far ∧
    (s.updPwr f).rdq = s.rdq ∧ (s.updPwr f).wrq = s.wrq ∧ (s.updPwr f).ord = s.ord ∧ (s.updPwr f).red = s.red ∧ (s.updPwr f).mrg = s.mrg ∧
    (s.updPwr f).dsl = s.dsl ∧ (s.updPwr f).cmb = s.cmb ∧ (s.updPwr f).mods = s.mods ∧ (s.updPwr f).flow = s.flow ∧ (s.updPwr f).streams =
    s.streams ∧ (s.updPwr f).ctl = s.ctl ∧ (s.updPwr f).tx = s.tx ∧ (s.updPwr f).rsp = s.rsp ∧ (s.updPwr f).rel = s.rel ∧ (s.updPwr f).mgmtQ =
    s.mgmtQ ∧ (s.updPwr f).plan = s.plan ∧ (s.updPwr f).gapEnd = s.gapEnd ∧ (s.updPwr f).tags = s.tags ∧ (s.updPwr f).trn = s.trn ∧ (s.updPwr
    f).twin = s.twin ∧ (s.updPwr f).hm = s.hm ∧ (s.updPwr f).ecc = s.ecc ∧ (s.updPwr f).bist = s.bist :=
  ⟨Eq.refl _, Eq.refl _, Eq.refl _, Eq.refl _, Eq.refl _, Eq.refl _, Eq.refl _, Eq.refl _, Eq.refl _, Eq.refl _, Eq.refl _, Eq.refl _, Eq.refl
    _, Eq.refl _, Eq.refl _, Eq.refl _, Eq.refl _, Eq.refl _, Eq.refl _, Eq.refl _, Eq.refl _, Eq.refl _, Eq.refl _, Eq.refl _, Eq.refl _,
    Eq.refl _, Eq.refl _, Eq.refl _, Eq.refl _, Eq.refl _, Eq.refl _, Eq.refl _, Eq.refl _, Eq.refl _, Eq.refl _, Eq.refl _, Eq.refl _, Eq.refl
    _, Eq.refl _, Eq.refl _, Eq.refl _, Eq.refl _⟩

@[simp] theorem State.updBist_fields (s : State) (f : Bist → Bist) :
    (s.updBist f).pending = s.pending ∧ (s.updBist f).env = s.env ∧ (s.updBist f).free = s.free ∧ (s.updBist f).out = s.out ∧ (s.updBist
    f).upset = s.upset ∧ (s.updBist f).regs = s.regs ∧ (s.updBist f).shadow = s.shadow ∧ (s.updBist f).hits = s.hits ∧ (s.updBist f).merge =
    s.merge ∧ (s.updBist f).commit = s.commit ∧ (s.updBist f).tick = s.tick ∧ (s.updBist f).seq = s.seq ∧ (s.updBist f).pm = s.pm ∧ (s.updBist
    f).g = s.g ∧ (s.updBist f).scratch = s.scratch ∧ (s.updBist f).td = s.td ∧ (s.updBist f).ev = s.ev ∧ (s.updBist f).ops = s.ops ∧ (s.updBist
    f).far = s.far ∧ (s.updBist f).rdq = s.rdq ∧ (s.updBist f).wrq = s.wrq ∧ (s.updBist f).ord = s.ord ∧ (s.updBist f).red = s.red ∧ (s.updBist
    f).mrg = s.mrg ∧ (s.updBist f).dsl = s.dsl ∧ (s.updBist f).cmb = s.cmb ∧ (s.updBist f).mods = s.mods ∧ (s.updBist f).flow = s.flow ∧
    (s.updBist f).streams = s.streams ∧ (s.updBist f).ctl = s.ctl ∧ (s.updBist f).tx = s.tx ∧ (s.updBist f).rsp = s.rsp ∧ (s.updBist f).rel =
    s.rel ∧ (s.updBist f).mgmtQ = s.mgmtQ ∧ (s.updBist f).plan = s.plan ∧ (s.updBist f).gapEnd = s.gapEnd ∧ (s.updBist f).tags = s.tags ∧
    (s.updBist f).trn = s.trn ∧ (s.updBist f).twin = s.twin ∧ (s.updBist f).hm = s.hm ∧ (s.updBist f).pwr = s.pwr ∧ (s.updBist f).ecc = s.ecc :=
  ⟨Eq.refl _, Eq.refl _, Eq.refl _, Eq.refl _, Eq.refl _, Eq.refl _, Eq.refl _, Eq.refl _, Eq.refl _, Eq.refl _, Eq.refl _, Eq.refl _, Eq.refl
    _, Eq.refl _, Eq.refl _, Eq.refl _, Eq.refl _, Eq.refl _, Eq.refl _, Eq.refl _, Eq.refl _, Eq.refl _, Eq.refl _, Eq.refl _, Eq.refl _,
    Eq.refl _, Eq.refl _, Eq.refl _, Eq.refl _, Eq.refl _, Eq.refl _, Eq.refl _, Eq.refl _, Eq.refl _, Eq.refl _, Eq.refl _, Eq.refl _, Eq.refl
    _, Eq.refl _, Eq.refl _, Eq.refl _, Eq.refl _⟩

@[simp] theorem State.setTag_fields (s : State) (e : Nat) (t : Tag) :
    (s.setTag e t).pending = s.pending ∧ (s.setTag e t).env = s.env ∧ (s.setTag e t).free = s.free ∧ (s.setTag e t).out = s.out ∧ (s.setTag e
    t).upset = s.upset ∧ (s.setTag e t).regs = s.regs ∧ (s.setTag e t).shadow = s.shadow ∧ (s.setTag e t).hits = s.hits ∧ (s.setTag e t).merge =
    s.merge ∧ (s.setTag e t).commit = s.commit ∧ (s.setTag e t).tick = s.tick ∧ (s.setTag e t).seq = s.seq ∧ (s.setTag e t).pm = s.pm ∧
    (s.setTag e t).g = s.g ∧ (s.setTag e t).scratch = s.scratch ∧ (s.setTag e t).td = s.td ∧ (s.setTag e t).ev = s.ev ∧ (s.setTag e t).ops =
    s.ops ∧ (s.setTag e t).far = s.far ∧ (s.setTag e t).rdq = s.rdq ∧ (s.setTag e t).wrq = s.wrq ∧ (s.setTag e t).ord = s.ord ∧ (s.setTag e
    t).red = s.red ∧ (s.setTag e t).mrg = s.mrg ∧ (s.setTag e t).dsl = s.dsl ∧ (s.setTag e t).cmb = s.cmb ∧ (s.setTag e t).mods = s.mods ∧
    (s.setTag e t).flow = s.flow ∧ (s.setTag e t).streams = s.streams ∧ (s.setTag e t).ctl = s.ctl ∧ (s.setTag e t).tx = s.tx ∧ (s.setTag e
    t).rsp = s.rsp ∧ (s.setTag e t).rel = s.rel ∧ (s.setTag e t).mgmtQ = s.mgmtQ ∧ (s.setTag e t).plan = s.plan ∧ (s.setTag e t).gapEnd =
    s.gapEnd ∧ (s.setTag e t).trn = s.trn ∧ (s.setTag e t).twin = s.twin ∧ (s.setTag e t).hm = s.hm ∧ (s.setTag e t).pwr = s.pwr ∧ (s.setTag e
    t).ecc = s.ecc ∧ (s.setTag e t).bist = s.bist :=
  ⟨Eq.refl _, Eq.refl _, Eq.refl _, Eq.refl _, Eq.refl _, Eq.refl _, Eq.refl _, Eq.refl _, Eq.refl _, Eq.refl _, Eq.refl _, Eq.refl _, Eq.refl
    _, Eq.refl _, Eq.refl _, Eq.refl _, Eq.refl _, Eq.refl _, Eq.refl _, Eq.refl _, Eq.refl _, Eq.refl _, Eq.refl _, Eq.refl _, Eq.refl _,
    Eq.refl _, Eq.refl _, Eq.refl _, Eq.refl _, Eq.refl _, Eq.refl _, Eq.refl _, Eq.refl _, Eq.refl _, Eq.refl _, Eq.refl _, Eq.refl _, Eq.refl
    _, Eq.refl _, Eq.refl _, Eq.refl _, Eq.refl _⟩

@[simp] theorem State.setRed_fields (s : State) (r : Nat) (x : Red) :
    (s.setRed r x).pending = s.pending ∧ (s.setRed r x).env = s.env ∧ (s.setRed r x).free = s.free ∧ (s.setRed r x).out = s.out ∧ (s.setRed r
    x).upset = s.upset ∧ (s.setRed r x).regs = s.regs ∧ (s.setRed r x).shadow = s.shadow ∧ (s.setRed r x).hits = s.hits ∧ (s.setRed r x).merge =
    s.merge ∧ (s.setRed r x).commit = s.commit ∧ (s.setRed r x).tick = s.tick ∧ (s.setRed r x).seq = s.seq ∧ (s.setRed r x).pm = s.pm ∧
    (s.setRed r x).g = s.g ∧ (s.setRed r x).scratch = s.scratch ∧ (s.setRed r x).td = s.td ∧ (s.setRed r x).ev = s.ev ∧ (s.setRed r x).ops =
    s.ops ∧ (s.setRed r x).far = s.far ∧ (s.setRed r x).rdq = s.rdq ∧ (s.setRed r x).wrq = s.wrq ∧ (s.setRed r x).ord = s.ord ∧ (s.setRed r
    x).mrg = s.mrg ∧ (s.setRed r x).dsl = s.dsl ∧ (s.setRed r x).cmb = s.cmb ∧ (s.setRed r x).mods = s.mods ∧ (s.setRed r x).flow = s.flow ∧
    (s.setRed r x).streams = s.streams ∧ (s.setRed r x).ctl = s.ctl ∧ (s.setRed r x).tx = s.tx ∧ (s.setRed r x).rsp = s.rsp ∧ (s.setRed r x).rel
    = s.rel ∧ (s.setRed r x).mgmtQ = s.mgmtQ ∧ (s.setRed r x).plan = s.plan ∧ (s.setRed r x).gapEnd = s.gapEnd ∧ (s.setRed r x).tags = s.tags ∧
    (s.setRed r x).trn = s.trn ∧ (s.setRed r x).twin = s.twin ∧ (s.setRed r x).hm = s.hm ∧ (s.setRed r x).pwr = s.pwr ∧ (s.setRed r x).ecc =
    s.ecc ∧ (s.setRed r x).bist = s.bist :=
  ⟨Eq.refl _, Eq.refl _, Eq.refl _, Eq.refl _, Eq.refl _, Eq.refl _, Eq.refl _, Eq.refl _, Eq.refl _, Eq.refl _, Eq.refl _, Eq.refl _, Eq.refl
    _, Eq.refl _, Eq.refl _, Eq.refl _, Eq.refl _, Eq.refl _, Eq.refl _, Eq.refl _, Eq.refl _, Eq.refl _, Eq.refl _, Eq.refl _, Eq.refl _,
    Eq.refl _, Eq.refl _, Eq.refl _, Eq.refl _, Eq.refl _, Eq.refl _, Eq.refl _, Eq.refl _, Eq.refl _, Eq.refl _, Eq.refl _, Eq.refl _, Eq.refl
    _, Eq.refl _, Eq.refl _, Eq.refl _, Eq.refl _⟩

@[simp] theorem State.setMrg_fields (s : State) (n : Nat) (x : Mrg) :
    (s.setMrg n x).pending = s.pending ∧ (s.setMrg n x).env = s.env ∧ (s.setMrg n x).free = s.free ∧ (s.setMrg n x).out = s.out ∧ (s.setMrg n
    x).upset = s.upset ∧ (s.setMrg n x).regs = s.regs ∧ (s.setMrg n x).shadow = s.shadow ∧ (s.setMrg n x).hits = s.hits ∧ (s.setMrg n x).merge =
    s.merge ∧ (s.setMrg n x).commit = s.commit ∧ (s.setMrg n x).tick = s.tick ∧ (s.setMrg n x).seq = s.seq ∧ (s.setMrg n x).pm = s.pm ∧
    (s.setMrg n x).g = s.g ∧ (s.setMrg n x).scratch = s.scratch ∧ (s.setMrg n x).td = s.td ∧ (s.setMrg n x).ev = s.ev ∧ (s.setMrg n x).ops =
    s.ops ∧ (s.setMrg n x).far = s.far ∧ (s.setMrg n x).rdq = s.rdq ∧ (s.setMrg n x).wrq = s.wrq ∧ (s.setMrg n x).ord = s.ord ∧ (s.setMrg n
    x).red = s.red ∧ (s.setMrg n x).dsl = s.dsl ∧ (s.setMrg n x).cmb = s.cmb ∧ (s.setMrg n x).mods = s.mods ∧ (s.setMrg n x).flow = s.flow ∧
    (s.setMrg n x).streams = s.streams ∧ (s.setMrg n x).ctl = s.ctl ∧ (s.setMrg n x).tx = s.tx ∧ (s.setMrg n x).rsp = s.rsp ∧ (s.setMrg n x).rel
    = s.rel ∧ (s.setMrg n x).mgmtQ = s.mgmtQ ∧ (s.setMrg n x).plan = s.plan ∧ (s.setMrg n x).gapEnd = s.gapEnd ∧ (s.setMrg n x).tags = s.tags ∧
    (s.setMrg n x).trn = s.trn ∧ (s.setMrg n x).twin = s.twin ∧ (s.setMrg n x).hm = s.hm ∧ (s.setMrg n x).pwr = s.pwr ∧ (s.setMrg n x).ecc =
    s.ecc ∧ (s.setMrg n x).bist = s.bist :=
  ⟨Eq.refl _, Eq.refl _, Eq.refl _, Eq.refl _, Eq.refl _, Eq.refl _, Eq.refl _, Eq.refl _, Eq.refl _, Eq.refl _, Eq.refl _, Eq.refl _, Eq.refl
    _, Eq.refl _, Eq.refl _, Eq.refl _, Eq.refl _, Eq.refl _, Eq.refl _, Eq.refl _, Eq.refl _, Eq.refl _, Eq.refl _, Eq.refl _, Eq.refl _,
    Eq.refl _, Eq.refl _, Eq.refl _, Eq.refl _, Eq.refl _, Eq.refl _, Eq.refl _, Eq.refl _, Eq.refl _, Eq.refl _, Eq.refl _, Eq.refl _, Eq.refl
    _, Eq.refl _, Eq.refl _, Eq.refl _, Eq.refl _⟩

@[simp] theorem State.setDsl_fields (s : State) (d : Nat) (x : Dsl) :
    (s.setDsl d x).pending = s.pending ∧ (s.setDsl d x).env = s.env ∧ (s.setDsl d x).free = s.free ∧ (s.setDsl d x).out = s.out ∧ (s.setDsl d
    x).upset = s.upset ∧ (s.setDsl d x).regs = s.regs ∧ (s.setDsl d x).shadow = s.shadow ∧ (s.setDsl d x).hits = s.hits ∧ (s.setDsl d x).merge =
    s.merge ∧ (s.setDsl d x).commit = s.commit ∧ (s.setDsl d x).tick = s.tick ∧ (s.setDsl d x).seq = s.seq ∧ (s.setDsl d x).pm = s.pm ∧
    (s.setDsl d x).g = s.g ∧ (s.setDsl d x).scratch = s.scratch ∧ (s.setDsl d x).td = s.td ∧ (s.setDsl d x).ev = s.ev ∧ (s.setDsl d x).ops =
    s.ops ∧ (s.setDsl d x).far = s.far ∧ (s.setDsl d x).rdq = s.rdq ∧ (s.setDsl d x).wrq = s.wrq ∧ (s.setDsl d x).ord = s.ord ∧ (s.setDsl d
    x).red = s.red ∧ (s.setDsl d x).mrg = s.mrg ∧ (s.setDsl d x).cmb = s.cmb ∧ (s.setDsl d x).mods = s.mods ∧ (s.setDsl d x).flow = s.flow ∧
    (s.setDsl d x).streams = s.streams ∧ (s.setDsl d x).ctl = s.ctl ∧ (s.setDsl d x).tx = s.tx ∧ (s.setDsl d x).rsp = s.rsp ∧ (s.setDsl d x).rel
    = s.rel ∧ (s.setDsl d x).mgmtQ = s.mgmtQ ∧ (s.setDsl d x).plan = s.plan ∧ (s.setDsl d x).gapEnd = s.gapEnd ∧ (s.setDsl d x).tags = s.tags ∧
    (s.setDsl d x).trn = s.trn ∧ (s.setDsl d x).twin = s.twin ∧ (s.setDsl d x).hm = s.hm ∧ (s.setDsl d x).pwr = s.pwr ∧ (s.setDsl d x).ecc =
    s.ecc ∧ (s.setDsl d x).bist = s.bist :=
  ⟨Eq.refl _, Eq.refl _, Eq.refl _, Eq.refl _, Eq.refl _, Eq.refl _, Eq.refl _, Eq.refl _, Eq.refl _, Eq.refl _, Eq.refl _, Eq.refl _, Eq.refl
    _, Eq.refl _, Eq.refl _, Eq.refl _, Eq.refl _, Eq.refl _, Eq.refl _, Eq.refl _, Eq.refl _, Eq.refl _, Eq.refl _, Eq.refl _, Eq.refl _,
    Eq.refl _, Eq.refl _, Eq.refl _, Eq.refl _, Eq.refl _, Eq.refl _, Eq.refl _, Eq.refl _, Eq.refl _, Eq.refl _, Eq.refl _, Eq.refl _, Eq.refl
    _, Eq.refl _, Eq.refl _, Eq.refl _, Eq.refl _⟩

@[simp] theorem State.setCmb_fields (s : State) (d : Nat) (x : Cmb) :
    (s.setCmb d x).pending = s.pending ∧ (s.setCmb d x).env = s.env ∧ (s.setCmb d x).free = s.free ∧ (s.setCmb d x).out = s.out ∧ (s.setCmb d
    x).upset = s.upset ∧ (s.setCmb d x).regs = s.regs ∧ (s.setCmb d x).shadow = s.shadow ∧ (s.setCmb d x).hits = s.hits ∧ (s.setCmb d x).merge =
    s.merge ∧ (s.setCmb d x).commit = s.commit ∧ (s.setCmb d x).tick = s.tick ∧ (s.setCmb d x).seq = s.seq ∧ (s.setCmb d x).pm = s.pm ∧
    (s.setCmb d x).g = s.g ∧ (s.setCmb d x).scratch = s.scratch ∧ (s.setCmb d x).td = s.td ∧ (s.setCmb d x).ev = s.ev ∧ (s.setCmb d x).ops =
    s.ops ∧ (s.setCmb d x).far = s.far ∧ (s.setCmb d x).rdq = s.rdq ∧ (s.setCmb d x).wrq = s.wrq ∧ (s.setCmb d x).ord = s.ord ∧ (s.setCmb d
    x).red = s.red ∧ (s.setCmb d x).mrg = s.mrg ∧ (s.setCmb d x).dsl = s.dsl ∧ (s.setCmb d x).mods = s.mods ∧ (s.setCmb d x).flow = s.flow ∧
    (s.setCmb d x).streams = s.streams ∧ (s.setCmb d x).ctl = s.ctl ∧ (s.setCmb d x).tx = s.tx ∧ (s.setCmb d x).rsp = s.rsp ∧ (s.setCmb d x).rel
    = s.rel ∧ (s.setCmb d x).mgmtQ = s.mgmtQ ∧ (s.setCmb d x).plan = s.plan ∧ (s.setCmb d x).gapEnd = s.gapEnd ∧ (s.setCmb d x).tags = s.tags ∧
    (s.setCmb d x).trn = s.trn ∧ (s.setCmb d x).twin = s.twin ∧ (s.setCmb d x).hm = s.hm ∧ (s.setCmb d x).pwr = s.pwr ∧ (s.setCmb d x).ecc =
    s.ecc ∧ (s.setCmb d x).bist = s.bist :=
  ⟨Eq.refl _, Eq.refl _, Eq.refl _, Eq.refl _, Eq.refl _, Eq.refl _, Eq.refl _, Eq.refl _, Eq.refl _, Eq.refl _, Eq.refl _, Eq.refl _, Eq.refl
    _, Eq.refl _, Eq.refl _, Eq.refl _, Eq.refl _, Eq.refl _, Eq.refl _, Eq.refl _, Eq.refl _, Eq.refl _, Eq.refl _, Eq.refl _, Eq.refl _,
    Eq.refl _, Eq.refl _, Eq.refl _, Eq.refl _, Eq.refl _, Eq.refl _, Eq.refl _, Eq.refl _, Eq.refl _, Eq.refl _, Eq.refl _, Eq.refl _, Eq.refl
    _, Eq.refl _, Eq.refl _, Eq.refl _, Eq.refl _⟩

@[simp] theorem State.setFar_fields (s : State) (f : FarOp) :
    (s.setFar f).pending = s.pending ∧ (s.setFar f).env = s.env ∧ (s.setFar f).free = s.free ∧ (s.setFar f).out = s.out ∧ (s.setFar f).upset =
    s.upset ∧ (s.setFar f).regs = s.regs ∧ (s.setFar f).shadow = s.shadow ∧ (s.setFar f).hits = s.hits ∧ (s.setFar f).merge = s.merge ∧
    (s.setFar f).commit = s.commit ∧ (s.setFar f).tick = s.tick ∧ (s.setFar f).seq = s.seq ∧ (s.setFar f).pm = s.pm ∧ (s.setFar f).g = s.g ∧
    (s.setFar f).scratch = s.scratch ∧ (s.setFar f).td = s.td ∧ (s.setFar f).ev = s.ev ∧ (s.setFar f).ops = s.ops ∧ (s.setFar f).rdq = s.rdq ∧
    (s.setFar f).wrq = s.wrq ∧ (s.setFar f).ord = s.ord ∧ (s.setFar f).red = s.red ∧ (s.setFar f).mrg = s.mrg ∧ (s.setFar f).dsl = s.dsl ∧
    (s.setFar f).cmb = s.cmb ∧ (s.setFar f).mods = s.mods ∧ (s.setFar f).flow = s.flow ∧ (s.setFar f).streams = s.streams ∧ (s.setFar f).ctl =
    s.ctl ∧ (s.setFar f).tx = s.tx ∧ (s.setFar f).rsp = s.rsp ∧ (s.setFar f).rel = s.rel ∧ (s.setFar f).mgmtQ = s.mgmtQ ∧ (s.setFar f).plan =
    s.plan ∧ (s.setFar f).gapEnd = s.gapEnd ∧ (s.setFar f).tags = s.tags ∧ (s.setFar f).trn = s.trn ∧ (s.setFar f).twin = s.twin ∧ (s.setFar
    f).hm = s.hm ∧ (s.setFar f).pwr = s.pwr ∧ (s.setFar f).ecc = s.ecc ∧ (s.setFar f).bist = s.bist :=
  ⟨Eq.refl _, Eq.refl _, Eq.refl _, Eq.refl _, Eq.refl _, Eq.refl _, Eq.refl _, Eq.refl _, Eq.refl _, Eq.refl _, Eq.refl _, Eq.refl _, Eq.refl
    _, Eq.refl _, Eq.refl _, Eq.refl _, Eq.refl _, Eq.refl _, Eq.refl _, Eq.refl _, Eq.refl _, Eq.refl _, Eq.refl _, Eq.refl _, Eq.refl _,
    Eq.refl _, Eq.refl _, Eq.refl _, Eq.refl _, Eq.refl _, Eq.refl _, Eq.refl _, Eq.refl _, Eq.refl _, Eq.refl _, Eq.refl _, Eq.refl _, Eq.refl
    _, Eq.refl _, Eq.refl _, Eq.refl _, Eq.refl _⟩

@[simp] theorem State.dropFar_fields (s : State) (k : FarKey) :
    (s.dropFar k).pending = s.pending ∧ (s.dropFar k).env = s.env ∧ (s.dropFar k).free = s.free ∧ (s.dropFar k).out = s.out ∧ (s.dropFar
    k).upset = s.upset ∧ (s.dropFar k).regs = s.regs ∧ (s.dropFar k).shadow = s.shadow ∧ (s.dropFar k).hits = s.hits ∧ (s.dropFar k).merge =
    s.merge ∧ (s.dropFar k).commit = s.commit ∧ (s.dropFar k).tick = s.tick ∧ (s.dropFar k).seq = s.seq ∧ (s.dropFar k).pm = s.pm ∧ (s.dropFar
    k).g = s.g ∧ (s.dropFar k).scratch = s.scratch ∧ (s.dropFar k).td = s.td ∧ (s.dropFar k).ev = s.ev ∧ (s.dropFar k).ops = s.ops ∧ (s.dropFar
    k).rdq = s.rdq ∧ (s.dropFar k).wrq = s.wrq ∧ (s.dropFar k).ord = s.ord ∧ (s.dropFar k).red = s.red ∧ (s.dropFar k).mrg = s.mrg ∧ (s.dropFar
    k).dsl = s.dsl ∧ (s.dropFar k).cmb = s.cmb ∧ (s.dropFar k).mods = s.mods ∧ (s.dropFar k).flow = s.flow ∧ (s.dropFar k).streams = s.streams ∧
    (s.dropFar k).ctl = s.ctl ∧ (s.dropFar k).tx = s.tx ∧ (s.dropFar k).rsp = s.rsp ∧ (s.dropFar k).rel = s.rel ∧ (s.dropFar k).mgmtQ = s.mgmtQ
    ∧ (s.dropFar k).plan = s.plan ∧ (s.dropFar k).gapEnd = s.gapEnd ∧ (s.dropFar k).tags = s.tags ∧ (s.dropFar k).trn = s.trn ∧ (s.dropFar
    k).twin = s.twin ∧ (s.dropFar k).hm = s.hm ∧ (s.dropFar k).pwr = s.pwr ∧ (s.dropFar k).ecc = s.ecc ∧ (s.dropFar k).bist = s.bist :=
  ⟨Eq.refl _, Eq.refl _, Eq.refl _, Eq.refl _, Eq.refl _, Eq.refl _, Eq.refl _, Eq.refl _, Eq.refl _, Eq.refl _, Eq.refl _, Eq.refl _, Eq.refl
    _, Eq.refl _, Eq.refl _, Eq.refl _, Eq.refl _, Eq.refl _, Eq.refl _, Eq.refl _, Eq.refl _, Eq.refl _, Eq.refl _, Eq.refl _, Eq.refl _,
    Eq.refl _, Eq.refl _, Eq.refl _, Eq.refl _, Eq.refl _, Eq.refl _, Eq.refl _, Eq.refl _, Eq.refl _, Eq.refl _, Eq.refl _, Eq.refl _, Eq.refl
    _, Eq.refl _, Eq.refl _, Eq.refl _, Eq.refl _⟩

/-! ## A read after a write -/

@[simp] theorem State.rg_setRg_same (s : State) (off : Nat) (v : W32) : (s.setRg off v).rg off = v :=
  spFind_spPut_same _ _ _ _

theorem State.rg_setRg_other (s : State) {off i : Nat} (v : W32) (h : off ≠ i) : (s.setRg off v).rg i = s.rg i := by
  simp [State.rg, State.setRg, spFind_spPut_other _ _ v h]

@[simp] theorem State.sh_setSh_same (s : State) (off : Nat) (v : W32) : (s.setSh off v).sh off = v :=
  spFind_spPut_same _ _ _ _

theorem State.sh_setSh_other (s : State) {off i : Nat} (v : W32) (h : off ≠ i) : (s.setSh off v).sh i = s.sh i := by
  simp [State.sh, State.setSh, spFind_spPut_other _ _ v h]

@[simp] theorem State.mod_setMod_same (s : State) (m : Nat) (x : Mod) : (s.setMod m x).mod m = x := spGet_spPut_same _ _ _ _

theorem State.mod_setMod_other (s : State) {m k : Nat} (x : Mod) (h : m ≠ k) : (s.setMod m x).mod k = s.mod k :=
  spGet_spPut_other _ _ _ x h

@[simp] theorem State.mod_updMod_same (s : State) (m : Nat) (f : Mod → Mod) : (s.updMod m f).mod m = f (s.mod m) :=
  spGet_spPut_same _ _ _ _

theorem State.mod_updMod_other (s : State) {m k : Nat} (f : Mod → Mod) (h : m ≠ k) : (s.updMod m f).mod k = s.mod k :=
  spGet_spPut_other _ _ _ _ h

@[simp] theorem State.strm_updStrm_same (s : State) (n : Nat) (f : Stream → Stream) : (s.updStrm n f).strm n = f (s.strm n) :=
  spGet_spPut_same _ _ _ _

@[simp] theorem State.tc_updTc_same (s : State) (c : Nat) (f : Flow → Flow) : (s.updTc c f).tc c = f (s.tc c) :=
  spGet_spPut_same _ _ _ _

@[simp] theorem State.evc_setEvc_same (s : State) (n : Nat) (v : W64) : (s.setEvc n v).evc n = v := spGet_spPut_same _ _ _ _

theorem State.evc_setEvc_other (s : State) {n k : Nat} (v : W64) (h : n ≠ k) : (s.setEvc n v).evc k = s.evc k :=
  spGet_spPut_other _ _ _ v h

/-- g0 reads as zero. -/
@[simp] theorem State.greg_zero (s : State) : s.greg 0 = 0 := if_pos (Eq.refl _)

theorem State.greg_setGreg_same (s : State) (n : Nat) (v : W64) : (s.setGreg n v).greg n = if n = 0 then 0 else v := by
  by_cases h : n = 0
  · simp [h]
  · simp [State.setGreg, State.greg, h]

theorem State.greg_setGreg_other (s : State) {n k : Nat} (v : W64) (h : n ≠ k) : (s.setGreg n v).greg k = s.greg k := by
  unfold State.setGreg State.greg
  split
  · rfl
  · split
    · rfl
    · exact spGet_spPut_other _ _ _ v h

@[simp] theorem State.tag_setTag_same (s : State) (e : Nat) (t : Tag) : (s.setTag e t).tag e = t := spGet_spPut_same _ _ _ _

@[simp] theorem State.rf_setRg_same (s : State) (off : Nat) (v : W32) (hi lo : Nat) : (s.setRg off v).rf off hi lo = fld v hi lo := by
  simp [State.rf]

end Sys2Proof.Machine
end

