-- ==== Sys2Proof/Laws/Bytes.lean ====
section
/-! SUPPORT. Where bytes go: the write requests of a byte range put exactly its bytes, and joining and cutting the segments of a transfer
moves the same bytes (State.Writes, Piece.path, Piece.puts). -/
namespace Sys2Proof.Machine

theorem putsAt_append (a : Nat) (xs ys : List Byte) : putsAt a (xs ++ ys) = putsAt a xs ++ putsAt (a + xs.length) ys := by
  simp [putsAt, List.mapIdx_append, Nat.add_comm, Nat.add_left_comm]

theorem slice_eq (bs : List Byte) (i n : Nat) (h : i + n ≤ bs.length) : slice bs i n = (bs.drop i).take n := by
  unfold slice; simp; omega

/-- The spans of a range, in order, are the range. -/
theorem spans4k_puts (data : List Byte) (base : Nat) : ∀ fuel addr n, (n = 0 ∨ n + addr % 4096 ≤ 4096 * fuel) → base ≤ addr →
    addr - base + n ≤ data.length →
    (spans4k fuel addr n).flatMap (fun a => putsAt a.1 (slice data (a.1 - base) a.2)) = putsAt addr ((data.drop (addr - base)).take n) ∧
    ∀ a ∈ spans4k fuel addr n, 0 < a.2 ∧ a.1 % 4096 + a.2 ≤ 4096 ∧ base ≤ a.1 ∧ a.1 - base + a.2 ≤ data.length := by
  intro fuel
  induction fuel with
  | zero => intro addr n h _ _; have : n = 0 := by omega
            subst this; simp [spans4k, putsAt]
  | succ fuel ih =>
    intro addr n h hb hl
    unfold spans4k
    by_cases h0 : n = 0
    · simp [h0, putsAt]
    · have hk : 0 < min n (4096 - addr % 4096) := by omega
      simp only [h0, if_false]
      generalize hkk : min n (4096 - addr % 4096) = k at *
      have hk2 : k ≤ n := by omega
      have hm : n - k = 0 ∨ n - k + (addr + k) % 4096 ≤ 4096 * fuel := by omega
      obtain ⟨e, f⟩ := ih (addr + k) (n - k) hm (by omega) (by omega)
      constructor
      · rw [List.flatMap_cons, e, slice_eq _ _ _ (by omega)]
        have : (data.drop (addr - base)).take n = ((data.drop (addr - base)).take k) ++ ((data.drop (addr + k - base)).take (n - k)) := by
          have hh : addr + k - base = (addr - base) + k := by omega
          have e : (data.drop (addr - base)).take n = (data.drop (addr - base)).take (k + (n - k)) := by rw [Nat.add_sub_cancel' hk2]
          rw [hh, ← List.drop_drop, e, List.take_add]
        rw [this, putsAt_append]
        congr 2
        simp; omega
      · intro a ha
        simp only [List.mem_cons] at ha
        rcases ha with rfl | ha
        · exact ⟨hk, by simp; omega, hb, by simp; omega⟩
        · exact f a ha

theorem State.Writes.refl (s : State) : s.Writes s [] := ⟨[], by simp⟩

theorem State.Writes.trans {s u t : State} {a b : List (Nat × Byte)} (h : s.Writes u a) (k : u.Writes t b) : s.Writes t (a ++ b) := by
  obtain ⟨ws, e, f, g⟩ := h
  obtain ⟨vs, e', f', g'⟩ := k
  refine ⟨ws ++ vs, by simp [e, e'], by simp [f, f'], ?_⟩
  intro w hw
  rcases List.mem_append.1 hw with hw | hw
  · exact g w hw
  · exact g' w hw

theorem State.Writes.of_wrq {s u t : State} {a : List (Nat × Byte)} (h : s.Writes u a) (e : t.wrq = u.wrq) : s.Writes t a := by
  obtain ⟨ws, e', f⟩ := h
  exact ⟨ws, e.trans e', f⟩

theorem State.Writes.from_wrq {s u t : State} {a : List (Nat × Byte)} (h : u.Writes t a) (e : u.wrq = s.wrq) : s.Writes t a := by
  obtain ⟨ws, e', f⟩ := h
  exact ⟨ws, by rw [e', e], f⟩

theorem State.each_writes {α : Type} (f : State → α → State) (g : α → List (Nat × Byte)) (xs : List α)
    (h : ∀ s : State, ∀ x ∈ xs, s.Writes (f s x) (g x)) : ∀ s : State, s.Writes (s.each xs f) (xs.flatMap g) := by
  induction xs with
  | nil => intro s; exact .refl s
  | cons x xs ih =>
    intro s
    show s.Writes ((f s x).each xs f) _
    rw [List.flatMap_cons]
    exact (h s x (by simp)).trans (ih (fun s y hy => h s y (by simp [hy])) _)

theorem State.write1_writes (s : State) (own : WrOwner) (st : Option Nat) (ord addr : Nat) (data : List Byte) (psn : Bool)
    (h : 0 < data.length ∧ addr % 4096 + data.length ≤ 4096) : s.Writes (s.write1 own st ord addr data psn) (putsAt addr data) :=
  ⟨[_], rfl, by simp [WrReq.puts], by simp; exact h⟩

theorem State.writeMem_writes (s : State) (own : WrOwner) (st : Option Nat) (ord addr : Nat) (data : List Byte) (psn : Bool) :
    s.Writes (s.writeMem own st ord addr data psn) (putsAt addr data) := by
  have h := spans4k_puts data addr (data.length / 4096 + 2) addr data.length (by omega) (by omega) (by omega)
  have e := State.each_writes (fun s a => s.write1 own st ord a.1 (slice data (a.1 - addr) a.2) psn)
    (fun a => putsAt a.1 (slice data (a.1 - addr) a.2)) (reqSpans addr data.length) (by
      intro s x hx
      obtain ⟨h1, h2, h3, h4⟩ := h.2 x hx
      apply State.write1_writes
      rw [slice_eq _ _ _ h4]; simp; omega) s
  unfold reqSpans at e
  rw [h.1] at e
  simpa [State.writeMem, reqSpans] using e

theorem State.opWrite_writes (s : State) (tag addr : Nat) (data : List Byte) (psn : Bool) :
    s.Writes (s.opWrite tag addr data psn) (putsAt addr data) := by
  unfold State.opWrite
  exact (State.writeMem_writes ..).of_wrq rfl

/-- A literal piece whose bytes are as many as it says. -/
def LitOk (p : Piece) : Prop := ∃ bs, p.lit = some bs ∧ p.len = bs.length

theorem range_add_map {β : Type} (f : Nat → β) (a b : Nat) :
    (List.range (a + b)).map f = (List.range a).map f ++ (List.range b).map fun k => f (a + k) := by
  rw [List.range_add, List.map_append, List.map_map]; rfl

theorem joinSeg_path {p q r : Piece} (h : joinSeg p q = some r) (hp : p.lit = none) (hq : q.lit = none) :
    r.path = p.path ++ q.path ∧ r.lit = none := by
  unfold joinSeg at h
  split at h
  · cases h
  · rename_i hc
    simp only [hp, hq] at h
    split at h
    · rename_i h2
      cases h
      refine ⟨?_, by simp⟩
      simp at hc h2
      obtain ⟨⟨e1, e2⟩, e3⟩ := hc
      simp only [Piece.path, range_add_map]
      congr 1
      apply List.map_congr_left
      intro k _
      simp [← e1, ← e2, ← h2.1, ← h2.2, Nat.add_assoc]
    · cases h

theorem joinSeg_puts {p q r : Piece} (h : joinSeg p q = some r) (hp : LitOk p) (hq : LitOk q) :
    r.puts = p.puts ++ q.puts ∧ LitOk r ∧ r.ddie = p.ddie ∧ q.ddie = p.ddie := by
  obtain ⟨a, ha, la⟩ := hp
  obtain ⟨b, hb, lb⟩ := hq
  unfold joinSeg at h
  split at h
  · cases h
  · rename_i hc
    simp only [ha, hb] at h
    cases h
    simp at hc
    obtain ⟨⟨e1, e2⟩, e3⟩ := hc
    refine ⟨?_, ⟨a ++ b, rfl, by simp [la, lb]⟩, rfl, e1.symm⟩
    simp [Piece.puts, ha, hb, putsAt_append, ← e2, la]

theorem joinSegs_path (ps : List Piece) (h : ∀ p ∈ ps, p.lit = none) :
    (joinSegs ps).flatMap Piece.path = ps.flatMap Piece.path ∧ ∀ p ∈ joinSegs ps, p.lit = none := by
  induction ps with
  | nil => simp [joinSegs]
  | cons p ps ih =>
    obtain ⟨e, f⟩ := ih fun q hq => h q (by simp [hq])
    have hp := h p (by simp)
    unfold joinSegs
    split
    · rename_i e2; rw [e2] at e f; simp at e ⊢; exact ⟨fun x hx => (e x hx), hp⟩
    · rename_i q qs e2
      rw [e2] at e f
      split
      · rename_i r hr
        obtain ⟨k1, k2⟩ := joinSeg_path hr hp (f q (by simp))
        constructor
        · rw [List.flatMap_cons, k1, List.flatMap_cons, ← e, List.flatMap_cons, List.append_assoc]
        · intro x hx; rcases List.mem_cons.1 hx with rfl | hx
          · exact k2
          · exact f x (by simp [hx])
      · constructor
        · rw [List.flatMap_cons, e, List.flatMap_cons]
        · intro x hx; rcases List.mem_cons.1 hx with rfl | hx
          · exact hp
          · exact f x hx

theorem joinSegs_puts (P : Piece → Bool) (hP : ∀ p q : Piece, p.ddie = q.ddie → P p = P q) (ps : List Piece) (h : ∀ p ∈ ps, LitOk p) :
    ((joinSegs ps).filter P).flatMap Piece.puts = (ps.filter P).flatMap Piece.puts ∧ ∀ p ∈ joinSegs ps, LitOk p ∧ ∃ q ∈ ps, p.ddie = q.ddie := by
  induction ps with
  | nil => simp [joinSegs]
  | cons p ps ih =>
    obtain ⟨e, f⟩ := ih fun q hq => h q (by simp [hq])
    have hp := h p (by simp)
    unfold joinSegs
    split
    · rename_i e2; rw [e2] at e f
      refine ⟨?_, fun x hx => by simp at hx; subst hx; exact ⟨hp, x, by simp⟩⟩
      cases hpp : P p <;> simp_all
    · rename_i q qs e2
      rw [e2] at e f
      split
      · rename_i r hr
        obtain ⟨k1, k2, k3, k4⟩ := joinSeg_puts hr hp (f q (by simp)).1
        constructor
        · have e1 := hP r p k3
          have e3 := hP q p k4
          rw [List.filter_cons] at e ⊢
          rw [List.filter_cons, e1]
          rw [e3] at e
          split
          · rename_i t; simp [t] at e; rw [List.flatMap_cons, k1, List.flatMap_cons, ← e, List.append_assoc]
          · rename_i t; simp [t] at e; exact e
        · intro x hx; rcases List.mem_cons.1 hx with rfl | hx
          · exact ⟨k2, p, by simp, k3⟩
          · obtain ⟨a, b, c, d⟩ := f x (by simp [hx]); exact ⟨a, b, by simp [c], d⟩
      · constructor
        · have k : ∀ xs : List Piece, ((p :: xs).filter P).flatMap Piece.puts =
              (if P p then p.puts else []) ++ (xs.filter P).flatMap Piece.puts := by
            intro xs; rw [List.filter_cons]; split <;> simp
          rw [k, k, e]
        · intro x hx; rcases List.mem_cons.1 hx with rfl | hx
          · exact ⟨hp, x, by simp⟩
          · obtain ⟨a, b, c, d⟩ := f x hx; exact ⟨a, b, by simp [c], d⟩

/-- What one cut leaves to do: fewer cuts are left than before. -/
theorem cut_left (len a b most k fuel : Nat) (hm : 4088 ≤ most)
    (hf : len = 0 ∨ 1 + (a % 4096 + len) / 4096 + (b % 4096 + len) / 4096 + len / 4088 ≤ fuel + 1)
    (hk : k = min (min (min len most) (4096 - b % 4096)) (4096 - a % 4096)) :
    len - k = 0 ∨ 1 + ((a + k) % 4096 + (len - k)) / 4096 + ((b + k) % 4096 + (len - k)) / 4096 + (len - k) / 4088 ≤ fuel := by
  have h1 : a % 4096 + k ≤ 4096 := by omega
  have h2 : b % 4096 + k ≤ 4096 := by omega
  have ea : (a + k) % 4096 = if a % 4096 + k = 4096 then 0 else a % 4096 + k := by split <;> omega
  have eb : (b + k) % 4096 = if b % 4096 + k = 4096 then 0 else b % 4096 + k := by split <;> omega
  rw [ea, eb]
  by_cases hl : k = len
  · omega
  · split <;> split <;> omega

theorem cutSeg_path (most : Nat) (hm : 4088 ≤ most) : ∀ fuel (p : Piece), p.lit = none →
    (p.len = 0 ∨ 1 + (p.saddr % 4096 + p.len) / 4096 + (p.daddr % 4096 + p.len) / 4096 + p.len / 4088 ≤ fuel) →
    (cutSeg most fuel p).flatMap Piece.path = p.path ∧
    ∀ q ∈ cutSeg most fuel p, 0 < q.len ∧ q.len ≤ most ∧ q.saddr % 4096 + q.len ≤ 4096 ∧ q.daddr % 4096 + q.len ≤ 4096 ∧ q.lit = none := by
  intro fuel
  induction fuel with
  | zero => intro p _ h; have : p.len = 0 := by omega
            simp [cutSeg, Piece.path, this]
  | succ fuel ih =>
    intro p hp h
    unfold cutSeg
    by_cases h0 : p.len = 0
    · simp [h0, Piece.path]
    · simp only [h0, if_false, hp, Option.isSome_none, Bool.false_eq_true, Option.map_none]
      generalize hk : min (min (min p.len most) (4096 - p.daddr % 4096)) (4096 - p.saddr % 4096) = k
      obtain ⟨e, f⟩ := ih { p with saddr := p.saddr + k, daddr := p.daddr + k, len := p.len - k, lit := none } rfl
        (cut_left p.len p.saddr p.daddr most k fuel hm h hk.symm)
      constructor
      · rw [List.flatMap_cons, e]
        have hl : p.len = k + (p.len - k) := by omega
        simp only [Piece.path]
        conv => rhs; rw [hl, range_add_map]
        simp [Nat.add_assoc]
      · intro q hq; rcases List.mem_cons.1 hq with rfl | hq
        · dsimp only; exact ⟨by omega, by omega, by omega, by omega, rfl⟩
        · exact f q hq

theorem cutSeg_puts (most : Nat) (hm : 4088 ≤ most) : ∀ fuel (p : Piece), LitOk p →
    (p.len = 0 ∨ 1 + (0 % 4096 + p.len) / 4096 + (p.daddr % 4096 + p.len) / 4096 + p.len / 4088 ≤ fuel) →
    (cutSeg most fuel p).flatMap Piece.puts = p.puts ∧
    ∀ q ∈ cutSeg most fuel p, 0 < q.len ∧ q.len ≤ most ∧ q.daddr % 4096 + q.len ≤ 4096 ∧ q.ddie = p.ddie ∧ LitOk q := by
  intro fuel
  induction fuel with
  | zero => intro p ⟨bs, hb, hl⟩ h; have h0 : p.len = 0 := by omega
            have : bs = [] := List.length_eq_zero_iff.1 (hl ▸ h0)
            simp [cutSeg, Piece.puts, hb, this, putsAt]
  | succ fuel ih =>
    intro p ⟨bs, hb, hl⟩ h
    unfold cutSeg
    by_cases h0 : p.len = 0
    · have : bs = [] := List.length_eq_zero_iff.1 (hl ▸ h0)
      simp [h0, Piece.puts, hb, this, putsAt]
    · simp only [h0, if_false, hb, Option.isSome_some, if_true, Option.map_some]
      generalize hk : min (min p.len most) (4096 - p.daddr % 4096) = k
      have hk2 : k ≤ p.len := by omega
      obtain ⟨e, f⟩ := ih { p with saddr := p.saddr + k, daddr := p.daddr + k, len := p.len - k, lit := some (bs.drop k) } ⟨_, rfl, by simp [hl]⟩
        (by dsimp only; by_cases hl : p.len - k = 0
            · exact .inl hl
            · right; omega)
      constructor
      · rw [List.flatMap_cons, e]
        simp only [Piece.puts, hb, Option.getD_some]
        conv => rhs; rw [← List.take_append_drop k bs, putsAt_append]
        simp [List.length_take, ← hl, Nat.min_eq_left hk2]
      · intro q hq; rcases List.mem_cons.1 hq with rfl | hq
        · exact ⟨by dsimp only; omega, by dsimp only; omega, by dsimp only; omega, rfl, _, rfl, by simp [← hl, Nat.min_eq_left hk2]⟩
        · exact f q hq

/-- Cutting moves the same bytes, in pieces that the messages can carry (R235). -/
theorem cutSegs_path (most : Nat) (hm : 4088 ≤ most) (ps : List Piece) (h : ∀ p ∈ ps, p.lit = none) :
    (cutSegs most ps).flatMap Piece.path = ps.flatMap Piece.path ∧
    ∀ q ∈ cutSegs most ps, 0 < q.len ∧ q.len ≤ most ∧ q.saddr % 4096 + q.len ≤ 4096 ∧ q.daddr % 4096 + q.len ≤ 4096 ∧ q.lit = none := by
  obtain ⟨e, f⟩ := joinSegs_path ps h
  have g := fun p hp => cutSeg_path most hm (p.len / 512 + 4) p (f p hp) (by right; omega)
  unfold cutSegs
  constructor
  · rw [List.flatMap_assoc, ← e]
    generalize joinSegs ps = xs at g
    induction xs with
    | nil => rfl
    | cons x xs ih => rw [List.flatMap_cons, List.flatMap_cons, (g x (by simp)).1, ih fun p hp => g p (by simp [hp])]
  · intro q hq
    obtain ⟨p, hp, hq⟩ := List.mem_flatMap.1 hq
    exact (g p hp).2 q hq

/-- Cutting what the engine made puts the same bytes, die by die. -/
theorem cutSegs_puts (most : Nat) (hm : 4088 ≤ most) (P : Piece → Bool) (hP : ∀ p q : Piece, p.ddie = q.ddie → P p = P q)
    (ps : List Piece) (h : ∀ p ∈ ps, LitOk p) :
    ((cutSegs most ps).filter P).flatMap Piece.puts = (ps.filter P).flatMap Piece.puts ∧
    ∀ q ∈ cutSegs most ps, 0 < q.len ∧ q.len ≤ most ∧ q.daddr % 4096 + q.len ≤ 4096 ∧ LitOk q ∧ ∃ p ∈ ps, q.ddie = p.ddie := by
  obtain ⟨e, f⟩ := joinSegs_puts P hP ps h
  have g := fun p hp => cutSeg_puts most hm (p.len / 512 + 4) p (f p hp).1 (by right; omega)
  unfold cutSegs
  constructor
  · rw [← e]
    generalize joinSegs ps = xs at g
    induction xs with
    | nil => rfl
    | cons x xs ih =>
      have gx := g x (by simp)
      have hx : ((cutSeg most (x.len / 512 + 4) x).filter P).flatMap Piece.puts = if P x then x.puts else [] := by
        cases hp : P x
        · rw [List.filter_eq_nil_iff.2]; · simp
          intro q hq; rw [hP q x (gx.2 q hq).2.2.2.1, hp]; simp
        · rw [List.filter_eq_self.2]; · simpa using gx.1
          intro q hq; rw [hP q x (gx.2 q hq).2.2.2.1, hp]
      rw [List.flatMap_cons, List.filter_append, List.flatMap_append, hx, ih fun p hp => g p (by simp [hp]), List.filter_cons]
      split <;> simp
  · intro q hq
    obtain ⟨p, hp, hq⟩ := List.mem_flatMap.1 hq
    obtain ⟨a, b, c, d, e⟩ := (g p hp).2 q hq
    obtain ⟨k, hk, hd⟩ := (f p hp).2
    exact ⟨a, b, c, e, k, hk, by rw [d, hd]⟩

end Sys2Proof.Machine
end

