-- ==== Sys2Proof/Laws/Kept.lean ====
section
/-! SUPPORT. What one state keeps of another: the environment, the queue, and the invariant of Safety.lean. Every operation of the model that
is not a reset and not the fuse read keeps them (Laws/Frames.lean), so that no proof about a step unfolds a meaning for them. -/
namespace Sys2Proof.Machine

/-- t has the environment and the queue of s, and the invariant if s has it. -/
structure Kept (s t : State) : Prop where
  env : t.env = s.env
  pending : t.pending = s.pending
  inv : s.Inv → t.Inv

theorem Kept.rfl {s : State} : Kept s s := ⟨Eq.refl _, Eq.refl _, id⟩

theorem Kept.trans {s t u : State} (h : Kept s t) (k : Kept t u) : Kept s u :=
  ⟨k.env.trans h.env, k.pending.trans h.pending, fun i => k.inv (h.inv i)⟩

/-- Fields of which neither the environment, the queue nor the invariant speaks may change. -/
theorem Kept.upd {s t : State} (h : Kept s t)
    {free out calDirty hits cc portRd portWr merge commit digOld digAt pendOld pendAt digestAt digPrev tick seq ops far rdq wrq wd xtx
      cfgq ord calTick calClr credAt credLast credDue flowLast flowDue d1 d2 ctl rr tx rsp transit mgmtQ mgmtRx rel owed nextFlit slipN
      slipMax lateFlits plan planRun gapEnd fills fillWait recOps rdecs ackWait flushSet trn twin hm pwr ecc bist}
    (hpc : seq.pc = t.seq.pc) (hst : seq.stack = t.seq.stack) :
    Kept s (State.mk t.pending t.env free out t.upset t.regs t.shadow calDirty hits cc portRd portWr merge commit digOld digAt pendOld pendAt
      digestAt digPrev tick seq t.pm t.g t.scratch t.td t.ev ops far rdq wrq wd xtx cfgq ord calTick calClr t.red t.mrg t.dsl t.cmb t.mods
      t.flow credAt credLast credDue flowLast flowDue d1 d2 ctl t.streams rr tx rsp transit mgmtQ mgmtRx rel owed nextFlit slipN
      slipMax lateFlits plan planRun gapEnd t.tags fills fillWait recOps rdecs ackWait flushSet trn twin hm pwr ecc bist) :=
  h.trans ⟨Eq.refl _, Eq.refl _, fun ⟨⟨h1, h2, h3, h4, h5, h6, h7, h8, h9, h10, h11, h12, h13, h14, h15, h16⟩, ⟨h17, h18⟩, h19⟩ =>
    ⟨⟨h1, h2, h3, h4, h5, h6, h7, h8, h9, h10, h11, h12, h13, h14, h15, h16⟩,
      ⟨by rw [hpc]; exact h17, by rw [hst]; exact h18⟩, h19⟩⟩

/-- A pair's state. -/
theorem Kept.of_snd {α : Type} {s t : State} {p : α × State} {a : α} (h : p = (a, t)) (k : Kept s p.2) : Kept s t := by
  subst h; exact k

/-- A triple's state. -/
theorem Kept.of_snd2 {α β : Type} {s t : State} {p : α × β × State} {a : α} {b : β} (h : p = (a, b, t)) (k : Kept s p.2.2) :
    Kept s t := by subst h; exact k

theorem Kept.of_getD {s u : State} {o : Option State} (h : ∀ t, o = some t → Kept s t) (k : Kept s u) : Kept s (o.getD u) := by
  cases o with
  | none => exact k
  | some t => exact h t (Eq.refl _)

theorem State.when_kept (s : State) (c : Bool) (f : State → State) (h : Kept s (f s)) : Kept s (s.when c f) := by
  unfold State.when; split
  · exact h
  · exact .rfl

theorem Kept.foldl {α : Type} {f : State → α → State} (xs : List α) (s : State) (h : ∀ t x, Kept t (f t x)) : Kept s (xs.foldl f s) := by
  induction xs generalizing s with
  | nil => exact .rfl
  | cons x xs ih => exact (h s x).trans (ih _)

theorem State.each_kept {α : Type} (s : State) (xs : List α) (f : State → α → State) (h : ∀ t x, Kept t (f t x)) :
    Kept s (s.each xs f) := Kept.foldl xs s h

/-- A command on a live block answers a next state. -/
theorem live_kept (s : State) (f : State → State) (h : Kept s (f s)) : ∃ t, live s f = .next t ∧ Kept s t := by
  unfold live; split
  · exact ⟨s, Eq.refl _, .rfl⟩
  · exact ⟨f s, Eq.refl _, h⟩

/-- A well-formed command on a live block answers a next state. -/
theorem liveWf_kept (ok : Bool) (s : State) (f : State → State) (hok : ok = true) (h : Kept s (f s)) :
    ∃ t, liveWf ok s f = .next t ∧ Kept s t := by
  subst hok; exact live_kept s f h

/-- A request of the configuration port answers a next state. -/
theorem portTake_kept (s : State) (f : State → State) (h : Kept s (f s)) : ∃ t, portTake s f = .next t ∧ Kept s t := by
  unfold portTake; split
  · exact ⟨f s, Eq.refl _, h⟩
  · exact ⟨s, Eq.refl _, .rfl⟩

/-- A port write of one register answers a next state. -/
theorem portCmd_kept (s : State) (f : State → State) (h : ∀ t, Kept t (f t)) : ∃ t, portCmd s f = .next t ∧ Kept s t := by
  have ha : Kept s s.accessed := Kept.upd .rfl (Eq.refl _) (Eq.refl _)
  exact portTake_kept _ _ (Kept.upd (ha.trans (h _)) (Eq.refl _) (Eq.refl _))

/-- A well-formed port write of a numbered register answers a next state. -/
theorem portCmdWf_kept (ok : Bool) (s : State) (f : State → State) (hok : ok = true) (h : ∀ t, Kept t (f t)) :
    ∃ t, portCmdWf ok s f = .next t ∧ Kept s t := by
  subst hok; exact portCmd_kept s f h

/-! ## The writers of the maps -/

theorem State.setRg_kept (s : State) (off : Nat) (v : W32) : Kept s (s.setRg off v) :=
  ⟨Eq.refl _, Eq.refl _, fun ⟨⟨h1, h2, h3, h4, h5, h6, h7, h8, h9, h10, h11, h12, h13, h14, h15, h16⟩, ⟨h17, h18⟩, h19⟩ =>
    ⟨⟨spWf_spPut _ _ (Eq.refl _) h1, h2, h3, h4, h5, h6, h7, h8, h9, h10, h11, h12, h13, h14, h15, h16⟩, ⟨h17, h18⟩, h19⟩⟩

theorem State.setSh_kept (s : State) (off : Nat) (v : W32) : Kept s (s.setSh off v) :=
  ⟨Eq.refl _, Eq.refl _, fun ⟨⟨h1, h2, h3, h4, h5, h6, h7, h8, h9, h10, h11, h12, h13, h14, h15, h16⟩, ⟨h17, h18⟩, h19⟩ =>
    ⟨⟨h1, spWf_spPut _ _ (Eq.refl _) h2, h3, h4, h5, h6, h7, h8, h9, h10, h11, h12, h13, h14, h15, h16⟩, ⟨h17, h18⟩, h19⟩⟩

theorem State.setMod_kept (s : State) (m : Nat) (x : Mod) : Kept s (s.setMod m x) :=
  ⟨Eq.refl _, Eq.refl _, fun ⟨⟨h1, h2, h3, h4, h5, h6, h7, h8, h9, h10, h11, h12, h13, h14, h15, h16⟩, ⟨h17, h18⟩, h19⟩ =>
    ⟨⟨h1, h2, h3, h4, h5, h6, h7, h8, spWf_spPut _ _ (Eq.refl _) h9, h10, h11, h12, h13, h14, h15, h16⟩, ⟨h17, h18⟩, h19⟩⟩

theorem State.updStrm_kept (s : State) (n : Nat) (f : Stream → Stream) : Kept s (s.updStrm n f) :=
  ⟨Eq.refl _, Eq.refl _, fun ⟨⟨h1, h2, h3, h4, h5, h6, h7, h8, h9, h10, h11, h12, h13, h14, h15, h16⟩, ⟨h17, h18⟩, h19⟩ =>
    ⟨⟨h1, h2, h3, h4, h5, h6, h7, h8, h9, h10, spWf_spPut _ _ (Eq.refl _) h11, h12, h13, h14, h15, h16⟩, ⟨h17, h18⟩, h19⟩⟩

theorem State.updTc_kept (s : State) (c : Nat) (f : Flow → Flow) : Kept s (s.updTc c f) :=
  ⟨Eq.refl _, Eq.refl _, fun ⟨⟨h1, h2, h3, h4, h5, h6, h7, h8, h9, h10, h11, h12, h13, h14, h15, h16⟩, ⟨h17, h18⟩, h19⟩ =>
    ⟨⟨h1, h2, h3, h4, h5, h6, h7, h8, h9, spWf_spPut _ _ (Eq.refl _) h10, h11, h12, h13, h14, h15, h16⟩, ⟨h17, h18⟩, h19⟩⟩

theorem State.setEvc_kept (s : State) (n : Nat) (v : W64) : Kept s (s.setEvc n v) :=
  ⟨Eq.refl _, Eq.refl _, fun ⟨⟨h1, h2, h3, h4, h5, h6, h7, h8, h9, h10, h11, h12, h13, h14, h15, h16⟩, ⟨h17, h18⟩, h19⟩ =>
    ⟨⟨h1, h2, h3, h4, h5, h6, spWf_spPut _ _ (Eq.refl _) h7, h8, h9, h10, h11, h12, h13, h14, h15, h16⟩, ⟨h17, h18⟩, h19⟩⟩

theorem State.setTag_kept (s : State) (e : Nat) (t : Tag) : Kept s (s.setTag e t) :=
  ⟨Eq.refl _, Eq.refl _, fun ⟨⟨h1, h2, h3, h4, h5, h6, h7, h8, h9, h10, h11, h12, h13, h14, h15, h16⟩, ⟨h17, h18⟩, h19⟩ =>
    ⟨⟨h1, h2, h3, h4, h5, h6, h7, h8, h9, h10, h11, spWf_spPut _ _ (Eq.refl _) h12, h13, h14, h15, h16⟩, ⟨h17, h18⟩, h19⟩⟩

theorem State.setDsl_kept (s : State) (d : Nat) (x : Dsl) : Kept s (s.setDsl d x) :=
  ⟨Eq.refl _, Eq.refl _, fun ⟨⟨h1, h2, h3, h4, h5, h6, h7, h8, h9, h10, h11, h12, h13, h14, h15, h16⟩, ⟨h17, h18⟩, h19⟩ =>
    ⟨⟨h1, h2, h3, h4, h5, h6, h7, h8, h9, h10, h11, h12, h13, h14, spWf_spPut _ _ (Eq.refl _) h15, h16⟩, ⟨h17, h18⟩, h19⟩⟩

theorem State.setRed_kept (s : State) (r : Nat) (x : Red) : Kept s (s.setRed r x) :=
  ⟨Eq.refl _, Eq.refl _, fun ⟨⟨h1, h2, h3, h4, h5, h6, h7, h8, h9, h10, h11, h12, h13, h14, h15, h16⟩, ⟨h17, h18⟩, h19⟩ =>
    ⟨⟨h1, h2, h3, h4, h5, h6, h7, h8, h9, h10, h11, h12, spWf_spPut _ _ (Eq.refl _) h13, h14, h15, h16⟩, ⟨h17, h18⟩, h19⟩⟩

theorem State.setMrg_kept (s : State) (n : Nat) (x : Mrg) : Kept s (s.setMrg n x) :=
  ⟨Eq.refl _, Eq.refl _, fun ⟨⟨h1, h2, h3, h4, h5, h6, h7, h8, h9, h10, h11, h12, h13, h14, h15, h16⟩, ⟨h17, h18⟩, h19⟩ =>
    ⟨⟨h1, h2, h3, h4, h5, h6, h7, h8, h9, h10, h11, h12, h13, spWf_spPut _ _ (Eq.refl _) h14, h15, h16⟩, ⟨h17, h18⟩, h19⟩⟩

theorem State.setCmb_kept (s : State) (d : Nat) (x : Cmb) : Kept s (s.setCmb d x) :=
  ⟨Eq.refl _, Eq.refl _, fun ⟨⟨h1, h2, h3, h4, h5, h6, h7, h8, h9, h10, h11, h12, h13, h14, h15, h16⟩, ⟨h17, h18⟩, h19⟩ =>
    ⟨⟨h1, h2, h3, h4, h5, h6, h7, h8, h9, h10, h11, h12, h13, h14, h15, spWf_spPut _ _ (Eq.refl _) h16⟩, ⟨h17, h18⟩, h19⟩⟩

end Sys2Proof.Machine
end

