-- ==== Sys2Proof/Laws/Frames.lean ====
section
/-! SUPPORT. Every operation that a meaning calls keeps the environment, the queue and the invariant (Kept): one lemma for each, first half. -/
namespace Sys2Proof.Machine

theorem State.setRf_kept (s : State) (off : Nat) (hi : Nat) (lo : Nat) (v : Nat) : Kept s (State.setRf s off hi lo v) := by
  unfold State.setRf
  exact State.setRg_kept ..

theorem State.hit_kept (s : State) (off : Nat) (hi : Nat) (lo : Nat) (n : Nat) : Kept s (State.hit s off hi lo n) := by
  unfold State.hit
  exact Kept.upd .rfl (Eq.refl _) (Eq.refl _)

theorem State.setBit_kept (s : State) (off : Nat) (i : Nat) : Kept s (State.setBit s off i) := by
  unfold State.setBit
  refine .trans ?_ (State.hit_kept ..)
  exact State.setRf_kept ..

theorem State.clrBits_kept (s : State) (off : Nat) (mask : W32) : Kept s (State.clrBits s off mask) := by
  unfold State.clrBits
  exact State.setRg_kept ..

theorem State.setRg64_kept (s : State) (off : Nat) (v : W64) : Kept s (State.setRg64 s off v) := by
  unfold State.setRg64
  refine .trans ?_ (State.setRg_kept ..)
  exact State.setRg_kept ..

theorem State.count_kept (s : State) (off : Nat) (hi : Nat) (lo : Nat) (n : Nat) : Kept s (State.count s off hi lo n) := by
  unfold State.count
  refine .trans ?_ (State.hit_kept ..)
  exact State.setRf_kept ..

theorem State.count32_kept (s : State) (off : Nat) (n : Nat) : Kept s (State.count32 s off n) := by
  unfold State.count32
  exact State.count_kept ..

theorem State.irq_kept (s : State) (n : Nat) : Kept s (State.irq s n) := by
  unfold State.irq
  exact State.setBit_kept ..

theorem State.shadowToActive_kept (s : State) : Kept s (State.shadowToActive s) := by
  unfold State.shadowToActive
  refine .trans ?_ (Kept.foldl _ _ ?_)
  · exact .rfl
  · intro a0 a1
    extract_lets x2
    clear_value x2
    exact State.setRg_kept ..

theorem State.activeToShadow_kept (s : State) : Kept s (State.activeToShadow s) := by
  unfold State.activeToShadow
  refine .trans ?_ (Kept.foldl _ _ ?_)
  · exact .rfl
  · intro a0 a1
    extract_lets x2
    clear_value x2
    exact State.setSh_kept ..

theorem State.emit_kept (s : State) (o : Out) : Kept s (State.emit s o) := by
  unfold State.emit
  exact Kept.upd .rfl (Eq.refl _) (Eq.refl _)

theorem State.draw_kept (s : State) : Kept s (State.draw s).2 := by
  unfold State.draw
  dsimp only
  exact Kept.upd .rfl (Eq.refl _) (Eq.refl _)

theorem State.sendXpt_kept (s : State) (dst : BitVec 3) (u : XptUnit) : Kept s (State.sendXpt s dst u) := by
  unfold State.sendXpt
  exact Kept.upd .rfl (Eq.refl _) (Eq.refl _)

theorem State.cfgAnswer_kept (s : State) (within : Nat) (d : W32) : Kept s (State.cfgAnswer s within d) := by
  unfold State.cfgAnswer
  exact Kept.upd .rfl (Eq.refl _) (Eq.refl _)

theorem State.fresh_kept (s : State) : Kept s (State.fresh s).2 := by
  unfold State.fresh
  dsimp only
  exact Kept.upd .rfl (Eq.refl _) (Eq.refl _)

theorem State.accessed_kept (s : State) : Kept s (State.accessed s) := by
  unfold State.accessed
  exact Kept.upd .rfl (Eq.refl _) (Eq.refl _)

theorem State.bistCut_kept (s : State) : Kept s (State.bistCut s) := by
  unfold State.bistCut
  extract_lets x0 x1
  have hx0 : Kept s x0 := by
    unfold x0
    exact State.count32_kept ..
  clear_value x0 x1
  refine Kept.upd ?_ (Eq.refl _) (Eq.refl _)
  exact hx0

theorem State.bistServe_kept (s : State) (m : Nat) : Kept s (State.bistServe s m) := by
  unfold State.bistServe
  split
  · rename_i y0 y1 y2 y3 y4
    split
    · rename_i y5
      exact State.bistCut_kept ..
    · exact .rfl
  · exact .rfl

theorem State.updMod_kept (s : State) (m : Nat) (f : Mod → Mod) : Kept s (State.updMod s m f) := by
  unfold State.updMod
  exact State.setMod_kept ..

theorem State.protoErr_kept (s : State) : Kept s (State.protoErr s) := by
  unfold State.protoErr
  refine .trans ?_ (State.irq_kept ..)
  refine .trans ?_ (State.setBit_kept ..)
  exact State.count32_kept ..

theorem State.tpErr_kept (s : State) : Kept s (State.tpErr s) := by
  unfold State.tpErr
  exact State.count32_kept ..

theorem State.twinEvent_kept (s : State) (i : Nat) : Kept s (State.twinEvent s i) := by
  unfold State.twinEvent
  refine .trans ?_ (State.irq_kept ..)
  exact State.setBit_kept ..

theorem State.flowCheck_kept (s : State) (c : Nat) : Kept s (State.flowCheck s c) := by
  unfold State.flowCheck
  extract_lets x0 x1 x2 x3 x4
  clear_value x0 x1 x2 x3
  have hx4 : Kept s x4 := by
    unfold x4
    exact State.updTc_kept ..
  clear_value x4
  split
  · rename_i y5
    refine Kept.upd ?_ (Eq.refl _) (Eq.refl _)
    exact hx4
  · exact .rfl

theorem State.grant_kept (s : State) (m : Msg) : Kept s (State.grant s m) := by
  unfold State.grant
  extract_lets x0 x1
  have hx0 : Kept s x0 := by
    unfold x0
    exact State.updTc_kept ..
  clear_value x0
  have hx1 : Kept s x1 := by
    unfold x1
    refine Kept.upd ?_ (Eq.refl _) (Eq.refl _)
    exact hx0
  clear_value x1
  refine .trans ?_ (State.flowCheck_kept ..)
  exact hx1

theorem State.evAdd_kept (s : State) (n : Nat) (amount : Nat) (err : Bool) (psn : Bool) : Kept s (State.evAdd s n amount err psn) := by
  unfold State.evAdd
  extract_lets x0 x1 x2 x3 x4
  clear_value x0 x1 x2
  have hx3 : Kept s x3 := by
    unfold x3
    refine .trans ?_ (State.hit_kept ..)
    exact State.setEvc_kept ..
  clear_value x3
  have hx4 : Kept s x4 := by
    unfold x4
    split
    · rename_i y5
      refine .trans ?_ (State.hit_kept ..)
      exact hx3
    · rename_i y6
      exact hx3
  clear_value x4
  split
  · rename_i y7
    refine .trans ?_ (State.hit_kept ..)
    exact hx4
  · rename_i y8
    exact hx4

theorem State.sendMgmt_kept (s : State) (fn : Nat) (arg : W64) (data : List Byte) : Kept s (State.sendMgmt s fn arg data) := by
  unfold State.sendMgmt
  exact Kept.upd .rfl (Eq.refl _) (Eq.refl _)

theorem State.sendMgmt1_kept (s : State) (fn : Nat) (arg : W64) (data : List Byte) : Kept s (State.sendMgmt1 s fn arg data) := by
  unfold State.sendMgmt1
  refine .trans ?_ (State.sendMgmt_kept ..)
  exact Kept.upd .rfl (Eq.refl _) (Eq.refl _)

theorem State.dropRepair_kept (s : State) (m : Nat) : Kept s (State.dropRepair s m) := by
  unfold State.dropRepair
  refine .trans ?_ (State.updMod_kept ..)
  refine .trans ?_ (State.when_kept _ _ _ ?_)
  · exact .rfl
  · refine .trans ?_ (State.irq_kept ..)
    refine .trans ?_ (State.setBit_kept ..)
    exact State.setRf_kept ..

theorem State.startRetire_kept (s : State) (m : Nat) (byHm : Bool) : Kept s (State.startRetire s m byHm) := by
  unfold State.startRetire
  extract_lets x0 x1 x2 x3
  clear_value x0 x1 x2
  have hx3 : Kept s x3 := by
    unfold x3
    refine .trans ?_ (State.updMod_kept ..)
    exact State.dropRepair_kept ..
  clear_value x3
  split
  · exact .rfl
  · rename_i y5
    refine .trans ?_ (State.sendMgmt_kept ..)
    exact hx3

theorem State.respond_kept (s : State) (m : Msg) : Kept s (State.respond s m) := by
  unfold State.respond
  split
  rename_i y0 y1 y2 y3
  refine Kept.upd ?_ (Eq.refl _) (Eq.refl _)
  refine Kept.of_snd y3 ?_
  exact State.fresh_kept ..

theorem State.updHm_kept (s : State) (f : Hm → Hm) : Kept s (State.updHm s f) := by
  unfold State.updHm
  exact Kept.upd .rfl (Eq.refl _) (Eq.refl _)

theorem State.read1_kept (s : State) (owner : RdOwner) (a : Nat × Nat) : Kept s (State.read1 s owner a) := by
  unfold State.read1
  extract_lets x0 x1
  clear_value x0 x1
  split
  rename_i y2 y3 y4 y5
  refine Kept.upd ?_ (Eq.refl _) (Eq.refl _)
  refine Kept.of_snd y5 ?_
  exact State.fresh_kept ..

theorem State.readMem_kept (s : State) (owner : RdOwner) (addr : Nat) (n : Nat) : Kept s (State.readMem s owner addr n) := by
  unfold State.readMem
  refine .trans ?_ (State.each_kept _ _ _ ?_)
  · exact .rfl
  · intro a0 a1
    exact State.read1_kept ..

theorem State.write1_kept (s : State) (owner : WrOwner) (stream : Option Nat) (ord : Nat) (addr : Nat) (data : List Byte) (psn : Bool) : Kept s
    (State.write1 s owner stream ord addr data psn) := by
  unfold State.write1
  split
  rename_i y0 y1 y2 y3
  extract_lets x4
  clear_value x4
  refine Kept.upd ?_ (Eq.refl _) (Eq.refl _)
  refine Kept.of_snd y3 ?_
  exact State.fresh_kept ..

theorem State.writeMem_kept (s : State) (owner : WrOwner) (stream : Option Nat) (ord : Nat) (addr : Nat) (data : List Byte) (psn : Bool) : Kept s
    (State.writeMem s owner stream ord addr data psn) := by
  unfold State.writeMem
  refine .trans ?_ (State.each_kept _ _ _ ?_)
  · exact .rfl
  · intro a0 a1
    exact State.write1_kept ..

theorem State.setOp_kept (s : State) (o : Op) : Kept s (State.setOp s o) := by
  unfold State.setOp
  exact Kept.upd .rfl (Eq.refl _) (Eq.refl _)

theorem State.updOp_kept (s : State) (tag : Nat) (f : Op → Op) : Kept s (State.updOp s tag f) := by
  unfold State.updOp
  exact Kept.upd .rfl (Eq.refl _) (Eq.refl _)

theorem State.opRead_kept (s : State) (tag : Nat) (addr : Nat) (n : Nat) : Kept s (State.opRead s tag addr n) := by
  unfold State.opRead
  refine .trans ?_ (State.updOp_kept ..)
  exact State.readMem_kept ..

theorem State.opWrite_kept (s : State) (tag : Nat) (addr : Nat) (data : List Byte) (psn : Bool) : Kept s (State.opWrite s tag addr data psn) := by
  unfold State.opWrite
  extract_lets x0
  clear_value x0
  refine .trans ?_ (State.updOp_kept ..)
  exact State.writeMem_kept ..

theorem State.errLog_kept (s : State) (o : Op) : Kept s (State.errLog s o) := by
  unfold State.errLog
  extract_lets x0 x1 x2
  have hx0 : Kept s x0 := by
    unfold x0
    exact State.count32_kept ..
  clear_value x0 x1
  have hx2 : Kept s x2 := by
    unfold x2
    split
    · rename_i y3
      refine .trans ?_ (State.setBit_kept ..)
      exact hx0
    · rename_i y4
      refine .trans ?_ (State.hit_kept ..)
      refine .trans ?_ (State.setRg64_kept ..)
      refine .trans ?_ (State.setRg_kept ..)
      refine .trans ?_ (State.setRg_kept ..)
      exact hx0
  clear_value x2
  split
  · exact .rfl
  · rename_i y6
    refine .trans ?_ (State.when_kept _ _ _ ?_)
    · exact hx2
    · exact State.irq_kept ..

theorem State.freeSlots_kept (s : State) (tag : Nat) : Kept s (s.freeSlots tag) := by
  unfold State.freeSlots
  extract_lets t sat u
  have ht : Kept s t := by
    unfold t
    split
    · exact (State.setRf_kept ..).trans (State.setRf_kept ..)
    · exact .rfl
  clear_value t
  have hu : Kept s u := by
    unfold u
    split
    · extract_lets a c y
      have hc : Kept s c := ht.trans ((State.setRg64_kept ..).trans ((State.count32_kept ..).trans (State.count32_kept ..)))
      clear_value c
      refine hc.trans ?_
      exact ⟨Eq.refl _, Eq.refl _, fun ⟨⟨h1, h2, h3, h4, h5, h6, h7, h8, h9, h10, h11, h12, h13, h14, h15, h16⟩, ⟨h17, h18⟩, h19⟩ =>
        ⟨⟨h1, h2, h3, h4, h5, h6, h7, h8, h9, h10, h11, h12, h13, h14, spWf_spPut _ _ (Eq.refl _) h15, h16⟩, ⟨h17, h18⟩, h19⟩⟩
    · exact ht
  clear_value u
  exact hu.trans ⟨Eq.refl _, Eq.refl _, fun ⟨⟨h1, h2, h3, h4, h5, h6, h7, h8, h9, h10, h11, h12, h13, h14, h15, h16⟩, ⟨h17, h18⟩, h19⟩ =>
    ⟨⟨h1, h2, h3, h4, h5, h6, h7, h8, h9, h10, h11, h12, spWf_filter _ h13, spWf_filter _ h14, h15, spWf_filter _ h16⟩, ⟨h17, h18⟩, h19⟩⟩

theorem State.mtDone_kept (s : State) (o : Op) : Kept s (State.mtDone s o) := by
  unfold State.mtDone
  split
  · exact .rfl
  · rename_i y2 y3 y4
    extract_lets x5
    clear_value x5
    refine .trans ?_ (State.setRg64_kept ..)
    refine .trans ?_ (State.setRg64_kept ..)
    exact State.setRg_kept ..

theorem State.finishOp_kept (s : State) (o : Op) : Kept s (State.finishOp s o) := by
  unfold State.finishOp
  extract_lets x0 x1
  have hx0 : Kept s x0 := by
    unfold x0
    refine .trans ?_ (State.mtDone_kept ..)
    refine .trans ?_ (State.freeSlots_kept ..)
    exact Kept.upd .rfl (Eq.refl _) (Eq.refl _)
  clear_value x0
  have hx1 : Kept s x1 := by
    unfold x1
    refine .trans ?_ (State.when_kept _ _ _ ?_)
    · exact hx0
    · exact State.evAdd_kept ..
  clear_value x1
  split
  · rename_i y2 y3 y4
    refine .trans ?_ (State.emit_kept ..)
    exact hx0
  · rename_i y5 y6
    refine .trans ?_ (State.errLog_kept ..)
    exact hx1

theorem State.finish_kept (s : State) (tag : Nat) : Kept s (State.finish s tag) := by
  unfold State.finish
  split
  · rename_i y0 y1 y2
    exact State.finishOp_kept ..
  · exact .rfl

theorem State.opCheck_kept (s : State) (tag : Nat) : Kept s (State.opCheck s tag) := by
  unfold State.opCheck
  split
  · rename_i y0 y1 y2
    split
    · rename_i y3
      exact State.finishOp_kept ..
    · exact .rfl
  · exact .rfl

theorem State.setFar_kept (s : State) (f : FarOp) : Kept s (State.setFar s f) := by
  unfold State.setFar
  exact Kept.upd .rfl (Eq.refl _) (Eq.refl _)

theorem State.dropFar_kept (s : State) (k : FarKey) : Kept s (State.dropFar s k) := by
  unfold State.dropFar
  exact Kept.upd .rfl (Eq.refl _) (Eq.refl _)

theorem State.takeCompletion_kept (s : State) (tag : Nat) (die : Nat) (st : Nat) (psn : Bool) (ecount : Nat) : Kept s (State.takeCompletion s tag
    die st psn ecount) := by
  unfold State.takeCompletion
  split
  · rename_i y0 y1 y2
    extract_lets x3 x4 x5
    clear_value x3 x4 x5
    split
    · exact .rfl
    · rename_i y7
      refine .trans ?_ (State.opCheck_kept ..)
      exact State.setOp_kept ..
  · exact .rfl

theorem State.farCheck_kept (s : State) (k : FarKey) : Kept s (State.farCheck s k) := by
  unfold State.farCheck
  split
  · exact .rfl
  · rename_i y2 y3 y4
    extract_lets x5
    clear_value x5
    split
    · rename_i y6
      split
      · rename_i y7
        refine .trans ?_ (State.takeCompletion_kept ..)
        exact State.dropFar_kept ..
      · rename_i y8
        refine .trans ?_ (State.respond_kept ..)
        exact State.dropFar_kept ..
    · exact .rfl

theorem State.tel_kept (s : State) (type : Nat) (payload : W64) : Kept s (State.tel s type payload) := by
  unfold State.tel
  extract_lets x0
  clear_value x0
  split
  · rename_i y1
    exact Kept.upd .rfl (Eq.refl _) (Eq.refl _)
  · rename_i y2
    exact State.count32_kept ..

theorem State.eccJudge_kept (s : State) (id : Nat) (n : Nat) (ue : Bool) : Kept s (State.eccJudge s id n ue) := by
  unfold State.eccJudge
  extract_lets x0 x1 x2
  clear_value x0
  have hx1 : Kept s x1 := by
    unfold x1
    exact State.setRf_kept ..
  clear_value x1 x2
  split
  · rename_i y3
    refine Kept.upd ?_ (Eq.refl _) (Eq.refl _)
    exact hx1
  · rename_i y4
    split
    · rename_i y5
      refine .trans ?_ (State.when_kept _ _ _ ?_)
      · refine .trans ?_ (State.setBit_kept ..)
        exact State.setRf_kept ..
      · exact State.irq_kept ..
    · rename_i y6
      split
      · rename_i y7
        exact Kept.upd .rfl (Eq.refl _) (Eq.refl _)
      · exact .rfl

theorem State.eccLog_kept (s : State) (id : Nat) (idx : Nat) (syn : Nat) (ue : Bool) : Kept s (State.eccLog s id idx syn ue) := by
  unfold State.eccLog
  extract_lets x0 x1
  have hx0 : Kept s x0 := by
    unfold x0
    split
    · rename_i y2
      refine .trans ?_ (State.when_kept _ _ _ ?_)
      · refine .trans ?_ (State.setBit_kept ..)
        exact State.count32_kept ..
      · exact State.irq_kept ..
    · rename_i y3
      refine .trans ?_ (State.setBit_kept ..)
      exact State.count32_kept ..
  clear_value x0 x1
  split
  · rename_i y4 y5 y6
    extract_lets x7 x8
    clear_value x7
    have hx8 : Kept s x8 := by
      unfold x8
      refine .trans ?_ (State.setRg64_kept ..)
      refine .trans ?_ (State.setRf_kept ..)
      refine .trans ?_ (State.count_kept ..)
      exact hx0
    clear_value x8
    refine .trans ?_ (State.eccJudge_kept ..)
    exact hx8
  · rename_i y9 y10
    split
    · rename_i y11 y12 y13
      extract_lets x14 x15 x16
      clear_value x14
      have hx15 : Kept s x15 := by
        unfold x15
        refine .trans ?_ (State.setRg_kept ..)
        refine .trans ?_ (State.setRg_kept ..)
        exact hx0
      clear_value x15
      have hx16 : Kept s x16 := by
        unfold x16
        refine .trans ?_ (State.hit_kept ..)
        refine .trans ?_ (State.setRg64_kept ..)
        refine .trans ?_ (State.setRg64_kept ..)
        exact hx15
      clear_value x16
      refine .trans ?_ (State.eccJudge_kept ..)
      exact hx16
    · rename_i y17 y18
      refine .trans ?_ (State.when_kept _ _ _ ?_)
      · refine .trans ?_ (State.setBit_kept ..)
        refine .trans ?_ (State.count32_kept ..)
        exact hx0
      · exact State.irq_kept ..

theorem State.eccRead_kept (s : State) (id : Nat) (idx : Nat) : Kept s (State.eccRead s id idx).2 := by
  unfold State.eccRead
  extract_lets x0
  clear_value x0
  split
  · rename_i y1
    dsimp only
    exact .rfl
  · rename_i y2
    dsimp only
    exact State.eccLog_kept ..

theorem State.eccWritten_kept (s : State) (id idx : Nat) : Kept s (s.eccWritten id idx) := by
  unfold State.eccWritten; split
  · exact .rfl
  · exact ⟨Eq.refl _, Eq.refl _, fun ⟨⟨h1, h2, h3, h4, h5, h6, h7, h8, h9, h10, h11, h12, h13, h14, h15, h16⟩, ⟨h17, h18⟩, h19⟩ =>
      ⟨⟨h1, h2, h3, h4, h5, h6, h7, spWf_spErase _ h8, h9, h10, h11, h12, h13, h14, h15, h16⟩, ⟨h17, h18⟩, h19⟩⟩

theorem State.memHit_kept (s : State) (id : Nat) : Kept s (s.memHit id).2 := by
  unfold State.memHit
  generalize s.upset.filter _ = xs
  have key : ∀ (b : Bool) (t : State), Kept s t → Kept s (xs.foldl (fun (r : Bool × State) e =>
      let (hit, t) := r.2.draw
      if hit then
        let (ue, t) := t.eccRead id (e.1 % 0x1000000)
        (r.1 || ue, t)
      else (r.1, t)) (b, t)).2 := by
    induction xs with
    | nil => exact fun _ _ h => h
    | cons x xs ih =>
      intro b t h
      have hd : Kept s (t.draw).2 := h.trans (State.draw_kept ..)
      rw [List.foldl_cons]
      dsimp only
      split
      · exact ih _ _ (hd.trans (State.eccRead_kept ..))
      · exact ih _ _ hd
  exact key _ _ .rfl

theorem State.eccReads_kept (s : State) (id : Nat) (idxs : List Nat) : Kept s (State.eccReads s id idxs) := by
  unfold State.eccReads
  refine .trans ?_ (State.each_kept _ _ _ ?_)
  · exact .rfl
  · intro a0 a1
    exact State.eccRead_kept ..

theorem State.eccRewriteEntry_kept (s : State) (n : Nat) : Kept s (State.eccRewriteEntry s n) := by
  unfold State.eccRewriteEntry
  extract_lets x0 x1 x2 x3
  clear_value x0
  have hx1 : Kept s x1 := by
    unfold x1
    refine .trans ?_ (State.setBit_kept ..)
    exact State.eccWritten_kept ..
  clear_value x1
  have hx2 : Kept s x2 := by
    unfold x2
    refine .trans ?_ (State.setRf_kept ..)
    exact hx1
  clear_value x2 x3
  refine Kept.upd ?_ (Eq.refl _) (Eq.refl _)
  exact hx2

theorem State.writeScrubCtl_kept (s : State) (d : W32) : Kept s (State.writeScrubCtl s d) := by
  unfold State.writeScrubCtl
  extract_lets x0 x1 x2 x3 x4 x5 x6
  have hx0 : Kept s x0 := by
    unfold x0
    refine .trans ?_ (State.when_kept _ _ _ ?_)
    · exact .rfl
    · exact State.clrBits_kept ..
  clear_value x0
  have hx1 : Kept s x1 := by
    unfold x1
    refine .trans ?_ (State.setRf_kept ..)
    refine .trans ?_ (State.setRf_kept ..)
    exact hx0
  clear_value x1 x2 x3
  have hx4 : Kept s x4 := by
    unfold x4
    refine .trans ?_ (State.setRg_kept ..)
    refine .trans ?_ (State.setRg_kept ..)
    refine .trans ?_ (State.setRg_kept ..)
    exact hx1
  clear_value x4
  have hx5 : Kept s x5 := by
    unfold x5
    refine .trans ?_ (State.setRf_kept ..)
    refine .trans ?_ (State.setRf_kept ..)
    exact hx4
  clear_value x5 x6
  split
  · rename_i y7
    exact hx1
  · rename_i y8
    split
    · rename_i y9
      refine .trans ?_ (State.setBit_kept ..)
      exact hx1
    · rename_i y10
      split
      · rename_i y11
        refine .trans ?_ (State.setRf_kept ..)
        refine .trans ?_ (State.setRf_kept ..)
        exact hx5
      · rename_i y12
        refine Kept.upd ?_ (Eq.refl _) (Eq.refl _)
        exact hx5

theorem State.scrubWord_kept (s : State) (id : Nat) (idx : Nat) : Kept s (State.scrubWord s id idx) := by
  unfold State.scrubWord
  extract_lets x0
  have hx0 : Kept s x0 := by
    unfold x0
    refine .trans ?_ (State.count32_kept ..)
    exact State.eccRead_kept ..
  clear_value x0
  split
  · exact .rfl
  · rename_i y2
    split
    · rename_i y3
      refine .trans ?_ (State.count32_kept ..)
      exact State.eccRead_kept ..
    · rename_i y4
      split
      · rename_i y5 y6 y7
        split
        · rename_i y8
          refine .trans ?_ (State.eccRewriteEntry_kept ..)
          exact hx0
        · rename_i y9
          refine .trans ?_ (State.setBit_kept ..)
          refine .trans ?_ (State.eccWritten_kept ..)
          exact hx0
      · rename_i y10 y11
        refine .trans ?_ (State.setBit_kept ..)
        refine .trans ?_ (State.eccWritten_kept ..)
        exact hx0

theorem State.retireUnit_kept (s : State) (id : Nat) (unit : Nat) : Kept s (State.retireUnit s id unit) := by
  unfold State.retireUnit
  extract_lets x0 x1
  clear_value x0 x1
  split
  · rename_i y2
    split
    · exact .rfl
    · rename_i y4
      exact Kept.upd .rfl (Eq.refl _) (Eq.refl _)
  · rename_i y5
    split
    · exact .rfl
    · rename_i y7
      split
      · rename_i y8
        exact Kept.upd .rfl (Eq.refl _) (Eq.refl _)
      · rename_i y9
        exact State.setBit_kept ..

theorem State.setPmWord_kept (s : State) (i : Nat) (v : W64) : Kept s (s.setPmWord i v) :=
  .trans (t := { s with pm := spPut 0xFFFFFFFFFFFFFFFF s.pm i v })
    ⟨Eq.refl _, Eq.refl _, fun ⟨⟨h1, h2, h3, h4, h5, h6, h7, h8, h9, h10, h11, h12, h13, h14, h15, h16⟩, ⟨h17, h18⟩, h19⟩ =>
      ⟨⟨h1, h2, spWf_spPut _ _ (Eq.refl _) h3, h4, h5, h6, h7, h8, h9, h10, h11, h12, h13, h14, h15, h16⟩, ⟨h17, h18⟩, h19⟩⟩
    (State.eccWritten_kept ..)

theorem State.setGreg_kept (s : State) (n : Nat) (v : W64) : Kept s (s.setGreg n v) := by
  unfold State.setGreg; split
  · exact .rfl
  · exact ⟨Eq.refl _, Eq.refl _, fun ⟨⟨h1, h2, h3, h4, h5, h6, h7, h8, h9, h10, h11, h12, h13, h14, h15, h16⟩, ⟨h17, h18⟩, h19⟩ =>
      ⟨⟨h1, h2, h3, spWf_spPut _ _ (Eq.refl _) h4, h5, h6, h7, h8, h9, h10, h11, h12, h13, h14, h15, h16⟩, ⟨h17, h18⟩, h19⟩⟩

theorem State.setTdWord_kept (s : State) (n w : Nat) (v : W64) : Kept s (s.setTdWord n w v) :=
  .trans (t := { s with td := spPut 0 s.td (4 * n + w) v })
    ⟨Eq.refl _, Eq.refl _, fun ⟨⟨h1, h2, h3, h4, h5, h6, h7, h8, h9, h10, h11, h12, h13, h14, h15, h16⟩, ⟨h17, h18⟩, h19⟩ =>
      ⟨⟨h1, h2, h3, h4, spWf_spPut _ _ (Eq.refl _) h5, h6, h7, h8, h9, h10, h11, h12, h13, h14, h15, h16⟩, ⟨h17, h18⟩, h19⟩⟩
    (State.eccWritten_kept ..)

theorem State.setScratch_kept (s : State) (i : Nat) (v : W64) : Kept s (s.setScratch i v) :=
  .trans (t := { s with scratch := spPut 0 s.scratch i v })
    ⟨Eq.refl _, Eq.refl _, fun ⟨⟨h1, h2, h3, h4, h5, h6, h7, h8, h9, h10, h11, h12, h13, h14, h15, h16⟩, ⟨h17, h18⟩, h19⟩ =>
      ⟨⟨h1, h2, h3, h4, h5, spWf_spPut _ _ (Eq.refl _) h6, h7, h8, h9, h10, h11, h12, h13, h14, h15, h16⟩, ⟨h17, h18⟩, h19⟩⟩
    (State.eccWritten_kept ..)

theorem State.setFlag_kept (s : State) (n : Nat) (v : Bool) : Kept s (State.setFlag s n v) := by
  unfold State.setFlag
  extract_lets x0
  exact Kept.upd .rfl (Eq.refl _) (Eq.refl _)

theorem State.skip_kept (s : State) : Kept s (State.skip s) := by
  unfold State.skip
  exact State.count_kept ..

theorem State.endProg_kept (s : State) (st : SeqSt) : Kept s (State.endProg s st) := by
  unfold State.endProg
  extract_lets x0 x1
  have hx0 : Kept s x0 := by
    unfold x0
    refine .trans ?_ (State.when_kept _ _ _ ?_)
    · exact .rfl
    · exact State.skip_kept ..
  clear_value x0
  refine Kept.upd ?_ (Eq.refl _) (Eq.refl _)
  exact hx0

theorem State.clrSeq_kept (s : State) : Kept s s.clrSeq :=
  ⟨Eq.refl _, Eq.refl _, fun ⟨⟨h1, h2, h3, _, h5, h6, h7, h8, h9, h10, h11, h12, h13, h14, h15, h16⟩, ⟨h17, _⟩, h19⟩ =>
    ⟨⟨h1, h2, h3, Eq.refl _, h5, h6, h7, h8, h9, h10, h11, h12, h13, h14, h15, h16⟩, ⟨h17, Nat.zero_le _⟩, h19⟩⟩

theorem State.startSeq_kept (s : State) (at_ : Nat) : Kept s (State.startSeq s at_) := by
  unfold State.startSeq
  extract_lets x0
  split
  · rename_i y1
    exact Kept.upd .rfl (Eq.refl _) (Eq.refl _)
  · exact .rfl

theorem State.settle_kept (s : State) : Kept s (State.settle s) := by
  unfold State.settle
  split
  · exact .rfl
  · rename_i y2 y3 y4
    extract_lets x5 x6 x7 x8
    have hx6 : Kept s x6 := by
      unfold x6
      exact Kept.upd .rfl (Eq.refl _) (Eq.refl _)
    clear_value x6
    have hx7 : Kept s x7 := by
      unfold x7
      refine .trans ?_ (State.when_kept _ _ _ ?_)
      · exact hx6
      · exact State.endProg_kept ..
    clear_value x7
    have hx8 : Kept s x8 := by
      unfold x8
      refine .trans ?_ (State.when_kept _ _ _ ?_)
      · exact hx7
      · exact State.clrSeq_kept ..
    clear_value x8
    split
    · exact .rfl
    · rename_i y10
      split
      · rename_i y11 y12 y13
        refine .trans ?_ (State.startSeq_kept ..)
        exact hx8
      · rename_i y14 y15
        exact hx8

theorem State.askStop_kept (s : State) (halt : Bool) (clr : Bool) (start : Option Nat) : Kept s (State.askStop s halt clr start) := by
  unfold State.askStop
  extract_lets x0 x1 x2
  clear_value x0 x1
  refine .trans ?_ (State.settle_kept ..)
  exact Kept.upd .rfl (Eq.refl _) (Eq.refl _)

theorem State.trap_kept (s : State) (code : Nat) (info : Nat) : Kept s (State.trap s code info) := by
  unfold State.trap
  extract_lets x0 x1 x2 x3
  clear_value x0 x1
  have hx2 : Kept s x2 := by
    unfold x2
    refine .trans ?_ (State.setRg_kept ..)
    exact State.setRg_kept ..
  clear_value x2
  have hx3 : Kept s x3 := by
    unfold x3
    refine .trans ?_ (State.setRg64_kept ..)
    exact hx2
  clear_value x3
  refine .trans ?_ (State.irq_kept ..)
  refine .trans ?_ (State.endProg_kept ..)
  exact hx3

theorem State.advance_kept (s : State) (cc : Nat) : Kept s (s.advance cc) := by
  unfold State.advance; split
  · split
    · exact State.trap_kept ..
    · exact Kept.upd .rfl (Eq.refl _) (Eq.refl _)
  · rename_i hpc
    exact ⟨Eq.refl _, Eq.refl _, fun ⟨⟨h1, h2, h3, h4, h5, h6, h7, h8, h9, h10, h11, h12, h13, h14, h15, h16⟩, ⟨h17, h18⟩, h19⟩ =>
      ⟨⟨h1, h2, h3, h4, h5, h6, h7, h8, h9, h10, h11, h12, h13, h14, h15, h16⟩, ⟨by dsimp only; omega, h18⟩, h19⟩⟩

theorem State.unblock_kept (s : State) : Kept s (State.unblock s) := by
  unfold State.unblock
  extract_lets x0 x1 x2
  clear_value x0
  have hx2 : Kept s x2 := by
    unfold x2
    exact Kept.upd .rfl (Eq.refl _) (Eq.refl _)
  clear_value x2
  refine .trans ?_ (State.advance_kept ..)
  exact hx2

theorem State.waitMissed_kept (s : State) (fl : Option Nat) : Kept s (State.waitMissed s fl) := by
  unfold State.waitMissed
  refine .trans ?_ (State.unblock_kept ..)
  split
  · rename_i y0 y1
    exact State.setFlag_kept ..
  · exact .rfl

theorem State.endTimed_kept (s : State) : Kept s (State.endTimed s) := by
  unfold State.endTimed
  split
  · rename_i y0 y1 y2 y3 y4 y5
    exact State.waitMissed_kept ..
  · exact .rfl

theorem State.seqCc_kept (s : State) : Kept s (State.seqCc s) := by
  unfold State.seqCc
  extract_lets x0 x1
  have hx0 : Kept s x0 := by
    unfold x0
    refine .trans ?_ (State.endTimed_kept ..)
    exact State.settle_kept ..
  clear_value x0
  split
  · rename_i y2 y3 y4
    split
    · rename_i y5
      refine .trans ?_ (State.advance_kept ..)
      refine Kept.upd ?_ (Eq.refl _) (Eq.refl _)
      exact hx0
    · rename_i y6
      exact hx0
  · rename_i y7 y8
    split
    · rename_i y9
      refine .trans ?_ (State.trap_kept ..)
      exact hx0
    · rename_i y10
      exact hx0

theorem State.jump_kept (s : State) (target : Nat) : Kept s (s.jump target) :=
  ⟨Eq.refl _, Eq.refl _, fun ⟨⟨h1, h2, h3, h4, h5, h6, h7, h8, h9, h10, h11, h12, h13, h14, h15, h16⟩, ⟨_, h18⟩, h19⟩ =>
    ⟨⟨h1, h2, h3, h4, h5, h6, h7, h8, h9, h10, h11, h12, h13, h14, h15, h16⟩, ⟨Nat.mod_lt _ (by decide), h18⟩, h19⟩⟩

theorem State.keepOp_kept (s : State) (w : W64) : Kept s (State.keepOp s w) := by
  unfold State.keepOp
  refine .trans ?_ (State.when_kept _ _ _ ?_)
  · exact .rfl
  · extract_lets x0
    exact Kept.upd .rfl (Eq.refl _) (Eq.refl _)

theorem State.issue_kept (s0 : State) (is : W64 → Bool) (offend : W64 → List Nat) (act : W64 → State → State) (hact : ∀ a0 a1, Kept a1 (act a0
    a1)) : Kept s0 (State.issue s0 is offend act) := by
  unfold State.issue
  extract_lets x0 x1
  have hx0 : Kept s0 x0 := by
    unfold x0
    refine .trans ?_ (State.endTimed_kept ..)
    exact State.settle_kept ..
  clear_value x0 x1
  split
  · rename_i y2
    exact hx0
  · rename_i y3
    split
    rename_i y4 y5 y6 y7
    split
    · rename_i y8
      refine .trans ?_ (State.trap_kept ..)
      refine Kept.of_snd y7 ?_
      refine .trans ?_ (State.eccRead_kept ..)
      refine .trans ?_ (State.keepOp_kept ..)
      exact hx0
    · rename_i y9
      split
      · rename_i y10
        refine .trans ?_ (State.trap_kept ..)
        refine Kept.of_snd y7 ?_
        refine .trans ?_ (State.eccRead_kept ..)
        refine .trans ?_ (State.keepOp_kept ..)
        exact hx0
      · rename_i y11
        refine .trans ?_ (hact ..)
        refine Kept.of_snd y7 ?_
        refine .trans ?_ (State.eccRead_kept ..)
        refine .trans ?_ (State.keepOp_kept ..)
        exact hx0

theorem State.descEcc_kept (s : State) (tds : List Nat) : Kept s (State.descEcc s tds).2 := by
  unfold State.descEcc
  extract_lets x0
  clear_value x0
  dsimp only
  refine .trans ?_ (State.each_kept _ _ _ ?_)
  · exact .rfl
  · intro a1 a2
    exact State.eccRead_kept ..

theorem State.takeTag_kept (s : State) (o : Op) : Kept s (State.takeTag s o) := by
  unfold State.takeTag
  extract_lets x0 x1
  have hx1 : Kept s x1 := by
    unfold x1
    exact Kept.upd .rfl (Eq.refl _) (Eq.refl _)
  clear_value x1
  refine .trans ?_ (State.advance_kept ..)
  exact hx1

theorem State.stallOn_kept (s : State) (i : Iss) : Kept s (State.stallOn s i) := by
  unfold State.stallOn
  extract_lets x0
  exact Kept.upd .rfl (Eq.refl _) (Eq.refl _)

theorem State.launch_kept (s : State) (m : Nat) (type : Nat) (tc : Nat) (stream : Nat) (seed : Nat) (pay : List Byte) (ackreq : Bool) : Kept s
    (State.launch s m type tc stream seed pay ackreq) := by
  unfold State.launch
  extract_lets x0 x1 x2
  clear_value x0
  have hx1 : Kept s x1 := by
    unfold x1
    exact Kept.upd .rfl (Eq.refl _) (Eq.refl _)
  clear_value x1
  have hx2 : Kept s x2 := by
    unfold x2
    refine .trans ?_ (State.updMod_kept ..)
    exact hx1
  clear_value x2
  split
  rename_i y3 y4 y5 y6
  refine .trans ?_ (State.emit_kept ..)
  exact hx2

theorem State.sendIdle_kept (s : State) (m : Nat) : Kept s (State.sendIdle s m) := by
  unfold State.sendIdle
  extract_lets x0
  clear_value x0
  exact State.launch_kept ..

theorem State.sendCtrl_kept (s : State) (m : Nat) (sub : Nat) (content : List Byte) : Kept s (State.sendCtrl s m sub content) := by
  unfold State.sendCtrl
  extract_lets x0
  clear_value x0
  exact State.launch_kept ..

theorem State.queueCtl_kept (s : State) (m : Nat) (subAndContent : List Byte) : Kept s (State.queueCtl s m subAndContent) := by
  unfold State.queueCtl
  exact Kept.upd .rfl (Eq.refl _) (Eq.refl _)

theorem State.queueRepair_kept (s : State) (m : Nat) (content : List Byte) : Kept s (State.queueRepair s m content) := by
  unfold State.queueRepair
  extract_lets x0
  clear_value x0
  exact State.queueCtl_kept ..

theorem State.stopBarred_kept (s : State) (m : Nat) : Kept s (State.stopBarred s m) := by
  unfold State.stopBarred
  refine .trans ?_ (State.each_kept _ _ _ ?_)
  · exact .rfl
  · intro a0 a1
    split
    · rename_i y2 y3 y4 y5
      refine .trans ?_ (State.when_kept _ _ _ ?_)
      · exact .rfl
      · exact State.updMod_kept ..
    · exact .rfl

theorem State.pickTc_kept (s : State) (m : Nat) {c : Nat} {t : State} (h : s.pickTc m = some (c, t)) : Kept s t := by
  unfold State.pickTc at h
  split at h
  · cases h; exact .rfl
  · split at h
    · cases h; exact .rfl
    · split at h
      · cases h; exact Kept.upd .rfl (Eq.refl _) (Eq.refl _)
      · cases h

theorem State.grantData_kept (s : State) (m : Nat) (c : Nat) (frac : Nat) : Kept s (State.grantData s m c frac) := by
  unfold State.grantData
  extract_lets x0
  clear_value x0
  split
  · rename_i y1 y2 y3 y4
    exact State.updMod_kept ..
  · exact .rfl
  · rename_i y9 y10 y11 y12 y13 y14 y15
    extract_lets x16
    clear_value x16
    refine .trans ?_ (State.updMod_kept ..)
    exact Kept.upd .rfl (Eq.refl _) (Eq.refl _)

theorem State.launchData_kept (s : State) (m : Nat) (at8 : Nat) : Kept s (State.launchData s m at8) := by
  unfold State.launchData
  split
  · exact .rfl
  · rename_i y2 y3 y4 y5
    refine .trans ?_ (State.updMod_kept ..)
    refine .trans ?_ (State.eccWritten_kept ..)
    exact State.launch_kept ..

theorem State.launchDue_kept (s : State) : Kept s (State.launchDue s) := by
  unfold State.launchDue
  refine .trans ?_ (State.each_kept _ _ _ ?_)
  · exact .rfl
  · intro a0 a1
    split
    · exact .rfl
    · rename_i y4 y5 y6 y7
      split
      · rename_i y8
        split
        · rename_i y9
          exact State.launchData_kept ..
        · rename_i y10
          exact State.updMod_kept ..
      · exact .rfl

theorem State.sendRetx_kept (s : State) (m : Nat) (frac : Nat) : Kept s (State.sendRetx s m frac) := by
  unfold State.sendRetx
  split
  · exact .rfl
  · rename_i y2 y3 y4
    extract_lets x5
    subst x5
    split
    rename_i y6 y7 y8 y9
    extract_lets x10
    have hx10 : Kept s x10 := by
      unfold x10
      refine .trans ?_ (State.updMod_kept ..)
      refine Kept.of_snd y9 ?_
      exact State.eccRead_kept ..
    clear_value x10
    split
    · rename_i y11
      refine .trans ?_ (State.startRetire_kept ..)
      refine .trans ?_ (State.updMod_kept ..)
      refine Kept.of_snd y9 ?_
      exact State.eccRead_kept ..
    · rename_i y12
      refine .trans ?_ (State.count32_kept ..)
      refine .trans ?_ (State.launch_kept ..)
      exact hx10

theorem State.creditSent_kept (s : State) : Kept s (State.creditSent s) := by
  unfold State.creditSent
  extract_lets x0
  have hx0 : Kept s x0 := by
    unfold x0
    refine .trans ?_ (State.each_kept _ _ _ ?_)
    · exact .rfl
    · intro a1 a2
      exact State.updTc_kept ..
  clear_value x0
  refine Kept.upd ?_ (Eq.refl _) (Eq.refl _)
  exact hx0

theorem State.sendItem_kept (s : State) (m : Nat) (frac : Nat) (x3 : SlotItem) : Kept s (State.sendItem s m frac x3) := by
  unfold State.sendItem
  split
  · rename_i y0
    extract_lets x1
    clear_value x1
    refine .trans ?_ (State.sendCtrl_kept ..)
    exact Kept.upd .rfl (Eq.refl _) (Eq.refl _)
  · rename_i y2 y3
    refine .trans ?_ (State.sendCtrl_kept ..)
    exact Kept.upd .rfl (Eq.refl _) (Eq.refl _)
  · rename_i y4
    refine .trans ?_ (State.sendCtrl_kept ..)
    exact Kept.upd .rfl (Eq.refl _) (Eq.refl _)
  · rename_i y5
    refine .trans ?_ (State.sendCtrl_kept ..)
    exact State.creditSent_kept ..
  · rename_i y6
    exact State.sendRetx_kept ..
  · rename_i y7
    exact State.sendIdle_kept ..
  · rename_i y8
    exact State.launchData_kept ..
  · rename_i y9
    split
    · rename_i y10 y11 y12 y13
      refine .trans ?_ (State.grantData_kept ..)
      exact State.pickTc_kept _ _ y13
    · rename_i y14 y15
      exact State.sendIdle_kept ..
  · rename_i y16
    exact State.sendIdle_kept ..

theorem State.flitSlot_kept (s : State) (m : Nat) (frac : Nat) : Kept s (State.flitSlot s m frac) := by
  unfold State.flitSlot
  extract_lets x0 x1 x2
  have hx0 : Kept s x0 := by
    unfold x0
    exact State.stopBarred_kept ..
  clear_value x0 x1
  have hx2 : Kept s x2 := by
    unfold x2
    refine .trans ?_ (State.sendItem_kept ..)
    exact hx0
  clear_value x2
  split
  · rename_i y3
    exact hx2
  · rename_i y4
    refine .trans ?_ (State.updMod_kept ..)
    exact hx2

theorem State.reapTx_kept (s : State) : Kept s (State.reapTx s) := by
  unfold State.reapTx
  extract_lets x0 x1 x2 x3
  subst x0
  clear_value x1 x2 x3
  exact Kept.upd .rfl (Eq.refl _) (Eq.refl _)

theorem State.openFree_kept (s : State) (m : Nat) : Kept s (State.openFree s m) := by
  unfold State.openFree
  split
  rename_i y0 y1 y2 y3
  refine .trans ?_ (State.when_kept _ _ _ ?_)
  · refine Kept.of_snd y3 ?_
    exact State.draw_kept ..
  · refine .trans ?_ (State.reapTx_kept ..)
    exact State.updMod_kept ..

theorem State.openSlot_kept (s : State) (m : Nat) : Kept s (State.openSlot s m) := by
  unfold State.openSlot
  extract_lets x0 x1
  subst x0
  have hx1 : Kept s x1 := by
    unfold x1
    refine .trans ?_ (State.updMod_kept ..)
    exact State.openFree_kept ..
  clear_value x1
  split
  · rename_i y2 y3
    refine .trans ?_ (State.emit_kept ..)
    exact hx1
  · rename_i y4 y5 y6 y7
    split
    · rename_i y8 y9
      refine .trans ?_ (State.emit_kept ..)
      refine .trans ?_ (State.pickTc_kept _ _ y7)
      exact hx1
    · rename_i y10 y11 y12 y13 y14
      extract_lets x15
      clear_value x15
      refine .trans ?_ (State.emit_kept ..)
      refine .trans ?_ (State.updMod_kept ..)
      refine Kept.upd ?_ (Eq.refl _) (Eq.refl _)
      refine .trans ?_ (State.pickTc_kept _ _ y7)
      exact hx1

theorem State.logResp_kept (s : State) (m : Msg) (src : Option (Nat × Nat)) : Kept s (State.logResp s m src) := by
  unfold State.logResp
  extract_lets x0 x1 x2
  clear_value x0 x1
  have hx2 : Kept s x2 := by
    unfold x2
    exact Kept.upd .rfl (Eq.refl _) (Eq.refl _)
  clear_value x2
  refine .trans ?_ (State.setRf_kept ..)
  exact hx2

theorem State.enterLink_kept (s : State) (m : Msg) (src : Option (Nat × Nat)) : Kept s (State.enterLink s m src) := by
  unfold State.enterLink
  split
  rename_i y0 y1 y2 y3
  extract_lets x4 x5 x6 x7 x8
  clear_value x4
  have hx5 : Kept s x5 := by
    unfold x5
    split
    · rename_i y9
      refine Kept.of_snd y3 ?_
      exact State.fresh_kept ..
    · rename_i y10
      refine .trans ?_ (State.updStrm_kept ..)
      refine Kept.of_snd y3 ?_
      exact State.fresh_kept ..
  clear_value x5
  have hx6 : Kept s x6 := by
    unfold x6
    split
    · rename_i y11
      exact hx5
    · rename_i y12
      refine .trans ?_ (State.updTc_kept ..)
      exact hx5
  clear_value x6 x7
  have hx8 : Kept s x8 := by
    unfold x8
    refine Kept.upd ?_ (Eq.refl _) (Eq.refl _)
    exact hx6
  clear_value x8
  refine .trans ?_ (State.when_kept _ _ _ ?_)
  · exact hx8
  · exact State.logResp_kept ..

theorem State.readRoute_kept (s : State) (m : Msg) : Kept s (State.readRoute s m) := by
  unfold State.readRoute
  split
  · exact .rfl
  · rename_i y1
    exact State.eccRead_kept ..

theorem State.ownRel_kept (s : State) (m : Msg) : Kept s (State.ownRel s m) := by
  unfold State.ownRel
  split
  rename_i y0 y1 y2 y3
  refine Kept.upd ?_ (Eq.refl _) (Eq.refl _)
  refine Kept.of_snd y3 ?_
  exact State.fresh_kept ..

theorem State.handOver_kept (s : State) (o : Op) : Kept s (State.handOver s o) := by
  unfold State.handOver
  split
  rename_i y0 y1 y2 y3
  split
  · exact .rfl
  · rename_i y5 y6 y7
    refine .trans ?_ (State.emit_kept ..)
    exact State.setOp_kept ..

theorem State.admitOp_kept (s : State) (o : Op) (m : Msg) : Kept s (State.admitOp s o m) := by
  unfold State.admitOp
  extract_lets x0 x1 x2 x3 x4 x5
  clear_value x0 x1
  have hx2 : Kept s x2 := by
    unfold x2
    exact State.readRoute_kept ..
  clear_value x2 x3 x4 x5
  split
  · rename_i y6 y7 y8
    refine .trans ?_ (State.opCheck_kept ..)
    refine .trans ?_ (State.enterLink_kept ..)
    refine .trans ?_ (State.setOp_kept ..)
    exact hx2
  · rename_i y9 y10 y11
    split
    · rename_i y12
      refine .trans ?_ (State.ownRel_kept ..)
      refine .trans ?_ (State.setOp_kept ..)
      exact hx2
    · rename_i y13
      split
      · rename_i y14
        refine .trans ?_ (State.handOver_kept ..)
        exact hx2
      · rename_i y15
        refine .trans ?_ (State.sendXpt_kept ..)
        refine .trans ?_ (State.setOp_kept ..)
        exact hx2
  · rename_i y16 y17
    refine .trans ?_ (State.opCheck_kept ..)
    refine .trans ?_ (State.setOp_kept ..)
    exact hx2

theorem State.enterResent_kept (s : State) (m : Msg) : Kept s (State.enterResent s m) := by
  unfold State.enterResent
  split
  rename_i y0 y1 y2 y3
  extract_lets x4 x5 x6
  have hx4 : Kept s x4 := by
    unfold x4
    split
    · rename_i y7
      refine Kept.of_snd y3 ?_
      exact State.fresh_kept ..
    · rename_i y8
      refine .trans ?_ (State.updTc_kept ..)
      refine Kept.of_snd y3 ?_
      exact State.fresh_kept ..
  clear_value x4 x5 x6
  refine .trans ?_ (State.count32_kept ..)
  refine Kept.upd ?_ (Eq.refl _) (Eq.refl _)
  exact hx4

theorem State.admitStream_kept (s : State) (c n : Nat) {t : State} (h : s.admitStream c n = some t) : Kept s t := by
  unfold State.admitStream at h
  split at h
  · extract_lets w at h
    split at h
    · cases h; exact State.enterResent_kept ..
    · cases h
  · split at h
    · extract_lets s' at h
      have hs' : Kept s s' := Kept.upd .rfl (Eq.refl _) (Eq.refl _)
      clear_value s'
      split at h
      · cases h; exact hs'.trans (State.sendXpt_kept ..)
      · split at h
        · cases h; exact hs'.trans (State.enterLink_kept ..)
        · cases h
    · split at h
      · cases h
      · split at h
        · split at h
          · cases h; exact State.admitOp_kept ..
          · cases h
        · cases h

theorem State.admitTransit_kept (s : State) (t : Transit) : Kept s (State.admitTransit s t) := by
  unfold State.admitTransit
  extract_lets x0
  have hx0 : Kept s x0 := by
    unfold x0
    exact Kept.upd .rfl (Eq.refl _) (Eq.refl _)
  clear_value x0
  split
  · rename_i y1
    refine .trans ?_ (State.sendXpt_kept ..)
    exact hx0
  · rename_i y2
    refine .trans ?_ (State.enterLink_kept ..)
    exact hx0

theorem State.admitMgmt_kept (s : State) : Kept s (State.admitMgmt s) := by
  unfold State.admitMgmt
  split
  · rename_i y0 y1 y2
    refine .trans ?_ (State.enterLink_kept ..)
    exact Kept.upd .rfl (Eq.refl _) (Eq.refl _)
  · exact .rfl

theorem State.admitNext_kept (s : State) (c : Nat) : Kept s (s.admitNext c) := by
  unfold State.admitNext
  extract_lets w s'
  have hs' : Kept s s' := State.when_kept _ _ _ (State.twinEvent_kept ..)
  clear_value s'
  split
  · exact hs'.trans (State.admitMgmt_kept ..)
  · split
    · exact hs'.trans (State.admitTransit_kept ..)
    · split
      · rename_i n t h
        obtain ⟨a, -, ha⟩ := List.exists_of_findSome?_eq_some h
        obtain ⟨u, hu, he⟩ := Option.map_eq_some_iff.1 ha
        cases he
        exact Kept.upd (hs'.trans (State.admitStream_kept _ _ _ hu)) (Eq.refl _) (Eq.refl _)
      · exact hs'

theorem State.sendRouted_kept (s : State) (m : Msg) : Kept s (State.sendRouted s m) := by
  unfold State.sendRouted
  extract_lets x0
  have hx0 : Kept s x0 := by
    unfold x0
    exact State.readRoute_kept ..
  clear_value x0
  split
  · rename_i y1 y2 y3
    refine .trans ?_ (State.respond_kept ..)
    exact hx0
  · rename_i y4 y5 y6
    refine .trans ?_ (State.sendXpt_kept ..)
    exact hx0
  · rename_i y7 y8
    refine .trans ?_ (State.irq_kept ..)
    refine .trans ?_ (State.count32_kept ..)
    exact hx0

theorem State.sendPaged_kept (s : State) (tag : Nat) (m : Msg) : Kept s (State.sendPaged s tag m) := by
  unfold State.sendPaged
  split
  · rename_i y0 y1 y2
    extract_lets x3
    clear_value x3
    split
    · rename_i y4
      refine .trans ?_ (State.emit_kept ..)
      exact State.updOp_kept ..
    · rename_i y5
      exact State.sendRouted_kept ..
  · rename_i y6 y7
    exact State.sendRouted_kept ..

theorem State.readSet_kept (s : State) (set : Nat) : Kept s (State.readSet s set) := by
  unfold State.readSet
  refine .trans ?_ (State.each_kept _ _ _ ?_)
  · exact .rfl
  · intro a0 a1
    split
    rename_i y2 y3 y4 y5
    split
    rename_i y6 y7 y8 y9
    refine .trans ?_ (State.when_kept _ _ _ ?_)
    · refine Kept.of_snd y9 ?_
      refine .trans ?_ (State.eccRead_kept ..)
      refine Kept.of_snd y5 ?_
      exact State.eccRead_kept ..
    · exact State.setTag_kept ..

theorem State.touchTag_kept (s : State) (e : Nat) : Kept s (State.touchTag s e) := by
  unfold State.touchTag
  split
  rename_i y0 y1 y2 y3
  extract_lets x4
  clear_value x4
  refine .trans ?_ (State.setTag_kept ..)
  refine Kept.of_snd y3 ?_
  exact State.fresh_kept ..

theorem State.tagWritten_kept (s : State) (e : Nat) : Kept s (State.tagWritten s e) := by
  unfold State.tagWritten
  refine .trans ?_ (State.eccWritten_kept ..)
  exact State.eccWritten_kept ..

theorem State.dropTag_kept (s : State) (e : Nat) : Kept s (State.dropTag s e) := by
  unfold State.dropTag
  extract_lets x0 x1
  clear_value x0
  have hx1 : Kept s x1 := by
    unfold x1
    exact Kept.upd .rfl (Eq.refl _) (Eq.refl _)
  clear_value x1
  refine .trans ?_ (State.sendRouted_kept ..)
  refine .trans ?_ (State.tagWritten_kept ..)
  refine .trans ?_ (State.setTag_kept ..)
  exact hx1

theorem State.evictTag_kept (s : State) (e : Nat) : Kept s (State.evictTag s e) := by
  unfold State.evictTag
  refine .trans ?_ (State.count32_kept ..)
  exact State.dropTag_kept ..

theorem State.retireWay_kept (s : State) (e : Nat) : Kept s (State.retireWay s e) := by
  unfold State.retireWay
  refine .trans ?_ (State.when_kept _ _ _ ?_)
  · exact .rfl
  · exact State.evictTag_kept ..

theorem State.writeEccRetire_kept (s : State) (k : Nat) (d : W32) : Kept s (State.writeEccRetire s k d) := by
  unfold State.writeEccRetire
  extract_lets x0
  have hx0 : Kept s x0 := by
    unfold x0
    exact State.setRg_kept ..
  clear_value x0
  refine .trans ?_ (State.when_kept _ _ _ ?_)
  · exact hx0
  · refine .trans ?_ (State.when_kept _ _ _ ?_)
    · exact State.retireUnit_kept ..
    · exact State.retireWay_kept ..

theorem State.flushNow_kept (s : State) (e : Nat) : Kept s (State.flushNow s e) := by
  unfold State.flushNow
  split
  · rename_i y0 y1 y2
    split
    · rename_i y3
      refine .trans ?_ (State.when_kept _ _ _ ?_)
      · exact Kept.upd .rfl (Eq.refl _) (Eq.refl _)
      · exact State.evictTag_kept ..
    · exact .rfl
  · exact .rfl

theorem State.unhold_kept (s : State) (e : Nat) : Kept s (State.unhold s e) := by
  unfold State.unhold
  extract_lets x0
  clear_value x0
  refine .trans ?_ (State.flushNow_kept ..)
  refine .trans ?_ (State.retireWay_kept ..)
  exact State.setTag_kept ..

theorem State.faultLog_kept (s : State) (opcode : Nat) (tag : Nat) (cause : Nat) (pid : Nat) : Kept s (State.faultLog s opcode tag cause pid) := by
  unfold State.faultLog
  split
  · rename_i y0
    exact State.setBit_kept ..
  · rename_i y1
    refine .trans ?_ (State.hit_kept ..)
    refine .trans ?_ (State.setRg64_kept ..)
    exact State.setRg64_kept ..

theorem State.pageOut_kept (s : State) (tag : Nat) (k : Nat) (out : Nat) (val : Nat) : Kept s (State.pageOut s tag k out val) := by
  unfold State.pageOut
  split
  · exact .rfl
  · rename_i y2 y3 y4
    extract_lets x5 x6 x7 x8 x9 x10 x11
    clear_value x5 x6 x7 x8 x9
    have hx10 : Kept s x10 := by
      unfold x10
      exact State.setOp_kept ..
    clear_value x10
    have hx11 : Kept s x11 := by
      unfold x11
      refine .trans ?_ (State.when_kept _ _ _ ?_)
      · exact hx10
      · exact State.count32_kept ..
    clear_value x11
    refine .trans ?_ (State.when_kept _ _ _ ?_)
    · exact hx11
    · exact State.faultLog_kept ..

theorem State.pinTag_kept (s : State) (e : Nat) : Kept s (State.pinTag s e).2 := by
  unfold State.pinTag
  extract_lets x0
  clear_value x0
  split
  · rename_i y1
    dsimp only
    exact .rfl
  · rename_i y2
    dsimp only
    exact State.setTag_kept ..

theorem State.setFull_kept (s : State) : Kept s (State.setFull s) := by
  unfold State.setFull
  refine .trans ?_ (State.irq_kept ..)
  refine .trans ?_ (State.setBit_kept ..)
  exact State.count32_kept ..

theorem State.fill_kept (s : State) (tag : Nat) (k : Nat) (pin : Bool) : Kept s (State.fill s tag k pin) := by
  unfold State.fill
  split
  · exact .rfl
  · rename_i y2 y3 y4
    extract_lets x5
    have hx5 : Kept s x5 := by
      unfold x5
      exact State.readSet_kept ..
    clear_value x5
    split
    · rename_i y6 y7 y8
      split
      rename_i y9 y10 y11 y12
      extract_lets x13
      have hx13 : Kept s x13 := by
        unfold x13
        refine .trans ?_ (State.count32_kept ..)
        refine Kept.of_snd y12 ?_
        split
        · rename_i y14
          refine .trans ?_ (State.pinTag_kept ..)
          exact hx5
        · rename_i y15
          dsimp only
          exact hx5
      clear_value x13
      split
      · rename_i y16
        refine .trans ?_ (State.pageOut_kept ..)
        refine Kept.of_snd y12 ?_
        split
        · rename_i y17
          refine .trans ?_ (State.pinTag_kept ..)
          exact hx5
        · rename_i y18
          dsimp only
          exact hx5
      · rename_i y19
        split
        · rename_i y20
          refine .trans ?_ (State.pageOut_kept ..)
          refine .trans ?_ (State.touchTag_kept ..)
          refine Kept.of_snd y12 ?_
          split
          · rename_i y21
            refine .trans ?_ (State.pinTag_kept ..)
            exact hx5
          · rename_i y22
            dsimp only
            exact hx5
        · rename_i y23
          refine Kept.upd ?_ (Eq.refl _) (Eq.refl _)
          exact hx13
    · rename_i y24 y25
      split
      · rename_i y26 y27
        refine Kept.upd ?_ (Eq.refl _) (Eq.refl _)
        exact hx5
      · rename_i y28 y29 y30
        split
        · rename_i y31 y32
          refine .trans ?_ (State.pageOut_kept ..)
          split
          · rename_i y33
            refine .trans ?_ (State.setFull_kept ..)
            exact hx5
          · rename_i y34
            exact hx5
        · rename_i y35 y36 y37
          extract_lets x38 x39 x40
          have hx38 : Kept s x38 := by
            unfold x38
            refine .trans ?_ (State.when_kept _ _ _ ?_)
            · exact hx5
            · exact State.evictTag_kept ..
          clear_value x38
          have hx39 : Kept s x39 := by
            unfold x39
            refine .trans ?_ (State.tagWritten_kept ..)
            refine .trans ?_ (State.setTag_kept ..)
            exact hx38
          clear_value x39 x40
          refine .trans ?_ (State.sendPaged_kept ..)
          refine Kept.upd ?_ (Eq.refl _) (Eq.refl _)
          exact hx39

theorem State.fetchEnt_kept (s : State) (tag : Nat) (k : Nat) (pin : Bool) : Kept s (State.fetchEnt s tag k pin) := by
  unfold State.fetchEnt
  split
  · exact .rfl
  · rename_i y2 y3 y4
    split
    · exact .rfl
    · rename_i y6
      split
      · rename_i y7
        exact State.pageOut_kept ..
      · rename_i y8
        split
        · rename_i y9
          exact State.pageOut_kept ..
        · rename_i y10
          split
          · rename_i y11
            exact State.pageOut_kept ..
          · rename_i y12
            exact State.fill_kept ..

theorem State.fillWaiter_kept (s : State) (e : Nat) (out : Nat) (ok : Bool) (w : Nat × Nat × Bool) : Kept s (State.fillWaiter s e out ok w) := by
  unfold State.fillWaiter
  split
  rename_i y0 y1 y2 y3
  extract_lets x4
  clear_value x4
  split
  · rename_i y5
    exact State.updOp_kept ..
  · rename_i y6
    exact State.pageOut_kept ..

theorem State.fillOut_kept (s : State) (f : Fill) (out : Nat) : Kept s (State.fillOut s f out) := by
  unfold State.fillOut
  extract_lets x0 x1 x2 x3 x4 x5
  clear_value x0 x1 x2 x3 x4
  have hx5 : Kept s x5 := by
    unfold x5
    split
    · rename_i y6
      refine .trans ?_ (State.count32_kept ..)
      refine .trans ?_ (State.touchTag_kept ..)
      refine .trans ?_ (State.tagWritten_kept ..)
      exact State.setTag_kept ..
    · rename_i y7
      split
      · rename_i y8
        split
        · rename_i y9
          exact State.dropTag_kept ..
        · rename_i y10
          exact State.setTag_kept ..
      · exact .rfl
  clear_value x5
  refine .trans ?_ (State.flushNow_kept ..)
  refine .trans ?_ (State.retireWay_kept ..)
  refine .trans ?_ (State.each_kept _ _ _ ?_)
  · exact hx5
  · intro a12 a13
    exact State.fillWaiter_kept ..

theorem State.freeFill_kept (s : State) (trk : Nat) : Kept s (State.freeFill s trk) := by
  unfold State.freeFill
  extract_lets x0 x1
  have hx0 : Kept s x0 := by
    unfold x0
    exact Kept.upd .rfl (Eq.refl _) (Eq.refl _)
  clear_value x0 x1
  refine .trans ?_ (State.each_kept _ _ _ ?_)
  · refine Kept.upd ?_ (Eq.refl _) (Eq.refl _)
    exact hx0
  · intro a2 a3
    exact State.fill_kept ..

theorem State.fillEnd_kept (s : State) (f : Fill) (out : Nat) : Kept s (State.fillEnd s f out) := by
  unfold State.fillEnd
  refine .trans ?_ (State.freeFill_kept ..)
  refine .trans ?_ (State.fillOut_kept ..)
  exact Kept.upd .rfl (Eq.refl _) (Eq.refl _)

theorem State.fillCheck_kept (s : State) (trk : Nat) : Kept s (State.fillCheck s trk) := by
  unfold State.fillCheck
  split
  · exact .rfl
  · rename_i y2 y3 y4
    split
    · rename_i y5
      split
      · rename_i y6
        exact State.freeFill_kept ..
      · rename_i y7
        exact State.fillEnd_kept ..
    · exact .rfl

theorem State.updFill_kept (s : State) (trk : Nat) (g : Fill → Fill) : Kept s (State.updFill s trk g) := by
  unfold State.updFill
  exact Kept.upd .rfl (Eq.refl _) (Eq.refl _)

theorem State.poisonFill_kept (s : State) (trk : Nat) : Kept s (State.poisonFill s trk) := by
  unfold State.poisonFill
  split
  · exact .rfl
  · rename_i y2 y3 y4
    refine .trans ?_ (State.fillOut_kept ..)
    exact State.updFill_kept ..

theorem State.pgData_kept (s : State) (r : Rel) : Kept s (State.pgData s r) := by
  unfold State.pgData
  extract_lets x0 x1 x2 x3 x4
  clear_value x0 x1 x2 x3
  have hx4 : Kept s x4 := by
    unfold x4
    exact State.updFill_kept ..
  clear_value x4
  split
  · exact .rfl
  · rename_i y7 y8 y9
    split
    · exact .rfl
    · rename_i y11
      split
      · rename_i y12
        refine .trans ?_ (State.writeMem_kept ..)
        exact hx4
      · rename_i y13
        split
        · rename_i y14
          refine .trans ?_ (State.fillCheck_kept ..)
          refine .trans ?_ (State.poisonFill_kept ..)
          exact State.updFill_kept ..
        · rename_i y15
          split
          · rename_i y16
            exact State.freeFill_kept ..
          · rename_i y17
            exact State.fillEnd_kept ..

theorem State.startRecs_kept (s : State) : Kept s (State.startRecs s) := by
  unfold State.startRecs
  refine .trans ?_ (State.each_kept _ _ _ ?_)
  · exact .rfl
  · intro a0 a1
    extract_lets x2 x3 x4
    clear_value x2 x3
    have hx4 : Kept a0 x4 := by
      unfold x4
      exact Kept.upd .rfl (Eq.refl _) (Eq.refl _)
    clear_value x4
    split
    · exact .rfl
    · rename_i y6
      refine .trans ?_ (State.read1_kept ..)
      exact hx4

theorem State.queueRec_kept (s : State) (m : Msg) (src : Option (BitVec 3)) (i : Nat) : Kept s (State.queueRec s m src i) := by
  unfold State.queueRec
  refine .trans ?_ (State.startRecs_kept ..)
  exact Kept.upd .rfl (Eq.refl _) (Eq.refl _)

theorem State.takeAtomicResp_kept (s : State) (m : Msg) : Kept s (State.takeAtomicResp s m) := by
  unfold State.takeAtomicResp
  extract_lets x0 x1 x2 x3
  clear_value x0 x1 x2
  have hx3 : Kept s x3 := by
    unfold x3
    exact Kept.upd .rfl (Eq.refl _) (Eq.refl _)
  clear_value x3
  split
  · rename_i y4
    split
    · rename_i y5
      exact hx3
    · rename_i y6
      refine .trans ?_ (State.faultLog_kept ..)
      refine .trans ?_ (State.count32_kept ..)
      exact hx3
  · rename_i y7
    exact State.pageOut_kept ..

theorem State.answerRec_kept (s : State) (src : Option (BitVec 3)) (m : Msg) (orig : Nat) : Kept s (State.answerRec s src m orig) := by
  unfold State.answerRec
  split
  · rename_i y0
    exact State.takeAtomicResp_kept ..
  · rename_i y1
    split
    · rename_i y2
      exact State.sendXpt_kept ..
    · rename_i y3
      split
      · rename_i y4 y5
        exact State.sendXpt_kept ..
      · rename_i y6
        exact State.respond_kept ..

theorem State.freeRing_kept (s : State) (dom : Option Nat) (ord : Nat) (pid : Nat) (gen : Nat) : Kept s (State.freeRing s dom ord pid gen) := by
  unfold State.freeRing
  extract_lets x0 x1 x2
  clear_value x0 x1 x2
  split
  · rename_i y3
    refine .trans ?_ (State.irq_kept ..)
    exact State.count32_kept ..
  · rename_i y4
    refine .trans ?_ (State.setRg_kept ..)
    exact State.writeMem_kept ..

theorem State.sendPage_kept (s : State) (m : Msg) (via : Option (BitVec 3)) : Kept s (State.sendPage s m via) := by
  unfold State.sendPage
  refine .trans ?_ (State.each_kept _ _ _ ?_)
  · exact .rfl
  · intro a0 a1
    split
    rename_i y2 y3 y4 y5
    extract_lets x6 x7
    clear_value x6 x7
    refine .trans ?_ (State.read1_kept ..)
    refine Kept.upd ?_ (Eq.refl _) (Eq.refl _)
    refine Kept.of_snd y5 ?_
    exact State.fresh_kept ..

theorem State.endRec_kept (s : State) (x : RecOp) (out : Nat) (r : W64) (new_ : Option W64) : Kept s (State.endRec s x out r new_) := by
  unfold State.endRec
  extract_lets x0 x1 x2 x3 x4
  have hx0 : Kept s x0 := by
    unfold x0
    exact Kept.upd .rfl (Eq.refl _) (Eq.refl _)
  clear_value x0 x1
  have hx2 : Kept s x2 := by
    unfold x2
    split
    · rename_i y5 y6
      refine .trans ?_ (State.when_kept _ _ _ ?_)
      · exact hx0
      · exact State.freeRing_kept ..
    · rename_i y7
      exact hx0
  clear_value x2
  have hx3 : Kept s x3 := by
    unfold x3
    split
    · rename_i y8
      split
      · rename_i y9
        refine .trans ?_ (State.sendPage_kept ..)
        exact hx2
      · rename_i y10
        refine .trans ?_ (State.answerRec_kept ..)
        exact hx2
    · rename_i y11
      refine .trans ?_ (State.answerRec_kept ..)
      exact hx2
  clear_value x3
  have hx4 : Kept s x4 := by
    unfold x4
    split
    · rename_i y12 y13 y14
      refine .trans ?_ (State.when_kept _ _ _ ?_)
      · exact hx3
      · exact State.sendXpt_kept ..
    · rename_i y15 y16
      exact hx3
  clear_value x4
  refine .trans ?_ (State.startRecs_kept ..)
  exact hx4

theorem State.recRead_kept (s : State) (id : Nat) (bs : List Byte) : Kept s (State.recRead s id bs) := by
  unfold State.recRead
  split
  · exact .rfl
  · rename_i y2 y3 y4
    extract_lets x5 x6
    clear_value x5
    have hx6 : Kept s x6 := by
      unfold x6
      exact Kept.upd .rfl (Eq.refl _) (Eq.refl _)
    clear_value x6
    split
    · rename_i y7 y8 y9
      exact State.endRec_kept ..
    · rename_i y10 y11 y12 y13
      refine .trans ?_ (State.writeMem_kept ..)
      exact hx6

theorem State.recAcked_kept (s : State) (id : Nat) : Kept s (State.recAcked s id) := by
  unfold State.recAcked
  split
  · exact .rfl
  · rename_i y2 y3 y4
    split
    · exact .rfl
    · rename_i y7 y8 y9
      split
      rename_i y10 y11 y12 y13
      exact State.endRec_kept ..

theorem State.takeRecord_kept (s : State) (m : Msg) (src : Option (BitVec 3)) (ord : Nat) : Kept s (State.takeRecord s m src ord) := by
  unfold State.takeRecord
  extract_lets x0 x1
  have hx0 : Kept s x0 := by
    unfold x0
    exact Kept.upd .rfl (Eq.refl _) (Eq.refl _)
  clear_value x0
  have hx1 : Kept s x1 := by
    unfold x1
    exact State.answerRec_kept ..
  clear_value x1
  split
  · rename_i y2
    refine .trans ?_ (State.sendXpt_kept ..)
    exact hx0
  · rename_i y3
    split
    · rename_i y4
      split
      · rename_i y5 y6
        refine .trans ?_ (State.when_kept _ _ _ ?_)
        · exact hx1
        · exact State.sendXpt_kept ..
      · rename_i y7
        exact hx1
    · rename_i y8
      exact State.queueRec_kept ..

theorem State.farPut_kept (s : State) (m : Msg) (dom : Nat) (ord : Nat) : Kept s (State.farPut s m dom ord) := by
  unfold State.farPut
  extract_lets x0 x1 x2
  clear_value x0 x1 x2
  refine .trans ?_ (State.writeMem_kept ..)
  exact State.setFar_kept ..

theorem State.farChecked_kept (s : State) (m : Msg) (dom : Nat) (ord : Nat) (ok : Bool) : Kept s (State.farChecked s m dom ord ok) := by
  unfold State.farChecked
  split
  · rename_i y0
    exact State.farPut_kept ..
  · rename_i y1
    exact State.setFar_kept ..

theorem State.startChecks_kept (s : State) : Kept s (State.startChecks s) := by
  unfold State.startChecks
  split
  · exact .rfl
  · rename_i y1
    refine .trans ?_ (State.each_kept _ _ _ ?_)
    · exact .rfl
    · intro a2 a3
      extract_lets x4
      clear_value x4
      refine .trans ?_ (State.each_kept _ _ _ ?_)
      · exact .rfl
      · intro a5 a6
        extract_lets x7 x8
        clear_value x7 x8
        split
        · exact .rfl
        · rename_i y10
          refine .trans ?_ (State.read1_kept ..)
          exact State.setFar_kept ..

theorem State.takeWrite_kept (s : State) (m : Msg) (dom : Nat) (ord : Nat) : Kept s (State.takeWrite s m dom ord) := by
  unfold State.takeWrite
  extract_lets x0 x1 x2 x3 x4 x5 x6
  clear_value x0 x1 x2
  have hx3 : Kept s x3 := by
    unfold x3
    exact State.setFar_kept ..
  clear_value x3 x4 x5
  have hx6 : Kept s x6 := by
    unfold x6
    split
    · rename_i y7
      refine .trans ?_ (State.farPut_kept ..)
      exact hx3
    · rename_i y8
      split
      · rename_i y9
        refine .trans ?_ (State.setFar_kept ..)
        exact hx3
      · rename_i y10
        split
        · rename_i y11 y12 y13 y14
          refine .trans ?_ (State.farChecked_kept ..)
          exact hx3
        · rename_i y15 y16
          refine .trans ?_ (State.startChecks_kept ..)
          refine .trans ?_ (State.setFar_kept ..)
          exact hx3
  clear_value x6
  refine .trans ?_ (State.farCheck_kept ..)
  exact hx6

theorem State.pageChecked_kept (s : State) (k : FarKey) (pid : Nat) (bs : List Byte) : Kept s (State.pageChecked s k pid bs) := by
  unfold State.pageChecked
  extract_lets x0 x1 x2 x3
  clear_value x0 x1 x2
  have hx3 : Kept s x3 := by
    unfold x3
    exact State.setFar_kept ..
  clear_value x3
  refine .trans ?_ (State.farCheck_kept ..)
  refine .trans ?_ (State.each_kept _ _ _ ?_)
  · exact hx3
  · intro a4 a5
    exact State.farChecked_kept ..

theorem State.readCal_kept (s : State) (e : EngSpec) : Kept s (State.readCal s e).2 := by
  unfold State.readCal
  split
  · rename_i y0 y1
    dsimp only
    exact .rfl
  · rename_i y2 y3 y4
    split
    rename_i y5 y6 y7 y8
    extract_lets x9
    clear_value x9
    dsimp only
    refine Kept.of_snd y8 ?_
    exact State.eccRead_kept ..

theorem State.engineIssue_kept (s : State) (is : W64 → Bool) (offend : W64 → List Nat) (spec : State → W64 → EngSpec) (can : State → Iss → Bool)
    (start : State → Nat → Iss → State) (hstart : ∀ a0 a1 a2, Kept a0 (start a0 a1 a2)) : Kept s (State.engineIssue s is offend spec can start) :=
    by
  unfold State.engineIssue
  refine .trans ?_ (State.issue_kept _ _ _ _ ?_)
  · exact .rfl
  · intro a0 a1
    extract_lets x2
    clear_value x2
    split
    rename_i y3 y4 y5 y6
    split
    · rename_i y7 y8
      refine .trans ?_ (State.trap_kept ..)
      refine Kept.of_snd y6 ?_
      exact State.descEcc_kept ..
    · rename_i y9
      split
      · rename_i y10 y11 y12 y13
        refine .trans ?_ (State.trap_kept ..)
        refine Kept.of_snd y6 ?_
        exact State.descEcc_kept ..
      · rename_i y14 y15
        split
        rename_i y16 y17 y18 y19
        split
        · rename_i y20 y21 y22
          split
          · rename_i y23
            refine .trans ?_ (hstart ..)
            refine Kept.of_snd y19 ?_
            refine .trans ?_ (State.readCal_kept ..)
            refine Kept.of_snd y6 ?_
            exact State.descEcc_kept ..
          · rename_i y24
            refine .trans ?_ (State.stallOn_kept ..)
            refine Kept.of_snd y19 ?_
            refine .trans ?_ (State.readCal_kept ..)
            refine Kept.of_snd y6 ?_
            exact State.descEcc_kept ..
        · rename_i y25 y26
          refine .trans ?_ (State.stallOn_kept ..)
          refine Kept.of_snd y19 ?_
          refine .trans ?_ (State.readCal_kept ..)
          refine Kept.of_snd y6 ?_
          exact State.descEcc_kept ..

theorem State.walkHeader_kept (s : State) (tag : Nat) : Kept s (State.walkHeader s tag) := by
  unfold State.walkHeader
  split
  · rename_i y0 y1 y2
    refine .trans ?_ (State.opRead_kept ..)
    exact State.setOp_kept ..
  · exact .rfl

theorem State.walkFailed_kept (s : State) (o : Op) (torn : State → Op → State) (htorn : ∀ a0 a1, Kept a0 (torn a0 a1)) : Kept s (State.walkFailed
    s o torn) := by
  unfold State.walkFailed
  split
  · rename_i y0
    refine .trans ?_ (State.setOp_kept ..)
    exact State.count_kept ..
  · rename_i y1
    refine .trans ?_ (htorn ..)
    refine .trans ?_ (State.faultLog_kept ..)
    exact State.count_kept ..

theorem State.walkNext_kept (s : State) (o : Op) (done : State → Op → State) (torn : State → Op → State) (hdone : ∀ a0 a1, Kept a0 (done a0 a1))
    (htorn : ∀ a0 a1, Kept a0 (torn a0 a1)) : Kept s (State.walkNext s o done torn) := by
  unfold State.walkNext
  split
  · rename_i y0 y1
    extract_lets x2 x3 x4 x5
    clear_value x2 x3 x4
    have hx5 : Kept s x5 := by
      unfold x5
      exact State.setOp_kept ..
    clear_value x5
    split
    · rename_i y6
      refine .trans ?_ (State.walkFailed_kept _ _ _ ?_)
      · exact .rfl
      · intro a7 a8
        exact htorn ..
    · rename_i y9
      refine .trans ?_ (State.each_kept _ _ _ ?_)
      · exact hx5
      · intro a10 a11
        exact State.opRead_kept ..
  · rename_i y12 y13
    extract_lets x14 x15
    clear_value x14 x15
    refine .trans ?_ (State.opRead_kept ..)
    exact State.setOp_kept ..
  · rename_i y16 y17
    split
    · rename_i y18
      exact hdone ..
    · rename_i y19
      refine .trans ?_ (State.walkFailed_kept _ _ _ ?_)
      · exact .rfl
      · intro a20 a21
        exact htorn ..
  · exact .rfl

theorem State.locate_kept (s : State) (tag : Nat) (source : Bool) (len : Nat) (j : Nat) (e : W64) : Kept s (State.locate s tag source len j e).2
    := by
  unfold State.locate
  extract_lets x0 x1 x2 x3
  clear_value x0 x1 x2
  have hx3 : Kept s x3 := by
    unfold x3
    split
    · rename_i y4
      exact State.readSet_kept ..
    · exact .rfl
  clear_value x3
  split
  · rename_i y6
    dsimp only
    exact .rfl
  · rename_i y7
    split
    · rename_i y8
      dsimp only
      exact .rfl
    · rename_i y9
      split
      · rename_i y10 y11 y12
        extract_lets x13 x14
        clear_value x13
        have hx14 : Kept s x14 := by
          unfold x14
          refine .trans ?_ (State.touchTag_kept ..)
          refine .trans ?_ (State.setTag_kept ..)
          exact hx3
        clear_value x14
        split
        · rename_i y15
          dsimp only
          refine .trans ?_ (State.updOp_kept ..)
          exact hx14
        · rename_i y16
          dsimp only
          refine Kept.upd ?_ (Eq.refl _) (Eq.refl _)
          exact hx3
      · rename_i y17 y18
        split
        · rename_i y19
          dsimp only
          exact hx3
        · rename_i y20
          dsimp only
          exact hx3

theorem State.locateAll_kept (s : State) (o : Op) : Kept s (State.locateAll s o) := by
  unfold State.locateAll
  refine .trans ?_ (State.each_kept _ _ _ ?_)
  · exact .rfl
  · intro a0 a1
    split
    rename_i y2 y3 y4 y5
    refine .trans ?_ (State.updOp_kept ..)
    refine Kept.of_snd y5 ?_
    exact State.locate_kept ..

theorem State.sendPieces_kept (s : State) (o : Op) (ps : List Piece) : Kept s (State.sendPieces s o ps) := by
  unfold State.sendPieces
  extract_lets x0 x1 x2 x3 x4 x5 x6 x7 x8 x9 x10
  clear_value x0 x1 x2 x3 x4 x5 x6 x7
  have hx8 : Kept s x8 := by
    unfold x8
    exact State.setOp_kept ..
  clear_value x8
  have hx9 : Kept s x9 := by
    unfold x9
    split
    · rename_i y11
      refine .trans ?_ (State.each_kept _ _ _ ?_)
      · exact hx8
      · intro a12 a13
        split
        rename_i y14 y15 y16 y17
        refine .trans ?_ (State.takeWrite_kept ..)
        refine Kept.of_snd y17 ?_
        exact State.fresh_kept ..
    · rename_i y18
      refine .trans ?_ (State.each_kept _ _ _ ?_)
      · exact hx8
      · intro a19 a20
        exact State.opWrite_kept ..
  clear_value x9
  have hx10 : Kept s x10 := by
    unfold x10
    refine .trans ?_ (State.each_kept _ _ _ ?_)
    · exact hx9
    · intro a21 a22
      exact State.unhold_kept ..
  clear_value x10
  refine .trans ?_ (State.opCheck_kept ..)
  exact hx10

theorem State.xferSource_kept (s : State) (o : Op) : Kept s (State.xferSource s o) := by
  unfold State.xferSource
  extract_lets x0 x1 x2 x3 x4 x5 x6
  clear_value x1 x2
  subst x3
  have hx4 : Kept s x4 := by
    unfold x4
    refine .trans ?_ (State.count32_kept ..)
    refine .trans ?_ (State.count32_kept ..)
    exact State.count32_kept ..
  clear_value x4 x5
  have hx6 : Kept s x6 := by
    unfold x6
    refine .trans ?_ (State.setOp_kept ..)
    exact hx4
  clear_value x6
  refine .trans ?_ (State.each_kept _ _ _ ?_)
  · exact hx6
  · intro a7 a8
    exact State.opRead_kept ..

theorem State.xferMap_kept (s : State) (o : Op) : Kept s (State.xferMap s o) := by
  unfold State.xferMap
  extract_lets x0 x1 x2 x3 x4
  clear_value x0 x1 x2 x3
  have hx4 : Kept s x4 := by
    unfold x4
    exact State.setOp_kept ..
  clear_value x4
  split
  · rename_i y5
    exact State.setOp_kept ..
  · rename_i y6
    split
    · rename_i y7
      exact State.xferSource_kept ..
    · rename_i y8
      split
      · rename_i y9
        refine .trans ?_ (State.each_kept _ _ _ ?_)
        · exact hx4
        · intro a10 a11
          exact State.opRead_kept ..
      · rename_i y12
        exact State.setOp_kept ..

theorem State.xferMoves_kept (s : State) (o : Op) : Kept s (State.xferMoves s o) := by
  unfold State.xferMoves
  extract_lets x0
  clear_value x0
  split
  · rename_i y1
    split
    · rename_i y2
      refine .trans ?_ (State.opCheck_kept ..)
      exact State.setOp_kept ..
    · rename_i y3
      exact State.setOp_kept ..
  · rename_i y4
    split
    · rename_i y5 y6 y7
      refine .trans ?_ (State.walkHeader_kept ..)
      exact State.setOp_kept ..
    · rename_i y8 y9
      exact State.xferMap_kept ..

theorem State.countSkips_kept (s : State) (o : Op) : Kept s (State.countSkips s o) := by
  unfold State.countSkips
  extract_lets x0
  clear_value x0
  split
  · exact .rfl
  · rename_i y2
    exact State.count32_kept ..

theorem State.xferTorn_kept (s : State) (o : Op) : Kept s (State.xferTorn s o) := by
  unfold State.xferTorn
  refine .trans ?_ (State.opCheck_kept ..)
  exact State.setOp_kept ..

theorem State.xferNext_kept (s : State) (o : Op) : Kept s (State.xferNext s o) := by
  unfold State.xferNext
  split
  · exact .rfl
  · rename_i y1
    split
    · rename_i y2 y3
      exact State.xferMoves_kept ..
    · rename_i y4 y5
      refine .trans ?_ (State.walkNext_kept _ _ _ _ ?_ ?_)
      · exact .rfl
      · intro a6 a7
        refine .trans ?_ (State.locateAll_kept ..)
        exact State.setOp_kept ..
      · intro a8 a9
        exact State.xferTorn_kept ..
    · rename_i y10 y11
      refine .trans ?_ (State.walkNext_kept _ _ _ _ ?_ ?_)
      · exact .rfl
      · intro a12 a13
        refine .trans ?_ (State.locateAll_kept ..)
        exact State.setOp_kept ..
      · intro a14 a15
        exact State.xferTorn_kept ..
    · rename_i y16 y17
      refine .trans ?_ (State.walkNext_kept _ _ _ _ ?_ ?_)
      · exact .rfl
      · intro a18 a19
        refine .trans ?_ (State.locateAll_kept ..)
        exact State.setOp_kept ..
      · intro a20 a21
        exact State.xferTorn_kept ..
    · rename_i y22 y23
      split
      · exact .rfl
      · rename_i y25
        exact State.xferMap_kept ..
    · rename_i y26 y27
      split
      · rename_i y28
        exact State.xferSource_kept ..
      · exact .rfl
    · rename_i y30 y31
      refine .trans ?_ (State.sendPieces_kept ..)
      exact State.countSkips_kept ..
    · exact .rfl

theorem State.xferGo_kept (n : Nat) (s : State) (tag : Nat) : Kept s (State.xferGo n s tag) := by
  induction n generalizing s with
  | zero => exact .rfl
  | succ n ih =>
    unfold State.xferGo
    split
    · exact .rfl
    · split
      · exact .rfl
      · exact (State.xferNext_kept ..).trans (ih _)

theorem startXfer_kept (s : State) (tag : Nat) (i : Iss) : Kept s (startXfer s tag i) := by
  unfold startXfer
  extract_lets x0 x1 x2
  clear_value x0 x1
  have hx2 : Kept s x2 := by
    unfold x2
    exact State.takeTag_kept ..
  clear_value x2
  split
  · rename_i y3 y4
    exact hx2
  · rename_i y5 y6 y7
    split
    · rename_i y8
      refine .trans ?_ (State.opRead_kept ..)
      exact hx2
    · rename_i y9
      refine .trans ?_ (State.xferGo_kept ..)
      refine .trans ?_ (State.xferMoves_kept ..)
      exact hx2

theorem State.xfer_kept (s : State) (op : Nat) (off : W64 → List Nat) : Kept s (State.xfer s op off) := by
  unfold State.xfer
  refine .trans ?_ (State.engineIssue_kept _ _ _ _ _ _ ?_)
  · exact .rfl
  · intro a0 a1 a2
    exact startXfer_kept ..

theorem State.mtAbort_kept (s : State) (k : Nat) : Kept s (State.mtAbort s k) := by
  unfold State.mtAbort
  split
  · rename_i y0 y1 y2
    extract_lets x3 x4 x5 x6
    clear_value x3 x4
    have hx5 : Kept s x5 := by
      unfold x5
      exact Kept.upd .rfl (Eq.refl _) (Eq.refl _)
    clear_value x5 x6
    split
    · exact .rfl
    · rename_i y8
      refine .trans ?_ (State.opCheck_kept ..)
      refine .trans ?_ (State.setOp_kept ..)
      exact hx5
  · exact .rfl

theorem State.readRows_kept (s : State) (tag : Nat) (d : Desc) (a : Nat) (n : Nat) : Kept s (State.readRows s tag d a n) := by
  unfold State.readRows
  extract_lets x0 x1
  clear_value x0 x1
  refine .trans ?_ (State.each_kept _ _ _ ?_)
  · exact .rfl
  · intro a2 a3
    exact State.opRead_kept ..

theorem State.hvCount_kept (s : State) (tag : Nat) (c : Cnt) : Kept s (State.hvCount s tag c) := by
  unfold State.hvCount
  extract_lets x0
  have hx0 : Kept s x0 := by
    unfold x0
    refine .trans ?_ (State.count32_kept ..)
    exact State.count32_kept ..
  clear_value x0
  refine .trans ?_ (State.when_kept _ _ _ ?_)
  · exact hx0
  · exact State.updOp_kept ..

theorem State.sendMade_kept (s : State) (o : Op) (ps : List Piece) : Kept s (State.sendMade s o ps) := by
  unfold State.sendMade
  extract_lets x0 x1 x2 x3
  clear_value x0 x1 x2
  have hx3 : Kept s x3 := by
    unfold x3
    exact State.setOp_kept ..
  clear_value x3
  refine .trans ?_ (State.opCheck_kept ..)
  refine .trans ?_ (State.each_kept _ _ _ ?_)
  · exact hx3
  · intro a4 a5
    exact State.opWrite_kept ..

theorem State.convNext_kept (s : State) (o : Op) : Kept s (State.convNext s o) := by
  unfold State.convNext
  extract_lets x0 x1
  clear_value x0 x1
  split
  · exact .rfl
  · rename_i y3
    split
    rename_i y4 y5 y6 y7 y8
    extract_lets x9
    have hx9 : Kept s x9 := by
      unfold x9
      exact State.hvCount_kept ..
    clear_value x9
    refine .trans ?_ (State.sendMade_kept ..)
    exact hx9

theorem startConvert_kept (s : State) (tag : Nat) (i : Iss) : Kept s (startConvert s tag i) := by
  unfold startConvert
  extract_lets x0
  have hx0 : Kept s x0 := by
    unfold x0
    exact State.takeTag_kept ..
  clear_value x0
  split
  · rename_i y1
    refine .trans ?_ (State.updOp_kept ..)
    exact hx0
  · rename_i y2
    refine .trans ?_ (State.readRows_kept ..)
    refine .trans ?_ (State.updOp_kept ..)
    exact hx0

theorem State.answerContrib_kept (s : State) (m : Msg) (orig : Nat) (st : Nat) (psn : Bool) (ecount : Nat) : Kept s (State.answerContrib s m orig
    st psn ecount) := by
  unfold State.answerContrib
  extract_lets x0
  clear_value x0
  split
  · rename_i y1
    split
    · rename_i y2
      exact State.takeCompletion_kept ..
    · rename_i y3
      exact State.sendXpt_kept ..
  · rename_i y4
    exact State.sendRouted_kept ..

theorem State.takeRel_kept (s : State) (r : Rel) : Kept s (State.takeRel s r) := by
  unfold State.takeRel
  extract_lets x0
  have hx0 : Kept s x0 := by
    unfold x0
    exact Kept.upd .rfl (Eq.refl _) (Eq.refl _)
  clear_value x0
  refine .trans ?_ (State.when_kept _ _ _ ?_)
  · exact hx0
  · exact State.grant_kept ..

theorem State.takeWritten_kept (s : State) (r : Rel) : Kept s (State.takeWritten s r) := by
  unfold State.takeWritten
  exact Kept.upd .rfl (Eq.refl _) (Eq.refl _)

theorem State.payOwed_kept (s : State) : Kept s (State.payOwed s) := by
  unfold State.payOwed
  extract_lets x0
  clear_value x0
  refine .trans ?_ (State.each_kept _ _ _ ?_)
  · exact Kept.upd .rfl (Eq.refl _) (Eq.refl _)
  · intro a1 a2
    exact State.grant_kept ..

theorem State.holdRel_kept (s : State) (r : Rel) (count : Bool) : Kept s (State.holdRel s r count) := by
  unfold State.holdRel
  extract_lets x0
  have hx0 : Kept s x0 := by
    unfold x0
    refine .trans ?_ (State.when_kept _ _ _ ?_)
    · exact .rfl
    · exact State.count32_kept ..
  clear_value x0
  refine Kept.upd ?_ (Eq.refl _) (Eq.refl _)
  exact hx0

theorem State.stagePeak_kept (s : State) : Kept s (State.stagePeak s) := by
  unfold State.stagePeak
  exact State.setRf_kept ..

theorem State.foldSendNext_kept (s : State) (o : Op) : Kept s (State.foldSendNext s o) := by
  unfold State.foldSendNext
  extract_lets x0 x1 x2 x3
  clear_value x0 x1 x2
  have hx3 : Kept s x3 := by
    unfold x3
    exact State.hvCount_kept ..
  clear_value x3
  split
  · exact .rfl
  · rename_i y5
    split
    · rename_i y6
      refine .trans ?_ (State.readRows_kept ..)
      exact State.setOp_kept ..
    · rename_i y7
      refine .trans ?_ (State.updOp_kept ..)
      exact hx3

theorem startFoldSend_kept (s : State) (tag : Nat) (i : Iss) : Kept s (startFoldSend s tag i) := by
  unfold startFoldSend
  refine .trans ?_ (State.readRows_kept ..)
  refine .trans ?_ (State.updOp_kept ..)
  exact State.takeTag_kept ..

theorem State.calNote_kept (s : State) (n : Nat) (mx : Option Int) (ovf : Nat) (ufl : Nat) : Kept s (State.calNote s n mx ovf ufl) := by
  unfold State.calNote
  extract_lets x0 x1 x2
  clear_value x0
  have hx1 : Kept s x1 := by
    unfold x1
    split
    · rename_i y3 y4
      extract_lets x5
      have hx5 : Kept s x5 := by
        unfold x5
        exact Kept.upd .rfl (Eq.refl _) (Eq.refl _)
      clear_value x5
      refine .trans ?_ (State.setRf_kept ..)
      exact hx5
    · exact .rfl
  clear_value x1
  have hx2 : Kept s x2 := by
    unfold x2
    refine .trans ?_ (State.count_kept ..)
    refine .trans ?_ (State.count_kept ..)
    exact hx1
  clear_value x2
  split
  · rename_i y7 y8 y9 y10 y11
    extract_lets x12
    clear_value x12
    refine Kept.upd ?_ (Eq.refl _) (Eq.refl _)
    exact hx2
  · rename_i y13 y14
    split
    · rename_i y15
      exact hx2
    · rename_i y16
      refine Kept.upd ?_ (Eq.refl _) (Eq.refl _)
      exact hx2

theorem State.calSolstice_kept (s : State) (written : List Nat) : Kept s (State.calSolstice s written) := by
  unfold State.calSolstice
  extract_lets x0
  have hx0 : Kept s x0 := by
    unfold x0
    split
    · exact .rfl
    · rename_i y2
      refine .trans ?_ (State.each_kept _ _ _ ?_)
      · exact .rfl
      · intro a3 a4
        extract_lets x5 x6 x7
        clear_value x5 x6
        have hx7 : Kept a3 x7 := by
          unfold x7
          exact State.setRf_kept ..
        clear_value x7
        split
        · exact .rfl
        · rename_i y9
          split
          · rename_i y10
            exact hx7
          · rename_i y11
            refine .trans ?_ (State.setSh_kept ..)
            exact hx7
  clear_value x0
  refine Kept.upd ?_ (Eq.refl _) (Eq.refl _)
  exact hx0

theorem State.calClear1_kept (s : State) (n : Nat) : Kept s (State.calClear1 s n) := by
  unfold State.calClear1
  extract_lets x0 x1
  clear_value x0
  subst x1
  refine .trans ?_ (State.setRg_kept ..)
  exact State.setRf_kept ..

theorem State.writeCalClr_kept (s : State) (d : W32) : Kept s (State.writeCalClr s d) := by
  unfold State.writeCalClr
  extract_lets x0 x1 x2 x3 x4
  have hx0 : Kept s x0 := by
    unfold x0
    refine .trans ?_ (State.setRf_kept ..)
    exact State.setRf_kept ..
  clear_value x0 x1 x2
  have hx3 : Kept s x3 := by
    unfold x3
    refine .trans ?_ (State.each_kept _ _ _ ?_)
    · exact hx0
    · intro a5 a6
      exact State.calClear1_kept ..
  clear_value x3
  have hx4 : Kept s x4 := by
    unfold x4
    refine .trans ?_ (State.setRf_kept ..)
    exact hx3
  clear_value x4
  split
  · rename_i y7
    exact hx0
  · rename_i y8
    refine Kept.upd ?_ (Eq.refl _) (Eq.refl _)
    exact hx4

theorem State.redAdd_kept (s : State) (r : Nat) (e : Nat) (vs : List Val) (psn : Bool) : Kept s (State.redAdd s r e vs psn) := by
  unfold State.redAdd
  split
  rename_i y0 y1 y2 y3
  extract_lets x4 x5 x6
  clear_value x4
  have hx5 : Kept s x5 := by
    unfold x5
    exact State.setRed_kept ..
  clear_value x5
  have hx6 : Kept s x6 := by
    unfold x6
    refine .trans ?_ (State.count32_kept ..)
    refine .trans ?_ (State.count32_kept ..)
    refine .trans ?_ (State.count32_kept ..)
    exact hx5
  clear_value x6
  split
  · rename_i y7
    refine .trans ?_ (State.calNote_kept ..)
    exact hx6
  · rename_i y8
    exact hx6

theorem State.redCheck_kept (s : State) (r : Nat) : Kept s (State.redCheck s r) := by
  unfold State.redCheck
  extract_lets x0 x1 x2 x3 x4
  clear_value x0 x1
  subst x2
  clear_value x3 x4
  split
  · exact .rfl
  · rename_i y6
    split
    rename_i y7 y8 y9 y10 y11
    split
    rename_i y12 y13 y14 y15
    extract_lets x16 x17
    clear_value x16
    have hx17 : Kept s x17 := by
      unfold x17
      refine .trans ?_ (State.count32_kept ..)
      refine .trans ?_ (State.setRed_kept ..)
      refine Kept.of_snd y15 ?_
      exact State.memHit_kept ..
    clear_value x17
    split
    · rename_i y18 y19
      exact hx17
    · rename_i y20 y21 y22
      extract_lets x23 x24
      clear_value x23 x24
      refine .trans ?_ (State.sendMade_kept ..)
      exact hx17

theorem State.redPhase0_kept (s : State) (r : Nat) (c : Nat) (b : Nat) (es : List (Option Int)) (psn : Bool) : Kept s (State.redPhase0 s r c b es
    psn) := by
  unfold State.redPhase0
  extract_lets x0 x1 x2 x3 x4 x5
  clear_value x0 x1 x2 x3 x4 x5
  exact State.setRed_kept ..

theorem State.dropStale_kept (s : State) (r : Rel) (last : Bool) (orig : Nat) (st : Nat) : Kept s (State.dropStale s r last orig st) := by
  unfold State.dropStale
  extract_lets x0
  have hx0 : Kept s x0 := by
    unfold x0
    refine .trans ?_ (State.count32_kept ..)
    exact State.takeRel_kept ..
  clear_value x0
  refine .trans ?_ (State.when_kept _ _ _ ?_)
  · exact hx0
  · exact State.answerContrib_kept ..

theorem State.redFault_kept (s : State) (r : Nat) (rel : Rel) : Kept s (State.redFault s r rel) := by
  unfold State.redFault
  extract_lets x0 x1 x2 x3 x4
  clear_value x0 x1 x2 x3 x4
  split
  rename_i y5 y6 y7 y8
  extract_lets x9 x10 x11 x12
  clear_value x9 x10
  have hx11 : Kept s x11 := by
    unfold x11
    refine .trans ?_ (State.setRed_kept ..)
    refine .trans ?_ (State.count32_kept ..)
    exact State.takeRel_kept ..
  clear_value x11
  have hx12 : Kept s x12 := by
    unfold x12
    refine .trans ?_ (State.when_kept _ _ _ ?_)
    · exact hx11
    · exact State.updOp_kept ..
  clear_value x12
  refine .trans ?_ (State.redCheck_kept ..)
  refine .trans ?_ (State.when_kept _ _ _ ?_)
  · exact hx12
  · exact State.answerContrib_kept ..

theorem State.redTake_kept (s : State) (r : Nat) (rel : Rel) : Kept s (State.redTake s r rel) := by
  unfold State.redTake
  extract_lets x0 x1 x2 x3 x4 x5 x6 x7 x8 x9
  clear_value x0 x1 x2 x3 x4 x5 x6 x7 x8 x9
  split
  · rename_i y10
    split
    · rename_i y11
      exact State.redFault_kept ..
    · rename_i y12
      refine .trans ?_ (State.redCheck_kept ..)
      refine .trans ?_ (State.redPhase0_kept ..)
      refine .trans ?_ (State.setRed_kept ..)
      exact State.takeRel_kept ..
  · rename_i y13
    split
    · rename_i y14 y15
      exact State.redFault_kept ..
    · rename_i y16 y17 y18
      split
      · rename_i y19
        exact State.redFault_kept ..
      · rename_i y20
        split
        · rename_i y21
          exact State.holdRel_kept ..
        · rename_i y22
          split
          rename_i y23 y24 y25 y26
          extract_lets x27 x28 x29 x30
          clear_value x27 x28 x29
          have hx30 : Kept s x30 := by
            unfold x30
            refine .trans ?_ (State.redAdd_kept ..)
            refine .trans ?_ (State.setRed_kept ..)
            exact State.takeRel_kept ..
          clear_value x30
          refine .trans ?_ (State.redCheck_kept ..)
          refine .trans ?_ (State.when_kept _ _ _ ?_)
          · exact hx30
          · exact State.answerContrib_kept ..

theorem State.contribAt_kept (s : State) (rel : Rel) : Kept s (State.contribAt s rel) := by
  unfold State.contribAt
  extract_lets x0 x1 x2 x3
  clear_value x0 x1 x2 x3
  split
  · rename_i y4
    exact State.holdRel_kept ..
  · rename_i y5
    split
    · rename_i y6
      exact State.dropStale_kept ..
    · rename_i y7
      exact State.redTake_kept ..

theorem State.retryContribs_kept (s : State) (r : Nat) : Kept s (State.retryContribs s r) := by
  unfold State.retryContribs
  refine .trans ?_ (State.each_kept _ _ _ ?_)
  · exact .rfl
  · intro a0 a1
    split
    · exact .rfl
    · rename_i y3
      exact State.contribAt_kept ..

theorem State.hvForward_kept (s : State) (rel : Rel) {t : State} (h : s.hvForward rel = some t) : Kept s t := by
  unfold State.hvForward at h
  extract_lets m i at h
  split at h
  · cases h
  · split at h
    · cases h
      exact ((State.takeRel_kept ..).trans (State.count32_kept ..)).trans (State.when_kept _ _ _ (State.answerContrib_kept ..))
    · cases h
      exact (State.takeRel_kept ..).trans (State.sendXpt_kept ..)

theorem State.foldRedNext_kept (s : State) (o : Op) : Kept s (State.foldRedNext s o) := by
  unfold State.foldRedNext
  extract_lets x0 x1 x2 x3 x4 x5 x6 x7
  clear_value x0 x1 x2 x3 x4
  have hx5 : Kept s x5 := by
    unfold x5
    refine .trans ?_ (State.readRows_kept ..)
    exact State.setOp_kept ..
  clear_value x5 x6
  have hx7 : Kept s x7 := by
    unfold x7
    refine .trans ?_ (State.setRed_kept ..)
    exact State.setOp_kept ..
  clear_value x7
  split
  · exact .rfl
  · rename_i y9
    split
    · rename_i y10 y11
      split
      · rename_i y12
        refine .trans ?_ (State.retryContribs_kept ..)
        refine .trans ?_ (State.redPhase0_kept ..)
        exact hx5
      · rename_i y13
        exact State.setOp_kept ..
    · rename_i y14 y15
      split
      · exact .rfl
      · rename_i y17
        refine .trans ?_ (State.redCheck_kept ..)
        refine .trans ?_ (State.redAdd_kept ..)
        exact hx7
    · exact .rfl

theorem startReduce_kept (s : State) (tag : Nat) (i : Iss) : Kept s (startReduce s tag i) := by
  unfold startReduce
  extract_lets x0 x1 x2 x3
  clear_value x0 x1
  have hx2 : Kept s x2 := by
    unfold x2
    refine .trans ?_ (State.stagePeak_kept ..)
    refine .trans ?_ (State.setRed_kept ..)
    exact State.takeTag_kept ..
  clear_value x2
  have hx3 : Kept s x3 := by
    unfold x3
    refine .trans ?_ (State.retryContribs_kept ..)
    exact hx2
  clear_value x3
  split
  · rename_i y4
    refine .trans ?_ (State.readRows_kept ..)
    exact hx3
  · rename_i y5
    exact hx3

theorem State.readRecs_kept (s : State) (tag : Nat) (d : Desc) : Kept s (State.readRecs s tag d) := by
  unfold State.readRecs
  extract_lets x0 x1
  clear_value x0 x1
  refine .trans ?_ (State.each_kept _ _ _ ?_)
  · exact .rfl
  · intro a2 a3
    exact State.opRead_kept ..

theorem State.mergeSendNext_kept (s : State) (o : Op) : Kept s (State.mergeSendNext s o) := by
  unfold State.mergeSendNext
  extract_lets x0 x1 x2
  clear_value x0 x1 x2
  split
  · exact .rfl
  · rename_i y4
    refine .trans ?_ (State.updOp_kept ..)
    exact State.hvCount_kept ..

theorem startMergeSend_kept (s : State) (tag : Nat) (i : Iss) : Kept s (startMergeSend s tag i) := by
  unfold startMergeSend
  extract_lets x0
  have hx0 : Kept s x0 := by
    unfold x0
    refine .trans ?_ (State.updOp_kept ..)
    exact State.takeTag_kept ..
  clear_value x0
  split
  · rename_i y1
    refine .trans ?_ (State.updOp_kept ..)
    exact hx0
  · rename_i y2
    refine .trans ?_ (State.readRecs_kept ..)
    exact hx0

theorem State.orphanReads_kept (s : State) (tag : Nat) : Kept s (State.orphanReads s tag) := by
  unfold State.orphanReads
  exact Kept.upd .rfl (Eq.refl _) (Eq.refl _)

theorem State.mrgCheck_kept (s : State) (n : Nat) : Kept s (State.mrgCheck s n) := by
  unfold State.mrgCheck
  extract_lets x0
  clear_value x0
  split
  · rename_i y1
    split
    · rename_i y2 y3 y4
      extract_lets x5 x6
      have hx5 : Kept s x5 := by
        unfold x5
        refine .trans ?_ (State.when_kept _ _ _ ?_)
        · exact .rfl
        · exact State.orphanReads_kept ..
      clear_value x5 x6
      split
      · exact .rfl
      · rename_i y8
        refine .trans ?_ (State.opCheck_kept ..)
        refine .trans ?_ (State.setOp_kept ..)
        exact hx5
    · exact .rfl
  · exact .rfl

theorem State.foldGroup_kept (s : State) (n : Nat) (g : Nat) : Kept s (State.foldGroup s n g) := by
  unfold State.foldGroup
  extract_lets x0
  clear_value x0
  split
  rename_i y1 y2 y3 y4
  split
  rename_i y5 y6 y7 y8
  extract_lets x9 x10
  clear_value x9 x10
  split
  rename_i y11 y12 y13 y14
  extract_lets x15
  have hx15 : Kept s x15 := by
    unfold x15
    refine .trans ?_ (State.count32_kept ..)
    refine .trans ?_ (State.count32_kept ..)
    refine .trans ?_ (State.count32_kept ..)
    refine .trans ?_ (State.setMrg_kept ..)
    refine Kept.of_snd y8 ?_
    exact State.memHit_kept ..
  clear_value x15
  refine .trans ?_ (State.mrgCheck_kept ..)
  refine .trans ?_ (State.each_kept _ _ _ ?_)
  · exact hx15
  · intro a16 a17
    exact State.opWrite_kept ..

theorem State.mrgLast_kept (s : State) (n : Nat) (c : Nat) : Kept s (State.mrgLast s n c) := by
  unfold State.mrgLast
  extract_lets x0 x1
  clear_value x0 x1
  split
  · exact .rfl
  · rename_i y3
    exact State.setMrg_kept ..

theorem State.mrgFault_kept (s : State) (n : Nat) (rel : Rel) : Kept s (State.mrgFault s n rel) := by
  unfold State.mrgFault
  extract_lets x0 x1 x2 x3
  clear_value x0 x1 x2 x3
  split
  rename_i y4 y5 y6 y7
  extract_lets x8 x9 x10 x11 x12
  clear_value x8 x9 x10
  have hx11 : Kept s x11 := by
    unfold x11
    refine .trans ?_ (State.setMrg_kept ..)
    refine .trans ?_ (State.count32_kept ..)
    exact State.takeRel_kept ..
  clear_value x11
  have hx12 : Kept s x12 := by
    unfold x12
    refine .trans ?_ (State.updOp_kept ..)
    exact hx11
  clear_value x12
  refine .trans ?_ (State.mrgCheck_kept ..)
  refine .trans ?_ (State.when_kept _ _ _ ?_)
  · exact hx12
  · exact State.answerContrib_kept ..

theorem State.mrgTake_kept (s : State) (n : Nat) (rel : Rel) : Kept s (State.mrgTake s n rel) := by
  unfold State.mrgTake
  extract_lets x0 x1 x2 x3 x4 x5 x6 x7 x8 x9
  clear_value x0 x1 x2 x3 x4 x5 x6 x7 x8 x9
  split
  · rename_i y10
    exact State.mrgFault_kept ..
  · rename_i y11
    split
    rename_i y12 y13 y14 y15
    extract_lets x16 x17 x18 x19
    clear_value x16 x17 x18
    have hx19 : Kept s x19 := by
      unfold x19
      refine .trans ?_ (State.setMrg_kept ..)
      exact State.takeRel_kept ..
    clear_value x19
    split
    · rename_i y20
      refine .trans ?_ (State.mrgCheck_kept ..)
      refine .trans ?_ (State.answerContrib_kept ..)
      refine .trans ?_ (State.mrgLast_kept ..)
      exact hx19
    · rename_i y21
      exact hx19

theorem State.partialAt_kept (s : State) (rel : Rel) : Kept s (State.partialAt s rel) := by
  unfold State.partialAt
  extract_lets x0 x1 x2 x3 x4
  clear_value x0 x1 x2 x3
  have hx4 : Kept s x4 := by
    unfold x4
    refine .trans ?_ (State.count32_kept ..)
    exact State.takeRel_kept ..
  clear_value x4
  split
  · rename_i y5
    exact State.holdRel_kept ..
  · rename_i y6
    split
    · rename_i y7
      refine .trans ?_ (State.when_kept _ _ _ ?_)
      · exact hx4
      · exact State.answerContrib_kept ..
    · rename_i y8
      exact State.mrgTake_kept ..

theorem State.mergeNext_kept (s : State) (o : Op) : Kept s (State.mergeNext s o) := by
  unfold State.mergeNext
  extract_lets x0 x1 x2 x3 x4 x5 x6 x7 x8 x9
  clear_value x0 x1 x2 x3 x4 x5 x6 x7 x8
  have hx9 : Kept s x9 := by
    unfold x9
    refine .trans ?_ (State.count32_kept ..)
    refine .trans ?_ (State.count32_kept ..)
    exact State.setMrg_kept ..
  clear_value x9
  split
  · exact .rfl
  · rename_i y11
    split
    · rename_i y12
      refine .trans ?_ (State.mrgCheck_kept ..)
      exact State.setOp_kept ..
    · rename_i y13
      refine .trans ?_ (State.mrgCheck_kept ..)
      refine .trans ?_ (State.mrgLast_kept ..)
      refine .trans ?_ (State.setOp_kept ..)
      exact hx9

theorem startMerge_kept (s : State) (tag : Nat) (i : Iss) : Kept s (startMerge s tag i) := by
  unfold startMerge
  extract_lets x0 x1 x2
  clear_value x0
  have hx1 : Kept s x1 := by
    unfold x1
    refine .trans ?_ (State.stagePeak_kept ..)
    refine .trans ?_ (State.setMrg_kept ..)
    exact State.takeTag_kept ..
  clear_value x1
  have hx2 : Kept s x2 := by
    unfold x2
    refine .trans ?_ (State.each_kept _ _ _ ?_)
    · exact hx1
    · intro a3 a4
      split
      · exact .rfl
      · rename_i y6
        exact State.partialAt_kept ..
  clear_value x2
  split
  · rename_i y7
    refine .trans ?_ (State.readRecs_kept ..)
    exact hx2
  · rename_i y8
    exact hx2

theorem State.readMap_kept (s : State) : Kept s (State.readMap s) := by
  unfold State.readMap
  exact State.eccReads_kept ..

theorem State.dispNext_kept (s : State) (o : Op) : Kept s (State.dispNext s o) := by
  unfold State.dispNext
  extract_lets x0 x1 x2 x3 x4 x5 x6 x7 x8 x9 x10 x11 x12 x13
  clear_value x0 x1 x2 x3 x4 x5 x6 x7 x8
  subst x9
  clear_value x10 x11 x12
  have hx13 : Kept s x13 := by
    unfold x13
    refine .trans ?_ (State.hvCount_kept ..)
    refine .trans ?_ (State.stagePeak_kept ..)
    refine .trans ?_ (State.setDsl_kept ..)
    exact State.setOp_kept ..
  clear_value x13
  split
  · exact .rfl
  · rename_i y15
    refine .trans ?_ (State.sendMade_kept ..)
    exact hx13

theorem startDispatch_kept (s : State) (tag : Nat) (i : Iss) : Kept s (startDispatch s tag i) := by
  unfold startDispatch
  extract_lets x0 x1 x2 x3 x4
  have hx0 : Kept s x0 := by
    unfold x0
    refine .trans ?_ (State.updOp_kept ..)
    refine .trans ?_ (State.takeTag_kept ..)
    exact State.readMap_kept ..
  clear_value x0 x1
  have hx2 : Kept s x2 := by
    unfold x2
    refine .trans ?_ (State.setDsl_kept ..)
    exact hx0
  clear_value x2
  have hx3 : Kept s x3 := by
    unfold x3
    refine .trans ?_ (State.each_kept _ _ _ ?_)
    · exact hx2
    · intro a5 a6
      exact State.opRead_kept ..
  clear_value x3
  have hx4 : Kept s x4 := by
    unfold x4
    refine .trans ?_ (State.readRows_kept ..)
    exact hx3
  clear_value x4
  split
  · rename_i y7 y8 y9
    refine .trans ?_ (State.dispNext_kept ..)
    exact hx4
  · rename_i y10 y11
    exact hx4

theorem State.flushDslot_kept (s : State) (d : Nat) : Kept s (State.flushDslot s d) := by
  unfold State.flushDslot
  extract_lets x0
  clear_value x0
  split
  · rename_i y1
    exact State.setDsl_kept ..
  · rename_i y2
    refine .trans ?_ (State.setDsl_kept ..)
    exact State.count32_kept ..

theorem State.cmbSendNext_kept (s : State) (o : Op) : Kept s (State.cmbSendNext s o) := by
  unfold State.cmbSendNext
  extract_lets x0 x1 x2 x3 x4 x5 x6 x7
  clear_value x0 x1 x2
  have hx3 : Kept s x3 := by
    unfold x3
    exact State.setOp_kept ..
  clear_value x3
  have hx4 : Kept s x4 := by
    unfold x4
    refine .trans ?_ (State.each_kept _ _ _ ?_)
    · exact hx3
    · intro a8 a9
      exact State.opRead_kept ..
  clear_value x4 x5 x6 x7
  split
  · exact .rfl
  · rename_i y11
    split
    · rename_i y12 y13
      split
      · rename_i y14
        exact State.setOp_kept ..
      · rename_i y15
        refine .trans ?_ (State.each_kept _ _ _ ?_)
        · exact hx4
        · intro a16 a17
          exact State.readRows_kept ..
    · rename_i y18 y19
      refine .trans ?_ (State.opCheck_kept ..)
      exact State.setOp_kept ..
    · exact .rfl

theorem startCmbSend_kept (s : State) (tag : Nat) (i : Iss) : Kept s (startCmbSend s tag i) := by
  unfold startCmbSend
  extract_lets x0
  have hx0 : Kept s x0 := by
    unfold x0
    refine .trans ?_ (State.updOp_kept ..)
    refine .trans ?_ (State.takeTag_kept ..)
    exact State.readMap_kept ..
  clear_value x0
  split
  · rename_i y1
    refine .trans ?_ (State.updOp_kept ..)
    exact hx0
  · rename_i y2
    refine .trans ?_ (State.each_kept _ _ _ ?_)
    · exact hx0
    · intro a3 a4
      exact State.opRead_kept ..

theorem State.cmbCheck_kept (s : State) (d : Nat) : Kept s (State.cmbCheck s d) := by
  unfold State.cmbCheck
  extract_lets x0 x1
  clear_value x0 x1
  split
  · rename_i y2
    split
    · rename_i y3 y4 y5
      extract_lets x6
      clear_value x6
      split
      · exact .rfl
      · rename_i y8
        refine .trans ?_ (State.opCheck_kept ..)
        exact State.setOp_kept ..
    · exact .rfl
  · exact .rfl

theorem State.cmbWrite_kept (s : State) (d : Nat) (e : TokEnt) : Kept s (State.cmbWrite s d e) := by
  unfold State.cmbWrite
  extract_lets x0
  clear_value x0
  split
  · exact .rfl
  · rename_i y3 y4 y5
    extract_lets x6
    clear_value x6
    split
    rename_i y7 y8 y9 y10
    split
    rename_i y11 y12 y13 y14 y15
    split
    rename_i y16 y17 y18 y19
    extract_lets x20 x21 x22
    clear_value x20 x21
    have hx22 : Kept s x22 := by
      unfold x22
      refine .trans ?_ (State.count32_kept ..)
      refine .trans ?_ (State.count32_kept ..)
      refine .trans ?_ (State.setCmb_kept ..)
      refine Kept.of_snd y19 ?_
      split
      · rename_i y23
        exact State.memHit_kept ..
      · rename_i y24
        dsimp only
        exact .rfl
    clear_value x22
    refine .trans ?_ (State.each_kept _ _ _ ?_)
    · exact hx22
    · intro a25 a26
      exact State.opWrite_kept ..

theorem State.cmbFold_kept (s : State) (d : Nat) : Kept s (State.cmbFold s d) := by
  unfold State.cmbFold
  extract_lets x0 x1
  clear_value x0 x1
  refine .trans ?_ (State.cmbCheck_kept ..)
  refine .trans ?_ (State.each_kept _ _ _ ?_)
  · exact .rfl
  · intro a2 a3
    exact State.cmbWrite_kept ..

theorem State.cmbAnswer_kept (s : State) (x : Cmb) (m : Msg) : Kept s (State.cmbAnswer s x m) := by
  unfold State.cmbAnswer
  split
  rename_i y0 y1 y2 y3
  refine .trans ?_ (State.when_kept _ _ _ ?_)
  · exact .rfl
  · exact State.answerContrib_kept ..

theorem State.cmbFault_kept (s : State) (d : Nat) (rel : Rel) : Kept s (State.cmbFault s d rel) := by
  unfold State.cmbFault
  extract_lets x0 x1
  clear_value x0 x1
  split
  rename_i y2 y3 y4 y5
  extract_lets x6 x7 x8 x9
  clear_value x6 x7
  have hx8 : Kept s x8 := by
    unfold x8
    refine .trans ?_ (State.setCmb_kept ..)
    refine .trans ?_ (State.count32_kept ..)
    exact State.takeRel_kept ..
  clear_value x8
  have hx9 : Kept s x9 := by
    unfold x9
    refine .trans ?_ (State.updOp_kept ..)
    exact hx8
  clear_value x9
  refine .trans ?_ (State.cmbCheck_kept ..)
  refine .trans ?_ (State.cmbAnswer_kept ..)
  exact hx9

theorem State.cmbTake_kept (s : State) (d : Nat) (rel : Rel) : Kept s (State.cmbTake s d rel) := by
  unfold State.cmbTake
  extract_lets x0 x1 x2 x3 x4 x5 x6 x7 x8
  clear_value x0 x1 x2 x3 x4 x5 x6 x7 x8
  split
  · rename_i y9 y10
    exact State.cmbFault_kept ..
  · rename_i y11 y12 y13
    extract_lets x14 x15 x16 x17 x18
    clear_value x14 x15 x16 x17 x18
    split
    · rename_i y19
      exact State.cmbFault_kept ..
    · rename_i y20
      split
      rename_i y21 y22 y23 y24
      extract_lets x25 x26 x27
      clear_value x25 x26
      have hx27 : Kept s x27 := by
        unfold x27
        refine .trans ?_ (State.count32_kept ..)
        refine .trans ?_ (State.count32_kept ..)
        refine .trans ?_ (State.setCmb_kept ..)
        exact State.takeRel_kept ..
      clear_value x27
      refine .trans ?_ (State.cmbFold_kept ..)
      refine .trans ?_ (State.cmbAnswer_kept ..)
      exact hx27

theorem State.expertAt_kept (s : State) (rel : Rel) : Kept s (State.expertAt s rel) := by
  unfold State.expertAt
  extract_lets x0 x1 x2 x3 x4
  clear_value x0 x1 x2 x3
  have hx4 : Kept s x4 := by
    unfold x4
    refine .trans ?_ (State.count32_kept ..)
    exact State.takeRel_kept ..
  clear_value x4
  split
  · rename_i y5
    exact State.holdRel_kept ..
  · rename_i y6
    split
    · rename_i y7
      refine .trans ?_ (State.when_kept _ _ _ ?_)
      · exact hx4
      · exact State.answerContrib_kept ..
    · rename_i y8
      split
      · rename_i y9
        exact State.holdRel_kept ..
      · rename_i y10
        exact State.cmbTake_kept ..

theorem State.retryExperts_kept (s : State) (d : Nat) : Kept s (State.retryExperts s d) := by
  unfold State.retryExperts
  refine .trans ?_ (State.each_kept _ _ _ ?_)
  · exact .rfl
  · intro a0 a1
    split
    · exact .rfl
    · rename_i y3
      exact State.expertAt_kept ..

theorem State.cmbOpen_kept (s : State) (o : Op) : Kept s (State.cmbOpen s o) := by
  unfold State.cmbOpen
  extract_lets x0 x1 x2 x3 x4 x5 x6 x7 x8 x9 x10 x11 x12
  clear_value x0 x1 x2 x3 x4
  subst x5
  clear_value x6 x7 x8 x9
  have hx10 : Kept s x10 := by
    unfold x10
    refine .trans ?_ (State.stagePeak_kept ..)
    refine .trans ?_ (State.setCmb_kept ..)
    extract_lets 
    refine .trans ?_ (State.advance_kept ..)
    extract_lets x13
    exact Kept.upd .rfl (Eq.refl _) (Eq.refl _)
  clear_value x10
  have hx11 : Kept s x11 := by
    unfold x11
    refine .trans ?_ (State.setOp_kept ..)
    exact hx10
  clear_value x11
  have hx12 : Kept s x12 := by
    unfold x12
    refine .trans ?_ (State.retryExperts_kept ..)
    exact hx11
  clear_value x12
  split
  · rename_i y14
    refine .trans ?_ (State.opCheck_kept ..)
    refine .trans ?_ (State.setOp_kept ..)
    extract_lets 
    refine .trans ?_ (State.advance_kept ..)
    extract_lets x15
    exact Kept.upd .rfl (Eq.refl _) (Eq.refl _)
  · rename_i y16
    split
    · exact .rfl
    · rename_i y18
      refine .trans ?_ (State.opRead_kept ..)
      exact hx12

theorem State.cmbNext_kept (s : State) (o : Op) : Kept s (State.cmbNext s o) := by
  unfold State.cmbNext
  extract_lets x0 x1 x2 x3 x4 x5 x6 x7 x8 x9 x10 x11 x12 x13
  clear_value x0 x1 x2
  subst x3
  clear_value x4 x5 x6
  have hx7 : Kept s x7 := by
    unfold x7
    exact State.setCmb_kept ..
  clear_value x7
  have hx8 : Kept s x8 := by
    unfold x8
    refine .trans ?_ (State.setOp_kept ..)
    exact hx7
  clear_value x8 x9 x10 x11 x12
  have hx13 : Kept s x13 := by
    unfold x13
    refine .trans ?_ (State.setOp_kept ..)
    exact State.setCmb_kept ..
  clear_value x13
  split
  · exact .rfl
  · rename_i y15
    split
    · rename_i y16 y17
      refine .trans ?_ (State.cmbOpen_kept ..)
      exact State.setOp_kept ..
    · rename_i y18 y19
      refine .trans ?_ (State.each_kept _ _ _ ?_)
      · exact hx8
      · intro a20 a21
        exact State.opRead_kept ..
    · rename_i y22 y23
      refine .trans ?_ (State.cmbFold_kept ..)
      refine .trans ?_ (State.retryExperts_kept ..)
      exact hx13
    · exact .rfl

theorem startCollect_kept (s : State) (tag : Nat) (i : Iss) : Kept s (startCollect s tag i) := by
  unfold startCollect
  extract_lets x0 x1 x2 x3 x4
  clear_value x0
  have hx2 : Kept s x2 := by
    unfold x2
    exact Kept.upd .rfl (Eq.refl _) (Eq.refl _)
  clear_value x2 x3
  have hx4 : Kept s x4 := by
    unfold x4
    refine .trans ?_ (State.setCmb_kept ..)
    exact hx2
  clear_value x4
  refine .trans ?_ (State.opRead_kept ..)
  exact hx4

theorem State.shadowWrite_kept (s : State) (off : Nat) (d : W32) : Kept s (State.shadowWrite s off d) := by
  unfold State.shadowWrite
  extract_lets x0 x1 x2
  clear_value x0 x1
  have hx2 : Kept s x2 := by
    unfold x2
    exact Kept.upd .rfl (Eq.refl _) (Eq.refl _)
  clear_value x2
  split
  · exact .rfl
  · rename_i y4
    refine .trans ?_ (State.setSh_kept ..)
    exact hx2

theorem State.holdShadow_kept (s : State) (off : Nat) (d : W32) : Kept s (State.holdShadow s off d) := by
  unfold State.holdShadow
  extract_lets x0
  clear_value x0
  exact Kept.upd .rfl (Eq.refl _) (Eq.refl _)

theorem State.commitState_kept (s : State) (st : Nat) (viaSeq : Bool) : Kept s (State.commitState s st viaSeq) := by
  unfold State.commitState
  refine .trans ?_ (State.setRf_kept ..)
  exact State.setRf_kept ..

theorem State.commitReq_kept (s : State) (target : Option Nat) (viaSeq : Bool) (flag : Option Nat) : Kept s (State.commitReq s target viaSeq
    flag).2 := by
  unfold State.commitReq
  extract_lets x0 x1 x2
  have hx0 : Kept s x0 := by
    unfold x0
    exact State.commitState_kept ..
  clear_value x0 x1
  have hx2 : Kept s x2 := by
    unfold x2
    exact State.commitState_kept ..
  clear_value x2
  split
  · rename_i y3
    dsimp only
    exact State.setBit_kept ..
  · rename_i y4
    split
    · rename_i y5
      dsimp only
      refine Kept.upd ?_ (Eq.refl _) (Eq.refl _)
      exact hx0
    · rename_i y6
      dsimp only
      refine Kept.upd ?_ (Eq.refl _) (Eq.refl _)
      exact hx2

theorem State.portCommit_kept (s : State) (next : Bool) : Kept s (State.portCommit s next) := by
  unfold State.portCommit
  extract_lets x0
  clear_value x0
  split
  · rename_i y1 y2 y3
    split
    · rename_i y4
      split
      rename_i y5 y6 y7 y8
      split
      · rename_i y9
        split
        · rename_i y10 y11 y12
          refine .trans ?_ (State.setFlag_kept ..)
          refine .trans ?_ (State.setBit_kept ..)
          refine Kept.of_snd y8 ?_
          refine .trans ?_ (State.commitReq_kept ..)
          exact Kept.upd .rfl (Eq.refl _) (Eq.refl _)
        · rename_i y13 y14
          refine .trans ?_ (State.setBit_kept ..)
          refine Kept.of_snd y8 ?_
          refine .trans ?_ (State.commitReq_kept ..)
          exact Kept.upd .rfl (Eq.refl _) (Eq.refl _)
      · exact .rfl
    · rename_i y16
      exact State.commitReq_kept ..
  · rename_i y17 y18
    split
    rename_i y19 y20 y21 y22
    split
    · rename_i y23
      refine .trans ?_ (State.when_kept _ _ _ ?_)
      · refine Kept.of_snd y22 ?_
        exact State.commitReq_kept ..
      · exact State.setBit_kept ..
    · rename_i y24
      refine .trans ?_ (State.when_kept _ _ _ ?_)
      · refine Kept.of_snd y22 ?_
        exact State.commitReq_kept ..
      · exact State.commitState_kept ..

theorem State.commitCancel_kept (s : State) : Kept s (State.commitCancel s) := by
  unfold State.commitCancel
  split
  · exact .rfl
  · rename_i y2 y3 y4
    extract_lets x5
    have hx5 : Kept s x5 := by
      unfold x5
      exact State.commitState_kept ..
    clear_value x5
    refine Kept.upd ?_ (Eq.refl _) (Eq.refl _)
    exact hx5

theorem State.commitRevert_kept (s : State) : Kept s (State.commitRevert s) := by
  unfold State.commitRevert
  extract_lets x0 x1 x2
  clear_value x0 x1
  have hx2 : Kept s x2 := by
    unfold x2
    exact Kept.upd .rfl (Eq.refl _) (Eq.refl _)
  clear_value x2
  split
  · exact .rfl
  · rename_i y4
    refine .trans ?_ (State.activeToShadow_kept ..)
    exact hx2

theorem State.writeCommit_kept (s : State) (d : W32) : Kept s (State.writeCommit s d) := by
  unfold State.writeCommit
  extract_lets x0 x1 x2 x3 x4 x5
  have hx0 : Kept s x0 := by
    unfold x0
    exact State.setRf_kept ..
  clear_value x0 x1
  have hx2 : Kept s x2 := by
    unfold x2
    split
    · rename_i y6
      refine Kept.upd ?_ (Eq.refl _) (Eq.refl _)
      exact hx0
    · rename_i y7
      exact hx0
  clear_value x2
  have hx3 : Kept s x3 := by
    unfold x3
    refine .trans ?_ (State.when_kept _ _ _ ?_)
    · exact hx2
    · exact State.commitCancel_kept ..
  clear_value x3
  have hx4 : Kept s x4 := by
    unfold x4
    refine .trans ?_ (State.when_kept _ _ _ ?_)
    · exact hx3
    · exact State.commitRevert_kept ..
  clear_value x4
  have hx5 : Kept s x5 := by
    unfold x5
    split
    · rename_i y8
      refine Kept.upd ?_ (Eq.refl _) (Eq.refl _)
      exact hx4
    · rename_i y9
      exact hx4
  clear_value x5
  refine .trans ?_ (State.when_kept _ _ _ ?_)
  · exact hx5
  · exact State.portCommit_kept ..

theorem State.commitApply_kept (s : State) : Kept s (State.commitApply s) := by
  unfold State.commitApply
  extract_lets x0 x1 x2 x3 x4
  clear_value x0
  have hx1 : Kept s x1 := by
    unfold x1
    exact State.shadowToActive_kept ..
  clear_value x1
  have hx2 : Kept s x2 := by
    unfold x2
    refine .trans ?_ (State.setRg64_kept ..)
    exact hx1
  clear_value x2 x3 x4
  refine Kept.upd ?_ (Eq.refl _) (Eq.refl _)
  exact hx2

theorem State.commitSolstice_kept (s : State) (t : Nat) : Kept s (State.commitSolstice s t) := by
  unfold State.commitSolstice
  split
  · exact .rfl
  · rename_i y2 y3 y4
    extract_lets x5 x6
    clear_value x5
    have hx6 : Kept s x6 := by
      unfold x6
      exact Kept.upd .rfl (Eq.refl _) (Eq.refl _)
    clear_value x6
    split
    · exact .rfl
    · rename_i y8
      split
      · rename_i y9
        refine .trans ?_ (State.commitState_kept ..)
        exact hx6
      · rename_i y10
        split
        · rename_i y11 y12 y13 y14
          refine .trans ?_ (State.setRf_kept ..)
          refine .trans ?_ (State.commitState_kept ..)
          exact hx6
        · rename_i y15 y16
          split
          · rename_i y17
            refine .trans ?_ (State.commitState_kept ..)
            exact hx6
          · rename_i y18
            refine .trans ?_ (State.commitState_kept ..)
            refine .trans ?_ (State.commitApply_kept ..)
            exact hx6

theorem State.unpinEnt_kept (s : State) (tag : Nat) (k : Nat) (x : PgEnt) : Kept s (State.unpinEnt s tag k x) := by
  unfold State.unpinEnt
  extract_lets x0
  have hx0 : Kept s x0 := by
    unfold x0
    exact State.readSet_kept ..
  clear_value x0
  split
  · rename_i y1
    exact State.pageOut_kept ..
  · rename_i y2
    split
    · rename_i y3
      exact State.pageOut_kept ..
    · rename_i y4
      split
      · rename_i y5 y6 y7
        extract_lets x8
        clear_value x8
        split
        · rename_i y9
          refine .trans ?_ (State.pageOut_kept ..)
          exact hx0
        · rename_i y10
          refine .trans ?_ (State.pageOut_kept ..)
          refine .trans ?_ (State.retireWay_kept ..)
          refine .trans ?_ (State.setTag_kept ..)
          exact hx0
      · rename_i y11 y12
        refine .trans ?_ (State.pageOut_kept ..)
        exact hx0

theorem State.atomicEnt_kept (s : State) (o : Op) (k : Nat) (x : PgEnt) : Kept s (State.atomicEnt s o k x) := by
  unfold State.atomicEnt
  extract_lets x0 x1 x2
  clear_value x0 x1 x2
  split
  · rename_i y3
    refine .trans ?_ (State.takeRecord_kept ..)
    exact State.fresh_kept ..
  · rename_i y4
    split
    · rename_i y5
      exact State.pageOut_kept ..
    · rename_i y6
      split
      · rename_i y7
        exact State.pageOut_kept ..
      · rename_i y8
        exact State.sendPaged_kept ..

theorem State.pgEnt_kept (s : State) (o : Op) (k : Nat) : Kept s (State.pgEnt s o k) := by
  unfold State.pgEnt
  split
  · exact .rfl
  · rename_i y2 y3 y4
    split
    · exact .rfl
    · rename_i y6
      split
      · rename_i y7 y8
        exact State.unpinEnt_kept ..
      · rename_i y9 y10
        exact State.atomicEnt_kept ..
      · rename_i y11 y12 y13
        exact State.fetchEnt_kept ..

theorem State.gatherDone_kept (s : State) (o : Op) : Kept s (State.gatherDone s o) := by
  unfold State.gatherDone
  extract_lets x0 x1 x2 x3
  clear_value x0 x1 x2
  have hx3 : Kept s x3 := by
    unfold x3
    refine .trans ?_ (State.opWrite_kept ..)
    exact State.setOp_kept ..
  clear_value x3
  refine .trans ?_ (State.each_kept _ _ _ ?_)
  · exact hx3
  · intro a4 a5
    exact State.fetchEnt_kept ..

theorem State.pgNext_kept (s : State) (o : Op) : Kept s (State.pgNext s o) := by
  unfold State.pgNext
  extract_lets x0 x1 x2 x3 x4
  clear_value x0 x1
  have hx2 : Kept s x2 := by
    unfold x2
    exact State.setOp_kept ..
  clear_value x2
  have hx3 : Kept s x3 := by
    unfold x3
    exact State.setOp_kept ..
  clear_value x3
  have hx4 : Kept s x4 := by
    unfold x4
    split
    · rename_i y5
      refine .trans ?_ (State.opWrite_kept ..)
      exact hx3
    · rename_i y6
      exact hx3
  clear_value x4
  split
  · exact .rfl
  · rename_i y8
    split
    · rename_i y9 y10
      refine .trans ?_ (State.each_kept _ _ _ ?_)
      · exact hx2
      · intro a11 a12
        split
        · rename_i y13
          exact State.pageOut_kept ..
        · rename_i y14
          exact State.pgEnt_kept ..
    · rename_i y15 y16
      refine .trans ?_ (State.walkNext_kept _ _ _ _ ?_ ?_)
      · exact .rfl
      · intro a17 a18
        exact State.gatherDone_kept ..
      · intro a19 a20
        refine .trans ?_ (State.opCheck_kept ..)
        exact State.setOp_kept ..
    · rename_i y21 y22
      refine .trans ?_ (State.walkNext_kept _ _ _ _ ?_ ?_)
      · exact .rfl
      · intro a23 a24
        exact State.gatherDone_kept ..
      · intro a25 a26
        refine .trans ?_ (State.opCheck_kept ..)
        exact State.setOp_kept ..
    · rename_i y27 y28
      refine .trans ?_ (State.walkNext_kept _ _ _ _ ?_ ?_)
      · exact .rfl
      · intro a29 a30
        exact State.gatherDone_kept ..
      · intro a31 a32
        refine .trans ?_ (State.opCheck_kept ..)
        exact State.setOp_kept ..
    · rename_i y33 y34
      split
      · exact .rfl
      · rename_i y36
        refine .trans ?_ (State.opCheck_kept ..)
        exact hx4
    · exact .rfl

theorem State.pagePump_kept (s : State) : Kept s (State.pagePump s) := by
  unfold State.pagePump
  refine .trans ?_ (State.each_kept _ _ _ ?_)
  · exact .rfl
  · intro a0 a1
    split
    · exact .rfl
    · rename_i y4 y5 y6
      split
      · exact .rfl
      · rename_i y8
        split
        · rename_i y9
          exact State.xferGo_kept ..
        · rename_i y10
          split
          · rename_i y11
            exact State.pgNext_kept ..
          · exact .rfl

theorem startPage_kept (s : State) (tag : Nat) (i : Iss) : Kept s (startPage s tag i) := by
  unfold startPage
  extract_lets x0
  have hx0 : Kept s x0 := by
    unfold x0
    exact State.takeTag_kept ..
  clear_value x0
  split
  · rename_i y1
    refine .trans ?_ (State.walkHeader_kept ..)
    exact hx0
  · rename_i y2
    split
    · rename_i y3
      refine .trans ?_ (State.updOp_kept ..)
      exact hx0
    · rename_i y4
      refine .trans ?_ (State.opRead_kept ..)
      exact hx0

theorem State.pageIssue_kept (s : State) (op : Nat) : Kept s (State.pageIssue s op) := by
  unfold State.pageIssue
  refine .trans ?_ (State.engineIssue_kept _ _ _ _ _ _ ?_)
  · exact .rfl
  · intro a0 a1 a2
    exact startPage_kept ..

theorem State.recordPort_kept (s : State) (stream : Nat) (kind : BitVec 8) (is : Msg → Bool) : Kept s (State.recordPort s stream kind is) := by
  unfold State.recordPort
  split
  · rename_i y0 y1 y2
    split
    · exact .rfl
    · rename_i y4
      refine .trans ?_ (State.startChecks_kept ..)
      refine .trans ?_ (State.takeRecord_kept ..)
      exact State.takeRel_kept ..
  · exact .rfl

theorem State.respForward_kept (s : State) (r : Rel) (orig : Nat) {t : State} (h : s.respForward r orig = some t) : Kept s t := by
  unfold State.respForward at h
  split at h
  · cases h
  · split at h
    · cases h
      exact (State.takeRel_kept ..).trans (State.count32_kept ..)
    · cases h
      exact (State.takeRel_kept ..).trans (State.sendXpt_kept ..)

theorem State.flushTags_kept (s : State) (es : List Nat) : Kept s (State.flushTags s es) := by
  unfold State.flushTags
  refine .trans ?_ (State.each_kept _ _ _ ?_)
  · exact .rfl
  · intro a0 a1
    refine .trans ?_ (State.when_kept _ _ _ ?_)
    · exact .rfl
    · exact State.evictTag_kept ..

theorem State.flushGo_kept (s : State) : Kept s (State.flushGo s) := by
  unfold State.flushGo
  extract_lets x0 x1
  clear_value x0
  have hx1 : Kept s x1 := by
    unfold x1
    exact State.flushTags_kept ..
  clear_value x1
  split
  · exact .rfl
  · rename_i y3
    refine .trans ?_ (State.setRf_kept ..)
    refine Kept.upd ?_ (Eq.refl _) (Eq.refl _)
    exact hx1

theorem State.writeRpcCfg_kept (s : State) (d : W32) : Kept s (State.writeRpcCfg s d) := by
  unfold State.writeRpcCfg
  extract_lets x0 x1 x2 x3 x4
  clear_value x0
  have hx1 : Kept s x1 := by
    unfold x1
    exact State.setRf_kept ..
  clear_value x1
  have hx2 : Kept s x2 := by
    unfold x2
    refine .trans ?_ (State.when_kept _ _ _ ?_)
    · exact hx1
    · exact State.setRf_kept ..
  clear_value x2 x3
  have hx4 : Kept s x4 := by
    unfold x4
    split
    · rename_i y5
      refine .trans ?_ (State.setRf_kept ..)
      exact hx2
    · rename_i y6
      split
      · rename_i y7
        exact hx2
      · rename_i y8
        refine .trans ?_ (State.setRf_kept ..)
        exact hx2
  clear_value x4
  split
  · rename_i y9
    refine .trans ?_ (State.holdShadow_kept ..)
    exact hx4
  · rename_i y10
    refine .trans ?_ (State.shadowWrite_kept ..)
    exact hx4

theorem State.block_kept (s : State) (x : WaitSt) : Kept s (State.block s x) := by
  unfold State.block
  extract_lets x0
  exact Kept.upd .rfl (Eq.refl _) (Eq.refl _)

theorem State.waitReached_kept (s : State) (ev : Nat) (fl : Option Nat) (trapErr : Bool) : Kept s (State.waitReached s ev fl trapErr) := by
  unfold State.waitReached
  extract_lets x0
  clear_value x0
  split
  · rename_i y1
    exact State.trap_kept ..
  · rename_i y2
    refine .trans ?_ (State.unblock_kept ..)
    split
    · rename_i y3 y4
      exact State.setFlag_kept ..
    · exact .rfl

theorem startSignal_kept (s : State) (tag : Nat) (i : Iss) : Kept s (startSignal s tag i) := by
  unfold startSignal
  extract_lets x0 x1 x2
  clear_value x0 x1 x2
  split
  · rename_i y3
    exact State.takeTag_kept ..
  · rename_i y4
    exact State.takeTag_kept ..

theorem State.opNext_kept (s : State) (o : Op) : Kept s (State.opNext s o) := by
  unfold State.opNext
  split
  · rename_i y0 y1
    exact State.xferNext_kept ..
  · rename_i y2 y3
    exact State.xferNext_kept ..
  · rename_i y4 y5
    exact State.xferNext_kept ..
  · rename_i y6 y7
    exact State.xferNext_kept ..
  · rename_i y8 y9
    exact State.xferNext_kept ..
  · rename_i y10 y11
    exact State.convNext_kept ..
  · rename_i y12 y13
    split
    · rename_i y14
      exact State.foldRedNext_kept ..
    · rename_i y15
      exact State.foldSendNext_kept ..
  · rename_i y16 y17
    split
    · rename_i y18
      exact State.mergeNext_kept ..
    · rename_i y19
      exact State.mergeSendNext_kept ..
  · rename_i y20 y21
    split
    · rename_i y22
      exact State.cmbNext_kept ..
    · rename_i y23
      exact State.cmbSendNext_kept ..
  · rename_i y24 y25
    exact State.dispNext_kept ..
  · rename_i y26 y27
    exact State.pgNext_kept ..
  · rename_i y28 y29
    exact State.pgNext_kept ..
  · rename_i y30 y31
    exact State.pgNext_kept ..
  · rename_i y32 y33
    exact State.pgNext_kept ..
  · rename_i y34 y35
    exact State.pgNext_kept ..
  · exact .rfl

theorem State.pumpOp_kept (n : Nat) (s : State) (tag : Nat) : Kept s (State.pumpOp n s tag) := by
  induction n generalizing s with
  | zero => exact .rfl
  | succ n ih =>
    unfold State.pumpOp
    split
    · exact .rfl
    · split
      · exact .rfl
      · exact (State.opNext_kept ..).trans (ih _)

theorem State.pump_kept (s : State) : Kept s (State.pump s) := by
  unfold State.pump
  refine .trans ?_ (State.each_kept _ _ _ ?_)
  · exact .rfl
  · intro a0 a1
    exact State.pumpOp_kept ..

theorem startStalled_kept (s : State) (tag : Nat) (i : Iss) : Kept s (startStalled s tag i) := by
  unfold startStalled
  split
  · rename_i y0 y1
    exact startSignal_kept ..
  · rename_i y2 y3
    exact startXfer_kept ..
  · rename_i y4 y5
    exact startXfer_kept ..
  · rename_i y6 y7
    exact startXfer_kept ..
  · rename_i y8 y9
    exact startXfer_kept ..
  · rename_i y10 y11
    exact startXfer_kept ..
  · rename_i y12 y13
    split
    · rename_i y14
      exact startReduce_kept ..
    · rename_i y15
      exact startFoldSend_kept ..
  · rename_i y16 y17
    split
    · rename_i y18
      exact startMerge_kept ..
    · rename_i y19
      exact startMergeSend_kept ..
  · rename_i y20 y21
    split
    · rename_i y22
      exact startCollect_kept ..
    · rename_i y23
      exact startCmbSend_kept ..
  · rename_i y24 y25
    exact startDispatch_kept ..
  · rename_i y26 y27
    exact startPage_kept ..
  · rename_i y28 y29
    exact startPage_kept ..
  · rename_i y30 y31
    exact startPage_kept ..
  · rename_i y32 y33
    exact startPage_kept ..
  · rename_i y34 y35
    exact startPage_kept ..
  · rename_i y36 y37 y38 y39 y40 y41 y42 y43 y44 y45 y46 y47 y48 y49 y50 y51
    exact startConvert_kept ..

theorem State.sendSb_kept (s : State) (m : Nat) (code : Nat) (ws : List W64) : Kept s (State.sendSb s m code ws) := by
  unfold State.sendSb
  exact State.emit_kept ..

theorem State.sbSent_kept (s : State) (m : Nat) : Kept s (State.sbSent s m) := by
  unfold State.sbSent
  exact State.updMod_kept ..

theorem State.setLatMin_kept (s : State) : Kept s (State.setLatMin s) := by
  unfold State.setLatMin
  extract_lets x0 x1
  clear_value x0
  have hx1 : Kept s x1 := by
    unfold x1
    exact State.setRf_kept ..
  clear_value x1
  split
  · exact .rfl
  · rename_i y3
    split
    · rename_i y4
      refine .trans ?_ (State.when_kept _ _ _ ?_)
      · refine .trans ?_ (State.setBit_kept ..)
        exact hx1
      · exact State.irq_kept ..
    · rename_i y5
      exact hx1

theorem State.updTwin_kept (s : State) (f : Twin → Twin) : Kept s (State.updTwin s f) := by
  unfold State.updTwin
  exact Kept.upd .rfl (Eq.refl _) (Eq.refl _)

theorem State.freeze_kept (s : State) (ns : List Nat) (hold : Bool) : Kept s (State.freeze s ns hold) := by
  unfold State.freeze
  refine .trans ?_ (State.each_kept _ _ _ ?_)
  · exact .rfl
  · intro a0 a1
    exact State.updStrm_kept ..

theorem State.failOwn_kept (s : State) : Kept s (State.failOwn s) := by
  unfold State.failOwn
  extract_lets x0 x1
  clear_value x0
  have hx1 : Kept s x1 := by
    unfold x1
    exact State.updTwin_kept ..
  clear_value x1
  refine .trans ?_ (State.twinEvent_kept ..)
  refine .trans ?_ (State.freeze_kept ..)
  exact hx1

theorem State.sendHeartbeat_kept (s : State) : Kept s (State.sendHeartbeat s) := by
  unfold State.sendHeartbeat
  refine .trans ?_ (State.emit_kept ..)
  exact State.updTwin_kept ..

theorem State.twinCheck_kept (s : State) : Kept s (State.twinCheck s) := by
  unfold State.twinCheck
  split
  · rename_i y0
    refine .trans ?_ (State.sendHeartbeat_kept ..)
    exact State.failOwn_kept ..
  · exact .rfl

theorem State.twinRepaired_kept (s : State) : Kept s (State.twinRepaired s) := by
  unfold State.twinRepaired
  extract_lets x0
  clear_value x0
  split
  · rename_i y1
    refine .trans ?_ (State.updTwin_kept ..)
    refine .trans ?_ (State.each_kept _ _ _ ?_)
    · exact .rfl
    · intro a2 a3
      exact State.updStrm_kept ..
  · exact .rfl

theorem State.linkCheck_kept (s : State) : Kept s (State.linkCheck s) := by
  unfold State.linkCheck
  extract_lets x0
  clear_value x0
  refine .trans ?_ (State.twinCheck_kept ..)
  split
  · rename_i y1
    refine .trans ?_ (State.irq_kept ..)
    refine .trans ?_ (State.setBit_kept ..)
    exact Kept.upd .rfl (Eq.refl _) (Eq.refl _)
  · exact .rfl

theorem State.gapThaw_kept (s : State) : Kept s (State.gapThaw s) := by
  unfold State.gapThaw
  extract_lets x0 x1
  have hx0 : Kept s x0 := by
    unfold x0
    exact State.setRf_kept ..
  clear_value x0
  have hx1 : Kept s x1 := by
    unfold x1
    refine Kept.upd ?_ (Eq.refl _) (Eq.refl _)
    exact hx0
  clear_value x1
  split
  · exact .rfl
  · rename_i y3
    refine .trans ?_ (State.when_kept _ _ _ ?_)
    · exact hx1
    · extract_lets x4
      have hx4 : Kept x1 x4 := by
        unfold x4
        exact State.setRf_kept ..
      clear_value x4
      refine Kept.upd ?_ (Eq.refl _) (Eq.refl _)
      exact hx4

theorem State.linkUp_kept (s : State) : Kept s (State.linkUp s) := by
  unfold State.linkUp
  refine .trans ?_ (State.when_kept _ _ _ ?_)
  · exact .rfl
  · refine .trans ?_ (State.each_kept _ _ _ ?_)
    · exact .rfl
    · intro a0 a1
      exact State.updTc_kept ..

theorem State.flowAll_kept (s : State) : Kept s (State.flowAll s) := by
  unfold State.flowAll
  refine .trans ?_ (State.each_kept _ _ _ ?_)
  · exact .rfl
  · intro a0 a1
    exact State.flowCheck_kept ..

theorem State.widthDone_kept (s : State) (m : Nat) : Kept s (State.widthDone s m) := by
  unfold State.widthDone
  extract_lets x0 x1
  have hx0 : Kept s x0 := by
    unfold x0
    refine .trans ?_ (State.irq_kept ..)
    exact State.setBit_kept ..
  clear_value x0
  have hx1 : Kept s x1 := by
    unfold x1
    refine .trans ?_ (State.when_kept _ _ _ ?_)
    · exact hx0
    · exact State.setRf_kept ..
  clear_value x1
  refine .trans ?_ (State.updMod_kept ..)
  exact hx1

theorem State.modDown_kept (s : State) (m : Nat) : Kept s (State.modDown s m) := by
  unfold State.modDown
  extract_lets x0 x1 x2
  clear_value x0
  have hx1 : Kept s x1 := by
    unfold x1
    exact State.updMod_kept ..
  clear_value x1
  have hx2 : Kept s x2 := by
    unfold x2
    refine .trans ?_ (State.when_kept _ _ _ ?_)
    · exact hx1
    · exact State.widthDone_kept ..
  clear_value x2
  refine .trans ?_ (State.flowAll_kept ..)
  refine .trans ?_ (State.gapThaw_kept ..)
  refine .trans ?_ (State.linkCheck_kept ..)
  refine .trans ?_ (State.irq_kept ..)
  refine .trans ?_ (State.setBit_kept ..)
  exact hx2

end Sys2Proof.Machine
end

