-- ==== Sys2Proof/Laws/FramesMore.lean ====
section
/-! SUPPORT. Every operation that a meaning calls keeps the environment, the queue and the invariant (Kept): one lemma for each, second half. -/
namespace Sys2Proof.Machine

theorem State.sendRetrainReq_kept (s : State) (m : Nat) (reason : Nat) : Kept s (State.sendRetrainReq s m reason) := by
  unfold State.sendRetrainReq
  split
  · rename_i y0 y1 y2
    exact State.queueCtl_kept ..
  · rename_i y3 y4
    exact State.sendSb_kept ..

theorem State.enterRetrain_kept (s : State) (m : Nat) (reason : Nat) (mine : Bool) (planned : Bool) : Kept s (State.enterRetrain s m reason mine
    planned) := by
  unfold State.enterRetrain
  extract_lets x0 x1 x2 x3 x4 x5
  clear_value x0
  have hx1 : Kept s x1 := by
    unfold x1
    exact State.linkUp_kept ..
  clear_value x1 x2
  have hx3 : Kept s x3 := by
    unfold x3
    split
    · rename_i y6
      refine Kept.upd ?_ (Eq.refl _) (Eq.refl _)
      exact hx1
    · exact .rfl
  clear_value x3
  have hx4 : Kept s x4 := by
    unfold x4
    refine .trans ?_ (State.updMod_kept ..)
    refine .trans ?_ (State.bistServe_kept ..)
    exact hx3
  clear_value x4
  have hx5 : Kept s x5 := by
    unfold x5
    refine .trans ?_ (State.twinCheck_kept ..)
    refine .trans ?_ (State.count_kept ..)
    refine .trans ?_ (State.flowAll_kept ..)
    exact hx4
  clear_value x5
  split
  · rename_i y8
    exact hx5
  · rename_i y9
    refine .trans ?_ (State.irq_kept ..)
    refine .trans ?_ (State.setBit_kept ..)
    exact hx5

theorem State.requestRetrain_kept (s : State) (m : Nat) (reason : Nat) : Kept s (State.requestRetrain s m reason) := by
  unfold State.requestRetrain
  split
  · exact .rfl
  · rename_i y1
    refine .trans ?_ (State.enterRetrain_kept ..)
    exact State.sendRetrainReq_kept ..

theorem State.replayLimit_kept (s : State) (m : Nat) : Kept s (State.replayLimit s m) := by
  unfold State.replayLimit
  split
  · exact .rfl
  · rename_i y1
    split
    · rename_i y2
      exact State.modDown_kept ..
    · rename_i y3
      exact State.requestRetrain_kept ..

theorem State.ucieRetrain_kept (s : State) (m : Nat) : Kept s (State.ucieRetrain s m) := by
  unfold State.ucieRetrain
  exact State.emit_kept ..

theorem State.sendRate_kept (s : State) (m : Nat) (rate : Nat) : Kept s (State.sendRate s m rate) := by
  unfold State.sendRate
  refine .trans ?_ (State.sbSent_kept ..)
  exact State.sendSb_kept ..

theorem State.hearRate_kept (s : State) (m : Nat) (rate : Nat) : Kept s (State.hearRate s m rate) := by
  unfold State.hearRate
  extract_lets x0 x1
  clear_value x0 x1
  split
  · exact .rfl
  · rename_i y4 y5 y6
    extract_lets x7 x8
    clear_value x7
    have hx8 : Kept s x8 := by
      unfold x8
      exact State.updMod_kept ..
    clear_value x8
    refine .trans ?_ (State.when_kept _ _ _ ?_)
    · exact hx8
    · exact State.sendRate_kept ..

theorem State.setGap_kept (s : State) (kind : Nat) (ticks : Nat) : Kept s (State.setGap s kind ticks) := by
  unfold State.setGap
  extract_lets x0
  have hx0 : Kept s x0 := by
    unfold x0
    exact State.setRg64_kept ..
  clear_value x0
  refine Kept.upd ?_ (Eq.refl _) (Eq.refl _)
  exact hx0

theorem State.enterFrost_kept (s : State) (m : Nat) (kind : Nat) (tx : Bool) (rx : Bool) : Kept s (State.enterFrost s m kind tx rx) := by
  unfold State.enterFrost
  refine .trans ?_ (State.twinCheck_kept ..)
  exact State.updMod_kept ..

theorem State.lockLoss_kept (s : State) (m : Nat) (alt : Bool) (clk : Bool) : Kept s (State.lockLoss s m alt clk) := by
  unfold State.lockLoss
  extract_lets x0 x1 x2
  clear_value x0
  have hx1 : Kept s x1 := by
    unfold x1
    exact State.setMod_kept ..
  clear_value x1
  have hx2 : Kept s x2 := by
    unfold x2
    refine .trans ?_ (State.setBit_kept ..)
    exact hx1
  clear_value x2
  split
  · exact .rfl
  · rename_i y4
    split
    · rename_i y5
      exact hx1
    · rename_i y6
      split
      · rename_i y7
        refine .trans ?_ (State.setBit_kept ..)
        refine .trans ?_ (State.updMod_kept ..)
        exact hx2
      · rename_i y8
        refine .trans ?_ (State.updMod_kept ..)
        exact hx2

theorem State.lockRegain_kept (s : State) (m : Nat) (alt : Bool) (clk : Bool) : Kept s (State.lockRegain s m alt clk) := by
  unfold State.lockRegain
  extract_lets x0 x1 x2 x3 x4
  have hx0 : Kept s x0 := by
    unfold x0
    exact State.updMod_kept ..
  clear_value x0 x1 x2
  have hx3 : Kept s x3 := by
    unfold x3
    refine .trans ?_ (State.when_kept _ _ _ ?_)
    · exact hx0
    · refine .trans ?_ (State.setBit_kept ..)
      exact State.updMod_kept ..
  clear_value x3
  have hx4 : Kept s x4 := by
    unfold x4
    refine .trans ?_ (State.updMod_kept ..)
    exact hx3
  clear_value x4
  split
  · exact .rfl
  · rename_i y6
    split
    · rename_i y7
      exact hx0
    · rename_i y8
      split
      · rename_i y9
        exact hx0
      · rename_i y10
        refine .trans ?_ (State.when_kept _ _ _ ?_)
        · exact hx4
        · exact State.requestRetrain_kept ..

theorem State.vldSeen_kept (s : State) (m : Nat) : Kept s (State.vldSeen s m) := by
  unfold State.vldSeen
  extract_lets x0 x1
  clear_value x0 x1
  split
  · rename_i y2
    exact State.updMod_kept ..
  · rename_i y3
    split
    · exact .rfl
    · rename_i y5
      split
      · rename_i y6
        exact State.lockRegain_kept ..
      · rename_i y7
        exact State.updMod_kept ..

theorem State.vldMissed_kept (s : State) (m : Nat) : Kept s (State.vldMissed s m) := by
  unfold State.vldMissed
  extract_lets x0
  clear_value x0
  split
  · rename_i y1
    exact State.lockLoss_kept ..
  · rename_i y2
    exact State.updMod_kept ..

theorem State.failSlot_kept (s : State) (m : Nat) (off : Nat) : Kept s (State.failSlot s m off) := by
  unfold State.failSlot
  extract_lets x0 x1
  clear_value x0
  have hx1 : Kept s x1 := by
    unfold x1
    refine .trans ?_ (State.updHm_kept ..)
    exact State.count32_kept ..
  clear_value x1
  refine .trans ?_ (State.updMod_kept ..)
  exact hx1

theorem State.lockless_kept (s : State) (m : Nat) : Kept s (State.lockless s m) := by
  unfold State.lockless
  refine .trans ?_ (State.failSlot_kept ..)
  exact State.vldSeen_kept ..

theorem State.rxFlit_kept (s : State) (m : Nat) (f : List Byte) (act : List Byte → List Nat → Nat → State → State) (hact : ∀ a0 a1 a2 a3, Kept a3
    (act a0 a1 a2 a3)) : Kept s (State.rxFlit s m f act) := by
  unfold State.rxFlit
  split
  · rename_i y0 y1 y2 y3 y4
    exact hact ..
  · rename_i y5 y6
    refine .trans ?_ (State.when_kept _ _ _ ?_)
    · exact .rfl
    · exact State.lockless_kept ..

theorem State.chargeLanes_kept (s : State) (m : Nat) (fixed : List Nat) : Kept s (State.chargeLanes s m fixed) := by
  unfold State.chargeLanes
  refine .trans ?_ (State.each_kept _ _ _ ?_)
  · exact .rfl
  · intro a0 a1
    extract_lets x2
    clear_value x2
    refine .trans ?_ (State.updHm_kept ..)
    exact State.count_kept ..

theorem State.takeAck_kept (s : State) (m : Nat) (a : Nat) : Kept s (State.takeAck s m a) := by
  unfold State.takeAck
  extract_lets x0 x1 x2 x3 x4
  clear_value x0 x1 x2 x3 x4
  split
  · rename_i y5
    exact State.updMod_kept ..
  · rename_i y6
    split
    · rename_i y7
      exact State.protoErr_kept ..
    · rename_i y8
      split
      · exact .rfl
      · rename_i y10
        refine .trans ?_ (State.reapTx_kept ..)
        exact State.updMod_kept ..

theorem State.takeNak_kept (s : State) (m : Nat) (q : Nat) : Kept s (State.takeNak s m q) := by
  unfold State.takeNak
  extract_lets x0
  clear_value x0
  split
  · exact .rfl
  · rename_i y3 y4 y5
    split
    · exact .rfl
    · rename_i y7
      split
      · rename_i y8
        exact State.replayLimit_kept ..
      · rename_i y9
        exact State.updMod_kept ..

theorem State.takeHeader_kept (s : State) (m : Nat) (g : List Byte) : Kept s (State.takeHeader s m g) := by
  unfold State.takeHeader
  extract_lets x0 x1
  clear_value x0
  have hx1 : Kept s x1 := by
    unfold x1
    exact State.takeAck_kept ..
  clear_value x1
  split
  · rename_i y2
    exact hx1
  · rename_i y3
    refine .trans ?_ (State.each_kept _ _ _ ?_)
    · exact hx1
    · intro a4 a5
      split
      · exact .rfl
      · rename_i y7
        exact State.takeNak_kept ..

theorem State.rxCommon_kept (s : State) (m : Nat) (g : List Byte) (fixed : List Nat) : Kept s (State.rxCommon s m g fixed) := by
  unfold State.rxCommon
  extract_lets x0
  have hx0 : Kept s x0 := by
    unfold x0
    refine .trans ?_ (State.updMod_kept ..)
    exact State.vldSeen_kept ..
  clear_value x0
  refine .trans ?_ (State.takeHeader_kept ..)
  refine .trans ?_ (State.chargeLanes_kept ..)
  exact hx0

theorem State.takeFlags_kept (s : State) (m : Nat) (g : List Byte) : Kept s (State.takeFlags s m g) := by
  unfold State.takeFlags
  refine .trans ?_ (State.when_kept _ _ _ ?_)
  · exact .rfl
  · exact State.updMod_kept ..

theorem State.rxCtrl_kept (s : State) (m : Nat) (f : List Byte) (sub : Nat) (act : List Byte → State → State) (hact : ∀ a0 a1, Kept a1 (act a0
    a1)) : Kept s (State.rxCtrl s m f sub act) := by
  unfold State.rxCtrl
  refine .trans ?_ (State.rxFlit_kept _ _ _ _ ?_)
  · exact .rfl
  · intro a0 a1 a2 a3
    split
    · rename_i y4
      refine .trans ?_ (hact ..)
      refine .trans ?_ (State.takeFlags_kept ..)
      exact State.rxCommon_kept ..
    · exact .rfl

theorem State.placeFrag_kept (s : State) (stream : Nat) (tc : Nat) (sseq : Nat) (f : Frag) : Kept s (State.placeFrag s stream tc sseq f) := by
  unfold State.placeFrag
  extract_lets x0 x1 x2
  clear_value x0
  subst x1
  have hx2 : Kept s x2 := by
    unfold x2
    exact State.updTc_kept ..
  clear_value x2
  split
  · rename_i y3
    refine .trans ?_ (State.when_kept _ _ _ ?_)
    · exact .rfl
    · exact State.count32_kept ..
  · rename_i y4
    split
    · rename_i y5 y6 y7
      extract_lets x8 x9 x10
      clear_value x8
      have hx9 : Kept s x9 := by
        unfold x9
        refine .trans ?_ (State.when_kept _ _ _ ?_)
        · exact .rfl
        · exact State.updStrm_kept ..
      clear_value x9
      have hx10 : Kept s x10 := by
        unfold x10
        refine .trans ?_ (State.updTc_kept ..)
        exact hx9
      clear_value x10
      split
      · rename_i y11
        split
        · rename_i y12
          exact hx9
        · rename_i y13
          refine .trans ?_ (State.when_kept _ _ _ ?_)
          · exact hx9
          · exact State.count32_kept ..
      · rename_i y14
        refine .trans ?_ (State.flowCheck_kept ..)
        refine .trans ?_ (State.updStrm_kept ..)
        exact hx10
    · rename_i y15 y16
      refine .trans ?_ (State.flowCheck_kept ..)
      refine .trans ?_ (State.updStrm_kept ..)
      exact hx2

theorem State.joinStub_kept (s : State) (stream : Nat) : Kept s (State.joinStub s stream) := by
  unfold State.joinStub
  exact State.updStrm_kept ..

theorem State.placeStub_kept (s : State) (stream : Nat) (b : Stub) : Kept s (State.placeStub s stream b) := by
  unfold State.placeStub
  extract_lets x0 x1 x2
  clear_value x0 x1
  have hx2 : Kept s x2 := by
    unfold x2
    exact State.updTc_kept ..
  clear_value x2
  split
  · rename_i y3
    exact State.count32_kept ..
  · rename_i y4
    split
    · rename_i y5
      exact State.placeFrag_kept ..
    · rename_i y6
      refine .trans ?_ (State.flowCheck_kept ..)
      refine .trans ?_ (State.updStrm_kept ..)
      exact hx2

theorem State.dropStubs_kept (s : State) (stream : Nat) (gone : Stub → Bool) : Kept s (State.dropStubs s stream gone) := by
  unfold State.dropStubs
  extract_lets x0 x1
  clear_value x0
  have hx1 : Kept s x1 := by
    unfold x1
    exact State.updStrm_kept ..
  clear_value x1
  refine .trans ?_ (State.each_kept _ _ _ ?_)
  · exact hx1
  · intro a2 a3
    refine .trans ?_ (State.flowCheck_kept ..)
    exact State.updTc_kept ..

theorem State.dropHeld_kept (s : State) (stream : Nat) (gone : Held → Bool) : Kept s (State.dropHeld s stream gone) := by
  unfold State.dropHeld
  extract_lets x0 x1
  clear_value x0
  have hx1 : Kept s x1 := by
    unfold x1
    exact State.updStrm_kept ..
  clear_value x1
  refine .trans ?_ (State.each_kept _ _ _ ?_)
  · exact hx1
  · intro a2 a3
    refine .trans ?_ (State.flowCheck_kept ..)
    exact State.updTc_kept ..

theorem State.placeMgmt_kept (n : Nat) (s : State) (area : List Byte) (f : Frag) :
    Kept s (State.placeMgmt n s area f) := by
  induction n generalizing s area with
  | zero => exact .rfl
  | succ n ih =>
    unfold State.placeMgmt
    split
    · exact .rfl
    · extract_lets len m x u t
      split
      · exact State.tpErr_kept ..
      · have hu : Kept s u := State.when_kept _ _ _ (State.updTc_kept ..)
        clear_value u
        have ht : Kept u t := by
          unfold t
          split
          · exact Kept.upd .rfl (Eq.refl _) (Eq.refl _)
          · split
            · exact State.tpErr_kept ..
            · exact (State.tpErr_kept ..).trans (State.grant_kept ..)
        exact (hu.trans ht).trans (ih ..)

theorem State.placeRest_kept (n : Nat) (s : State) (stream tc prev : Nat) (area : List Byte) (fr : Nat → List Byte → Frag) :
    Kept s (State.placeRest n s stream tc prev area fr) := by
  induction n generalizing s prev area with
  | zero => exact .rfl
  | succ n ih =>
    unfold State.placeRest
    split
    · exact .rfl
    · split
      · exact State.placeStub_kept ..
      · exact (State.placeFrag_kept ..).trans (ih ..)

theorem State.takeArea_kept (s : State) (m : Nat) (stream : Nat) (tc : Nat) (pay : List Byte) (retrained : Bool) (rdy : Nat) : Kept s
    (State.takeArea s m stream tc pay retrained rdy) := by
  unfold State.takeArea
  extract_lets x0 x1 x2 x3 x4 x5 x6 x7 x8 x9 x10 x11
  clear_value x0 x1 x2 x3 x4 x5 x6
  have hx7 : Kept s x7 := by
    unfold x7
    exact Kept.upd .rfl (Eq.refl _) (Eq.refl _)
  clear_value x7 x8
  subst x9
  clear_value x10 x11
  split
  · rename_i y12
    exact State.tpErr_kept ..
  · rename_i y13
    split
    · rename_i y14
      split
      · rename_i y15
        refine .trans ?_ (State.placeMgmt_kept ..)
        exact hx7
      · rename_i y16
        refine .trans ?_ (State.placeMgmt_kept ..)
        refine .trans ?_ (State.tpErr_kept ..)
        exact hx7
    · rename_i y17
      refine .trans ?_ (State.joinStub_kept ..)
      refine .trans ?_ (State.placeRest_kept ..)
      refine .trans ?_ (State.placeFrag_kept ..)
      exact hx7

theorem State.deliver_kept (n : Nat) (s : State) (m : Nat) : Kept s (State.deliver n s m) := by
  induction n generalizing s with
  | zero => exact .rfl
  | succ n ih =>
    unfold State.deliver
    extract_lets x q
    split
    · exact .rfl
    · split
      rename_i ue t heq
      have ht : Kept s t := Kept.of_snd heq (State.eccRead_kept ..)
      split
      · exact ht.trans (State.updMod_kept ..)
      · exact (ht.trans ((State.updMod_kept ..).trans (State.takeArea_kept ..))).trans (ih _)

theorem State.seqStep_kept (s : State) (m : Nat) (f : Mod → Mod) : Kept s (State.seqStep s m f) := by
  unfold State.seqStep
  extract_lets x0 x1
  clear_value x0
  have hx1 : Kept s x1 := by
    unfold x1
    refine .trans ?_ (State.deliver_kept ..)
    exact State.updMod_kept ..
  clear_value x1
  refine .trans ?_ (State.updMod_kept ..)
  exact hx1

theorem State.blindSlot_kept (s : State) (m : Nat) : Kept s (State.blindSlot s m) := by
  unfold State.blindSlot
  refine .trans ?_ (State.failSlot_kept ..)
  exact State.vldMissed_kept ..

theorem State.takeCredits_kept (s : State) (bs : List Byte) : Kept s (State.takeCredits s bs) := by
  unfold State.takeCredits
  split
  · exact .rfl
  · rename_i y1
    refine .trans ?_ (State.each_kept _ _ _ ?_)
    · exact .rfl
    · intro a2 a3
      exact State.updTc_kept ..

theorem State.takeFlow_kept (s : State) (b : Byte) : Kept s (State.takeFlow s b) := by
  unfold State.takeFlow
  split
  · exact .rfl
  · rename_i y1
    refine .trans ?_ (State.each_kept _ _ _ ?_)
    · exact .rfl
    · intro a2 a3
      exact State.updTc_kept ..

theorem State.sendReturn_kept (s : State) (m : Msg) (orig : BitVec 3) : Kept s (State.sendReturn s m orig) := by
  unfold State.sendReturn
  split
  · rename_i y0
    exact State.sendXpt_kept ..
  · rename_i y1
    exact State.sendRouted_kept ..

theorem State.unroutable_kept (s : State) (m : Msg) : Kept s (State.unroutable s m) := by
  unfold State.unroutable
  extract_lets x0 x1 x2 x3 x4 x5 x6
  have hx0 : Kept s x0 := by
    unfold x0
    refine .trans ?_ (State.irq_kept ..)
    exact State.count32_kept ..
  clear_value x0 x1
  subst x2
  clear_value x3 x4 x5
  have hx6 : Kept s x6 := by
    unfold x6
    split
    · rename_i y7
      refine .trans ?_ (State.dropFar_kept ..)
      exact hx0
    · rename_i y8
      refine .trans ?_ (State.setFar_kept ..)
      exact hx0
  clear_value x6
  split
  · rename_i y9 y10
    split
    · rename_i y11
      refine .trans ?_ (State.sendReturn_kept ..)
      refine .trans ?_ (State.dropFar_kept ..)
      exact hx0
    · rename_i y12
      refine .trans ?_ (State.setFar_kept ..)
      exact hx0
  · rename_i y13 y14
    refine .trans ?_ (State.sendReturn_kept ..)
    refine .trans ?_ (State.dropFar_kept ..)
    exact hx0
  · rename_i y15 y16
    refine .trans ?_ (State.sendReturn_kept ..)
    exact hx6
  · rename_i y17 y18 y19 y20
    exact hx0

theorem State.transitOut_kept (s : State) (m : Msg) : Kept s (State.transitOut s m) := by
  unfold State.transitOut
  extract_lets x0
  have hx0 : Kept s x0 := by
    unfold x0
    exact State.readRoute_kept ..
  clear_value x0
  split
  · rename_i y1 y2 y3
    refine .trans ?_ (State.sendXpt_kept ..)
    exact hx0
  · rename_i y4 y5
    refine .trans ?_ (State.unroutable_kept ..)
    exact hx0

theorem State.lateOnce_kept (s : State) (flit : Nat) (f : State → State) (hf : ∀ a0, Kept a0 (f a0)) : Kept s (State.lateOnce s flit f) := by
  unfold State.lateOnce
  split
  · exact .rfl
  · rename_i y1
    refine .trans ?_ (hf ..)
    exact Kept.upd .rfl (Eq.refl _) (Eq.refl _)

theorem State.slip_kept (s : State) (flit : Nat) (late : Nat) : Kept s (State.slip s flit late) := by
  unfold State.slip
  extract_lets x0
  have hx0 : Kept s x0 := by
    unfold x0
    refine .trans ?_ (State.lateOnce_kept _ _ _ ?_)
    · exact .rfl
    · intro a1
      exact Kept.upd .rfl (Eq.refl _) (Eq.refl _)
  clear_value x0
  refine .trans ?_ (State.when_kept _ _ _ ?_)
  · exact hx0
  · exact Kept.upd .rfl (Eq.refl _) (Eq.refl _)

theorem State.noteFlit_kept (s : State) (untimed : Bool) (due : Option Nat) (retrained : Bool) (flit : Nat) : Kept s (State.noteFlit s untimed due
    retrained flit) := by
  unfold State.noteFlit
  extract_lets x0 x1
  clear_value x0
  have hx1 : Kept s x1 := by
    unfold x1
    refine .trans ?_ (State.when_kept _ _ _ ?_)
    · exact .rfl
    · exact State.setBit_kept ..
  clear_value x1
  split
  · rename_i y2
    refine .trans ?_ (State.lateOnce_kept _ _ _ ?_)
    · exact hx1
    · intro a3
      refine .trans ?_ (State.setBit_kept ..)
      exact State.count32_kept ..
  · rename_i y4
    refine .trans ?_ (State.when_kept _ _ _ ?_)
    · exact hx1
    · exact State.slip_kept ..

theorem State.noteFrag_kept (s : State) (h : Held) (f : Frag) : Kept s (State.noteFrag s h f) := by
  unfold State.noteFrag
  split
  · rename_i y0
    refine .trans ?_ (State.when_kept _ _ _ ?_)
    · refine .trans ?_ (State.when_kept _ _ _ ?_)
      · exact .rfl
      · exact State.setBit_kept ..
    · refine .trans ?_ (State.setBit_kept ..)
      exact State.count32_kept ..
  · rename_i y1
    exact State.noteFlit_kept ..

theorem State.toPort_kept (s : State) (n : Nat) (m : Msg) (due : Option Nat) : Kept s (State.toPort s n m due) := by
  unfold State.toPort
  extract_lets x0 x1
  clear_value x0 x1
  split
  rename_i y2 y3 y4 y5
  extract_lets x6 x7
  clear_value x6
  have hx7 : Kept s x7 := by
    unfold x7
    refine .trans ?_ (State.when_kept _ _ _ ?_)
    · refine Kept.of_snd y5 ?_
      exact State.fresh_kept ..
    · exact State.updStrm_kept ..
  clear_value x7
  refine Kept.upd ?_ (Eq.refl _) (Eq.refl _)
  exact hx7

theorem State.releaseMsg_kept (s : State) (n : Nat) (m : Msg) (due : Option Nat) : Kept s (State.releaseMsg s n m due) := by
  unfold State.releaseMsg
  split
  rename_i y0 y1 y2 y3
  extract_lets x4 x5
  clear_value x4
  have hx5 : Kept s x5 := by
    unfold x5
    refine .trans ?_ (State.when_kept _ _ _ ?_)
    · refine Kept.of_snd y3 ?_
      exact State.memHit_kept ..
    · exact State.updStrm_kept ..
  clear_value x5
  split
  · rename_i y6
    refine .trans ?_ (State.grant_kept ..)
    refine .trans ?_ (State.tpErr_kept ..)
    refine Kept.of_snd y3 ?_
    exact State.memHit_kept ..
  · rename_i y7
    split
    · rename_i y8
      refine .trans ?_ (State.transitOut_kept ..)
      refine .trans ?_ (State.when_kept _ _ _ ?_)
      · refine .trans ?_ (State.grant_kept ..)
        exact hx5
      · exact State.updStrm_kept ..
    · rename_i y9
      refine .trans ?_ (State.toPort_kept ..)
      exact hx5

theorem State.releasedStubs_kept (s : State) (n : Nat) (h : Held) : Kept s (State.releasedStubs s n h) := by
  unfold State.releasedStubs
  extract_lets x0 x1 x2
  subst x0
  clear_value x1
  have hx2 : Kept s x2 := by
    unfold x2
    exact State.updStrm_kept ..
  clear_value x2
  refine .trans ?_ (State.dropStubs_kept ..)
  refine .trans ?_ (State.when_kept _ _ _ ?_)
  · exact hx2
  · exact State.count32_kept ..

theorem State.forgetLate_kept (s : State) : Kept s (State.forgetLate s) := by
  unfold State.forgetLate
  extract_lets x0
  clear_value x0
  exact Kept.upd .rfl (Eq.refl _) (Eq.refl _)

theorem State.heldDone_kept (s : State) (n : Nat) (h : Held) : Kept s (State.heldDone s n h) := by
  unfold State.heldDone
  extract_lets x0 x1
  clear_value x0 x1
  split
  · exact .rfl
  · rename_i y4 y5 y6
    extract_lets x7 x8 x9
    clear_value x7 x8
    have hx9 : Kept s x9 := by
      unfold x9
      refine .trans ?_ (State.updTc_kept ..)
      exact State.updStrm_kept ..
    clear_value x9
    split
    · exact .rfl
    · rename_i y11
      refine .trans ?_ (State.releaseMsg_kept ..)
      refine .trans ?_ (State.forgetLate_kept ..)
      refine .trans ?_ (State.releasedStubs_kept ..)
      exact hx9

theorem State.releaseFrag_kept (s : State) (n : Nat) : Kept s (State.releaseFrag s n) := by
  unfold State.releaseFrag
  extract_lets x0 x1
  have hx0 : Kept s x0 := by
    unfold x0
    exact State.joinStub_kept ..
  clear_value x0 x1
  split
  · rename_i y2
    exact hx0
  · rename_i y3
    split
    · rename_i y4 y5
      exact hx0
    · rename_i y6 y7 y8
      split
      · rename_i y9 y10
        exact hx0
      · rename_i y11 y12 y13
        extract_lets x14 x15
        have hx14 : Kept s x14 := by
          unfold x14
          refine .trans ?_ (State.noteFrag_kept ..)
          exact hx0
        clear_value x14 x15
        refine .trans ?_ (State.heldDone_kept ..)
        refine .trans ?_ (State.updStrm_kept ..)
        exact hx14

theorem State.releaseMgmt_kept (s : State) : Kept s (State.releaseMgmt s) := by
  unfold State.releaseMgmt
  split
  · exact .rfl
  · rename_i y2 y3 y4
    split
    · rename_i y5 y6 y7
      extract_lets x8
      have hx8 : Kept s x8 := by
        unfold x8
        exact State.noteFlit_kept ..
      clear_value x8
      split
      · rename_i y9
        refine .trans ?_ (State.forgetLate_kept ..)
        refine Kept.upd ?_ (Eq.refl _) (Eq.refl _)
        exact hx8
      · rename_i y10
        refine .trans ?_ (State.grant_kept ..)
        refine .trans ?_ (State.forgetLate_kept ..)
        refine Kept.upd ?_ (Eq.refl _) (Eq.refl _)
        exact hx8
    · exact .rfl

theorem State.takeReadReq_kept (s : State) (m : Msg) : Kept s (State.takeReadReq s m) := by
  unfold State.takeReadReq
  extract_lets x0 x1 x2 x3 x4
  clear_value x0 x1 x2 x3
  have hx4 : Kept s x4 := by
    unfold x4
    split
    · rename_i y5
      exact State.dropFar_kept ..
    · rename_i y6
      exact State.setFar_kept ..
  clear_value x4
  split
  rename_i y7 y8 y9 y10
  extract_lets x11
  clear_value x11
  refine .trans ?_ (State.readMem_kept ..)
  refine Kept.upd ?_ (Eq.refl _) (Eq.refl _)
  refine Kept.of_snd y10 ?_
  refine .trans ?_ (State.fresh_kept ..)
  exact hx4

theorem State.takeReadData_kept (s : State) (m : Msg) (dom : Nat) (ord : Nat) : Kept s (State.takeReadData s m dom ord) := by
  unfold State.takeReadData
  extract_lets x0 x1 x2
  clear_value x0 x1 x2
  split
  · exact .rfl
  · rename_i y5 y6 y7
    extract_lets x8 x9 x10 x11
    clear_value x8 x9 x10 x11
    split
    · exact .rfl
    · rename_i y14 y15 y16 y17
      extract_lets x18 x19 x20
      clear_value x18 x19 x20
      split
      · rename_i y21
        refine .trans ?_ (State.pump_kept ..)
        refine .trans ?_ (State.opCheck_kept ..)
        exact State.setOp_kept ..
      · rename_i y22
        split
        · rename_i y23
          refine .trans ?_ (State.pump_kept ..)
          exact State.setOp_kept ..
        · rename_i y24
          refine .trans ?_ (State.writeMem_kept ..)
          exact State.setOp_kept ..

theorem State.noteForeign_kept (s : State) (r : Rel) (orig : Nat) (st : Nat) (psn : Bool) (ecount : Nat) (last : Bool) : Kept s (State.noteForeign
    s r orig st psn ecount last) := by
  unfold State.noteForeign
  extract_lets x0
  clear_value x0
  split
  · exact .rfl
  · rename_i y3 y4 y5
    extract_lets x6
    clear_value x6
    split
    · exact .rfl
    · rename_i y8
      split
      · rename_i y9
        exact State.takeCompletion_kept ..
      · rename_i y10
        exact State.setOp_kept ..

theorem State.takeSignal_kept (s : State) (r : Rel) : Kept s (State.takeSignal s r) := by
  unfold State.takeSignal
  extract_lets x0 x1 x2 x3
  clear_value x0 x1
  have hx2 : Kept s x2 := by
    unfold x2
    refine .trans ?_ (State.when_kept _ _ _ ?_)
    · exact .rfl
    · refine .trans ?_ (State.setBit_kept ..)
      exact State.count32_kept ..
  clear_value x2
  have hx3 : Kept s x3 := by
    unfold x3
    refine .trans ?_ (State.evAdd_kept ..)
    exact hx2
  clear_value x3
  refine .trans ?_ (State.respond_kept ..)
  exact hx3

theorem State.takeUnit_kept (s : State) (x1 : XptUnit) : Kept s (State.takeUnit s x1) := by
  unfold State.takeUnit
  split
  · rename_i y0 y1
    refine .trans ?_ (State.startChecks_kept ..)
    exact Kept.upd .rfl (Eq.refl _) (Eq.refl _)
  · rename_i y2 y3 y4
    split
    · rename_i y5
      split
      rename_i y6 y7 y8 y9
      refine Kept.upd ?_ (Eq.refl _) (Eq.refl _)
      refine Kept.of_snd y9 ?_
      exact State.fresh_kept ..
    · rename_i y10
      split
      · rename_i y11
        exact State.unroutable_kept ..
      · rename_i y12
        exact Kept.upd .rfl (Eq.refl _) (Eq.refl _)

theorem State.wantRetrain_kept (s : State) (m : Nat) (reason : Nat) : Kept s (State.wantRetrain s m reason) := by
  unfold State.wantRetrain
  split
  · exact .rfl
  · rename_i y1
    split
    · rename_i y2
      exact State.ucieRetrain_kept ..
    · rename_i y3
      split
      · rename_i y4
        exact State.updMod_kept ..
      · rename_i y5
        exact State.requestRetrain_kept ..

theorem State.joinRetrain_kept (s : State) (m : Nat) (reason : Nat) : Kept s (State.joinRetrain s m reason) := by
  unfold State.joinRetrain
  split
  · rename_i y0
    refine .trans ?_ (State.sendSb_kept ..)
    exact State.enterRetrain_kept ..
  · exact .rfl

theorem State.modUp_kept (s : State) (m : Nat) : Kept s (State.modUp s m) := by
  unfold State.modUp
  extract_lets x0 x1 x2 x3 x4
  have hx0 : Kept s x0 := by
    unfold x0
    refine .trans ?_ (State.when_kept _ _ _ ?_)
    · exact .rfl
    · exact State.linkUp_kept ..
  clear_value x0
  have hx1 : Kept s x1 := by
    unfold x1
    refine .trans ?_ (State.updMod_kept ..)
    exact hx0
  clear_value x1 x2
  have hx3 : Kept s x3 := by
    unfold x3
    refine Kept.upd ?_ (Eq.refl _) (Eq.refl _)
    exact hx1
  clear_value x3
  have hx4 : Kept s x4 := by
    unfold x4
    refine .trans ?_ (State.flowAll_kept ..)
    refine .trans ?_ (State.setLatMin_kept ..)
    exact hx3
  clear_value x4
  refine .trans ?_ (State.twinRepaired_kept ..)
  refine .trans ?_ (State.when_kept _ _ _ ?_)
  · exact hx4
  · exact Kept.upd .rfl (Eq.refl _) (Eq.refl _)

theorem State.thaw_kept (s : State) (m : Nat) (r : Retrain) : Kept s (State.thaw s m r) := by
  unfold State.thaw
  extract_lets x0
  have hx0 : Kept s x0 := by
    unfold x0
    exact State.updMod_kept ..
  clear_value x0
  refine .trans ?_ (State.when_kept _ _ _ ?_)
  · exact hx0
  · exact State.widthDone_kept ..

theorem State.lateFrost_kept (s : State) (m : Nat) : Kept s (State.lateFrost s m) := by
  unfold State.lateFrost
  split
  · rename_i y0 y1 y2 y3
    refine .trans ?_ (State.setGap_kept ..)
    exact State.enterFrost_kept ..
  · rename_i y4 y5 y6 y7 y8
    exact State.enterFrost_kept ..
  · exact .rfl

theorem State.exitHold_kept (s : State) (m : Nat) : Kept s (State.exitHold s m) := by
  unfold State.exitHold
  extract_lets x0
  clear_value x0
  exact State.updMod_kept ..

theorem State.writePlan_kept (s : State) (d : W32) : Kept s (State.writePlan s d) := by
  unfold State.writePlan
  extract_lets x0 x1 x2 x3 x4 x5
  clear_value x0 x1
  have hx2 : Kept s x2 := by
    unfold x2
    refine .trans ?_ (State.setRf_kept ..)
    exact State.setRf_kept ..
  clear_value x2 x3
  have hx4 : Kept s x4 := by
    unfold x4
    refine .trans ?_ (State.each_kept _ _ _ ?_)
    · exact hx2
    · intro a6 a7
      exact State.updMod_kept ..
  clear_value x4
  have hx5 : Kept s x5 := by
    unfold x5
    refine .trans ?_ (State.setRf_kept ..)
    exact hx4
  clear_value x5
  split
  · rename_i y8
    exact hx2
  · rename_i y9
    split
    · rename_i y10
      refine .trans ?_ (State.setRf_kept ..)
      exact hx2
    · rename_i y11
      split
      · rename_i y12
        refine .trans ?_ (State.setRf_kept ..)
        exact hx2
      · rename_i y13
        refine Kept.upd ?_ (Eq.refl _) (Eq.refl _)
        exact hx5

theorem State.frostAll_kept (s : State) (kind : Nat) (rate : Option Nat) : Kept s (State.frostAll s kind rate) := by
  unfold State.frostAll
  extract_lets x0
  clear_value x0
  refine .trans ?_ (State.each_kept _ _ _ ?_)
  · exact .rfl
  · intro a1 a2
    refine .trans ?_ (State.updMod_kept ..)
    exact State.enterFrost_kept ..

theorem State.planSolstice_kept (s : State) : Kept s (State.planSolstice s) := by
  unfold State.planSolstice
  split
  · exact .rfl
  · rename_i y2 y3 y4 y5 y6
    extract_lets x7 x8
    have hx7 : Kept s x7 := by
      unfold x7
      exact Kept.upd .rfl (Eq.refl _) (Eq.refl _)
    clear_value x7
    have hx8 : Kept s x8 := by
      unfold x8
      refine .trans ?_ (State.setGap_kept ..)
      refine .trans ?_ (State.frostAll_kept ..)
      exact hx7
    clear_value x8
    split
    · exact .rfl
    · rename_i y10
      split
      · rename_i y11
        exact hx7
      · rename_i y12
        split
        · rename_i y13
          refine .trans ?_ (State.setRf_kept ..)
          exact hx7
        · rename_i y14
          split
          · rename_i y15
            refine .trans ?_ (State.setRf_kept ..)
            exact hx7
          · rename_i y16
            split
            · rename_i y17
              refine .trans ?_ (State.setRf_kept ..)
              exact hx7
            · rename_i y18
              refine Kept.upd ?_ (Eq.refl _) (Eq.refl _)
              exact hx8

theorem State.takeMgmt_kept (s : State) (is : Msg → Bool) (act : MgmtIn → State → State) (hact : ∀ a0 a1, Kept a1 (act a0 a1)) : Kept s
    (State.takeMgmt s is act) := by
  unfold State.takeMgmt
  split
  · exact .rfl
  · rename_i y2 y3 y4
    split
    · exact .rfl
    · rename_i y7 y8 y9
      extract_lets x10
      have hx10 : Kept s x10 := by
        unfold x10
        exact Kept.upd .rfl (Eq.refl _) (Eq.refl _)
      clear_value x10
      refine .trans ?_ (hact ..)
      refine .trans ?_ (State.when_kept _ _ _ ?_)
      · exact hx10
      · exact State.grant_kept ..

theorem State.takeDigest_kept (s : State) (x : MgmtIn) : Kept s (State.takeDigest s x) := by
  unfold State.takeDigest
  split
  · exact .rfl
  · rename_i y2 y3 y4
    extract_lets x5 x6 x7
    clear_value x5
    have hx6 : Kept s x6 := by
      unfold x6
      exact Kept.upd .rfl (Eq.refl _) (Eq.refl _)
    clear_value x6 x7
    split
    · rename_i y8
      refine .trans ?_ (State.setRf_kept ..)
      exact hx6
    · rename_i y9
      refine .trans ?_ (State.irq_kept ..)
      refine .trans ?_ (State.setBit_kept ..)
      refine .trans ?_ (State.setRf_kept ..)
      refine .trans ?_ (State.setRf_kept ..)
      exact hx6

theorem State.sendRetire_kept (s : State) (phase : Nat) (m : Nat) (target : Nat) : Kept s (State.sendRetire s phase m target) := by
  unfold State.sendRetire
  exact State.sendMgmt_kept ..

theorem State.writeRetire_kept (s : State) (d : W32) : Kept s (State.writeRetire s d) := by
  unfold State.writeRetire
  extract_lets x0 x1 x2 x3 x4
  clear_value x0
  have hx1 : Kept s x1 := by
    unfold x1
    exact State.setRf_kept ..
  clear_value x1 x2
  have hx3 : Kept s x3 := by
    unfold x3
    split
    · rename_i y5
      refine .trans ?_ (State.setRf_kept ..)
      refine .trans ?_ (State.startRetire_kept ..)
      exact hx1
    · rename_i y6
      exact hx1
  clear_value x3 x4
  split
  · rename_i y7
    refine .trans ?_ (State.updMod_kept ..)
    refine .trans ?_ (State.dropRepair_kept ..)
    exact hx3
  · rename_i y8
    exact hx3

theorem State.retireNow_kept (s : State) (m : Nat) : Kept s (State.retireNow s m) := by
  unfold State.retireNow
  extract_lets x0 x1 x2 x3 x4 x5 x6
  clear_value x0
  have hx1 : Kept s x1 := by
    unfold x1
    exact State.dropRepair_kept ..
  clear_value x1 x2
  have hx3 : Kept s x3 := by
    unfold x3
    refine Kept.upd ?_ (Eq.refl _) (Eq.refl _)
    exact hx1
  clear_value x3 x4
  have hx5 : Kept s x5 := by
    unfold x5
    refine .trans ?_ (State.updMod_kept ..)
    exact hx3
  clear_value x5
  have hx6 : Kept s x6 := by
    unfold x6
    refine .trans ?_ (State.setLatMin_kept ..)
    refine .trans ?_ (State.when_kept _ _ _ ?_)
    · exact hx5
    · exact State.setRf_kept ..
  clear_value x6
  refine .trans ?_ (State.flowAll_kept ..)
  refine .trans ?_ (State.linkCheck_kept ..)
  refine .trans ?_ (State.gapThaw_kept ..)
  exact hx6

theorem State.retireSolstice_kept (s : State) (m : Nat) : Kept s (State.retireSolstice s m) := by
  unfold State.retireSolstice
  extract_lets x0 x1
  clear_value x0 x1
  split
  · rename_i y2 y3 y4
    split
    · exact .rfl
    · rename_i y6
      split
      · rename_i y7
        exact State.retireNow_kept ..
      · rename_i y8
        refine .trans ?_ (State.sendRetire_kept ..)
        exact State.updMod_kept ..
  · rename_i y9 y10
    split
    · rename_i y11
      exact State.updMod_kept ..
    · exact .rfl

theorem State.overrun_kept (s : State) (n : Nat) : Kept s (State.overrun s n) := by
  unfold State.overrun
  extract_lets x0 x1 x2 x3 x4 x5 x6
  clear_value x0 x1 x2
  have hx3 : Kept s x3 := by
    unfold x3
    refine .trans ?_ (State.irq_kept ..)
    refine .trans ?_ (State.count_kept ..)
    exact State.setBit_kept ..
  clear_value x3 x5
  have hx6 : Kept s x6 := by
    unfold x6
    refine Kept.upd ?_ (Eq.refl _) (Eq.refl _)
    exact hx3
  clear_value x6
  split
  · exact .rfl
  · rename_i y8
    refine .trans ?_ (State.when_kept _ _ _ ?_)
    · exact hx6
    · exact State.askStop_kept ..

theorem State.startProg_kept (s : State) (p : Prog) (at_ : Nat) : Kept s (s.startProg p at_) := by
  unfold State.startProg
  extract_lets t u
  have hu : Kept s u := ((State.setGreg_kept ..).trans (State.setGreg_kept ..)).trans (State.setRg64_kept ..)
  clear_value u
  exact hu.trans ⟨Eq.refl _, Eq.refl _, fun ⟨⟨h1, h2, h3, h4, h5, h6, h7, h8, h9, h10, h11, h12, h13, h14, h15, h16⟩, _, h19⟩ =>
    ⟨⟨h1, h2, h3, h4, h5, h6, h7, h8, h9, h10, h11, h12, h13, h14, h15, h16⟩, ⟨Nat.mod_lt _ (by decide), Nat.zero_le _⟩, h19⟩⟩

theorem State.slotEntry_kept (s : State) (i : Nat) : Kept s (State.slotEntry s i).2 := by
  unfold State.slotEntry
  split
  rename_i y0 y1 y2 y3
  split
  · rename_i y4
    dsimp only
    refine .trans ?_ (State.skip_kept ..)
    refine Kept.of_snd y3 ?_
    exact State.eccRead_kept ..
  · rename_i y5
    split
    · rename_i y6
      dsimp only
      refine Kept.of_snd y3 ?_
      exact State.eccRead_kept ..
    · rename_i y7
      dsimp only
      refine Kept.of_snd y3 ?_
      exact State.eccRead_kept ..

theorem State.deferProg_kept (s : State) (p : Prog) : Kept s (State.deferProg s p) := by
  unfold State.deferProg
  extract_lets x0 x1
  have hx0 : Kept s x0 := by
    unfold x0
    refine .trans ?_ (State.when_kept _ _ _ ?_)
    · exact .rfl
    · exact State.skip_kept ..
  clear_value x0
  refine Kept.upd ?_ (Eq.refl _) (Eq.refl _)
  exact hx0

theorem State.slotLookup_kept (s : State) (n : Nat) (t : Nat) (policy : Nat) (wasLate : Bool) : Kept s (State.slotLookup s n t policy wasLate) := by
  unfold State.slotLookup
  extract_lets x0 x1 x2
  clear_value x0 x1 x2
  split
  · exact .rfl
  · rename_i y4
    split
    rename_i y5 y6 y7 y8
    split
    · rename_i y9
      refine Kept.of_snd y8 ?_
      exact State.slotEntry_kept ..
    · rename_i y10 y11
      extract_lets x12
      clear_value x12
      split
      · rename_i y13 y14
        refine Kept.of_snd y8 ?_
        exact State.slotEntry_kept ..
      · rename_i y15 y16
        refine .trans ?_ (State.skip_kept ..)
        refine Kept.of_snd y8 ?_
        exact State.slotEntry_kept ..
      · rename_i y17 y18
        refine .trans ?_ (State.skip_kept ..)
        refine Kept.of_snd y8 ?_
        exact State.slotEntry_kept ..
      · rename_i y19 y20
        split
        · rename_i y21
          refine .trans ?_ (State.deferProg_kept ..)
          refine Kept.of_snd y8 ?_
          exact State.slotEntry_kept ..
        · rename_i y22
          split
          · rename_i y23
            refine .trans ?_ (State.skip_kept ..)
            refine Kept.of_snd y8 ?_
            exact State.slotEntry_kept ..
          · rename_i y24
            split
            · rename_i y25
              refine .trans ?_ (State.startProg_kept ..)
              refine Kept.of_snd y8 ?_
              exact State.slotEntry_kept ..
            · rename_i y26
              refine Kept.of_snd y8 ?_
              exact State.slotEntry_kept ..
      · rename_i y27 y28
        split
        · rename_i y29
          refine .trans ?_ (State.deferProg_kept ..)
          refine Kept.of_snd y8 ?_
          exact State.slotEntry_kept ..
        · rename_i y30
          refine .trans ?_ (State.skip_kept ..)
          refine Kept.of_snd y8 ?_
          exact State.slotEntry_kept ..
      · rename_i y31 y32
        split
        · rename_i y33
          refine .trans ?_ (State.deferProg_kept ..)
          refine Kept.of_snd y8 ?_
          exact State.slotEntry_kept ..
        · rename_i y34
          refine .trans ?_ (State.skip_kept ..)
          refine Kept.of_snd y8 ?_
          exact State.slotEntry_kept ..

theorem State.tickwaitEnd_kept (s : State) (t : Nat) : Kept s (State.tickwaitEnd s t) := by
  unfold State.tickwaitEnd
  split
  · rename_i y0 y1
    extract_lets x2
    exact Kept.upd .rfl (Eq.refl _) (Eq.refl _)
  · exact .rfl

theorem State.forgetProgs_kept (s : State) (n : Nat) : Kept s (State.forgetProgs s n) := by
  unfold State.forgetProgs
  extract_lets x0
  exact Kept.upd .rfl (Eq.refl _) (Eq.refl _)

theorem State.writeSeqCtrl_kept (s : State) (d : W32) : Kept s (State.writeSeqCtrl s d) := by
  unfold State.writeSeqCtrl
  extract_lets x0 x1 x2
  have hx0 : Kept s x0 := by
    unfold x0
    exact State.settle_kept ..
  clear_value x0 x1
  have hx2 : Kept s x2 := by
    unfold x2
    refine .trans ?_ (State.when_kept _ _ _ ?_)
    · exact hx0
    · exact State.clrSeq_kept ..
  clear_value x2
  split
  · rename_i y3
    refine .trans ?_ (State.askStop_kept ..)
    exact hx0
  · rename_i y4
    refine .trans ?_ (State.when_kept _ _ _ ?_)
    · exact hx2
    · exact State.startSeq_kept ..

theorem State.writePmCheck_kept (s : State) (d : W32) : Kept s (s.writePmCheck d) := by
  unfold State.writePmCheck
  extract_lets c t
  have ht : Kept s t := (State.setRf_kept ..).trans (State.setRf_kept ..)
  clear_value t
  split
  · exact Kept.upd (t := t.setRf 0x30020 30 30 0) (ht.trans (State.setRf_kept ..)) (Eq.refl _) (Eq.refl _)
  · exact ht

theorem State.updTick_kept (s : State) (f : Tick → Tick) : Kept s (State.updTick s f) := by
  unfold State.updTick
  exact Kept.upd .rfl (Eq.refl _) (Eq.refl _)

theorem State.tickEnWrite_kept (s : State) (en : Bool) : Kept s (State.tickEnWrite s en) := by
  unfold State.tickEnWrite
  extract_lets x0 x1 x2 x3 x4 x5 x6 x7 x8
  have hx0 : Kept s x0 := by
    unfold x0
    exact State.setRf_kept ..
  clear_value x0
  have hx1 : Kept s x1 := by
    unfold x1
    refine .trans ?_ (State.when_kept _ _ _ ?_)
    · exact hx0
    · exact State.skip_kept ..
  clear_value x1
  have hx3 : Kept s x3 := by
    unfold x3
    refine Kept.upd ?_ (Eq.refl _) (Eq.refl _)
    exact hx1
  clear_value x3 x5 x6
  have hx7 : Kept s x7 := by
    unfold x7
    refine .trans ?_ (State.updTick_kept ..)
    exact hx3
  clear_value x7 x8
  split
  · exact .rfl
  · rename_i y10
    split
    · rename_i y11
      refine .trans ?_ (State.updTick_kept ..)
      exact hx3
    · rename_i y12
      refine Kept.upd ?_ (Eq.refl _) (Eq.refl _)
      exact hx7

theorem State.tickRoleSet_kept (s : State) (role : Nat) : Kept s (State.tickRoleSet s role) := by
  unfold State.tickRoleSet
  split
  · exact .rfl
  · rename_i y1
    split
    · rename_i y2
      exact State.setBit_kept ..
    · rename_i y3
      split
      · exact .rfl
      · rename_i y5
        exact State.setRf_kept ..

theorem State.flywheel_kept (s : State) : Kept s (State.flywheel s) := by
  unfold State.flywheel
  extract_lets x0 x1
  clear_value x0 x1
  split
  · exact .rfl
  · rename_i y3
    exact State.updTick_kept ..

theorem State.reacquire_kept (s : State) : Kept s (State.reacquire s) := by
  unfold State.reacquire
  split
  · rename_i y0
    refine .trans ?_ (State.updTick_kept ..)
    exact State.flywheel_kept ..
  · exact .rfl

theorem State.skew_kept (s : State) : Kept s (State.skew s) := by
  unfold State.skew
  refine .trans ?_ (State.irq_kept ..)
  refine .trans ?_ (State.count_kept ..)
  exact State.setBit_kept ..

theorem State.adopt_kept (s : State) (a : Nat) (phase8 : Nat) : Kept s (State.adopt s a phase8) := by
  unfold State.adopt
  extract_lets x0 x1 x2 x3
  clear_value x0 x1
  have hx2 : Kept s x2 := by
    unfold x2
    refine .trans ?_ (State.when_kept _ _ _ ?_)
    · exact .rfl
    · refine .trans ?_ (State.count_kept ..)
      exact State.overrun_kept ..
  clear_value x2 x3
  refine .trans ?_ (State.updTick_kept ..)
  exact hx2

theorem State.acquire_kept (s : State) (n : Nat) (ph8 : Int) : Kept s (State.acquire s n ph8) := by
  unfold State.acquire
  extract_lets x0
  subst x0
  split
  · rename_i y1 y2
    exact State.updTick_kept ..
  · rename_i y3 y4 y5
    extract_lets x6 x7 x8
    clear_value x6 x7
    have hx8 : Kept s x8 := by
      unfold x8
      exact State.updTick_kept ..
    clear_value x8
    split
    · rename_i y9
      split
      · rename_i y10
        refine .trans ?_ (State.adopt_kept ..)
        exact hx8
      · rename_i y11
        refine .trans ?_ (State.updTick_kept ..)
        exact hx8
    · rename_i y12
      refine .trans ?_ (State.updTick_kept ..)
      exact hx8

theorem State.measure_kept (s : State) (n : Nat) (ph8 : Int) : Kept s (State.measure s n ph8) := by
  unfold State.measure
  extract_lets x0 x1 x2 x3
  clear_value x0 x1
  have hx2 : Kept s x2 := by
    unfold x2
    exact State.updTick_kept ..
  clear_value x2 x3
  split
  · rename_i y4
    split
    · rename_i y5
      exact hx2
    · rename_i y6
      refine .trans ?_ (State.updTick_kept ..)
      exact hx2
  · rename_i y7
    refine .trans ?_ (State.when_kept _ _ _ ?_)
    · refine .trans ?_ (State.skew_kept ..)
      exact hx2
    · exact State.updTick_kept ..

theorem State.marker_kept (s : State) (m : Nat) (n : Nat) (arrival8 : Nat) (offset : Nat) : Kept s (State.marker s m n arrival8 offset) := by
  unfold State.marker
  extract_lets x0 x1
  clear_value x0
  have hx1 : Kept s x1 := by
    unfold x1
    exact State.updTick_kept ..
  clear_value x1
  split
  · exact .rfl
  · rename_i y3
    split
    · rename_i y4
      refine .trans ?_ (State.when_kept _ _ _ ?_)
      · exact .rfl
      · exact State.measure_kept ..
    · rename_i y5
      split
      · rename_i y6
        split
        · rename_i y7
          refine .trans ?_ (State.measure_kept ..)
          exact hx1
        · rename_i y8
          split
          · rename_i y9
            refine .trans ?_ (State.acquire_kept ..)
            refine .trans ?_ (State.updTick_kept ..)
            exact hx1
          · rename_i y10
            refine .trans ?_ (State.acquire_kept ..)
            exact hx1
      · exact .rfl

theorem State.enterFallow_kept (s : State) (m : Nat) : Kept s (State.enterFallow s m) := by
  unfold State.enterFallow
  refine .trans ?_ (State.flowAll_kept ..)
  exact State.updMod_kept ..

theorem State.rxSb_kept (s : State) (x : SbMsg) (code : Nat) (len : Nat) (act : Nat → State → State) (hact : ∀ a0 a1, Kept a1 (act a0 a1)) : Kept
    s (State.rxSb s x code len act) := by
  unfold State.rxSb
  split
  · rename_i y0
    exact hact ..
  · exact .rfl

theorem State.beginWake_kept (s : State) (m : Nat) : Kept s (State.beginWake s m) := by
  unfold State.beginWake
  split
  · rename_i y0
    refine .trans ?_ (State.emit_kept ..)
    refine .trans ?_ (State.updMod_kept ..)
    exact State.bistServe_kept ..
  · exact .rfl

theorem State.writeFallow_kept (s : State) (d : W32) : Kept s (State.writeFallow s d) := by
  unfold State.writeFallow
  refine .trans ?_ (State.each_kept _ _ _ ?_)
  · exact .rfl
  · intro a0 a1
    refine .trans ?_ (State.when_kept _ _ _ ?_)
    · exact .rfl
    · exact State.beginWake_kept ..

theorem State.updPwr_kept (s : State) (f : Pwr → Pwr) : Kept s (State.updPwr s f) := by
  unfold State.updPwr
  exact Kept.upd .rfl (Eq.refl _) (Eq.refl _)

theorem State.sendPower_kept (s : State) (code : Nat) (t : Option Nat) : Kept s (State.sendPower s code t) := by
  unfold State.sendPower
  exact State.sendSb_kept ..

theorem State.mwAgree_kept (s : State) : Kept s (State.mwAgree s) := by
  unfold State.mwAgree
  split
  · rename_i y0 y1 y2 y3 y4 y5
    split
    · rename_i y6
      exact State.sendPower_kept ..
    · exact .rfl
  · exact .rfl

theorem State.mwRefuse_kept (s : State) (result : Nat) : Kept s (State.mwRefuse s result) := by
  unfold State.mwRefuse
  exact State.updPwr_kept ..

theorem State.mwWithdraw_kept (s : State) : Kept s (State.mwWithdraw s) := by
  unfold State.mwWithdraw
  refine .trans ?_ (State.sendPower_kept ..)
  refine .trans ?_ (State.updPwr_kept ..)
  exact State.mwRefuse_kept ..

theorem State.goMidwinter_kept (s : State) : Kept s (State.goMidwinter s) := by
  unfold State.goMidwinter
  extract_lets x0
  clear_value x0
  split
  · exact .rfl
  · rename_i y2
    split
    · rename_i y3
      exact State.mwWithdraw_kept ..
    · rename_i y4
      split
      · rename_i y5
        exact State.updPwr_kept ..
      · rename_i y6
        refine .trans ?_ (State.mwAgree_kept ..)
        refine .trans ?_ (State.sendPower_kept ..)
        exact State.updPwr_kept ..

theorem State.mwSolstice_kept (s : State) : Kept s (State.mwSolstice s) := by
  unfold State.mwSolstice
  split
  · exact .rfl
  · rename_i y2 y3 y4
    split
    · exact .rfl
    · rename_i y6
      split
      · rename_i y7
        refine .trans ?_ (State.updPwr_kept ..)
        exact State.frostAll_kept ..
      · rename_i y8
        exact State.mwWithdraw_kept ..

theorem State.startWake_kept (s : State) : Kept s (State.startWake s) := by
  unfold State.startWake
  split
  · exact .rfl
  · rename_i y1
    refine .trans ?_ (State.sendPower_kept ..)
    exact State.updPwr_kept ..

theorem State.beginExit_kept (s : State) : Kept s (State.beginExit s) := by
  unfold State.beginExit
  split
  · rename_i y0
    refine .trans ?_ (State.updPwr_kept ..)
    refine .trans ?_ (State.each_kept _ _ _ ?_)
    · exact .rfl
    · intro a1 a2
      exact State.bistServe_kept ..
  · exact .rfl

theorem State.exitRetrain_kept (s : State) : Kept s (State.exitRetrain s) := by
  unfold State.exitRetrain
  refine .trans ?_ (State.each_kept _ _ _ ?_)
  · exact .rfl
  · intro a0 a1
    refine .trans ?_ (State.enterRetrain_kept ..)
    exact State.updMod_kept ..

theorem State.exitThaw_kept (s : State) : Kept s (State.exitThaw s) := by
  unfold State.exitThaw
  extract_lets x0 x1
  clear_value x0
  have hx1 : Kept s x1 := by
    unfold x1
    refine .trans ?_ (State.each_kept _ _ _ ?_)
    · exact .rfl
    · intro a2 a3
      refine .trans ?_ (State.modUp_kept ..)
      exact State.updMod_kept ..
  clear_value x1
  refine .trans ?_ (State.updPwr_kept ..)
  exact hx1

theorem State.exitStep_kept (s : State) (k : Nat) : Kept s (State.exitStep s k) := by
  unfold State.exitStep
  split
  · rename_i y0
    exact State.exitThaw_kept ..
  · rename_i y1
    refine .trans ?_ (State.updPwr_kept ..)
    refine .trans ?_ (State.when_kept _ _ _ ?_)
    · exact .rfl
    · exact State.exitRetrain_kept ..

theorem State.capSolstice_kept (s : State) : Kept s (State.capSolstice s) := by
  unfold State.capSolstice
  extract_lets x0
  clear_value x0
  refine .trans ?_ (State.each_kept _ _ _ ?_)
  · exact State.updPwr_kept ..
  · intro a1 a2
    refine .trans ?_ (State.tel_kept ..)
    exact State.updPwr_kept ..

theorem State.sendRepair_kept (s : State) (m : Nat) (phase : Nat) (r : Repair) : Kept s (State.sendRepair s m phase r) := by
  unfold State.sendRepair
  exact State.queueRepair_kept ..

theorem State.repairResult_kept (s : State) (m : Nat) (r : Nat) : Kept s (State.repairResult s m r) := by
  unfold State.repairResult
  exact State.setRf_kept ..

theorem State.repairEnds_kept (s : State) (m : Nat) (r : Nat) : Kept s (State.repairEnds s m r) := by
  unfold State.repairEnds
  refine .trans ?_ (State.irq_kept ..)
  refine .trans ?_ (State.setBit_kept ..)
  exact State.repairResult_kept ..

theorem State.startRepair_kept (s : State) (m : Nat) (width : Nat) (map : List Spare) (target : Nat) : Kept s (State.startRepair s m width map
    target) := by
  unfold State.startRepair
  extract_lets x0 x1 x2 x3 x4
  clear_value x0 x1
  have hx2 : Kept s x2 := by
    unfold x2
    refine .trans ?_ (State.when_kept _ _ _ ?_)
    · exact .rfl
    · exact State.repairEnds_kept ..
  clear_value x2 x3
  have hx4 : Kept s x4 := by
    unfold x4
    refine Kept.upd ?_ (Eq.refl _) (Eq.refl _)
    exact hx2
  clear_value x4
  refine .trans ?_ (State.sendRepair_kept ..)
  refine .trans ?_ (State.updMod_kept ..)
  refine .trans ?_ (State.bistServe_kept ..)
  exact hx4

theorem State.startWidth_kept (s : State) (m : Nat) (w : Nat) (fails : List Nat) (target : Nat) : Kept s (State.startWidth s m w fails target) := by
  unfold State.startWidth
  extract_lets x0
  clear_value x0
  refine .trans ?_ (State.startRepair_kept ..)
  exact State.updMod_kept ..

theorem State.writeRepair_kept (s : State) (m : Nat) (d : W32) : Kept s (State.writeRepair s m d) := by
  unfold State.writeRepair
  extract_lets x0 x1 x2 x3 x4 x5 x6
  clear_value x0
  have hx1 : Kept s x1 := by
    unfold x1
    exact State.setRg_kept ..
  clear_value x1
  have hx2 : Kept s x2 := by
    unfold x2
    refine .trans ?_ (State.updMod_kept ..)
    exact hx1
  clear_value x2 x3 x4 x5 x6
  split
  · rename_i y7
    exact hx1
  · rename_i y8
    split
    · rename_i y9
      refine .trans ?_ (State.repairResult_kept ..)
      exact hx1
    · rename_i y10
      split
      · rename_i y11
        refine .trans ?_ (State.startRepair_kept ..)
        refine .trans ?_ (State.repairResult_kept ..)
        exact hx2
      · rename_i y12
        split
        · rename_i y13 y14 y15
          split
          · rename_i y16
            refine .trans ?_ (State.startRepair_kept ..)
            refine .trans ?_ (State.repairResult_kept ..)
            exact hx2
          · rename_i y17
            refine .trans ?_ (State.startWidth_kept ..)
            refine .trans ?_ (State.repairResult_kept ..)
            exact hx2
        · rename_i y18 y19
          refine .trans ?_ (State.startRetire_kept ..)
          exact hx2

theorem State.rxRepair_kept (s : State) (m : Nat) (f : List Byte) (phase : Nat) (act : Nat → Nat → Nat → List Byte → Nat → State → State) (hact :
    ∀ a0 a1 a2 a3 a4 a5, Kept a5 (act a0 a1 a2 a3 a4 a5)) : Kept s (State.rxRepair s m f phase act) := by
  unfold State.rxRepair
  refine .trans ?_ (State.rxCtrl_kept _ _ _ _ _ ?_)
  · exact .rfl
  · intro a0 a1
    split
    · rename_i y2
      exact hact ..
    · exact .rfl

theorem State.applyRxSwap_kept (s : State) (m : Nat) (r : Repair) : Kept s (State.applyRxSwap s m r) := by
  unfold State.applyRxSwap
  extract_lets x0
  have hx0 : Kept s x0 := by
    unfold x0
    exact State.updMod_kept ..
  clear_value x0
  refine .trans ?_ (State.irq_kept ..)
  refine .trans ?_ (State.setBit_kept ..)
  refine .trans ?_ (State.repairResult_kept ..)
  exact hx0

theorem State.beginWidth_kept (s : State) (m : Nat) (r : Repair) (mine : Bool) (other : Bool) : Kept s (State.beginWidth s m r mine other) := by
  unfold State.beginWidth
  extract_lets x0 x1 x2 x3
  clear_value x0 x1 x2
  have hx3 : Kept s x3 := by
    unfold x3
    exact State.updMod_kept ..
  clear_value x3
  split
  · rename_i y4
    refine .trans ?_ (State.setGap_kept ..)
    refine .trans ?_ (State.enterFrost_kept ..)
    exact hx3
  · rename_i y5
    split
    · rename_i y6
      exact hx3
    · rename_i y7
      refine .trans ?_ (State.widthDone_kept ..)
      refine .trans ?_ (State.updMod_kept ..)
      exact hx3

theorem State.txSolstice_kept (s : State) (m : Nat) (r : Repair) (wide : Bool) (other : Bool) : Kept s (State.txSolstice s m r wide other) := by
  unfold State.txSolstice
  extract_lets x0 x1
  clear_value x0
  have hx1 : Kept s x1 := by
    unfold x1
    exact State.updMod_kept ..
  clear_value x1
  split
  · rename_i y2
    exact hx1
  · rename_i y3
    split
    · rename_i y4
      refine .trans ?_ (State.beginWidth_kept ..)
      exact hx1
    · rename_i y5
      split
      · rename_i y6
        refine .trans ?_ (State.updMod_kept ..)
        exact hx1
      · rename_i y7
        refine .trans ?_ (State.enterFrost_kept ..)
        refine .trans ?_ (State.updMod_kept ..)
        exact hx1

theorem State.rxSolstice_kept (s : State) (m : Nat) (r : Repair) (wide : Bool) (other : Bool) : Kept s (State.rxSolstice s m r wide other) := by
  unfold State.rxSolstice
  extract_lets x0 x1
  clear_value x0
  have hx1 : Kept s x1 := by
    unfold x1
    exact State.updMod_kept ..
  clear_value x1
  split
  · rename_i y2
    exact hx1
  · rename_i y3
    split
    · rename_i y4
      refine .trans ?_ (State.repairEnds_kept ..)
      exact hx1
    · rename_i y5
      split
      · rename_i y6
        refine .trans ?_ (State.beginWidth_kept ..)
        exact hx1
      · rename_i y7
        split
        · rename_i y8
          refine .trans ?_ (State.applyRxSwap_kept ..)
          exact hx1
        · rename_i y9
          refine .trans ?_ (State.updMod_kept ..)
          exact hx1

theorem State.repairSolstice_kept (s : State) (m : Nat) : Kept s (State.repairSolstice s m) := by
  unfold State.repairSolstice
  extract_lets x0 x1 x2 x3 x4
  clear_value x0
  subst x1
  subst x2
  clear_value x3
  have hx4 : Kept s x4 := by
    unfold x4
    split
    · rename_i y5 y6 y7
      refine .trans ?_ (State.when_kept _ _ _ ?_)
      · exact .rfl
      · exact State.txSolstice_kept ..
    · exact .rfl
  clear_value x4
  split
  · rename_i y10
    exact State.updMod_kept ..
  · rename_i y11
    split
    · rename_i y12 y13 y14
      refine .trans ?_ (State.when_kept _ _ _ ?_)
      · exact hx4
      · exact State.rxSolstice_kept ..
    · rename_i y15 y16
      exact hx4

theorem State.hmFilter_kept (s : State) (x : HmInputs) : Kept s (State.hmFilter s x) := by
  unfold State.hmFilter
  extract_lets x0 x1 x2 x3 x4
  clear_value x0 x1 x2 x3 x4
  exact State.updHm_kept ..

theorem State.hmAct_kept (s : State) (action : Nat) (event : Nat) (m : Nat) (lane : Nat) : Kept s (State.hmAct s action event m lane) := by
  unfold State.hmAct
  extract_lets x0
  clear_value x0
  refine .trans ?_ (State.tel_kept ..)
  refine .trans ?_ (State.irq_kept ..)
  refine .trans ?_ (State.setBit_kept ..)
  exact State.setRg64_kept ..

theorem State.hmForbid_kept (s : State) (action : Nat) (m : Nat) (lane : Nat) : Kept s (State.hmForbid s action m lane) := by
  unfold State.hmForbid
  refine .trans ?_ (State.irq_kept ..)
  refine .trans ?_ (State.setBit_kept ..)
  exact State.setRg64_kept ..

theorem State.hmHold_kept (s : State) (m : Nat) : Kept s (State.hmHold s m) := by
  unfold State.hmHold
  exact State.updHm_kept ..

theorem State.hmRetire_kept (s : State) (m : Nat) (lane : Nat) (forced : Bool) : Kept s (State.hmRetire s m lane forced) := by
  unfold State.hmRetire
  split
  · rename_i y0
    refine .trans ?_ (State.hmHold_kept ..)
    refine .trans ?_ (State.hmAct_kept ..)
    exact State.startRetire_kept ..
  · rename_i y1
    exact State.hmForbid_kept ..

theorem State.hmLane_kept (s : State) (m : Nat) (lane : Nat) : Kept s (State.hmLane s m lane) := by
  unfold State.hmLane
  extract_lets x0 x1 x2
  clear_value x0 x1 x2
  split
  · rename_i y3
    refine .trans ?_ (State.hmHold_kept ..)
    refine .trans ?_ (State.hmAct_kept ..)
    exact State.ucieRetrain_kept ..
  · rename_i y4
    split
    · rename_i y5
      split
      · rename_i y6
        exact State.hmForbid_kept ..
      · rename_i y7
        split
        · exact .rfl
        · rename_i y9
          refine .trans ?_ (State.hmHold_kept ..)
          refine .trans ?_ (State.hmAct_kept ..)
          exact State.startRepair_kept ..
    · rename_i y10
      split
      · rename_i y11
        split
        · rename_i y12 y13
          exact State.hmRetire_kept ..
        · rename_i y14 y15 y16
          split
          · rename_i y17
            exact State.hmForbid_kept ..
          · rename_i y18
            split
            · exact .rfl
            · rename_i y20
              refine .trans ?_ (State.hmHold_kept ..)
              refine .trans ?_ (State.hmAct_kept ..)
              exact State.startWidth_kept ..
      · rename_i y21
        exact State.hmRetire_kept ..

theorem State.hmCrc_kept (s : State) (m : Nat) : Kept s (State.hmCrc s m) := by
  unfold State.hmCrc
  split
  · rename_i y0
    exact State.hmRetire_kept ..
  · rename_i y1
    split
    · rename_i y2
      exact State.hmForbid_kept ..
    · rename_i y3
      refine .trans ?_ (State.hmHold_kept ..)
      refine .trans ?_ (State.hmAct_kept ..)
      exact State.updMod_kept ..

theorem State.hmSolstice_kept (s : State) (m : Nat) : Kept s (State.hmSolstice s m) := by
  unfold State.hmSolstice
  extract_lets x0
  have hx0 : Kept s x0 := by
    unfold x0
    exact State.updMod_kept ..
  clear_value x0
  split
  · exact .rfl
  · rename_i y2
    refine .trans ?_ (State.when_kept _ _ _ ?_)
    · exact hx0
    · refine .trans ?_ (State.setGap_kept ..)
      exact State.enterFrost_kept ..

theorem State.hmModule_kept (s : State) (held : Bool) (m : Nat) : Kept s (State.hmModule s held m) := by
  unfold State.hmModule
  extract_lets x0
  have hx0 : Kept s x0 := by
    unfold x0
    split
    · rename_i y1 y2 y3 y4
      exact State.hmLane_kept ..
    · exact .rfl
  clear_value x0
  split
  · exact .rfl
  · rename_i y8
    split
    · rename_i y9
      split
      · rename_i y10 y11 y12
        exact State.hmRetire_kept ..
      · exact .rfl
    · rename_i y15
      split
      · rename_i y16
        refine .trans ?_ (State.hmCrc_kept ..)
        exact hx0
      · rename_i y17
        exact hx0

theorem State.sendStep_kept (s : State) (phase : Nat) (rate : Nat) (target : Nat) : Kept s (State.sendStep s phase rate target) := by
  unfold State.sendStep
  exact State.sendMgmt_kept ..

theorem State.hmStep_kept (s : State) (m : Nat) (hot : Bool) : Kept s (State.hmStep s m hot) := by
  unfold State.hmStep
  extract_lets x0 x1 x2 x3 x4
  have hx0 : Kept s x0 := by
    unfold x0
    refine .trans ?_ (State.when_kept _ _ _ ?_)
    · exact .rfl
    · refine .trans ?_ (State.irq_kept ..)
      exact State.setBit_kept ..
  clear_value x0 x1 x2
  have hx3 : Kept s x3 := by
    unfold x3
    refine .trans ?_ (State.updHm_kept ..)
    exact hx0
  clear_value x3
  have hx4 : Kept s x4 := by
    unfold x4
    refine .trans ?_ (State.hmAct_kept ..)
    refine .trans ?_ (State.sendStep_kept ..)
    exact hx3
  clear_value x4
  split
  · rename_i y5
    refine .trans ?_ (State.hmForbid_kept ..)
    exact hx0
  · rename_i y6
    split
    · rename_i y7
      exact hx0
    · rename_i y8
      refine .trans ?_ (State.each_kept _ _ _ ?_)
      · exact hx4
      · intro a9 a10
        exact State.hmHold_kept ..

theorem State.hmLink_kept (s : State) : Kept s (State.hmLink s) := by
  unfold State.hmLink
  extract_lets x0 x1 x2 x3
  clear_value x0 x1 x2 x3
  split
  · rename_i y4 y5 y6
    split
    · rename_i y7
      refine .trans ?_ (State.each_kept _ _ _ ?_)
      · exact .rfl
      · intro a8 a9
        refine .trans ?_ (State.hmHold_kept ..)
        refine .trans ?_ (State.hmAct_kept ..)
        exact State.ucieRetrain_kept ..
    · rename_i y10
      exact State.hmStep_kept ..
  · exact .rfl

theorem State.supplyAlarm_kept (s : State) : Kept s (State.supplyAlarm s) := by
  unfold State.supplyAlarm
  refine .trans ?_ (State.when_kept _ _ _ ?_)
  · exact .rfl
  · exact State.hmAct_kept ..

theorem State.hmAlarms_kept (s : State) : Kept s (State.hmAlarms s) := by
  unfold State.hmAlarms
  extract_lets x0
  have hx0 : Kept s x0 := by
    unfold x0
    split
    · rename_i y1 y2 y3 y4
      exact State.hmAct_kept ..
    · exact .rfl
  clear_value x0
  refine .trans ?_ (State.supplyAlarm_kept ..)
  exact hx0

theorem State.hmTake_kept (s : State) (x : HmInputs) : Kept s (State.hmTake s x) := by
  unfold State.hmTake
  extract_lets x0 x1 x2
  clear_value x0
  have hx1 : Kept s x1 := by
    unfold x1
    exact Kept.upd .rfl (Eq.refl _) (Eq.refl _)
  clear_value x1
  have hx2 : Kept s x2 := by
    unfold x2
    refine .trans ?_ (State.when_kept _ _ _ ?_)
    · exact hx1
    · exact State.hmFilter_kept ..
  clear_value x2
  refine .trans ?_ (State.when_kept _ _ _ ?_)
  · exact hx2
  · exact State.bistCut_kept ..

theorem State.hmSample_kept (s : State) (x : HmInputs) : Kept s (State.hmSample s x) := by
  unfold State.hmSample
  extract_lets x0 x1 x2
  clear_value x0
  have hx1 : Kept s x1 := by
    unfold x1
    exact State.hmTake_kept ..
  clear_value x1 x2
  refine .trans ?_ (State.when_kept _ _ _ ?_)
  · exact hx1
  · refine .trans ?_ (State.hmAlarms_kept ..)
    refine .trans ?_ (State.when_kept _ _ _ ?_)
    · refine .trans ?_ (State.each_kept _ _ _ ?_)
      · exact .rfl
      · intro a3 a4
        exact State.hmModule_kept ..
    · exact State.hmLink_kept ..

theorem State.stepSolstice_kept (s : State) : Kept s (State.stepSolstice s) := by
  unfold State.stepSolstice
  split
  · exact .rfl
  · rename_i y2 y3 y4
    extract_lets x5
    have hx5 : Kept s x5 := by
      unfold x5
      exact State.updHm_kept ..
    clear_value x5
    split
    · exact .rfl
    · rename_i y7
      split
      · rename_i y8
        refine .trans ?_ (State.setGap_kept ..)
        refine .trans ?_ (State.frostAll_kept ..)
        exact hx5
      · rename_i y9
        exact hx5

theorem State.capacitySolstice_kept (s : State) : Kept s (State.capacitySolstice s) := by
  unfold State.capacitySolstice
  extract_lets x0
  clear_value x0
  exact State.setRg_kept ..

theorem State.sendTwinFn_kept (s : State) (fn : Nat) (phase : Nat) (role : Nat) (lost : Bool) (target : Nat) (data : List Byte) : Kept s
    (State.sendTwinFn s fn phase role lost target data) := by
  unfold State.sendTwinFn
  exact State.sendMgmt_kept ..

theorem State.requestTakeover_kept (s : State) (lost : Bool) : Kept s (State.requestTakeover s lost) := by
  unfold State.requestTakeover
  extract_lets x0 x1 x2
  clear_value x0 x1
  have hx2 : Kept s x2 := by
    unfold x2
    exact State.updTwin_kept ..
  clear_value x2
  refine .trans ?_ (State.sendHeartbeat_kept ..)
  refine .trans ?_ (State.sendTwinFn_kept ..)
  refine .trans ?_ (State.twinEvent_kept ..)
  refine .trans ?_ (State.freeze_kept ..)
  exact hx2

theorem State.hearTake_kept (s : State) (p : Pending) : Kept s (State.hearTake s p) := by
  unfold State.hearTake
  extract_lets x0 x1 x2 x3 x4
  clear_value x0 x1 x2
  have hx4 : Kept s x4 := by
    unfold x4
    exact State.updTwin_kept ..
  clear_value x4
  split
  · rename_i y5
    split
    · rename_i y6
      refine .trans ?_ (State.twinEvent_kept ..)
      refine .trans ?_ (State.freeze_kept ..)
      exact hx4
    · rename_i y7
      exact hx4
  · exact .rfl

theorem State.takeHeartbeat_kept (s : State) (linkOk : Bool) (half : Nat) (waking : Bool) (take : Option Pending) :
    Kept s (State.takeHeartbeat s linkOk half waking take) := by
  unfold State.takeHeartbeat
  split
  · exact .rfl
  · extract_lets a b c
    have ha : Kept s a := State.updTwin_kept ..
    clear_value a
    have hb : Kept a b := State.when_kept _ _ _ (State.startWake_kept ..)
    clear_value b
    have hc : Kept b c := by
      refine Kept.of_getD (fun t h => ?_) .rfl
      obtain ⟨p, -, rfl⟩ := Option.map_eq_some_iff.1 h
      exact State.hearTake_kept ..
    clear_value c
    have h := (ha.trans hb).trans hc
    split
    · exact h.trans (State.updTwin_kept ..)
    · split
      · exact h.trans (State.requestTakeover_kept ..)
      · exact h

theorem State.forceFail_kept (s : State) : Kept s (State.forceFail s) := by
  unfold State.forceFail
  split
  · rename_i y0
    refine .trans ?_ (State.sendHeartbeat_kept ..)
    exact State.failOwn_kept ..
  · exact .rfl

theorem State.sisterLost_kept (s : State) : Kept s (State.sisterLost s) := by
  unfold State.sisterLost
  extract_lets x0 x1
  have hx0 : Kept s x0 := by
    unfold x0
    refine .trans ?_ (State.twinEvent_kept ..)
    exact State.updTwin_kept ..
  clear_value x0 x1
  split
  · rename_i y2
    refine .trans ?_ (State.requestTakeover_kept ..)
    exact hx0
  · rename_i y3
    refine .trans ?_ (State.updTwin_kept ..)
    exact hx0

theorem State.yieldStream_kept (s : State) (n : Nat) : Kept s (State.yieldStream s n) := by
  unfold State.yieldStream
  extract_lets x0 x1 x2 x3 x4
  have hx0 : Kept s x0 := by
    unfold x0
    refine .trans ?_ (State.dropStubs_kept ..)
    refine .trans ?_ (State.dropHeld_kept ..)
    exact State.joinStub_kept ..
  clear_value x0 x1 x2
  have hx3 : Kept s x3 := by
    unfold x3
    refine .trans ?_ (State.updStrm_kept ..)
    exact hx0
  clear_value x3 x4
  refine .trans ?_ (State.emit_kept ..)
  exact hx3

theorem State.yieldOp_kept (s : State) (o : Op) : Kept s (State.yieldOp s o) := by
  unfold State.yieldOp
  extract_lets x0 x1 x2 x3
  clear_value x0 x1 x2 x3
  split
  · exact .rfl
  · rename_i y5 y6 y7
    extract_lets x8
    have hx8 : Kept s x8 := by
      unfold x8
      exact State.emit_kept ..
    clear_value x8
    split
    · rename_i y9
      refine Kept.upd ?_ (Eq.refl _) (Eq.refl _)
      exact hx8
    · rename_i y10
      refine .trans ?_ (State.setOp_kept ..)
      exact hx8

theorem State.yieldAll_kept (s : State) : Kept s (State.yieldAll s) := by
  unfold State.yieldAll
  extract_lets x0 x1 x2 x3 x4 x5 x6
  clear_value x0
  have hx1 : Kept s x1 := by
    unfold x1
    refine .trans ?_ (State.each_kept _ _ _ ?_)
    · exact .rfl
    · intro a7 a8
      exact State.yieldStream_kept ..
  clear_value x1 x2 x3
  have hx4 : Kept s x4 := by
    unfold x4
    refine .trans ?_ (State.each_kept _ _ _ ?_)
    · exact hx1
    · intro a9 a10
      exact State.yieldOp_kept ..
  clear_value x4
  have hx5 : Kept s x5 := by
    unfold x5
    refine .trans ?_ (State.when_kept _ _ _ ?_)
    · exact hx4
    · exact State.emit_kept ..
  clear_value x5
  have hx6 : Kept s x6 := by
    unfold x6
    refine Kept.upd ?_ (Eq.refl _) (Eq.refl _)
    exact hx5
  clear_value x6
  refine .trans ?_ (State.updTwin_kept ..)
  exact hx6

theorem State.orphan_kept (s : State) (tag : Nat) : Kept s (State.orphan s tag) := by
  unfold State.orphan
  extract_lets x0
  clear_value x0
  exact Kept.upd .rfl (Eq.refl _) (Eq.refl _)

theorem State.abortOp_kept (s : State) (off : Nat) (o : Op) : Kept s (State.abortOp s off o) := by
  unfold State.abortOp
  refine .trans ?_ (State.finishOp_kept ..)
  refine .trans ?_ (State.count32_kept ..)
  refine .trans ?_ (State.each_kept _ _ _ ?_)
  · exact State.orphan_kept ..
  · intro a0 a1
    exact State.unhold_kept ..

theorem State.takeLost_kept (s : State) (ns : List Nat) : Kept s (State.takeLost s ns) := by
  unfold State.takeLost
  extract_lets x0 x1 x2 x3 x4 x5
  have hx0 : Kept s x0 := by
    unfold x0
    refine .trans ?_ (State.each_kept _ _ _ ?_)
    · exact .rfl
    · intro a6 a7
      refine .trans ?_ (State.updStrm_kept ..)
      refine .trans ?_ (State.dropStubs_kept ..)
      exact State.dropHeld_kept ..
  clear_value x0
  subst x1
  clear_value x2
  have hx3 : Kept s x3 := by
    unfold x3
    refine Kept.upd ?_ (Eq.refl _) (Eq.refl _)
    exact hx0
  clear_value x3 x4
  have hx5 : Kept s x5 := by
    unfold x5
    refine .trans ?_ (State.each_kept _ _ _ ?_)
    · exact hx3
    · intro a8 a9
      exact State.abortOp_kept ..
  clear_value x5
  refine Kept.upd ?_ (Eq.refl _) (Eq.refl _)
  exact hx5

theorem State.sisRelease_kept (k : Nat) (s : State) (n : Nat) : Kept s (State.sisRelease k s n) := by
  induction k generalizing s with
  | zero => exact .rfl
  | succ k ih =>
    unfold State.sisRelease
    extract_lets e t u
    have ht : Kept s t := State.updTwin_kept ..
    have hu : Kept t u := State.updStrm_kept ..
    split
    · exact ((ht.trans hu).trans (State.emit_kept ..)).trans (ih _)
    · exact .rfl

theorem State.sisReleaseAll_kept (s : State) : Kept s (State.sisReleaseAll s) := by
  unfold State.sisReleaseAll
  refine .trans ?_ (State.each_kept _ _ _ ?_)
  · exact .rfl
  · intro a0 a1
    exact State.sisRelease_kept ..

theorem State.adoptStream_kept (s : State) (x : StreamState) : Kept s (State.adoptStream s x) := by
  unfold State.adoptStream
  extract_lets x0 x1 x2
  have hx0 : Kept s x0 := by
    unfold x0
    exact State.updStrm_kept ..
  clear_value x0
  have hx1 : Kept s x1 := by
    unfold x1
    refine .trans ?_ (State.updTwin_kept ..)
    exact hx0
  clear_value x1 x2
  split
  · rename_i y3
    refine .trans ?_ (State.updTwin_kept ..)
    refine .trans ?_ (State.sendTwinFn_kept ..)
    exact hx1
  · rename_i y4
    exact hx1

theorem State.twinTakeover_kept (s : State) : Kept s (State.twinTakeover s) := by
  unfold State.twinTakeover
  split
  · exact .rfl
  · rename_i y2 y3 y4
    extract_lets x5 x6 x7 x8
    clear_value x5
    have hx6 : Kept s x6 := by
      unfold x6
      refine .trans ?_ (State.setRg64_kept ..)
      exact State.twinEvent_kept ..
    clear_value x6 x7
    have hx8 : Kept s x8 := by
      unfold x8
      refine .trans ?_ (State.updTwin_kept ..)
      exact hx6
    clear_value x8
    split
    · exact .rfl
    · rename_i y10
      split
      · rename_i y11
        split
        · rename_i y12
          refine .trans ?_ (State.updTwin_kept ..)
          exact State.takeLost_kept ..
        · rename_i y13
          exact State.yieldAll_kept ..
      · rename_i y14
        split
        · rename_i y15
          refine .trans ?_ (State.takeLost_kept ..)
          exact hx8
        · rename_i y16
          refine .trans ?_ (State.each_kept _ _ _ ?_)
          · exact hx8
          · intro a17 a18
            exact State.adoptStream_kept ..

theorem State.regainStream_kept (s : State) (x : StreamState) : Kept s (State.regainStream s x) := by
  unfold State.regainStream
  extract_lets x0 x1 x2 x3 x4
  clear_value x0 x1
  subst x2
  have hx3 : Kept s x3 := by
    unfold x3
    refine .trans ?_ (State.updStrm_kept ..)
    exact State.dropHeld_kept ..
  clear_value x3
  have hx4 : Kept s x4 := by
    unfold x4
    refine .trans ?_ (State.updTwin_kept ..)
    exact hx3
  clear_value x4
  split
  · rename_i y5
    split
    · rename_i y6
      refine .trans ?_ (State.updTwin_kept ..)
      exact hx4
    · rename_i y7
      exact hx4
  · rename_i y8
    split
    · rename_i y9
      refine .trans ?_ (State.updStrm_kept ..)
      exact State.dropHeld_kept ..
    · exact .rfl

theorem State.addResend_kept (s : State) (ms : List Msg) : Kept s (State.addResend s ms) := by
  unfold State.addResend
  extract_lets x0 x1
  clear_value x0 x1
  exact State.updTwin_kept ..

theorem State.takeRecordOp_kept (s : State) (r : TwinOp) : Kept s (State.takeRecordOp s r) := by
  unfold State.takeRecordOp
  extract_lets x0 x1 x2 x3 x4 x5 x6 x7
  clear_value x0 x1
  have hx2 : Kept s x2 := by
    unfold x2
    exact State.addResend_kept ..
  clear_value x2 x3 x4 x5 x6 x7
  split
  · rename_i y8
    refine .trans ?_ (State.updOp_kept ..)
    exact hx2
  · rename_i y9
    split
    · rename_i y10 y11 y12
      refine .trans ?_ (State.updOp_kept ..)
      exact hx2
    · rename_i y13 y14
      refine Kept.upd ?_ (Eq.refl _) (Eq.refl _)
      exact hx2

theorem State.reread_kept (s : State) (m : Msg) (a : Nat) (n : Nat) : Kept s (State.reread s m a n) := by
  unfold State.reread
  split
  · exact .rfl
  · rename_i y1
    split
    rename_i y2 y3 y4 y5
    extract_lets x6
    clear_value x6
    refine .trans ?_ (State.readMem_kept ..)
    refine Kept.upd ?_ (Eq.refl _) (Eq.refl _)
    refine Kept.of_snd y5 ?_
    exact State.fresh_kept ..

theorem State.askRejoin_kept (s : State) : Kept s (State.askRejoin s) := by
  unfold State.askRejoin
  extract_lets x0 x1
  clear_value x0 x1
  split
  · rename_i y2
    refine .trans ?_ (State.sendTwinFn_kept ..)
    exact State.updTwin_kept ..
  · exact .rfl

theorem State.passStream_kept (s : State) (n : Nat) : Kept s (State.passStream s n) := by
  unfold State.passStream
  extract_lets x0
  clear_value x0
  exact State.emit_kept ..

theorem State.rejoinSolstice_kept (s : State) : Kept s (State.rejoinSolstice s) := by
  unfold State.rejoinSolstice
  extract_lets x0 x1 x2 x3
  have hx0 : Kept s x0 := by
    unfold x0
    refine .trans ?_ (State.each_kept _ _ _ ?_)
    · exact .rfl
    · intro a4 a5
      extract_lets x6
      clear_value x6
      split
      · exact .rfl
      · rename_i y8
        refine .trans ?_ (State.updTwin_kept ..)
        exact State.passStream_kept ..
  clear_value x0
  have hx1 : Kept s x1 := by
    unfold x1
    split
    · rename_i y9 y10 y11
      split
      · rename_i y12
        exact hx0
      · rename_i y13
        split
        · rename_i y14
          refine .trans ?_ (State.updTwin_kept ..)
          exact hx0
        · rename_i y15
          refine .trans ?_ (State.updTwin_kept ..)
          refine .trans ?_ (State.freeze_kept ..)
          exact hx0
    · rename_i y16 y17
      exact hx0
  clear_value x1 x2
  have hx3 : Kept s x3 := by
    unfold x3
    refine .trans ?_ (State.each_kept _ _ _ ?_)
    · exact hx1
    · intro a18 a19
      refine .trans ?_ (State.updTwin_kept ..)
      refine .trans ?_ (State.updStrm_kept ..)
      exact State.passStream_kept ..
  clear_value x3
  split
  · rename_i y20
    exact hx1
  · rename_i y21
    split
    · rename_i y22
      refine .trans ?_ (State.twinEvent_kept ..)
      refine .trans ?_ (State.updTwin_kept ..)
      exact hx3
    · rename_i y23
      exact hx3

theorem State.twinSolstice_kept (s : State) : Kept s (State.twinSolstice s) := by
  unfold State.twinSolstice
  split
  · exact .rfl
  · rename_i y1
    refine .trans ?_ (State.rejoinSolstice_kept ..)
    exact State.twinTakeover_kept ..

theorem State.updTrn_kept (s : State) (f : Trn → Trn) : Kept s (State.updTrn s f) := by
  unfold State.updTrn
  exact Kept.upd .rfl (Eq.refl _) (Eq.refl _)

theorem State.aitAbort_kept (s : State) : Kept s (State.aitAbort s) := by
  unfold State.aitAbort
  extract_lets x0
  clear_value x0
  split
  · rename_i y1
    refine .trans ?_ (State.irq_kept ..)
    exact Kept.upd .rfl (Eq.refl _) (Eq.refl _)
  · exact .rfl

theorem State.sendPresent_kept (s : State) : Kept s (State.sendPresent s) := by
  unfold State.sendPresent
  refine .trans ?_ (State.updTrn_kept ..)
  refine .trans ?_ (State.each_kept _ _ _ ?_)
  · exact .rfl
  · intro a0 a1
    exact State.sendSb_kept ..

theorem State.beginTraining_kept (s : State) : Kept s (State.beginTraining s) := by
  unfold State.beginTraining
  extract_lets x0 x1 x2 x3 x4 x5 x6
  have hx0 : Kept s x0 := by
    unfold x0
    exact State.aitAbort_kept ..
  clear_value x0
  have hx1 : Kept s x1 := by
    unfold x1
    refine .trans ?_ (State.each_kept _ _ _ ?_)
    · exact hx0
    · intro a7 a8
      refine .trans ?_ (State.updMod_kept ..)
      exact State.bistServe_kept ..
  clear_value x1 x2
  have hx3 : Kept s x3 := by
    unfold x3
    refine .trans ?_ (State.updTrn_kept ..)
    exact hx1
  clear_value x3
  have hx4 : Kept s x4 := by
    unfold x4
    refine .trans ?_ (State.updPwr_kept ..)
    exact hx3
  clear_value x4
  have hx5 : Kept s x5 := by
    unfold x5
    refine Kept.upd ?_ (Eq.refl _) (Eq.refl _)
    exact hx4
  clear_value x5
  have hx6 : Kept s x6 := by
    unfold x6
    refine .trans ?_ (State.linkCheck_kept ..)
    refine .trans ?_ (State.setRf_kept ..)
    exact hx5
  clear_value x6
  split
  · rename_i y9
    refine .trans ?_ (State.each_kept _ _ _ ?_)
    · exact hx6
    · intro a10 a11
      exact State.emit_kept ..
  · rename_i y12
    refine .trans ?_ (State.sendPresent_kept ..)
    exact hx6

theorem State.trainIfReady_kept (s : State) : Kept s (State.trainIfReady s) := by
  unfold State.trainIfReady
  refine .trans ?_ (State.when_kept _ _ _ ?_)
  · exact .rfl
  · exact State.beginTraining_kept ..

theorem State.trainGo_kept (s : State) : Kept s (State.trainGo s) := by
  unfold State.trainGo
  split
  · exact .rfl
  · rename_i y1
    refine .trans ?_ (State.trainIfReady_kept ..)
    exact State.updTrn_kept ..

theorem State.sendCaprec_kept (s : State) : Kept s (State.sendCaprec s) := by
  unfold State.sendCaprec
  refine .trans ?_ (State.updTrn_kept ..)
  exact State.sendSb_kept ..

theorem State.abortCrossing_kept (s : State) : Kept s (State.abortCrossing s) := by
  unfold State.abortCrossing
  extract_lets x0 x1 x2 x3
  clear_value x0
  have hx1 : Kept s x1 := by
    unfold x1
    refine .trans ?_ (State.each_kept _ _ _ ?_)
    · exact .rfl
    · intro a4 a5
      exact State.abortOp_kept ..
  clear_value x1 x2
  have hx3 : Kept s x3 := by
    unfold x3
    refine Kept.upd ?_ (Eq.refl _) (Eq.refl _)
    exact hx1
  clear_value x3
  refine .trans ?_ (State.each_kept _ _ _ ?_)
  · exact hx3
  · intro a6 a7
    exact State.fillEnd_kept ..

theorem State.flowRestart_kept (s : State) : Kept s (State.flowRestart s) := by
  unfold State.flowRestart
  refine .trans ?_ (State.each_kept _ _ _ ?_)
  · exact .rfl
  · intro a0 a1
    extract_lets x2 x3 x4
    clear_value x2 x3 x4
    exact State.updTc_kept ..

theorem State.restartLink_kept (s : State) : Kept s (State.restartLink s) := by
  unfold State.restartLink
  extract_lets x0 x1 x2 x3 x4
  have hx0 : Kept s x0 := by
    unfold x0
    exact State.abortCrossing_kept ..
  clear_value x0
  have hx1 : Kept s x1 := by
    unfold x1
    refine .trans ?_ (State.each_kept _ _ _ ?_)
    · exact hx0
    · intro a5 a6
      exact State.updMod_kept ..
  clear_value x1
  have hx2 : Kept s x2 := by
    unfold x2
    refine .trans ?_ (State.each_kept _ _ _ ?_)
    · exact hx1
    · intro a7 a8
      exact State.updStrm_kept ..
  clear_value x2 x3
  have hx4 : Kept s x4 := by
    unfold x4
    refine Kept.upd ?_ (Eq.refl _) (Eq.refl _)
    exact hx2
  clear_value x4
  refine .trans ?_ (State.flowRestart_kept ..)
  exact hx4

theorem State.trainFail_kept (s : State) (err : Nat) : Kept s (State.trainFail s err) := by
  unfold State.trainFail
  extract_lets x0
  have hx0 : Kept s x0 := by
    unfold x0
    refine .trans ?_ (State.each_kept _ _ _ ?_)
    · exact .rfl
    · intro a1 a2
      exact State.updMod_kept ..
  clear_value x0
  refine .trans ?_ (State.irq_kept ..)
  refine .trans ?_ (State.updTrn_kept ..)
  exact hx0

theorem State.notePeer_kept (s : State) (ws : List W64) : Kept s (State.notePeer s ws) := by
  unfold State.notePeer
  refine .trans ?_ (State.setRg_kept ..)
  refine .trans ?_ (State.setRg_kept ..)
  exact State.setRg64_kept ..

theorem State.activeSet_kept (s : State) (valid : Bool) : Kept s (State.activeSet s valid).2 := by
  unfold State.activeSet
  extract_lets x0 x1 x2
  clear_value x0 x1 x2
  dsimp only
  exact Kept.upd .rfl (Eq.refl _) (Eq.refl _)

theorem State.toLock_kept (s : State) (rate : Nat) : Kept s (State.toLock s rate) := by
  unfold State.toLock
  extract_lets x0
  have hx0 : Kept s x0 := by
    unfold x0
    exact State.updTrn_kept ..
  clear_value x0
  refine .trans ?_ (State.each_kept _ _ _ ?_)
  · exact hx0
  · intro a1 a2
    exact State.updMod_kept ..

theorem State.phase2End_kept (s : State) (valid : Bool) : Kept s (State.phase2End s valid) := by
  unfold State.phase2End
  extract_lets x0 x1 x2 x3 x4 x5 x6 x7
  clear_value x0
  have hx1 : Kept s x1 := by
    unfold x1
    refine .trans ?_ (State.when_kept _ _ _ ?_)
    · exact .rfl
    · exact State.notePeer_kept ..
  clear_value x1 x2
  have hx3 : Kept s x3 := by
    unfold x3
    refine .trans ?_ (State.updTrn_kept ..)
    exact hx1
  clear_value x3 x4 x5 x6 x7
  split
  · rename_i y8
    refine .trans ?_ (State.trainFail_kept ..)
    exact hx3
  · rename_i y9
    split
    rename_i y10 y11 y12 y13
    extract_lets x14 x15 x16 x17 x18
    have hx14 : Kept s x14 := by
      unfold x14
      refine .trans ?_ (State.setRg64_kept ..)
      refine .trans ?_ (State.updTrn_kept ..)
      refine Kept.of_snd y13 ?_
      refine .trans ?_ (State.activeSet_kept ..)
      exact hx3
    clear_value x14
    have hx15 : Kept s x15 := by
      unfold x15
      refine .trans ?_ (State.when_kept _ _ _ ?_)
      · exact hx14
      · refine .trans ?_ (State.irq_kept ..)
        refine .trans ?_ (State.setBit_kept ..)
        exact State.setRf_kept ..
    clear_value x15
    have hx16 : Kept s x16 := by
      unfold x16
      refine .trans ?_ (State.when_kept _ _ _ ?_)
      · exact hx15
      · exact State.restartLink_kept ..
    clear_value x16 x17 x18
    refine .trans ?_ (State.toLock_kept ..)
    exact hx16

theorem State.phase2Check_kept (s : State) : Kept s (State.phase2Check s) := by
  unfold State.phase2Check
  refine .trans ?_ (State.when_kept _ _ _ ?_)
  · exact .rfl
  · exact State.phase2End_kept ..

theorem State.sendLanemap_kept (s : State) (m : Nat) : Kept s (State.sendLanemap s m) := by
  unfold State.sendLanemap
  extract_lets x0 x1
  clear_value x0
  subst x1
  refine .trans ?_ (State.sbSent_kept ..)
  exact State.sendSb_kept ..

theorem State.sendPalat_kept (s : State) (m : Nat) : Kept s (State.sendPalat s m) := by
  unfold State.sendPalat
  refine .trans ?_ (State.sbSent_kept ..)
  exact State.sendSb_kept ..

theorem State.sendPhase_kept (s : State) (rate : Nat) (pass : Bool) : Kept s (State.sendPhase s rate pass) := by
  unfold State.sendPhase
  exact State.sendSb_kept ..

theorem State.applyMaps_kept (s : State) (m : Nat) : Kept s (State.applyMaps s m) := by
  unfold State.applyMaps
  split
  · exact .rfl
  · rename_i y2 y3 y4
    extract_lets x5 x6
    clear_value x5 x6
    exact State.updMod_kept ..

theorem State.notPassed_kept (s : State) (m : Nat) : Kept s (State.notPassed s m) := by
  unfold State.notPassed
  extract_lets x0
  clear_value x0
  refine .trans ?_ (State.when_kept _ _ _ ?_)
  · exact State.modDown_kept ..
  · exact State.startRetire_kept ..

theorem State.verdict_kept (s : State) : Kept s (State.verdict s) := by
  unfold State.verdict
  split
  · rename_i y0 y1 y2 y3 y4 y5
    extract_lets x6 x7
    have hx6 : Kept s x6 := by
      unfold x6
      refine .trans ?_ (State.each_kept _ _ _ ?_)
      · exact .rfl
      · intro a8 a9
        split
        · rename_i y10
          refine .trans ?_ (State.updMod_kept ..)
          exact State.applyMaps_kept ..
        · rename_i y11
          exact State.notPassed_kept ..
    clear_value x6 x7
    split
    · exact .rfl
    · rename_i y13
      split
      · rename_i y14
        refine .trans ?_ (State.updTrn_kept ..)
        exact hx6
      · rename_i y15
        split
        · rename_i y16
          exact State.trainFail_kept ..
        · rename_i y17
          refine .trans ?_ (State.toLock_kept ..)
          exact State.updTrn_kept ..
  · exact .rfl

theorem State.judge_kept (s : State) : Kept s (State.judge s) := by
  unfold State.judge
  extract_lets x0 x1 x2
  clear_value x0 x1 x2
  split
  · rename_i y3
    refine .trans ?_ (State.verdict_kept ..)
    refine .trans ?_ (State.sendPhase_kept ..)
    exact State.updTrn_kept ..
  · exact .rfl

theorem State.trainUp_kept (s : State) : Kept s (State.trainUp s) := by
  unfold State.trainUp
  split
  · rename_i y0
    refine .trans ?_ (State.irq_kept ..)
    exact State.updTrn_kept ..
  · exact .rfl

theorem State.retrainMap_kept (s : State) (m : Nat) : Kept s (State.retrainMap s m) := by
  unfold State.retrainMap
  extract_lets x0 x1
  clear_value x0 x1
  split
  · rename_i y2
    exact State.updMod_kept ..
  · rename_i y3
    exact State.notPassed_kept ..

theorem State.phaseLink_kept (s : State) (m : Nat) : Kept s (State.phaseLink s m) := by
  unfold State.phaseLink
  extract_lets x0
  have hx0 : Kept s x0 := by
    unfold x0
    exact State.updMod_kept ..
  clear_value x0
  split
  · rename_i y1 y2 y3
    refine .trans ?_ (State.updMod_kept ..)
    exact hx0
  · rename_i y4 y5
    refine .trans ?_ (State.trainUp_kept ..)
    refine .trans ?_ (State.modUp_kept ..)
    refine .trans ?_ (State.updMod_kept ..)
    exact hx0

theorem State.phaseDone_kept (s : State) (m : Nat) (r : PhyReport) : Kept s (State.phaseDone s m r) := by
  unfold State.phaseDone
  extract_lets x0 x1 x2 x3 x4
  clear_value x0 x1 x2 x3
  have hx4 : Kept s x4 := by
    unfold x4
    refine .trans ?_ (State.sendPalat_kept ..)
    exact State.updMod_kept ..
  clear_value x4
  split
  · rename_i y5 y6
    exact State.updMod_kept ..
  · rename_i y7 y8
    refine .trans ?_ (State.sendLanemap_kept ..)
    exact State.updMod_kept ..
  · rename_i y9 y10
    split
    · rename_i y11 y12 y13
      refine .trans ?_ (State.when_kept _ _ _ ?_)
      · exact .rfl
      · exact State.retrainMap_kept ..
    · rename_i y14 y15
      split
      · rename_i y16
        refine .trans ?_ (State.judge_kept ..)
        exact State.updMod_kept ..
      · exact .rfl
  · rename_i y18 y19
    refine .trans ?_ (State.when_kept _ _ _ ?_)
    · exact hx4
    · exact State.updTrn_kept ..
  · rename_i y20 y21
    split
    · rename_i y22
      exact State.phaseLink_kept ..
    · exact .rfl
  · exact .rfl

theorem State.openDone_kept (s : State) (m : Nat) (r : PhyReport) : Kept s (State.openDone s m r) := by
  unfold State.openDone
  extract_lets x0 x1 x2 x3
  clear_value x0 x1
  have hx2 : Kept s x2 := by
    unfold x2
    split
    · rename_i y4
      refine .trans ?_ (State.phase2End_kept ..)
      exact State.updTrn_kept ..
    · exact .rfl
  clear_value x2 x3
  split
  · rename_i y6
    exact hx2
  · rename_i y7
    split
    · rename_i y8 y9
      refine .trans ?_ (State.updMod_kept ..)
      exact hx2
    · rename_i y10 y11 y12
      extract_lets x13 x14 x15 x16 x17
      clear_value x13
      have hx14 : Kept s x14 := by
        unfold x14
        refine .trans ?_ (State.updMod_kept ..)
        exact hx2
      clear_value x14
      have hx15 : Kept s x15 := by
        unfold x15
        refine .trans ?_ (State.when_kept _ _ _ ?_)
        · exact hx14
        · exact State.linkUp_kept ..
      clear_value x15
      have hx16 : Kept s x16 := by
        unfold x16
        refine .trans ?_ (State.updMod_kept ..)
        exact hx15
      clear_value x16
      have hx17 : Kept s x17 := by
        unfold x17
        refine .trans ?_ (State.updTrn_kept ..)
        exact hx16
      clear_value x17
      refine .trans ?_ (State.when_kept _ _ _ ?_)
      · exact hx17
      · refine .trans ?_ (State.irq_kept ..)
        exact State.updTrn_kept ..

theorem State.updBist_kept (s : State) (f : Bist → Bist) : Kept s (State.updBist s f) := by
  unfold State.updBist
  exact Kept.upd .rfl (Eq.refl _) (Eq.refl _)

theorem State.bistWatch_kept (s : State) : Kept s (State.bistWatch s) := by
  unfold State.bistWatch
  extract_lets x0 x1
  clear_value x0
  have hx1 : Kept s x1 := by
    unfold x1
    split
    · exact .rfl
    · rename_i y3
      exact State.updBist_kept ..
  clear_value x1
  split
  · rename_i y4 y5 y6 y7 y8
    extract_lets x9
    clear_value x9
    split
    · rename_i y10
      exact hx1
    · rename_i y11
      split
      · rename_i y12
        refine .trans ?_ (State.bistCut_kept ..)
        exact hx1
      · rename_i y13
        split
        rename_i y14 y15 y16 y17
        refine .trans ?_ (State.when_kept _ _ _ ?_)
        · refine Kept.of_snd y17 ?_
          refine .trans ?_ (State.draw_kept ..)
          exact hx1
        · exact State.bistCut_kept ..
  · rename_i y18 y19
    exact hx1

theorem State.yearEnd_kept (s : State) : Kept s (State.yearEnd s) := by
  unfold State.yearEnd
  extract_lets x0 x1
  clear_value x0 x1
  refine .trans ?_ (State.irq_kept ..)
  refine .trans ?_ (State.setBit_kept ..)
  exact State.updBist_kept ..

theorem State.monthEnd_kept (k : Nat) (s : State) (r : Nat) : Kept s (State.monthEnd k s r) := by
  induction k generalizing s r with
  | zero => exact .rfl
  | succ k ih =>
    unfold State.monthEnd
    extract_lets m t u n v
    have hv : Kept s v :=
      ((State.updBist_kept ..).trans (State.when_kept _ _ _ (State.yearEnd_kept ..))).trans (State.updBist_kept ..)
    split
    · exact hv.trans (ih ..)
    · exact hv

theorem State.runEnd_kept (s : State) (r : Nat) : Kept s (State.runEnd s r) := by
  unfold State.runEnd
  extract_lets x0 x1
  subst x0
  have hx1 : Kept s x1 := by
    unfold x1
    exact State.updBist_kept ..
  clear_value x1
  refine .trans ?_ (State.irq_kept ..)
  refine .trans ?_ (State.setBit_kept ..)
  refine .trans ?_ (State.setRf_kept ..)
  exact hx1

theorem State.bistCheck_kept (s : State) (demand : Bool) : Kept s (State.bistCheck s demand) := by
  unfold State.bistCheck
  extract_lets x0
  clear_value x0
  split
  · rename_i y1
    split
    · rename_i y2 y3 y4
      split
      · rename_i y5
        exact State.runEnd_kept ..
      · exact .rfl
    · exact .rfl
  · rename_i y9
    split
    · rename_i y10
      exact State.monthEnd_kept ..
    · exact .rfl

theorem State.bistFail_kept (s : State) (month : Nat) (k : Nat) : Kept s (State.bistFail s month k) := by
  unfold State.bistFail
  extract_lets x0
  have hx0 : Kept s x0 := by
    unfold x0
    split
    · rename_i y1
      exact State.setBit_kept ..
    · rename_i y2
      refine .trans ?_ (State.hit_kept ..)
      refine .trans ?_ (State.setRg64_kept ..)
      exact State.setRg_kept ..
  clear_value x0
  refine .trans ?_ (State.when_kept _ _ _ ?_)
  · refine .trans ?_ (State.setBit_kept ..)
    exact hx0
  · exact State.irq_kept ..

theorem State.bistResult_kept (s : State) (month : Nat) (k : Nat) (demand : Bool) (pass : Bool) : Kept s (State.bistResult s month k demand pass)
    := by
  unfold State.bistResult
  extract_lets x0 x1 x2 x3 x4
  clear_value x0 x1
  have hx2 : Kept s x2 := by
    unfold x2
    exact State.updBist_kept ..
  clear_value x2
  have hx3 : Kept s x3 := by
    unfold x3
    refine .trans ?_ (State.when_kept _ _ _ ?_)
    · exact hx2
    · exact State.bistFail_kept ..
  clear_value x3 x4
  split
  · rename_i y5
    refine .trans ?_ (State.updBist_kept ..)
    exact hx2
  · rename_i y6
    refine .trans ?_ (State.bistCheck_kept ..)
    refine .trans ?_ (State.updBist_kept ..)
    exact hx3

theorem State.writeBistCfg_kept (s : State) (d : W32) : Kept s (State.writeBistCfg s d) := by
  unfold State.writeBistCfg
  extract_lets x0 x1 x2
  clear_value x0 x1
  have hx2 : Kept s x2 := by
    unfold x2
    exact State.setRg_kept ..
  clear_value x2
  refine .trans ?_ (State.when_kept _ _ _ ?_)
  · exact hx2
  · exact State.updBist_kept ..

theorem State.writeBistRun_kept (s : State) (d : W32) : Kept s (State.writeBistRun s d) := by
  unfold State.writeBistRun
  extract_lets x0 x1 x2
  have hx0 : Kept s x0 := by
    unfold x0
    refine .trans ?_ (State.when_kept _ _ _ ?_)
    · exact .rfl
    · exact State.clrBits_kept ..
  clear_value x0
  have hx1 : Kept s x1 := by
    unfold x1
    refine .trans ?_ (State.setRf_kept ..)
    refine .trans ?_ (State.setRf_kept ..)
    exact hx0
  clear_value x1 x2
  split
  · rename_i y3
    exact hx1
  · rename_i y4
    split
    · rename_i y5
      refine .trans ?_ (State.setBit_kept ..)
      exact hx1
    · rename_i y6
      refine .trans ?_ (State.bistCheck_kept ..)
      refine .trans ?_ (State.updBist_kept ..)
      exact hx1

theorem State.writeAitCtrl_kept (s : State) (d : W32) : Kept s (State.writeAitCtrl s d) := by
  unfold State.writeAitCtrl
  extract_lets x0 x1 x2
  have hx0 : Kept s x0 := by
    unfold x0
    exact State.setRf_kept ..
  clear_value x0 x1
  have hx2 : Kept s x2 := by
    unfold x2
    refine .trans ?_ (State.updBist_kept ..)
    exact hx0
  clear_value x2
  split
  · rename_i y3
    refine .trans ?_ (State.each_kept _ _ _ ?_)
    · exact hx2
    · intro a4 a5
      exact State.setRg64_kept ..
  · rename_i y6
    exact hx0

theorem State.writeAitCfg_kept (s : State) (d : W32) : Kept s (State.writeAitCfg s d) := by
  unfold State.writeAitCfg
  exact State.setRg_kept ..

theorem State.aitDone_kept (s : State) : Kept s (State.aitDone s) := by
  unfold State.aitDone
  extract_lets x0 x1
  have hx0 : Kept s x0 := by
    unfold x0
    refine .trans ?_ (State.each_kept _ _ _ ?_)
    · exact .rfl
    · intro a2 a3
      exact State.setRg64_kept ..
  clear_value x0
  have hx1 : Kept s x1 := by
    unfold x1
    split
    · exact .rfl
    · rename_i y5
      refine .trans ?_ (State.updBist_kept ..)
      exact hx0
  clear_value x1
  refine .trans ?_ (State.irq_kept ..)
  refine .trans ?_ (State.updBist_kept ..)
  exact hx1

theorem State.aitStepped_kept (s : State) (r : AitResult) : Kept s (State.aitStepped s r) := by
  unfold State.aitStepped
  extract_lets x0 x1 x2
  clear_value x0 x1
  have hx2 : Kept s x2 := by
    unfold x2
    exact State.updBist_kept ..
  clear_value x2
  split
  · exact .rfl
  · rename_i y4
    split
    · rename_i y5
      refine .trans ?_ (State.aitDone_kept ..)
      exact hx2
    · rename_i y6
      refine .trans ?_ (State.updBist_kept ..)
      exact hx2

theorem State.rspData_kept (s : State) (id : Nat) (gs : List (Nat × Gran)) : Kept s (State.rspData s id gs) := by
  unfold State.rspData
  split
  · exact .rfl
  · rename_i y2 y3 y4
    extract_lets x5 x6 x7
    clear_value x7
    split
    · rename_i y8
      exact Kept.upd .rfl (Eq.refl _) (Eq.refl _)
    · rename_i y9
      split
      · rename_i y10 y11 y12
        refine .trans ?_ (State.sendXpt_kept ..)
        exact Kept.upd .rfl (Eq.refl _) (Eq.refl _)
      · rename_i y13 y14
        exact Kept.upd .rfl (Eq.refl _) (Eq.refl _)

theorem State.issueWrite_kept (s : State) (w : WrReq) : Kept s (State.issueWrite s w) := by
  unfold State.issueWrite
  exact Kept.upd .rfl (Eq.refl _) (Eq.refl _)

theorem State.issueWrites_kept (s : State) : Kept s (State.issueWrites s) := by
  unfold State.issueWrites
  refine .trans ?_ (State.payOwed_kept ..)
  refine .trans ?_ (State.each_kept _ _ _ ?_)
  · exact .rfl
  · intro a0 a1
    exact State.issueWrite_kept ..

theorem State.readDone_kept (s : State) (r : RdReq) (gs : List (Nat × Gran)) : Kept s (State.readDone s r gs) := by
  unfold State.readDone
  split
  · rename_i y0 y1 y2
    refine .trans ?_ (State.pump_kept ..)
    exact State.updOp_kept ..
  · rename_i y3 y4 y5
    exact State.rspData_kept ..
  · rename_i y6 y7 y8 y9
    extract_lets x10
    have hx10 : Kept s x10 := by
      unfold x10
      exact State.pageChecked_kept ..
    clear_value x10
    refine .trans ?_ (State.issueWrites_kept ..)
    exact hx10
  · rename_i y11 y12 y13
    extract_lets x14
    clear_value x14
    refine .trans ?_ (State.pagePump_kept ..)
    refine .trans ?_ (State.startChecks_kept ..)
    exact State.recRead_kept ..

theorem State.memBeat_kept (s : State) (b : MemBeat) : Kept s (State.memBeat s b) := by
  unfold State.memBeat
  split
  · exact .rfl
  · rename_i y2 y3 y4
    extract_lets x5
    clear_value x5
    split
    · rename_i y6
      refine .trans ?_ (State.readDone_kept ..)
      exact Kept.upd .rfl (Eq.refl _) (Eq.refl _)
    · rename_i y7
      exact Kept.upd .rfl (Eq.refl _) (Eq.refl _)

theorem State.streamErr_kept (s : State) (w : WrReq) : Kept s (State.streamErr s w) := by
  unfold State.streamErr
  split
  · exact .rfl
  · rename_i y2 y3 y4
    split
    · exact .rfl
    · rename_i y6
      split
      · rename_i y7 y8 y9
        exact Kept.upd .rfl (Eq.refl _) (Eq.refl _)
      · rename_i y10 y11
        exact State.updStrm_kept ..

theorem State.ackOp_kept (s : State) (tag : Nat) (n : Nat) (err : Bool) : Kept s (State.ackOp s tag n err) := by
  unfold State.ackOp
  extract_lets x0
  clear_value x0
  refine .trans ?_ (State.opCheck_kept ..)
  exact State.updOp_kept ..

theorem State.ackNear_kept (s : State) (tag : Nat) (trk : Nat) (n : Nat) (err : Bool) (psn : Bool) : Kept s (State.ackNear s tag trk n err psn) :=
    by
  unfold State.ackNear
  refine .trans ?_ (State.opCheck_kept ..)
  exact State.updOp_kept ..

theorem State.ackOwner_kept (s : State) (w : WrReq) (err : Bool) : Kept s (State.ackOwner s w err) := by
  unfold State.ackOwner
  split
  · rename_i y0 y1 y2
    exact State.ackOp_kept ..
  · rename_i y3 y4 y5
    extract_lets x6 x7
    clear_value x6 x7
    refine .trans ?_ (State.farCheck_kept ..)
    refine .trans ?_ (State.when_kept _ _ _ ?_)
    · exact State.setFar_kept ..
    · exact State.streamErr_kept ..
  · rename_i y8 y9 y10 y11
    extract_lets x12
    have hx12 : Kept s x12 := by
      unfold x12
      refine .trans ?_ (State.updFill_kept ..)
      refine .trans ?_ (State.when_kept _ _ _ ?_)
      · exact .rfl
      · exact State.streamErr_kept ..
    clear_value x12
    refine .trans ?_ (State.pagePump_kept ..)
    refine .trans ?_ (State.fillCheck_kept ..)
    refine .trans ?_ (State.when_kept _ _ _ ?_)
    · exact hx12
    · exact State.poisonFill_kept ..
  · rename_i y13 y14 y15
    refine .trans ?_ (State.pagePump_kept ..)
    refine .trans ?_ (State.startChecks_kept ..)
    refine .trans ?_ (State.recAcked_kept ..)
    refine .trans ?_ (State.when_kept _ _ _ ?_)
    · exact .rfl
    · exact State.streamErr_kept ..
  · rename_i y16 y17 y18 y19
    refine .trans ?_ (State.ackNear_kept ..)
    refine .trans ?_ (State.when_kept _ _ _ ?_)
    · exact .rfl
    · exact State.streamErr_kept ..
  · rename_i y20 y21
    refine .trans ?_ (State.when_kept _ _ _ ?_)
    · exact .rfl
    · exact State.streamErr_kept ..

theorem State.writeAck_kept (s : State) (tag : Nat) (err : Bool) : Kept s (State.writeAck s tag err) := by
  unfold State.writeAck
  split
  · exact .rfl
  · rename_i y2 y3 y4
    extract_lets x5 x6
    have hx5 : Kept s x5 := by
      unfold x5
      exact Kept.upd .rfl (Eq.refl _) (Eq.refl _)
    clear_value x5
    have hx6 : Kept s x6 := by
      unfold x6
      refine .trans ?_ (State.ackOwner_kept ..)
      exact hx5
    clear_value x6
    refine .trans ?_ (State.pump_kept ..)
    refine .trans ?_ (State.issueWrites_kept ..)
    exact hx6

theorem State.drew_kept (s : State) (off : Nat) : Kept s (State.drew s off) := by
  unfold State.drew
  exact Kept.upd .rfl (Eq.refl _) (Eq.refl _)

theorem State.readPair_kept (s : State) (off : Nat) : Kept s (State.readPair s off).2.2 := by
  unfold State.readPair
  extract_lets x0 x1 x2
  clear_value x0
  have hx1 : Kept s x1 := by
    unfold x1
    refine .trans ?_ (State.each_kept _ _ _ ?_)
    · exact .rfl
    · intro a3 a4
      exact State.eccRead_kept ..
  clear_value x1 x2
  split
  · rename_i y5
    dsimp only
    exact State.drew_kept ..
  · rename_i y6
    split
    · rename_i y7
      dsimp only
      refine Kept.upd ?_ (Eq.refl _) (Eq.refl _)
      exact hx1
    · rename_i y8
      dsimp only
      refine .trans ?_ (State.drew_kept ..)
      exact hx1

theorem State.calWrite_kept (s : State) (n : Nat) (d : W32) : Kept s (State.calWrite s n d) := by
  unfold State.calWrite
  extract_lets x0
  have hx0 : Kept s x0 := by
    unfold x0
    exact State.shadowWrite_kept ..
  clear_value x0
  refine Kept.upd ?_ (Eq.refl _) (Eq.refl _)
  exact hx0

theorem State.memWord_kept (s : State) (a : Nat) (w : W64) (at_ : Nat) : Kept s (State.memWord s a w at_) := by
  unfold State.memWord
  split
  rename_i y0 y1 y2 y3
  split
  · rename_i y4
    exact State.setPmWord_kept ..
  · rename_i y5
    split
    · rename_i y6
      exact State.setTdWord_kept ..
    · rename_i y7
      split
      · rename_i y8
        exact State.holdShadow_kept ..
      · rename_i y9
        exact State.calWrite_kept ..

theorem State.noteTd_kept (s : State) (a : Nat) (lo : Option W32) (hi : Option W32) : Kept s (State.noteTd s a lo hi) := by
  unfold State.noteTd
  split
  rename_i y0 y1 y2 y3
  extract_lets x4
  clear_value x4
  split
  · rename_i y5
    exact Kept.upd .rfl (Eq.refl _) (Eq.refl _)
  · exact .rfl

theorem State.flushEnt_kept (s : State) (e : MergeEnt) : Kept s (s.flushEnt e) := by
  unfold State.flushEnt
  split
  rename_i id i _
  split
  rename_i ue t heq
  have ht : Kept s t := Kept.of_snd heq (State.eccRead_kept ..)
  extract_lets v u
  have hv : Kept s v := Kept.upd ht (Eq.refl _) (Eq.refl _)
  have hu : Kept v u := ((State.eccWritten_kept ..).trans (State.noteTd_kept ..)).trans (State.when_kept _ _ _ (State.memWord_kept ..))
  clear_value v u
  split
  · refine ⟨(hv.trans hu).env, (hv.trans hu).pending, fun hi => ?_⟩
    have h8 := (hv.inv hi).canonical.upset
    obtain ⟨⟨h1, h2, h3, h4, h5, h6, h7, -, h9, h10, h11, h12, h13, h14, h15, h16⟩, ⟨h17, h18⟩, h19⟩ := (hv.trans hu).inv hi
    exact ⟨⟨h1, h2, h3, h4, h5, h6, h7, h8, h9, h10, h11, h12, h13, h14, h15, h16⟩, ⟨h17, h18⟩, h19⟩
  · exact hv.trans hu

theorem State.flushAddr_kept (s : State) (a : Nat) : Kept s (State.flushAddr s a) := by
  unfold State.flushAddr
  split
  · rename_i y0 y1 y2
    exact State.flushEnt_kept ..
  · exact .rfl

theorem State.mergePut_kept (s : State) (off : Nat) (d : W32) : Kept s (State.mergePut s off d) := by
  unfold State.mergePut
  extract_lets x0 x1 x2
  clear_value x0
  subst x1
  have hx2 : Kept s x2 := by
    unfold x2
    split
    · rename_i y3 y4 y5 y6
      refine .trans ?_ (State.when_kept _ _ _ ?_)
      · exact .rfl
      · exact State.flushEnt_kept ..
    · exact .rfl
  clear_value x2
  split
  · rename_i y9 y10 y11
    extract_lets x12
    clear_value x12
    split
    · rename_i y13 y14 y15 y16 y17 y18
      split
      rename_i y19 y20 y21 y22
      refine .trans ?_ (State.memWord_kept ..)
      refine .trans ?_ (State.noteTd_kept ..)
      refine .trans ?_ (State.eccWritten_kept ..)
      exact Kept.upd .rfl (Eq.refl _) (Eq.refl _)
    · rename_i y23 y24 y25
      exact Kept.upd .rfl (Eq.refl _) (Eq.refl _)
  · rename_i y26 y27
    refine Kept.upd ?_ (Eq.refl _) (Eq.refl _)
    exact hx2

theorem State.landShadow_kept (s : State) (off : Nat) (d : W32) : Kept s (State.landShadow s off d) := by
  unfold State.landShadow
  extract_lets x0
  have hx0 : Kept s x0 := by
    unfold x0
    refine .trans ?_ (State.each_kept _ _ _ ?_)
    · exact .rfl
    · intro a1 a2
      exact State.eccWritten_kept ..
  clear_value x0
  split
  · exact .rfl
  · rename_i y4
    split
    · rename_i y5
      exact State.calWrite_kept ..
    · rename_i y6
      refine .trans ?_ (State.shadowWrite_kept ..)
      exact hx0

theorem State.portShadow_kept (s : State) (off : Nat) (d : W32) : Kept s (State.portShadow s off d) := by
  unfold State.portShadow
  split
  · rename_i y0
    exact State.holdShadow_kept ..
  · rename_i y1
    exact State.landShadow_kept ..

theorem State.landHeld_kept (s : State) : Kept s (State.landHeld s) := by
  unfold State.landHeld
  extract_lets x0
  clear_value x0
  refine .trans ?_ (State.each_kept _ _ _ ?_)
  · exact Kept.upd .rfl (Eq.refl _) (Eq.refl _)
  · intro a1 a2
    exact State.landShadow_kept ..

theorem State.reHit_kept (s : State) (off : Nat) (rw : W32) : Kept s (State.reHit s off rw) := by
  unfold State.reHit
  refine .trans ?_ (Kept.foldl _ _ ?_)
  · exact .rfl
  · intro a0 a1
    exact State.setRf_kept ..

theorem State.storeWord_kept (s : State) (off : Nat) (d : W32) : Kept s (State.storeWord s off d) := by
  unfold State.storeWord
  split
  · exact .rfl
  · rename_i y2 y3 y4
    extract_lets x5
    have hx5 : Kept s x5 := by
      unfold x5
      split
      · exact .rfl
      · rename_i y7
        refine .trans ?_ (State.reHit_kept ..)
        exact State.setRg_kept ..
    clear_value x5
    split
    · rename_i y8
      exact hx5
    · rename_i y9
      refine .trans ?_ (State.portShadow_kept ..)
      exact hx5

theorem State.clearW1c_kept (s : State) (off : Nat) (d : W32) : Kept s (State.clearW1c s off d) := by
  unfold State.clearW1c
  split
  · exact .rfl
  · rename_i y2 y3 y4
    extract_lets x5 x6 x7 x8
    clear_value x5 x6
    have hx7 : Kept s x7 := by
      unfold x7
      split
      · exact .rfl
      · rename_i y10
        exact State.clrBits_kept ..
    clear_value x7 x8
    split
    · rename_i y11
      refine .trans ?_ (State.when_kept _ _ _ ?_)
      · exact .rfl
      · exact State.setEvc_kept ..
    · rename_i y12
      split
      · rename_i y13 y14 y15
        split
        · rename_i y16
          refine Kept.upd ?_ (Eq.refl _) (Eq.refl _)
          exact hx7
        · rename_i y17
          exact hx7
      · rename_i y18 y19
        exact hx7

theorem State.writeTickCtrl_kept (s : State) (d : W32) : Kept s (State.writeTickCtrl s d) := by
  unfold State.writeTickCtrl
  extract_lets x0 x1
  have hx0 : Kept s x0 := by
    unfold x0
    refine .trans ?_ (State.portShadow_kept ..)
    exact State.setRf_kept ..
  clear_value x0
  have hx1 : Kept s x1 := by
    unfold x1
    refine .trans ?_ (State.tickEnWrite_kept ..)
    refine .trans ?_ (State.tickRoleSet_kept ..)
    exact hx0
  clear_value x1
  refine .trans ?_ (State.when_kept _ _ _ ?_)
  · exact hx1
  · exact State.reacquire_kept ..

theorem State.writeSpecial_kept (s : State) (off : Nat) (d : W32) {t : State} (h : s.writeSpecial off d = some t) : Kept s t := by
  unfold State.writeSpecial at h
  extract_lets nm at h
  split at h
  · cases h; exact State.when_kept _ _ _ (State.trainGo_kept ..)
  · cases h; exact State.writeCommit_kept ..
  · cases h; exact State.writeTickCtrl_kept ..
  · cases h; exact State.writePlan_kept ..
  · cases h; exact State.writeRetire_kept ..
  · cases h; exact State.writeSeqCtrl_kept ..
  · cases h; exact State.writePmCheck_kept ..
  · cases h; split
    · exact Kept.upd .rfl (Eq.refl _) (Eq.refl _)
    · exact .rfl
  · cases h; exact State.writeCalClr_kept ..
  · cases h; exact State.setRf_kept ..
  · cases h; exact State.writeRpcCfg_kept ..
  · cases h; exact State.when_kept _ _ _ (State.flushGo_kept ..)
  · cases h; exact (State.when_kept _ _ _ (State.forceFail_kept ..)).trans (State.when_kept _ _ _ (State.askRejoin_kept ..))
  · cases h; exact State.setRf_kept ..
  · cases h; exact (State.when_kept _ _ _ (State.goMidwinter_kept ..)).trans (State.when_kept _ _ _ (State.startWake_kept ..))
  · cases h; exact State.writeFallow_kept ..
  · cases h; exact State.writeBistCfg_kept ..
  · cases h; exact State.writeBistRun_kept ..
  · cases h; exact State.writeAitCtrl_kept ..
  · cases h; exact State.writeAitCfg_kept ..
  · cases h; exact State.writeScrubCtl_kept ..
  · split at h
    · cases h; exact State.writeRepair_kept ..
    · cases h
    · split at h
      · cases h; exact State.when_kept _ _ _ (State.wantRetrain_kept ..)
      · cases h
      · split at h
        · cases h; exact State.when_kept _ _ _ (State.mtAbort_kept ..)
        · cases h
        · split at h
          · cases h; exact State.writeEccRetire_kept ..
          · cases h

theorem State.write32_kept (s : State) (off : Nat) (d : W32) : Kept s (State.write32 s off d) := by
  unfold State.write32
  split
  · rename_i y0 y1 y2
    exact State.writeSpecial_kept _ _ _ y2
  · rename_i y3 y4
    refine .trans ?_ (State.when_kept _ _ _ ?_)
    · refine .trans ?_ (State.when_kept _ _ _ ?_)
      · refine .trans ?_ (State.storeWord_kept ..)
        exact State.clearW1c_kept ..
      · exact State.flowAll_kept ..
    · exact State.twinCheck_kept ..

theorem State.apply64_kept (s : State) (base : Nat) (lo : Option W32) (hi : W32) : Kept s (State.apply64 s base lo hi) := by
  unfold State.apply64
  split
  · rename_i y0 y1 y2 y3 y4 y5
    split
    · rename_i y6
      exact State.setGreg_kept ..
    · exact .rfl
  · rename_i y8 y9 y10 y11 y12 y13 y14
    split
    · rename_i y15 y16
      extract_lets x17
      clear_value x17
      split
      · exact .rfl
      · rename_i y19
        exact State.setEvc_kept ..
    · exact .rfl
  · rename_i y21 y22 y23 y24 y25 y26 y27
    extract_lets x28
    have hx28 : Kept s x28 := by
      unfold x28
      split
      · rename_i y29 y30
        exact State.storeWord_kept ..
      · exact .rfl
    clear_value x28
    refine .trans ?_ (State.when_kept _ _ _ ?_)
    · exact hx28
    · exact State.flushDslot_kept ..
  · rename_i y32 y33 y34 y35 y36 y37
    extract_lets x38
    have hx38 : Kept s x38 := by
      unfold x38
      split
      · rename_i y39 y40
        exact State.storeWord_kept ..
      · exact .rfl
    clear_value x38
    split
    · exact .rfl
    · rename_i y43
      refine .trans ?_ (State.storeWord_kept ..)
      exact hx38

theorem State.portWrite_kept (s0 : State) (off : Nat) (d : W32) : Kept s0 (State.portWrite s0 off d) := by
  unfold State.portWrite
  extract_lets x0 x1 x2 x3 x4
  clear_value x0
  have hx1 : Kept s0 x1 := by
    unfold x1
    exact State.settle_kept ..
  clear_value x1
  have hx2 : Kept s0 x2 := by
    unfold x2
    refine Kept.upd ?_ (Eq.refl _) (Eq.refl _)
    exact hx1
  clear_value x2
  have hx3 : Kept s0 x3 := by
    unfold x3
    refine .trans ?_ (State.clearW1c_kept ..)
    exact hx2
  clear_value x3 x4
  split
  · rename_i y5
    split
    · rename_i y6
      refine .trans ?_ (State.mergePut_kept ..)
      exact hx2
    · rename_i y7
      exact hx2
  · rename_i y8
    split
    · rename_i y9 y10
      refine Kept.upd ?_ (Eq.refl _) (Eq.refl _)
      exact hx3
    · rename_i y11 y12
      refine .trans ?_ (State.apply64_kept ..)
      refine .trans ?_ (State.clearW1c_kept ..)
      exact hx2
    · rename_i y13 y14 y15
      refine .trans ?_ (State.write32_kept ..)
      exact hx2

theorem State.portRead_kept (s0 : State) (off : Nat) : Kept s0 (State.portRead s0 off).2 := by
  unfold State.portRead
  extract_lets x0 x1 x2 x3
  clear_value x0
  have hx1 : Kept s0 x1 := by
    unfold x1
    exact State.settle_kept ..
  clear_value x1
  have hx2 : Kept s0 x2 := by
    unfold x2
    refine Kept.upd ?_ (Eq.refl _) (Eq.refl _)
    exact hx1
  clear_value x2
  have hx3 : Kept s0 x3 := by
    unfold x3
    refine .trans ?_ (State.when_kept _ _ _ ?_)
    · exact hx2
    · exact State.flushAddr_kept ..
  clear_value x3
  split
  · rename_i y4 y5 y6
    dsimp only
    exact hx2
  · rename_i y7 y8
    split
    rename_i y9 y10 y11 y12 y13
    dsimp only
    split
    · rename_i y14
      refine Kept.upd ?_ (Eq.refl _) (Eq.refl _)
      refine Kept.of_snd2 y13 ?_
      refine .trans ?_ (State.readPair_kept ..)
      exact hx3
    · rename_i y15
      refine Kept.of_snd2 y13 ?_
      refine .trans ?_ (State.readPair_kept ..)
      exact hx3

theorem State.setWir_kept (s : State) (code : Nat) : Kept s (State.setWir s code) := by
  unfold State.setWir
  exact State.updBist_kept ..

theorem State.wrapOut_kept (s : State) (ws : List W64) : Kept s (State.wrapOut s ws) := by
  unfold State.wrapOut
  split
  rename_i y0 y1 y2 y3
  refine .trans ?_ (State.emit_kept ..)
  refine .trans ?_ (State.updBist_kept ..)
  refine Kept.of_snd y3 ?_
  exact State.draw_kept ..

theorem State.wrapShift_kept (s : State) (code : Nat) : Kept s (State.wrapShift s code) := by
  unfold State.wrapShift
  extract_lets x0
  have hx0 : Kept s x0 := by
    unfold x0
    exact State.setWir_kept ..
  clear_value x0
  split
  rename_i y1 y2 y3 y4
  split
  rename_i y5 y6 y7 y8
  extract_lets x9 x10
  clear_value x9
  have hx10 : Kept s x10 := by
    unfold x10
    refine Kept.upd ?_ (Eq.refl _) (Eq.refl _)
    refine Kept.of_snd y8 ?_
    refine .trans ?_ (State.draw_kept ..)
    refine Kept.of_snd y4 ?_
    refine .trans ?_ (State.draw_kept ..)
    exact hx0
  clear_value x10
  refine .trans ?_ (State.updBist_kept ..)
  exact hx10

theorem State.wrapAccess_kept (s : State) (dr : W64) : Kept s (State.wrapAccess s dr) := by
  unfold State.wrapAccess
  extract_lets x0
  clear_value x0
  split
  rename_i y1 y2 y3 y4
  extract_lets x5
  clear_value x5
  refine .trans ?_ (State.wrapOut_kept ..)
  refine .trans ?_ (State.updBist_kept ..)
  refine Kept.of_snd y4 ?_
  split
  · rename_i y6
    dsimp only
    exact State.portWrite_kept ..
  · rename_i y7
    exact State.portRead_kept ..

theorem State.wrapWaiting_kept (s : State) : Kept s (State.wrapWaiting s) := by
  unfold State.wrapWaiting
  split
  · rename_i y0 y1 y2
    exact State.wrapAccess_kept ..
  · exact .rfl

theorem State.fuseModules_kept (s : State) : Kept s (State.fuseModules s) := by
  unfold State.fuseModules
  refine .trans ?_ (State.each_kept _ _ _ ?_)
  · exact .rfl
  · intro a0 a1
    extract_lets x2 x3
    clear_value x2 x3
    exact State.setMod_kept ..

theorem State.aluR_kept (s : State) (op : Nat) (cc : Nat) (off : W64 → List Nat) (f : W64 → W64 → W64 → W64) : Kept s (State.aluR s op cc off f)
    := by
  unfold State.aluR
  refine .trans ?_ (State.issue_kept _ _ _ _ ?_)
  · exact .rfl
  · intro a0 a1
    refine .trans ?_ (State.advance_kept ..)
    exact State.setGreg_kept ..

theorem State.offerRead_kept (s : State) (c : Nat) : Kept s (State.offerRead s c) := by
  unfold State.offerRead
  split
  · exact .rfl
  · rename_i y1
    split
    · rename_i y2 y3 y4 y5 y6 y7
      exact Kept.upd .rfl (Eq.refl _) (Eq.refl _)
    · exact .rfl

theorem State.takeRead_kept (s : State) (c : Nat) : Kept s (State.takeRead s c) := by
  unfold State.takeRead
  split
  · exact .rfl
  · rename_i y2 y3 y4
    split
    rename_i y5 y6 y7 y8
    refine .trans ?_ (State.when_kept _ _ _ ?_)
    · refine Kept.of_snd y8 ?_
      exact State.draw_kept ..
    · refine .trans ?_ (State.emit_kept ..)
      exact Kept.upd .rfl (Eq.refl _) (Eq.refl _)

theorem State.offerWrite_kept (s : State) (c : Nat) : Kept s (State.offerWrite s c) := by
  unfold State.offerWrite
  split
  · exact .rfl
  · rename_i y1
    split
    · rename_i y2 y3 y4 y5 y6 y7
      exact Kept.upd .rfl (Eq.refl _) (Eq.refl _)
    · exact .rfl

theorem State.acceptWrite_kept (s : State) (c : Nat) : Kept s (State.acceptWrite s c) := by
  unfold State.acceptWrite
  split
  · exact .rfl
  · rename_i y2 y3 y4
    split
    rename_i y5 y6 y7 y8
    refine .trans ?_ (State.when_kept _ _ _ ?_)
    · refine Kept.of_snd y8 ?_
      exact State.draw_kept ..
    · extract_lets x9
      clear_value x9
      refine .trans ?_ (State.emit_kept ..)
      exact Kept.upd .rfl (Eq.refl _) (Eq.refl _)

theorem State.sendBeat_kept (s : State) (c : Nat) : Kept s (State.sendBeat s c) := by
  unfold State.sendBeat
  split
  · exact .rfl
  · rename_i y2 y3 y4
    split
    rename_i y5 y6 y7 y8
    refine .trans ?_ (State.when_kept _ _ _ ?_)
    · refine Kept.of_snd y8 ?_
      exact State.draw_kept ..
    · refine .trans ?_ (State.emit_kept ..)
      exact Kept.upd .rfl (Eq.refl _) (Eq.refl _)

theorem State.memCc_kept (s : State) (c : Nat) : Kept s (State.memCc s c) := by
  unfold State.memCc
  refine .trans ?_ (State.takeRead_kept ..)
  refine .trans ?_ (State.offerRead_kept ..)
  refine .trans ?_ (State.acceptWrite_kept ..)
  refine .trans ?_ (State.offerWrite_kept ..)
  exact State.sendBeat_kept ..

theorem State.xptCc_kept (s : State) : Kept s (State.xptCc s) := by
  unfold State.xptCc
  split
  · exact .rfl
  · rename_i y2 y3 y4 y5
    split
    rename_i y6 y7 y8 y9
    refine .trans ?_ (State.when_kept _ _ _ ?_)
    · refine Kept.of_snd y9 ?_
      exact State.draw_kept ..
    · refine .trans ?_ (State.emit_kept ..)
      exact Kept.upd .rfl (Eq.refl _) (Eq.refl _)

theorem State.answerCc_kept (s : State) : Kept s (State.answerCc s) := by
  unfold State.answerCc
  split
  · exact .rfl
  · rename_i y2 y3 y4 y5
    split
    rename_i y6 y7 y8 y9
    refine .trans ?_ (State.when_kept _ _ _ ?_)
    · refine Kept.of_snd y9 ?_
      exact State.draw_kept ..
    · refine .trans ?_ (State.emit_kept ..)
      exact Kept.upd .rfl (Eq.refl _) (Eq.refl _)

theorem State.portsCc_kept (s : State) : Kept s (State.portsCc s) := by
  unfold State.portsCc
  refine .trans ?_ (State.answerCc_kept ..)
  refine .trans ?_ (State.xptCc_kept ..)
  refine .trans ?_ (State.payOwed_kept ..)
  refine .trans ?_ (State.each_kept _ _ _ ?_)
  · exact .rfl
  · intro a0 a1
    exact State.memCc_kept ..

theorem State.wakeOp_kept (s : State) (tag : Nat) : Kept s (State.wakeOp s tag) := by
  unfold State.wakeOp
  refine .trans ?_ (State.opCheck_kept ..)
  exact State.updOp_kept ..

theorem State.telDrain_kept (s : State) : Kept s (State.telDrain s) := by
  unfold State.telDrain
  split
  · exact .rfl
  · rename_i y2 y3 y4 y5
    split
    rename_i y6 y7 y8 y9
    refine .trans ?_ (State.when_kept _ _ _ ?_)
    · refine Kept.of_snd y9 ?_
      exact State.draw_kept ..
    · extract_lets x10
      clear_value x10
      refine .trans ?_ (State.emit_kept ..)
      exact Kept.upd .rfl (Eq.refl _) (Eq.refl _)

theorem State.landWr32_kept (s : State) : Kept s (State.landWr32 s) := by
  unfold State.landWr32
  split
  · rename_i y0 y1 y2 y3
    extract_lets x4
    split
    · rename_i y5
      refine .trans ?_ (State.each_kept _ _ _ ?_)
      · exact Kept.upd .rfl (Eq.refl _) (Eq.refl _)
      · intro a6 a7
        exact State.portShadow_kept ..
    · exact .rfl
  · exact .rfl

theorem State.pulseOut_kept (s : State) : Kept s (State.pulseOut s) := by
  unfold State.pulseOut
  extract_lets x0
  clear_value x0
  split
  · rename_i y1
    exact State.emit_kept ..
  · exact .rfl

theorem State.slipFlush_kept (s : State) : Kept s (State.slipFlush s) := by
  unfold State.slipFlush
  extract_lets x0 x1 x2 x3
  clear_value x0
  have hx1 : Kept s x1 := by
    unfold x1
    exact State.setRg64_kept ..
  clear_value x1
  have hx2 : Kept s x2 := by
    unfold x2
    refine .trans ?_ (State.count32_kept ..)
    refine .trans ?_ (State.setRg_kept ..)
    exact hx1
  clear_value x2
  have hx3 : Kept s x3 := by
    unfold x3
    refine .trans ?_ (State.when_kept _ _ _ ?_)
    · refine .trans ?_ (State.setBit_kept ..)
      exact hx2
    · exact State.irq_kept ..
  clear_value x3
  split
  · rename_i y4
    exact Kept.upd .rfl (Eq.refl _) (Eq.refl _)
  · rename_i y5
    refine Kept.upd ?_ (Eq.refl _) (Eq.refl _)
    exact hx3

theorem State.turnPhase_kept (s : State) : Kept s (State.turnPhase s) := by
  unfold State.turnPhase
  extract_lets x0 x1 x2 x3
  clear_value x0 x1 x2 x3
  exact State.updTick_kept ..

theorem State.nextPhase_kept (s : State) : Kept s (State.nextPhase s) := by
  unfold State.nextPhase
  extract_lets x0
  clear_value x0
  exact State.updTick_kept ..

theorem State.solBegin_kept (s : State) (t : Nat) : Kept s (State.solBegin s t) := by
  unfold State.solBegin
  extract_lets x0 x1
  clear_value x0 x1
  exact State.updTick_kept ..

theorem State.histLat_kept (s : State) : Kept s (State.histLat s) := by
  unfold State.histLat
  extract_lets x0
  clear_value x0
  exact State.updTick_kept ..

theorem State.flushCal_kept (s : State) (t : Nat) : Kept s (State.flushCal s t) := by
  unfold State.flushCal
  refine .trans ?_ (State.each_kept _ _ _ ?_)
  · exact .rfl
  · intro a0 a1
    exact State.flushEnt_kept ..

theorem State.solCommit_kept (s : State) (t : Nat) : Kept s (State.solCommit s t) := by
  unfold State.solCommit
  extract_lets x0 x1 x2 x3 x4 x5 x6
  have hx0 : Kept s x0 := by
    unfold x0
    exact State.flushCal_kept ..
  clear_value x0 x1
  have hx2 : Kept s x2 := by
    unfold x2
    refine Kept.upd ?_ (Eq.refl _) (Eq.refl _)
    exact hx0
  clear_value x2
  have hx3 : Kept s x3 := by
    unfold x3
    refine .trans ?_ (State.commitSolstice_kept ..)
    exact hx2
  clear_value x3 x4 x5
  have hx6 : Kept s x6 := by
    unfold x6
    split
    · rename_i y7
      refine Kept.upd ?_ (Eq.refl _) (Eq.refl _)
      exact hx3
    · rename_i y8
      exact hx3
  clear_value x6
  refine .trans ?_ (State.calSolstice_kept ..)
  refine .trans ?_ (State.capSolstice_kept ..)
  refine .trans ?_ (State.histLat_kept ..)
  exact hx6

theorem State.solDue_kept (s : State) : Kept s (State.solDue s) := by
  unfold State.solDue
  extract_lets x0 x1 x2
  have hx0 : Kept s x0 := by
    unfold x0
    refine .trans ?_ (State.each_kept _ _ _ ?_)
    · exact .rfl
    · intro a3 a4
      refine .trans ?_ (State.hmSolstice_kept ..)
      exact State.repairSolstice_kept ..
  clear_value x0
  have hx1 : Kept s x1 := by
    unfold x1
    refine .trans ?_ (State.stepSolstice_kept ..)
    refine .trans ?_ (State.planSolstice_kept ..)
    exact hx0
  clear_value x1
  have hx2 : Kept s x2 := by
    unfold x2
    refine .trans ?_ (State.each_kept _ _ _ ?_)
    · exact hx1
    · intro a5 a6
      exact State.retireSolstice_kept ..
  clear_value x2
  refine .trans ?_ (State.flowAll_kept ..)
  refine .trans ?_ (State.capacitySolstice_kept ..)
  refine .trans ?_ (State.mwSolstice_kept ..)
  refine .trans ?_ (State.twinSolstice_kept ..)
  exact hx2

theorem State.holdExpiry_kept (s : State) : Kept s (State.holdExpiry s) := by
  unfold State.holdExpiry
  refine .trans ?_ (State.each_kept _ _ _ ?_)
  · exact .rfl
  · intro a0 a1
    extract_lets x2
    clear_value x2
    split
    · rename_i y3
      exact State.dropStale_kept ..
    · rename_i y4
      exact State.dropStale_kept ..

theorem State.sendDigest_kept (s : State) (at_ : Nat) : Kept s (State.sendDigest s at_) := by
  unfold State.sendDigest
  extract_lets x0
  have hx0 : Kept s x0 := by
    unfold x0
    exact Kept.upd .rfl (Eq.refl _) (Eq.refl _)
  clear_value x0
  refine .trans ?_ (State.sendMgmt1_kept ..)
  exact hx0

theorem State.statusSolstice_kept (s : State) : Kept s (State.statusSolstice s) := by
  unfold State.statusSolstice
  extract_lets x0
  have hx0 : Kept s x0 := by
    unfold x0
    exact State.tel_kept ..
  clear_value x0
  split
  · rename_i y1
    refine Kept.upd ?_ (Eq.refl _) (Eq.refl _)
    exact hx0
  · exact .rfl

theorem State.renewBudgets_kept (s : State) : Kept s (State.renewBudgets s) := by
  unfold State.renewBudgets
  exact Kept.upd .rfl (Eq.refl _) (Eq.refl _)

theorem State.solsticeActs_kept (s : State) (t : Nat) : Kept s (State.solsticeActs s t) := by
  unfold State.solsticeActs
  extract_lets x0 x1 x2 x3 x4 x5 x6
  clear_value x0
  have hx1 : Kept s x1 := by
    unfold x1
    exact State.solBegin_kept ..
  clear_value x1 x2 x3
  have hx4 : Kept s x4 := by
    unfold x4
    refine .trans ?_ (State.solDue_kept ..)
    refine .trans ?_ (State.solCommit_kept ..)
    refine .trans ?_ (State.overrun_kept ..)
    exact hx1
  clear_value x4 x5
  have hx6 : Kept s x6 := by
    unfold x6
    refine .trans ?_ (State.forgetProgs_kept ..)
    refine .trans ?_ (State.tickwaitEnd_kept ..)
    refine .trans ?_ (State.slotLookup_kept ..)
    exact hx4
  clear_value x6
  refine .trans ?_ (State.landHeld_kept ..)
  refine .trans ?_ (State.statusSolstice_kept ..)
  refine .trans ?_ (State.sendDigest_kept ..)
  refine .trans ?_ (State.renewBudgets_kept ..)
  refine .trans ?_ (State.holdExpiry_kept ..)
  exact hx6

theorem State.turn_kept (s : State) (t : Nat) : Kept s (State.turn s t) := by
  unfold State.turn
  extract_lets x0 x1 x2
  clear_value x0
  have hx1 : Kept s x1 := by
    unfold x1
    refine .trans ?_ (State.when_kept _ _ _ ?_)
    · exact .rfl
    · exact State.slipFlush_kept ..
  clear_value x1
  have hx2 : Kept s x2 := by
    unfold x2
    refine .trans ?_ (State.turnPhase_kept ..)
    exact hx1
  clear_value x2
  refine .trans ?_ (State.nextPhase_kept ..)
  refine .trans ?_ (State.when_kept _ _ _ ?_)
  · exact hx2
  · exact State.solsticeActs_kept ..

theorem State.lockedPulse_kept (s : State) (num : Nat) : Kept s (State.lockedPulse s num) := by
  unfold State.lockedPulse
  extract_lets x0
  clear_value x0
  split
  · rename_i y1
    refine .trans ?_ (State.turn_kept ..)
    exact State.updTick_kept ..
  · rename_i y2
    split
    · rename_i y3
      exact State.updTick_kept ..
    · rename_i y4
      refine .trans ?_ (State.updTick_kept ..)
      refine .trans ?_ (State.flywheel_kept ..)
      exact State.skew_kept ..

theorem State.pulse_kept (s : State) (num : Nat) : Kept s (State.pulse s num) := by
  unfold State.pulse
  split
  · exact .rfl
  · rename_i y1
    split
    · rename_i y2
      exact State.lockedPulse_kept ..
    · rename_i y3
      split
      · rename_i y4
        refine .trans ?_ (State.acquire_kept ..)
        exact State.updTick_kept ..
      · rename_i y5
        exact State.acquire_kept ..

theorem State.telPair_kept (s : State) (off : Nat) : Kept s (State.telPair s off).2.2 := by
  unfold State.telPair
  split
  rename_i y0 y1 y2 y3 y4
  split
  rename_i y5 y6 y7 y8 y9
  dsimp only
  refine Kept.of_snd2 y4 ?_
  exact State.readPair_kept ..

theorem State.telLatch_kept (s : State) (rd : Option (Nat × W32)) : Kept s (State.telLatch s rd) := by
  unfold State.telLatch
  extract_lets x0
  exact Kept.upd .rfl (Eq.refl _) (Eq.refl _)

end Sys2Proof.Machine
end

