-- ==== Sys2Proof/Laws/Meanings.lean ====
section
/-! SUPPORT. Every meaning but those of the resets and of the fuse read answers a next state for a well-formed command, and keeps the environment, the
queue and the invariant (Kept): one lemma for each. -/
namespace Sys2Proof.Machine

theorem execEccRewrite_kept (n : Nat) (s : State) : ∃ t, execEccRewrite n s = .next t ∧ Kept s t := by
  unfold execEccRewrite
  refine live_kept _ _ ?_
  refine .trans ?_ (State.when_kept _ _ _ ?_)
  · exact .rfl
  · exact State.eccRewriteEntry_kept ..

theorem execEccScrubGo_kept (d : W32) (s : State) : ∃ t, execEccScrubGo d s = .next t ∧ Kept s t := by
  unfold execEccScrubGo
  refine portCmd_kept _ _ (fun s => ?_)
  exact State.writeScrubCtl_kept ..

theorem execScrubRead_kept (s : State) : ∃ t, execScrubRead s = .next t ∧ Kept s t := by
  unfold execScrubRead
  refine live_kept _ _ ?_
  split
  · exact .rfl
  · rename_i y2 y3 y4 y5 y6
    extract_lets x7 x8 x9 x10 x11 x12 x13 x14 x15
    have hx7 : Kept s x7 := by
      unfold x7
      exact State.scrubWord_kept ..
    clear_value x7
    have hx8 : Kept s x8 := by
      unfold x8
      refine .trans ?_ (State.setRg_kept ..)
      exact hx7
    clear_value x8 x9 x10 x11
    have hx12 : Kept s x12 := by
      unfold x12
      refine Kept.upd ?_ (Eq.refl _) (Eq.refl _)
      exact hx8
    clear_value x12
    have hx13 : Kept s x13 := by
      unfold x13
      refine .trans ?_ (State.setRf_kept ..)
      refine .trans ?_ (State.setRf_kept ..)
      exact hx12
    clear_value x13 x14
    have hx15 : Kept s x15 := by
      unfold x15
      refine .trans ?_ (State.setRf_kept ..)
      exact hx12
    clear_value x15
    split
    · exact .rfl
    · rename_i y17
      split
      · rename_i y18
        refine Kept.upd ?_ (Eq.refl _) (Eq.refl _)
        exact hx13
      · rename_i y19
        refine Kept.upd ?_ (Eq.refl _) (Eq.refl _)
        exact hx15

theorem execSpareUnitReplace_kept (k : Nat) (s : State) : ∃ t, execSpareUnitReplace k s = .next t ∧ Kept s t := by
  unfold execSpareUnitReplace
  refine live_kept _ _ ?_
  extract_lets x0 x1 x2 x3
  clear_value x0 x1 x2 x3
  split
  · exact .rfl
  · rename_i y5
    split
    · rename_i y6
      exact Kept.upd .rfl (Eq.refl _) (Eq.refl _)
    · rename_i y7
      split
      · exact .rfl
      · rename_i y9
        exact Kept.upd .rfl (Eq.refl _) (Eq.refl _)

theorem execAckTimer_kept (m : Nat) (s : State) (hwf : (decide (m < 16)) = true) : ∃ t, execAckTimer m s = .next t ∧ Kept s t := by
  unfold execAckTimer
  refine liveWf_kept _ _ _ hwf ?_
  split
  · rename_i y0 y1 y2
    split
    · rename_i y3
      exact State.updMod_kept ..
    · exact .rfl
  · exact .rfl

theorem execFlitSlot_kept (m : Nat) (frac : BitVec 3) (s : State) (hwf : (decide (m < 16)) = true) : ∃ t, execFlitSlot m frac s = .next t ∧ Kept s
    t := by
  unfold execFlitSlot
  refine liveWf_kept _ _ _ hwf ?_
  extract_lets x0 x1
  clear_value x0 x1
  split
  · rename_i y2
    refine .trans ?_ (State.when_kept _ _ _ ?_)
    · exact .rfl
    · exact State.openSlot_kept ..
  · rename_i y3
    refine .trans ?_ (State.when_kept _ _ _ ?_)
    · exact .rfl
    · exact State.flitSlot_kept ..

theorem execCreditTimer_kept (s : State) : ∃ t, execCreditTimer s = .next t ∧ Kept s t := by
  unfold execCreditTimer
  refine live_kept _ _ ?_
  extract_lets x0
  have hx0 : Kept s x0 := by
    unfold x0
    refine .trans ?_ (State.creditSent_kept ..)
    exact State.sendMgmt1_kept ..
  clear_value x0
  split
  · exact .rfl
  · rename_i y2
    split
    · rename_i y3
      refine Kept.upd ?_ (Eq.refl _) (Eq.refl _)
      exact hx0
    · rename_i y4
      exact Kept.upd .rfl (Eq.refl _) (Eq.refl _)

theorem execFlowTimer_kept (s : State) : ∃ t, execFlowTimer s = .next t ∧ Kept s t := by
  unfold execFlowTimer
  refine live_kept _ _ ?_
  extract_lets x0
  clear_value x0
  split
  · rename_i y1
    exact Kept.upd .rfl (Eq.refl _) (Eq.refl _)
  · exact .rfl

theorem execMessageAdmission_kept (tc : Nat) (s : State) (hwf : (decide (tc < 4)) = true) : ∃ t, execMessageAdmission tc s = .next t ∧ Kept s t :=
    by
  unfold execMessageAdmission
  refine liveWf_kept _ _ _ hwf ?_
  exact State.admitNext_kept ..

theorem execEccRetireWrite_kept (k : Nat) (d : W32) (s : State) (hwf : (decide (k < 8)) = true) : ∃ t, execEccRetireWrite k d s = .next t ∧ Kept s
    t := by
  unfold execEccRetireWrite
  refine portCmdWf_kept _ _ _ hwf (fun s => ?_)
  exact State.writeEccRetire_kept ..

theorem execPageWalkRetry_kept (tag : Nat) (s : State) : ∃ t, execPageWalkRetry tag s = .next t ∧ Kept s t := by
  unfold execPageWalkRetry
  refine live_kept _ _ ?_
  split
  · rename_i y0 y1 y2
    split
    · rename_i y3
      exact State.walkHeader_kept ..
    · exact .rfl
  · exact .rfl

theorem execPush_kept (s : State) : ∃ t, execPush s = .next t ∧ Kept s t := by
  unfold execPush
  refine live_kept _ _ ?_
  exact State.xfer_kept ..

theorem execPull_kept (s : State) : ∃ t, execPull s = .next t ∧ Kept s t := by
  unfold execPull
  refine live_kept _ _ ?_
  exact State.xfer_kept ..

theorem execGather_kept (s : State) : ∃ t, execGather s = .next t ∧ Kept s t := by
  unfold execGather
  refine live_kept _ _ ?_
  exact State.xfer_kept ..

theorem execScatter_kept (s : State) : ∃ t, execScatter s = .next t ∧ Kept s t := by
  unfold execScatter
  refine live_kept _ _ ?_
  exact State.xfer_kept ..

theorem execCopy_kept (s : State) : ∃ t, execCopy s = .next t ∧ Kept s t := by
  unfold execCopy
  refine live_kept _ _ ?_
  exact State.xfer_kept ..

theorem execXeMtStatAbort_kept (k : Nat) (s : State) (hwf : (decide (k < 4)) = true) : ∃ t, execXeMtStatAbort k s = .next t ∧ Kept s t := by
  unfold execXeMtStatAbort
  refine portCmdWf_kept _ _ _ hwf (fun s => ?_)
  exact State.mtAbort_kept ..

theorem execConvert_kept (s : State) : ∃ t, execConvert s = .next t ∧ Kept s t := by
  unfold execConvert
  refine live_kept _ _ ?_
  refine .trans ?_ (State.engineIssue_kept _ _ _ _ _ _ ?_)
  · exact .rfl
  · intro a0 a1 a2
    exact startConvert_kept ..

theorem execFoldSend_kept (s : State) : ∃ t, execFoldSend s = .next t ∧ Kept s t := by
  unfold execFoldSend
  refine live_kept _ _ ?_
  refine .trans ?_ (State.engineIssue_kept _ _ _ _ _ _ ?_)
  · exact .rfl
  · intro a0 a1 a2
    exact startFoldSend_kept ..

theorem execHvCalClrGo_kept (d : W32) (s : State) : ∃ t, execHvCalClrGo d s = .next t ∧ Kept s t := by
  unfold execHvCalClrGo
  refine portCmd_kept _ _ (fun s => ?_)
  exact State.writeCalClr_kept ..

theorem execHvCalClrDone_kept (s : State) : ∃ t, execHvCalClrDone s = .next t ∧ Kept s t := by
  unfold execHvCalClrDone
  refine live_kept _ _ ?_
  split
  · rename_i y0 y1 y2
    extract_lets x3
    have hx3 : Kept s x3 := by
      unfold x3
      exact State.setRf_kept ..
    clear_value x3
    refine Kept.upd ?_ (Eq.refl _) (Eq.refl _)
    exact hx3
  · exact .rfl

theorem execHvContrib_kept (stream : Nat) (s : State) (hwf : (decide (stream < 64)) = true) : ∃ t, execHvContrib stream s = .next t ∧ Kept s t := by
  unfold execHvContrib
  refine liveWf_kept _ _ _ hwf ?_
  split
  · exact .rfl
  · rename_i y2 y3 y4
    split
    · rename_i y5 y6 y7
      exact State.hvForward_kept _ _ y7
    · rename_i y8 y9
      extract_lets x10 x11 x12 x13
      clear_value x10 x11
      have hx12 : Kept s x12 := by
        unfold x12
        exact State.contribAt_kept ..
      clear_value x12
      have hx13 : Kept s x13 := by
        unfold x13
        refine .trans ?_ (State.retryContribs_kept ..)
        exact hx12
      clear_value x13
      split
      · rename_i y14
        exact hx12
      · rename_i y15
        split
        · rename_i y16 y17 y18
          refine .trans ?_ (State.foldRedNext_kept ..)
          exact hx13
        · rename_i y19 y20
          exact hx13

theorem execFoldReduce_kept (s : State) : ∃ t, execFoldReduce s = .next t ∧ Kept s t := by
  unfold execFoldReduce
  refine live_kept _ _ ?_
  refine .trans ?_ (State.engineIssue_kept _ _ _ _ _ _ ?_)
  · exact .rfl
  · intro a0 a1 a2
    exact startReduce_kept ..

theorem execMergeSend_kept (s : State) : ∃ t, execMergeSend s = .next t ∧ Kept s t := by
  unfold execMergeSend
  refine live_kept _ _ ?_
  refine .trans ?_ (State.engineIssue_kept _ _ _ _ _ _ ?_)
  · exact .rfl
  · intro a0 a1 a2
    exact startMergeSend_kept ..

theorem execMergeGroupFold_kept (slot : Nat) (group : Nat) (s : State) (hwf : (decide (slot < 8)) = true) : ∃ t, execMergeGroupFold slot group s =
    .next t ∧ Kept s t := by
  unfold execMergeGroupFold
  refine liveWf_kept _ _ _ hwf ?_
  extract_lets x0
  clear_value x0
  split
  · rename_i y1
    exact State.foldGroup_kept ..
  · exact .rfl

theorem execMergeCutoff_kept (slot : Nat) (s : State) (hwf : (decide (slot < 8)) = true) : ∃ t, execMergeCutoff slot s = .next t ∧ Kept s t := by
  unfold execMergeCutoff
  refine liveWf_kept _ _ _ hwf ?_
  extract_lets x0
  clear_value x0
  split
  · rename_i y1 y2 y3 y4 y5 y6
    split
    · rename_i y7
      refine .trans ?_ (State.mrgCheck_kept ..)
      exact State.setMrg_kept ..
    · exact .rfl
  · exact .rfl

theorem execHvPartial_kept (stream : Nat) (s : State) (hwf : (decide (stream < 64)) = true) : ∃ t, execHvPartial stream s = .next t ∧ Kept s t := by
  unfold execHvPartial
  refine liveWf_kept _ _ _ hwf ?_
  split
  · exact .rfl
  · rename_i y2 y3 y4
    refine Kept.of_getD (fun t5 h6 => ?_) ?_
    · exact State.hvForward_kept _ _ h6
    · exact State.partialAt_kept ..

theorem execMergeCollect_kept (s : State) : ∃ t, execMergeCollect s = .next t ∧ Kept s t := by
  unfold execMergeCollect
  refine live_kept _ _ ?_
  refine .trans ?_ (State.engineIssue_kept _ _ _ _ _ _ ?_)
  · exact .rfl
  · intro a0 a1 a2
    exact startMerge_kept ..

theorem execDispatch_kept (s : State) : ∃ t, execDispatch s = .next t ∧ Kept s t := by
  unfold execDispatch
  refine live_kept _ _ ?_
  refine .trans ?_ (State.engineIssue_kept _ _ _ _ _ _ ?_)
  · exact .rfl
  · intro a0 a1 a2
    exact startDispatch_kept ..

theorem execSxDslotFlush_kept (k : Nat) (s : State) (hwf : (decide (k < 4)) = true) : ∃ t, execSxDslotFlush k s = .next t ∧ Kept s t := by
  unfold execSxDslotFlush
  refine portCmdWf_kept _ _ _ hwf (fun s => ?_)
  exact State.flushDslot_kept ..

theorem execCombineSend_kept (s : State) : ∃ t, execCombineSend s = .next t ∧ Kept s t := by
  unfold execCombineSend
  refine live_kept _ _ ?_
  refine .trans ?_ (State.engineIssue_kept _ _ _ _ _ _ ?_)
  · exact .rfl
  · intro a0 a1 a2
    exact startCmbSend_kept ..

theorem execHvExpert_kept (stream : Nat) (s : State) (hwf : (decide (stream < 64)) = true) : ∃ t, execHvExpert stream s = .next t ∧ Kept s t := by
  unfold execHvExpert
  refine liveWf_kept _ _ _ hwf ?_
  split
  · exact .rfl
  · rename_i y2 y3 y4
    refine Kept.of_getD (fun t5 h6 => ?_) ?_
    · exact State.hvForward_kept _ _ h6
    · exact State.expertAt_kept ..

theorem execCombineCutoff_kept (slot : Nat) (s : State) (hwf : (decide (slot < 4)) = true) : ∃ t, execCombineCutoff slot s = .next t ∧ Kept s t :=
    by
  unfold execCombineCutoff
  refine liveWf_kept _ _ _ hwf ?_
  extract_lets x0 x1
  clear_value x0
  have hx1 : Kept s x1 := by
    unfold x1
    exact State.setCmb_kept ..
  clear_value x1
  split
  · rename_i y2 y3 y4
    split
    · rename_i y5
      split
      · rename_i y6
        refine .trans ?_ (State.cmbFold_kept ..)
        exact hx1
      · rename_i y7
        refine .trans ?_ (State.retryExperts_kept ..)
        exact hx1
    · exact .rfl
  · exact .rfl

theorem execCombineCollect_kept (s : State) : ∃ t, execCombineCollect s = .next t ∧ Kept s t := by
  unfold execCombineCollect
  refine live_kept _ _ ?_
  refine .trans ?_ (State.engineIssue_kept _ _ _ _ _ _ ?_)
  · exact .rfl
  · intro a0 a1 a2
    exact startCollect_kept ..

theorem execCfgCommitReq_kept (next : Bool) (s : State) : ∃ t, execCfgCommitReq next s = .next t ∧ Kept s t := by
  unfold execCfgCommitReq
  refine portCmd_kept _ _ (fun s => ?_)
  refine .trans ?_ (State.portCommit_kept ..)
  exact State.setRf_kept ..

theorem execCfgCommitCancel_kept (s : State) : ∃ t, execCfgCommitCancel s = .next t ∧ Kept s t := by
  unfold execCfgCommitCancel
  refine portCmd_kept _ _ (fun s => ?_)
  exact State.commitCancel_kept ..

theorem execCfgCommitRevert_kept (s : State) : ∃ t, execCfgCommitRevert s = .next t ∧ Kept s t := by
  unfold execCfgCommitRevert
  refine portCmd_kept _ _ (fun s => ?_)
  exact State.commitRevert_kept ..

theorem execCommit_kept (s : State) : ∃ t, execCommit s = .next t ∧ Kept s t := by
  unfold execCommit
  refine live_kept _ _ ?_
  refine .trans ?_ (State.issue_kept _ _ _ _ ?_)
  · exact .rfl
  · intro a0 a1
    split
    rename_i y2 y3 y4 y5
    refine .trans ?_ (State.advance_kept ..)
    refine .trans ?_ (State.when_kept _ _ _ ?_)
    · refine Kept.of_snd y5 ?_
      exact State.commitReq_kept ..
    · exact State.setFlag_kept ..

theorem execPgfetch_kept (s : State) : ∃ t, execPgfetch s = .next t ∧ Kept s t := by
  unfold execPgfetch
  refine live_kept _ _ ?_
  exact State.pageIssue_kept ..

theorem execPgpin_kept (s : State) : ∃ t, execPgpin s = .next t ∧ Kept s t := by
  unfold execPgpin
  refine live_kept _ _ ?_
  exact State.pageIssue_kept ..

theorem execPgunpin_kept (s : State) : ∃ t, execPgunpin s = .next t ∧ Kept s t := by
  unfold execPgunpin
  refine live_kept _ _ ?_
  exact State.pageIssue_kept ..

theorem execPgatomic_kept (s : State) : ∃ t, execPgatomic s = .next t ∧ Kept s t := by
  unfold execPgatomic
  refine live_kept _ _ ?_
  exact State.pageIssue_kept ..

theorem execPggather_kept (s : State) : ∃ t, execPggather s = .next t ∧ Kept s t := by
  unfold execPggather
  refine live_kept _ _ ?_
  exact State.pageIssue_kept ..

theorem execPgReq_kept (stream : Nat) (s : State) (hwf : (decide (stream < 64)) = true) : ∃ t, execPgReq stream s = .next t ∧ Kept s t := by
  unfold execPgReq
  refine liveWf_kept _ _ _ hwf ?_
  exact State.recordPort_kept ..

theorem execPgAtomicRead_kept (stream : Nat) (s : State) (hwf : (decide (stream < 64)) = true) : ∃ t, execPgAtomicRead stream s = .next t ∧ Kept s
    t := by
  unfold execPgAtomicRead
  refine liveWf_kept _ _ _ hwf ?_
  exact State.recordPort_kept ..

theorem execPgAtomicInc_kept (stream : Nat) (s : State) (hwf : (decide (stream < 64)) = true) : ∃ t, execPgAtomicInc stream s = .next t ∧ Kept s t
    := by
  unfold execPgAtomicInc
  refine liveWf_kept _ _ _ hwf ?_
  exact State.recordPort_kept ..

theorem execPgAtomicDec_kept (stream : Nat) (s : State) (hwf : (decide (stream < 64)) = true) : ∃ t, execPgAtomicDec stream s = .next t ∧ Kept s t
    := by
  unfold execPgAtomicDec
  refine liveWf_kept _ _ _ hwf ?_
  exact State.recordPort_kept ..

theorem execPgAtomicCas_kept (stream : Nat) (s : State) (hwf : (decide (stream < 64)) = true) : ∃ t, execPgAtomicCas stream s = .next t ∧ Kept s t
    := by
  unfold execPgAtomicCas
  refine liveWf_kept _ _ _ hwf ?_
  exact State.recordPort_kept ..

theorem execPgAtomicRdec_kept (stream : Nat) (s : State) (hwf : (decide (stream < 64)) = true) : ∃ t, execPgAtomicRdec stream s = .next t ∧ Kept s
    t := by
  unfold execPgAtomicRdec
  refine liveWf_kept _ _ _ hwf ?_
  exact State.recordPort_kept ..

theorem execPgData_kept (stream : Nat) (s : State) (hwf : (decide (stream < 64)) = true) : ∃ t, execPgData stream s = .next t ∧ Kept s t := by
  unfold execPgData
  refine liveWf_kept _ _ _ hwf ?_
  split
  · rename_i y0 y1 y2
    refine Kept.of_getD (fun t3 h4 => ?_) ?_
    · exact State.respForward_kept _ _ _ h4
    · refine .trans ?_ (State.pagePump_kept ..)
      refine .trans ?_ (State.payOwed_kept ..)
      refine .trans ?_ (State.pgData_kept ..)
      exact State.takeWritten_kept ..
  · exact .rfl

theorem execPgAtomicResp_kept (stream : Nat) (s : State) (hwf : (decide (stream < 64)) = true) : ∃ t, execPgAtomicResp stream s = .next t ∧ Kept s
    t := by
  unfold execPgAtomicResp
  refine liveWf_kept _ _ _ hwf ?_
  split
  · rename_i y0 y1 y2
    refine Kept.of_getD (fun t3 h4 => ?_) ?_
    · exact State.respForward_kept _ _ _ h4
    · refine .trans ?_ (State.pagePump_kept ..)
      refine .trans ?_ (State.takeAtomicResp_kept ..)
      exact State.takeRel_kept ..
  · exact .rfl

theorem execRpcFlushGo_kept (s : State) : ∃ t, execRpcFlushGo s = .next t ∧ Kept s t := by
  unfold execRpcFlushGo
  refine portCmd_kept _ _ (fun s => ?_)
  exact State.flushGo_kept ..

theorem execRpcFlushDone_kept (s : State) : ∃ t, execRpcFlushDone s = .next t ∧ Kept s t := by
  unfold execRpcFlushDone
  refine live_kept _ _ ?_
  split
  · exact .rfl
  · rename_i y2 y3 y4
    extract_lets x5
    have hx5 : Kept s x5 := by
      unfold x5
      exact State.flushTags_kept ..
    clear_value x5
    split
    · exact .rfl
    · rename_i y7
      refine .trans ?_ (State.setRf_kept ..)
      refine Kept.upd ?_ (Eq.refl _) (Eq.refl _)
      exact hx5

theorem execRpcCfgWrite_kept (d : W32) (s : State) : ∃ t, execRpcCfgWrite d s = .next t ∧ Kept s t := by
  unfold execRpcCfgWrite
  refine portCmd_kept _ _ (fun s => ?_)
  exact State.writeRpcCfg_kept ..

theorem execWait_kept (s : State) : ∃ t, execWait s = .next t ∧ Kept s t := by
  unfold execWait
  refine live_kept _ _ ?_
  refine .trans ?_ (State.issue_kept _ _ _ _ ?_)
  · exact .rfl
  · intro a0 a1
    extract_lets x2 x3 x4 x5 x6
    clear_value x2 x3 x4 x5
    have hx6 : Kept a1 x6 := by
      unfold x6
      exact State.block_kept ..
    clear_value x6
    split
    · rename_i y7
      refine .trans ?_ (State.waitReached_kept ..)
      exact hx6
    · rename_i y8
      split
      · rename_i y9
        refine .trans ?_ (State.waitMissed_kept ..)
        exact hx6
      · rename_i y10
        exact hx6

theorem execWaitResume_kept (s : State) : ∃ t, execWaitResume s = .next t ∧ Kept s t := by
  unfold execWaitResume
  refine live_kept _ _ ?_
  extract_lets x0
  have hx0 : Kept s x0 := by
    unfold x0
    exact State.settle_kept ..
  clear_value x0
  split
  · rename_i y1 y2 y3 y4 y5 y6 y7
    split
    · rename_i y8
      refine .trans ?_ (State.waitReached_kept ..)
      exact hx0
    · rename_i y9
      exact hx0
  · rename_i y10 y11 y12 y13 y14 y15
    split
    · rename_i y16
      refine .trans ?_ (State.waitReached_kept ..)
      exact hx0
    · rename_i y17
      exact hx0
  · rename_i y18 y19 y20
    exact hx0

theorem execWaitTimeout_kept (s : State) : ∃ t, execWaitTimeout s = .next t ∧ Kept s t := by
  unfold execWaitTimeout
  refine live_kept _ _ ?_
  extract_lets x0 x1
  have hx0 : Kept s x0 := by
    unfold x0
    exact State.settle_kept ..
  clear_value x0
  split
  · rename_i y2 y3 y4 y5 y6 y7 y8
    split
    · rename_i y9
      refine Kept.upd ?_ (Eq.refl _) (Eq.refl _)
      exact hx0
    · rename_i y10
      exact hx0
  · rename_i y11 y12
    exact hx0

theorem execFence_kept (s : State) : ∃ t, execFence s = .next t ∧ Kept s t := by
  unfold execFence
  refine live_kept _ _ ?_
  refine .trans ?_ (State.issue_kept _ _ _ _ ?_)
  · exact .rfl
  · intro a0 a1
    extract_lets x2 x3
    clear_value x2
    have hx3 : Kept a1 x3 := by
      unfold x3
      exact State.block_kept ..
    clear_value x3
    split
    · rename_i y4
      refine .trans ?_ (State.unblock_kept ..)
      exact hx3
    · rename_i y5
      exact hx3

theorem execFenceResume_kept (s : State) : ∃ t, execFenceResume s = .next t ∧ Kept s t := by
  unfold execFenceResume
  refine live_kept _ _ ?_
  extract_lets x0
  have hx0 : Kept s x0 := by
    unfold x0
    exact State.settle_kept ..
  clear_value x0
  split
  · rename_i y1 y2 y3
    split
    · rename_i y4
      exact hx0
    · rename_i y5
      refine .trans ?_ (State.unblock_kept ..)
      exact hx0
  · rename_i y6 y7
    exact hx0

theorem execTickwait_kept (s : State) : ∃ t, execTickwait s = .next t ∧ Kept s t := by
  unfold execTickwait
  refine live_kept _ _ ?_
  refine .trans ?_ (State.issue_kept _ _ _ _ ?_)
  · exact .rfl
  · intro a0 a1
    exact State.block_kept ..

theorem execSignal_kept (s : State) : ∃ t, execSignal s = .next t ∧ Kept s t := by
  unfold execSignal
  refine live_kept _ _ ?_
  refine .trans ?_ (State.issue_kept _ _ _ _ ?_)
  · exact .rfl
  · intro a0 a1
    extract_lets x2
    clear_value x2
    split
    · rename_i y3 y4 y5
      split
      · rename_i y6
        exact startSignal_kept ..
      · rename_i y7
        exact State.stallOn_kept ..
    · rename_i y8 y9
      exact State.stallOn_kept ..

theorem execLocalSignalApply_kept (tag : Nat) (s : State) : ∃ t, execLocalSignalApply tag s = .next t ∧ Kept s t := by
  unfold execLocalSignalApply
  refine live_kept _ _ ?_
  split
  · exact .rfl
  · rename_i y2 y3 y4
    split
    · rename_i y5
      refine .trans ?_ (State.finish_kept ..)
      exact State.evAdd_kept ..
    · exact .rfl

theorem execEngineStallResume_kept (s : State) : ∃ t, execEngineStallResume s = .next t ∧ Kept s t := by
  unfold execEngineStallResume
  refine live_kept _ _ ?_
  split
  · exact .rfl
  · rename_i y2 y3 y4
    split
    · exact .rfl
    · rename_i y6
      split
      · rename_i y7 y8 y9
        refine .trans ?_ (State.pump_kept ..)
        exact State.cmbOpen_kept ..
      · rename_i y10 y11
        split
        · rename_i y12 y13 y14
          split
          · rename_i y15
            exact startStalled_kept ..
          · exact .rfl
        · exact .rfl

theorem execData_kept (m : Nat) (f : List Byte) (s : State) (hwf : (flitWf m f) = true) : ∃ t, execData m f s = .next t ∧ Kept s t := by
  unfold execData
  refine liveWf_kept _ _ _ hwf ?_
  refine .trans ?_ (State.rxFlit_kept _ _ _ _ ?_)
  · exact .rfl
  · intro a0 a1 a2 a3
    extract_lets x4
    clear_value x4
    split
    · rename_i y5
      refine .trans ?_ (State.seqStep_kept ..)
      refine .trans ?_ (State.eccWritten_kept ..)
      exact State.rxCommon_kept ..
    · exact .rfl

theorem execRetx_kept (m : Nat) (f : List Byte) (s : State) (hwf : (flitWf m f) = true) : ∃ t, execRetx m f s = .next t ∧ Kept s t := by
  unfold execRetx
  refine liveWf_kept _ _ _ hwf ?_
  refine .trans ?_ (State.rxFlit_kept _ _ _ _ ?_)
  · exact .rfl
  · intro a0 a1 a2 a3
    extract_lets x4 x5
    clear_value x4
    have hx5 : Kept a3 x5 := by
      unfold x5
      exact State.rxCommon_kept ..
    clear_value x5
    split
    · rename_i y6
      split
      · rename_i y7 y8 y9
        refine .trans ?_ (State.seqStep_kept ..)
        refine .trans ?_ (State.eccWritten_kept ..)
        exact hx5
      · rename_i y10 y11
        refine .trans ?_ (State.count_kept ..)
        exact hx5
    · exact .rfl

theorem execIdle_kept (m : Nat) (f : List Byte) (s : State) (hwf : (flitWf m f) = true) : ∃ t, execIdle m f s = .next t ∧ Kept s t := by
  unfold execIdle
  refine liveWf_kept _ _ _ hwf ?_
  refine .trans ?_ (State.rxFlit_kept _ _ _ _ ?_)
  · exact .rfl
  · intro a0 a1 a2 a3
    split
    · rename_i y4
      refine .trans ?_ (State.takeFlags_kept ..)
      exact State.rxCommon_kept ..
    · exact .rfl

theorem execFailedSlot_kept (m : Nat) (f : Option (List Byte)) (s : State) (hwf : (decide (m < 16) && (Option.map (fun g => g.length == 256)
    f).getD true) = true) : ∃ t, execFailedSlot m f s = .next t ∧ Kept s t := by
  unfold execFailedSlot
  refine liveWf_kept _ _ _ hwf ?_
  extract_lets x0
  clear_value x0
  split
  · exact .rfl
  · rename_i y2
    split
    · rename_i y3
      exact State.blindSlot_kept ..
    · rename_i y4 y5
      split
      · rename_i y6
        exact State.lockless_kept ..
      · rename_i y7
        split
        · rename_i y8 y9
          refine .trans ?_ (State.failSlot_kept ..)
          exact State.vldSeen_kept ..
        · rename_i y10 y11 y12
          refine .trans ?_ (State.failSlot_kept ..)
          exact State.vldSeen_kept ..
        · exact .rfl

theorem execReservedTypeFlit_kept (m : Nat) (f : List Byte) (s : State) (hwf : (flitWf m f) = true) : ∃ t, execReservedTypeFlit m f s = .next t ∧
    Kept s t := by
  unfold execReservedTypeFlit
  refine liveWf_kept _ _ _ hwf ?_
  refine .trans ?_ (State.rxFlit_kept _ _ _ _ ?_)
  · exact .rfl
  · intro a0 a1 a2 a3
    split
    · rename_i y4
      refine .trans ?_ (State.protoErr_kept ..)
      exact State.rxCommon_kept ..
    · exact .rfl

theorem execReservedSubtypeFlit_kept (m : Nat) (f : List Byte) (s : State) (hwf : (flitWf m f) = true) : ∃ t, execReservedSubtypeFlit m f s =
    .next t ∧ Kept s t := by
  unfold execReservedSubtypeFlit
  refine liveWf_kept _ _ _ hwf ?_
  refine .trans ?_ (State.rxFlit_kept _ _ _ _ ?_)
  · exact .rfl
  · intro a0 a1 a2 a3
    extract_lets x4
    clear_value x4
    split
    · rename_i y5
      refine .trans ?_ (State.protoErr_kept ..)
      exact State.rxCommon_kept ..
    · exact .rfl

theorem execCredit_kept (m : Nat) (f : List Byte) (s : State) (hwf : (flitWf m f) = true) : ∃ t, execCredit m f s = .next t ∧ Kept s t := by
  unfold execCredit
  refine liveWf_kept _ _ _ hwf ?_
  refine .trans ?_ (State.rxCtrl_kept _ _ _ _ _ ?_)
  · exact .rfl
  · intro a0 a1
    exact State.takeCredits_kept ..

theorem execFlow_kept (m : Nat) (f : List Byte) (s : State) (hwf : (flitWf m f) = true) : ∃ t, execFlow m f s = .next t ∧ Kept s t := by
  unfold execFlow
  refine liveWf_kept _ _ _ hwf ?_
  refine .trans ?_ (State.rxCtrl_kept _ _ _ _ _ ?_)
  · exact .rfl
  · intro a0 a1
    exact State.takeFlow_kept ..

theorem execOpenDataUnit_kept (m : Nat) (u : List Byte) (s : State) (hwf : (unitWf m u) = true) : ∃ t, execOpenDataUnit m u s = .next t ∧ Kept s t
    := by
  unfold execOpenDataUnit
  refine liveWf_kept _ _ _ hwf ?_
  extract_lets x0 x1
  clear_value x0 x1
  split
  · rename_i y2
    exact State.takeArea_kept ..
  · exact .rfl

theorem execOpenPaddingUnit_kept (m : Nat) (u : List Byte) (s : State) (hwf : (unitWf m u) = true) : ∃ t, execOpenPaddingUnit m u s = .next t ∧
    Kept s t := by
  unfold execOpenPaddingUnit
  refine liveWf_kept _ _ _ hwf ?_
  exact .rfl

theorem execOpenReservedUnit_kept (m : Nat) (u : List Byte) (s : State) (hwf : (unitWf m u) = true) : ∃ t, execOpenReservedUnit m u s = .next t ∧
    Kept s t := by
  unfold execOpenReservedUnit
  refine liveWf_kept _ _ _ hwf ?_
  split
  · rename_i y0
    exact State.protoErr_kept ..
  · exact .rfl

theorem execFragmentRelease_kept (stream : Option Nat) (s : State) (hwf : ((Option.map (fun n => decide (n < 64)) stream).getD true) = true) : ∃
    t, execFragmentRelease stream s = .next t ∧ Kept s t := by
  unfold execFragmentRelease
  refine liveWf_kept _ _ _ hwf ?_
  split
  · rename_i y0 y1
    exact State.releaseFrag_kept ..
  · rename_i y2
    exact State.releaseMgmt_kept ..

theorem execWriteRelease_kept (stream : Nat) (s : State) (hwf : (decide (stream < 64)) = true) : ∃ t, execWriteRelease stream s = .next t ∧ Kept s
    t := by
  unfold execWriteRelease
  refine liveWf_kept _ _ _ hwf ?_
  split
  · rename_i y0 y1 y2
    refine .trans ?_ (State.payOwed_kept ..)
    refine .trans ?_ (State.takeWrite_kept ..)
    exact State.takeWritten_kept ..
  · exact .rfl

theorem execReadReqRelease_kept (stream : Nat) (s : State) (hwf : (decide (stream < 64)) = true) : ∃ t, execReadReqRelease stream s = .next t ∧
    Kept s t := by
  unfold execReadReqRelease
  refine liveWf_kept _ _ _ hwf ?_
  split
  · rename_i y0 y1 y2
    split
    · exact .rfl
    · rename_i y4
      refine .trans ?_ (State.takeReadReq_kept ..)
      exact State.takeRel_kept ..
  · exact .rfl

theorem execReadDataRelease_kept (stream : Nat) (s : State) (hwf : (decide (stream < 64)) = true) : ∃ t, execReadDataRelease stream s = .next t ∧
    Kept s t := by
  unfold execReadDataRelease
  refine liveWf_kept _ _ _ hwf ?_
  split
  · rename_i y0 y1 y2
    extract_lets x3 x4
    clear_value x3
    have hx4 : Kept s x4 := by
      unfold x4
      exact State.noteForeign_kept ..
    clear_value x4
    refine Kept.of_getD (fun t5 h6 => ?_) ?_
    · refine .trans ?_ (State.respForward_kept _ _ _ h6)
      exact hx4
    · refine .trans ?_ (State.payOwed_kept ..)
      refine .trans ?_ (State.takeReadData_kept ..)
      refine .trans ?_ (State.takeWritten_kept ..)
      exact hx4
  · exact .rfl

theorem execSignalRelease_kept (stream : Nat) (s : State) (hwf : (decide (stream < 64)) = true) : ∃ t, execSignalRelease stream s = .next t ∧ Kept
    s t := by
  unfold execSignalRelease
  refine liveWf_kept _ _ _ hwf ?_
  split
  · rename_i y0 y1 y2
    split
    · exact .rfl
    · rename_i y4
      refine .trans ?_ (State.takeSignal_kept ..)
      exact State.takeRel_kept ..
  · exact .rfl

theorem execCompletionRelease_kept (stream : Nat) (s : State) (hwf : (decide (stream < 64)) = true) : ∃ t, execCompletionRelease stream s = .next
    t ∧ Kept s t := by
  unfold execCompletionRelease
  refine liveWf_kept _ _ _ hwf ?_
  split
  · rename_i y0 y1 y2
    extract_lets x3 x4
    clear_value x3
    have hx4 : Kept s x4 := by
      unfold x4
      exact State.noteForeign_kept ..
    clear_value x4
    refine Kept.of_getD (fun t5 h6 => ?_) ?_
    · refine .trans ?_ (State.respForward_kept _ _ _ h6)
      exact hx4
    · refine .trans ?_ (State.takeCompletion_kept ..)
      refine .trans ?_ (State.takeRel_kept ..)
      exact hx4
  · exact .rfl

theorem execPassThroughUnit_kept (u : XptUnit) (s : State) (hwf : (unitOk u) = true) : ∃ t, execPassThroughUnit u s = .next t ∧ Kept s t := by
  unfold execPassThroughUnit
  refine liveWf_kept _ _ _ hwf ?_
  refine .trans ?_ (State.when_kept _ _ _ ?_)
  · exact .rfl
  · exact State.takeUnit_kept ..

theorem execRetrainReq_kept (m : Nat) (f : List Byte) (s : State) (hwf : (flitWf m f) = true) : ∃ t, execRetrainReq m f s = .next t ∧ Kept s t := by
  unfold execRetrainReq
  refine liveWf_kept _ _ _ hwf ?_
  refine .trans ?_ (State.rxCtrl_kept _ _ _ _ _ ?_)
  · exact .rfl
  · intro a0 a1
    extract_lets x2
    clear_value x2
    exact State.joinRetrain_kept ..

theorem execRetrain_kept (m : Nat) (x : SbMsg) (s : State) (hwf : (decide (m < 16)) = true) : ∃ t, execRetrain m x s = .next t ∧ Kept s t := by
  unfold execRetrain
  refine liveWf_kept _ _ _ hwf ?_
  extract_lets x0 x1
  clear_value x0 x1
  split
  · exact .rfl
  · rename_i y3
    split
    · rename_i y4 y5 y6
      split
      · rename_i y7
        exact State.updMod_kept ..
      · exact .rfl
    · rename_i y9 y10
      exact State.joinRetrain_kept ..

theorem execRetrainReqResend_kept (m : Nat) (s : State) (hwf : (decide (m < 16)) = true) : ∃ t, execRetrainReqResend m s = .next t ∧ Kept s t := by
  unfold execRetrainReqResend
  refine liveWf_kept _ _ _ hwf ?_
  split
  · rename_i y0 y1 y2
    extract_lets x3
    clear_value x3
    split
    · rename_i y4
      refine .trans ?_ (State.updMod_kept ..)
      exact State.sendRetrainReq_kept ..
    · exact .rfl
  · exact .rfl

theorem execRetrainEnd_kept (m : Nat) (s : State) (hwf : (decide (m < 16)) = true) : ∃ t, execRetrainEnd m s = .next t ∧ Kept s t := by
  unfold execRetrainEnd
  refine liveWf_kept _ _ _ hwf ?_
  split
  · rename_i y0 y1 y2
    extract_lets x3
    have hx3 : Kept s x3 := by
      unfold x3
      refine .trans ?_ (State.updMod_kept ..)
      refine .trans ?_ (State.when_kept _ _ _ ?_)
      · exact .rfl
      · exact State.thaw_kept ..
    clear_value x3
    split
    · rename_i y4
      exact State.exitHold_kept ..
    · rename_i y5
      split
      · rename_i y6
        refine .trans ?_ (State.lateFrost_kept ..)
        refine .trans ?_ (State.gapThaw_kept ..)
        refine .trans ?_ (State.modUp_kept ..)
        exact hx3
      · exact .rfl
  · exact .rfl

theorem execRetrainTimeout_kept (m : Nat) (s : State) (hwf : (decide (m < 16)) = true) : ∃ t, execRetrainTimeout m s = .next t ∧ Kept s t := by
  unfold execRetrainTimeout
  refine liveWf_kept _ _ _ hwf ?_
  split
  · rename_i y0 y1 y2
    split
    · rename_i y3
      exact State.modDown_kept ..
    · exact .rfl
  · exact .rfl

theorem execLlModCtrlRetrain_kept (m : Nat) (s : State) (hwf : (decide (m < 16)) = true) : ∃ t, execLlModCtrlRetrain m s = .next t ∧ Kept s t := by
  unfold execLlModCtrlRetrain
  refine portCmdWf_kept _ _ _ hwf (fun s => ?_)
  exact State.wantRetrain_kept ..

theorem execLockLoss_kept (m : Nat) (alt : Bool) (clk : Bool) (s : State) (hwf : (decide (m < 16)) = true) : ∃ t, execLockLoss m alt clk s = .next
    t ∧ Kept s t := by
  unfold execLockLoss
  refine liveWf_kept _ _ _ hwf ?_
  exact State.lockLoss_kept ..

theorem execLockTimeout_kept (m : Nat) (s : State) (hwf : (decide (m < 16)) = true) : ∃ t, execLockTimeout m s = .next t ∧ Kept s t := by
  unfold execLockTimeout
  refine liveWf_kept _ _ _ hwf ?_
  split
  · rename_i y0 y1 y2
    split
    · rename_i y3
      refine .trans ?_ (State.modDown_kept ..)
      refine .trans ?_ (State.irq_kept ..)
      exact State.setBit_kept ..
    · exact .rfl
  · exact .rfl

theorem execLockRegain_kept (m : Nat) (alt : Bool) (s : State) (hwf : (decide (m < 16)) = true) : ∃ t, execLockRegain m alt s = .next t ∧ Kept s t
    := by
  unfold execLockRegain
  refine liveWf_kept _ _ _ hwf ?_
  exact State.lockRegain_kept ..

theorem execSparePrbsError_kept (m : Nat) (lane : Nat) (count : Nat) (s : State) (hwf : (decide (m < 16) && decide (lane < 68)) = true) : ∃ t,
    execSparePrbsError m lane count s = .next t ∧ Kept s t := by
  unfold execSparePrbsError
  refine liveWf_kept _ _ _ hwf ?_
  extract_lets x0
  have hx0 : Kept s x0 := by
    unfold x0
    refine .trans ?_ (State.setBit_kept ..)
    exact State.count_kept ..
  clear_value x0
  split
  · rename_i y1
    refine .trans ?_ (State.updHm_kept ..)
    exact hx0
  · exact .rfl

theorem execFrostEntryComplete_kept (m : Nat) (s : State) (hwf : (decide (m < 16)) = true) : ∃ t, execFrostEntryComplete m s = .next t ∧ Kept s t
    := by
  unfold execFrostEntryComplete
  refine liveWf_kept _ _ _ hwf ?_
  split
  · rename_i y0 y1 y2
    extract_lets x3 x4 x5
    clear_value x3
    subst x4
    have hx5 : Kept s x5 := by
      unfold x5
      exact State.updMod_kept ..
    clear_value x5
    split
    · exact .rfl
    · rename_i y7
      split
      · rename_i y8
        exact State.updMod_kept ..
      · rename_i y9
        split
        · rename_i y10
          refine .trans ?_ (State.updMod_kept ..)
          refine .trans ?_ (State.enterRetrain_kept ..)
          refine .trans ?_ (State.sendRetrainReq_kept ..)
          exact hx5
        · rename_i y11
          refine .trans ?_ (State.when_kept _ _ _ ?_)
          · refine .trans ?_ (State.updMod_kept ..)
            refine .trans ?_ (State.enterRetrain_kept ..)
            exact hx5
          · exact State.sendRate_kept ..
  · exact .rfl

theorem execGapOver_kept (s : State) : ∃ t, execGapOver s = .next t ∧ Kept s t := by
  unfold execGapOver
  refine live_kept _ _ ?_
  split
  · rename_i y0 y1 y2
    extract_lets x3
    have hx3 : Kept s x3 := by
      unfold x3
      exact State.setBit_kept ..
    clear_value x3
    split
    · rename_i y4
      refine Kept.upd ?_ (Eq.refl _) (Eq.refl _)
      exact hx3
    · exact .rfl
  · exact .rfl

theorem execLlPlanGo_kept (d : W32) (s : State) : ∃ t, execLlPlanGo d s = .next t ∧ Kept s t := by
  unfold execLlPlanGo
  refine portCmd_kept _ _ (fun s => ?_)
  exact State.writePlan_kept ..

theorem execDigest_kept (s : State) : ∃ t, execDigest s = .next t ∧ Kept s t := by
  unfold execDigest
  refine live_kept _ _ ?_
  refine .trans ?_ (State.takeMgmt_kept _ _ _ ?_)
  · exact .rfl
  · intro a0 a1
    exact State.takeDigest_kept ..

theorem execMgmtCredit_kept (s : State) : ∃ t, execMgmtCredit s = .next t ∧ Kept s t := by
  unfold execMgmtCredit
  refine live_kept _ _ ?_
  refine .trans ?_ (State.takeMgmt_kept _ _ _ ?_)
  · exact .rfl
  · intro a0 a1
    refine .trans ?_ (State.when_kept _ _ _ ?_)
    · exact .rfl
    · exact State.takeCredits_kept ..

theorem execLlRetireGo_kept (d : W32) (s : State) : ∃ t, execLlRetireGo d s = .next t ∧ Kept s t := by
  unfold execLlRetireGo
  refine portCmd_kept _ _ (fun s => ?_)
  exact State.writeRetire_kept ..

theorem execLlRetireForce_kept (d : W32) (s : State) : ∃ t, execLlRetireForce d s = .next t ∧ Kept s t := by
  unfold execLlRetireForce
  refine portCmd_kept _ _ (fun s => ?_)
  exact State.writeRetire_kept ..

theorem execRetireRequest_kept (s : State) : ∃ t, execRetireRequest s = .next t ∧ Kept s t := by
  unfold execRetireRequest
  refine live_kept _ _ ?_
  refine .trans ?_ (State.takeMgmt_kept _ _ _ ?_)
  · exact .rfl
  · intro a0 a1
    extract_lets x2 x3
    clear_value x2 x3
    split
    · exact .rfl
    · rename_i y5
      split
      · rename_i y6
        exact State.sendRetire_kept ..
      · rename_i y7
        refine .trans ?_ (State.sendRetire_kept ..)
        refine .trans ?_ (State.updMod_kept ..)
        exact State.dropRepair_kept ..

theorem execRetireEcho_kept (s : State) : ∃ t, execRetireEcho s = .next t ∧ Kept s t := by
  unfold execRetireEcho
  refine live_kept _ _ ?_
  refine .trans ?_ (State.takeMgmt_kept _ _ _ ?_)
  · exact .rfl
  · intro a0 a1
    exact State.updMod_kept ..

theorem execOverrun_kept (s : State) : ∃ t, execOverrun s = .next t ∧ Kept s t := by
  unfold execOverrun
  refine live_kept _ _ ?_
  extract_lets x0
  have hx0 : Kept s x0 := by
    unfold x0
    exact State.settle_kept ..
  clear_value x0
  refine .trans ?_ (State.when_kept _ _ _ ?_)
  · exact hx0
  · exact State.overrun_kept ..

theorem execDeferredProgramStart_kept (s : State) : ∃ t, execDeferredProgramStart s = .next t ∧ Kept s t := by
  unfold execDeferredProgramStart
  refine live_kept _ _ ?_
  extract_lets x0
  have hx0 : Kept s x0 := by
    unfold x0
    exact State.settle_kept ..
  clear_value x0
  split
  · rename_i y1 y2 y3
    split
    · rename_i y4
      refine .trans ?_ (State.startProg_kept ..)
      exact hx0
    · rename_i y5
      exact hx0
  · rename_i y6 y7
    exact hx0

theorem execSeqCtrlStart_kept (s : State) : ∃ t, execSeqCtrlStart s = .next t ∧ Kept s t := by
  unfold execSeqCtrlStart
  refine portCmd_kept _ _ (fun s => ?_)
  exact State.writeSeqCtrl_kept ..

theorem execSeqCtrlStop_kept (s : State) : ∃ t, execSeqCtrlStop s = .next t ∧ Kept s t := by
  unfold execSeqCtrlStop
  refine portCmd_kept _ _ (fun s => ?_)
  exact State.writeSeqCtrl_kept ..

theorem execSeqCtrlClr_kept (s : State) : ∃ t, execSeqCtrlClr s = .next t ∧ Kept s t := by
  unfold execSeqCtrlClr
  refine portCmd_kept _ _ (fun s => ?_)
  exact State.writeSeqCtrl_kept ..

theorem execSeqPmCheckGo_kept (d : W32) (s : State) : ∃ t, execSeqPmCheckGo d s = .next t ∧ Kept s t := by
  unfold execSeqPmCheckGo
  refine portCmd_kept _ _ (fun s => ?_)
  exact State.writePmCheck_kept ..

theorem execSeqPmCheckDone_kept (s : State) : ∃ t, execSeqPmCheckDone s = .next t ∧ Kept s t := by
  unfold execSeqPmCheckDone
  refine live_kept _ _ ?_
  split
  · exact .rfl
  · rename_i a n heq
    exact Kept.upd (t := (s.setRg 0x30024 (crcStd (s.pmBytes a n))).setRf 0x30020 30 30 1)
      ((State.setRg_kept ..).trans (State.setRf_kept ..)) (Eq.refl _) (Eq.refl _)

theorem execTickEn_kept (en : Bool) (s : State) : ∃ t, execTickEn en s = .next t ∧ Kept s t := by
  unfold execTickEn
  refine portCmd_kept _ _ (fun s => ?_)
  exact State.tickEnWrite_kept ..

theorem execTickRoleWrite_kept (role : BitVec 2) (s : State) : ∃ t, execTickRoleWrite role s = .next t ∧ Kept s t := by
  unfold execTickRoleWrite
  refine portCmd_kept _ _ (fun s => ?_)
  exact State.tickRoleSet_kept ..

theorem execTickReacq_kept (s : State) : ∃ t, execTickReacq s = .next t ∧ Kept s t := by
  unfold execTickReacq
  refine portCmd_kept _ _ (fun s => ?_)
  exact State.reacquire_kept ..

theorem execNomark_kept (s : State) : ∃ t, execNomark s = .next t ∧ Kept s t := by
  unfold execNomark
  refine live_kept _ _ ?_
  split
  · rename_i y0
    exact State.updTick_kept ..
  · exact .rfl

theorem execFallowIdle_kept (s : State) : ∃ t, execFallowIdle s = .next t ∧ Kept s t := by
  unfold execFallowIdle
  refine live_kept _ _ ?_
  split
  · exact .rfl
  · rename_i y2 y3 y4
    extract_lets x5 x6 x7
    clear_value x5 x6 x7
    split
    · rename_i y8
      refine .trans ?_ (State.sendSb_kept ..)
      exact State.updMod_kept ..
    · exact .rfl

theorem execFallowReq_kept (x : SbMsg) (s : State) : ∃ t, execFallowReq x s = .next t ∧ Kept s t := by
  unfold execFallowReq
  refine live_kept _ _ ?_
  refine .trans ?_ (State.rxSb_kept _ _ _ _ _ ?_)
  · exact .rfl
  · intro a0 a1
    split
    · rename_i y2
      refine .trans ?_ (State.enterFallow_kept ..)
      exact State.sendSb_kept ..
    · rename_i y3
      split
      · rename_i y4
        exact State.sendSb_kept ..
      · rename_i y5
        exact State.sendSb_kept ..

theorem execFallowAck_kept (x : SbMsg) (s : State) : ∃ t, execFallowAck x s = .next t ∧ Kept s t := by
  unfold execFallowAck
  refine live_kept _ _ ?_
  refine .trans ?_ (State.rxSb_kept _ _ _ _ _ ?_)
  · exact .rfl
  · intro a0 a1
    refine .trans ?_ (State.when_kept _ _ _ ?_)
    · exact .rfl
    · exact State.enterFallow_kept ..

theorem execFallowNak_kept (x : SbMsg) (s : State) : ∃ t, execFallowNak x s = .next t ∧ Kept s t := by
  unfold execFallowNak
  refine live_kept _ _ ?_
  refine .trans ?_ (State.rxSb_kept _ _ _ _ _ ?_)
  · exact .rfl
  · intro a0 a1
    exact State.updMod_kept ..

theorem execFallowWake_kept (s : State) : ∃ t, execFallowWake s = .next t ∧ Kept s t := by
  unfold execFallowWake
  refine live_kept _ _ ?_
  extract_lets x0
  clear_value x0
  split
  · rename_i y1 y2 y3
    refine .trans ?_ (State.when_kept _ _ _ ?_)
    · exact .rfl
    · exact State.beginWake_kept ..
  · rename_i y4 y5
    split
    · rename_i y6 y7 y8
      refine .trans ?_ (State.when_kept _ _ _ ?_)
      · exact .rfl
      · exact State.beginWake_kept ..
    · exact .rfl

theorem execFallowWakeDetect_kept (m : Nat) (s : State) (hwf : (decide (m < 16)) = true) : ∃ t, execFallowWakeDetect m s = .next t ∧ Kept s t := by
  unfold execFallowWakeDetect
  refine liveWf_kept _ _ _ hwf ?_
  split
  · rename_i y0
    refine .trans ?_ (State.updMod_kept ..)
    exact State.bistServe_kept ..
  · exact .rfl

theorem execFallowWakeDone_kept (m : Nat) (s : State) (hwf : (decide (m < 16)) = true) : ∃ t, execFallowWakeDone m s = .next t ∧ Kept s t := by
  unfold execFallowWakeDone
  refine liveWf_kept _ _ _ hwf ?_
  split
  · rename_i y0 y1 y2
    extract_lets x3 x4 x5
    clear_value x3
    have hx4 : Kept s x4 := by
      unfold x4
      exact State.updMod_kept ..
    clear_value x4
    have hx5 : Kept s x5 := by
      unfold x5
      refine .trans ?_ (State.lateFrost_kept ..)
      refine .trans ?_ (State.flowAll_kept ..)
      exact hx4
    clear_value x5
    split
    · rename_i y6
      split
      · rename_i y7 y8
        refine .trans ?_ (State.requestRetrain_kept ..)
        exact hx5
      · rename_i y9
        exact hx5
    · exact .rfl
  · exact .rfl

theorem execPwrFallowWrite_kept (d : W32) (s : State) : ∃ t, execPwrFallowWrite d s = .next t ∧ Kept s t := by
  unfold execPwrFallowWrite
  refine portCmd_kept _ _ (fun s => ?_)
  exact State.writeFallow_kept ..

theorem execMwGo_kept (s : State) : ∃ t, execMwGo s = .next t ∧ Kept s t := by
  unfold execMwGo
  refine portCmd_kept _ _ (fun s => ?_)
  exact State.goMidwinter_kept ..

theorem execMwReq_kept (x : SbMsg) (s : State) : ∃ t, execMwReq x s = .next t ∧ Kept s t := by
  unfold execMwReq
  refine live_kept _ _ ?_
  refine .trans ?_ (State.rxSb_kept _ _ _ _ _ ?_)
  · exact .rfl
  · intro a0 a1
    extract_lets x2 x3
    clear_value x2
    have hx3 : Kept a1 x3 := by
      unfold x3
      exact State.updPwr_kept ..
    clear_value x3
    split
    · rename_i y4
      refine .trans ?_ (State.when_kept _ _ _ ?_)
      · exact hx3
      · exact State.mwRefuse_kept ..
    · rename_i y5
      refine .trans ?_ (State.mwAgree_kept ..)
      exact State.updPwr_kept ..

theorem execMwAck_kept (x : SbMsg) (s : State) : ∃ t, execMwAck x s = .next t ∧ Kept s t := by
  unfold execMwAck
  refine live_kept _ _ ?_
  refine .trans ?_ (State.rxSb_kept _ _ _ _ _ ?_)
  · exact .rfl
  · intro a0 a1
    exact State.updPwr_kept ..

theorem execMwNoAck_kept (s : State) : ∃ t, execMwNoAck s = .next t ∧ Kept s t := by
  unfold execMwNoAck
  refine live_kept _ _ ?_
  split
  · rename_i y0 y1 y2
    split
    · rename_i y3
      exact State.mwWithdraw_kept ..
    · exact .rfl
  · exact .rfl

theorem execPhyOff_kept (s : State) : ∃ t, execPhyOff s = .next t ∧ Kept s t := by
  unfold execPhyOff
  refine live_kept _ _ ?_
  extract_lets x0 x1
  clear_value x0
  have hx1 : Kept s x1 := by
    unfold x1
    refine .trans ?_ (State.each_kept _ _ _ ?_)
    · exact .rfl
    · intro a2 a3
      exact State.updMod_kept ..
  clear_value x1
  split
  · rename_i y4
    refine .trans ?_ (State.updPwr_kept ..)
    exact hx1
  · exact .rfl

theorem execPwrCtrlWake_kept (s : State) : ∃ t, execPwrCtrlWake s = .next t ∧ Kept s t := by
  unfold execPwrCtrlWake
  refine portCmd_kept _ _ (fun s => ?_)
  exact State.startWake_kept ..

theorem execMwWake_kept (x : SbMsg) (s : State) : ∃ t, execMwWake x s = .next t ∧ Kept s t := by
  unfold execMwWake
  refine live_kept _ _ ?_
  refine .trans ?_ (State.rxSb_kept _ _ _ _ _ ?_)
  · exact .rfl
  · intro a0 a1
    split
    · rename_i y2
      refine .trans ?_ (State.beginExit_kept ..)
      exact State.sendPower_kept ..
    · exact .rfl

theorem execMwWakeAck_kept (x : SbMsg) (s : State) : ∃ t, execMwWakeAck x s = .next t ∧ Kept s t := by
  unfold execMwWakeAck
  refine live_kept _ _ ?_
  refine .trans ?_ (State.rxSb_kept _ _ _ _ _ ?_)
  · exact .rfl
  · intro a0 a1
    refine .trans ?_ (State.when_kept _ _ _ ?_)
    · exact .rfl
    · exact State.beginExit_kept ..

theorem execMwWakeResend_kept (s : State) : ∃ t, execMwWakeResend s = .next t ∧ Kept s t := by
  unfold execMwWakeResend
  refine live_kept _ _ ?_
  split
  · rename_i y0
    refine .trans ?_ (State.sendPower_kept ..)
    exact State.updPwr_kept ..
  · exact .rfl

theorem execMidwinterExitStep_kept (s : State) : ∃ t, execMidwinterExitStep s = .next t ∧ Kept s t := by
  unfold execMidwinterExitStep
  refine live_kept _ _ ?_
  split
  · rename_i y0 y1 y2
    extract_lets x3
    clear_value x3
    split
    · rename_i y4
      exact State.exitStep_kept ..
    · exact .rfl
  · exact .rfl

theorem execCapRecord_kept (r : BitVec 128) (s : State) : ∃ t, execCapRecord r s = .next t ∧ Kept s t := by
  unfold execCapRecord
  refine live_kept _ _ ?_
  split
  · rename_i y0
    exact State.updPwr_kept ..
  · exact .rfl

theorem execWakeRecord_kept (r : BitVec 128) (s : State) : ∃ t, execWakeRecord r s = .next t ∧ Kept s t := by
  unfold execWakeRecord
  refine live_kept _ _ ?_
  refine .trans ?_ (State.when_kept _ _ _ ?_)
  · exact .rfl
  · exact State.startWake_kept ..

theorem execCoreClkRestart_kept (s : State) : ∃ t, execCoreClkRestart s = .next t ∧ Kept s t := by
  unfold execCoreClkRestart
  refine live_kept _ _ ?_
  extract_lets x0 x1
  clear_value x1
  split
  · rename_i y2
    exact State.updTick_kept ..
  · exact .rfl

theorem execPaRepairGo_kept (m : Nat) (d : W32) (s : State) (hwf : (decide (m < 16)) = true) : ∃ t, execPaRepairGo m d s = .next t ∧ Kept s t := by
  unfold execPaRepairGo
  refine portCmdWf_kept _ _ _ hwf (fun s => ?_)
  refine .trans ?_ (State.when_kept _ _ _ ?_)
  · exact .rfl
  · exact State.writeRepair_kept ..

theorem execRepairRequest_kept (m : Nat) (f : List Byte) (s : State) (hwf : (flitWf m f) = true) : ∃ t, execRepairRequest m f s = .next t ∧ Kept s
    t := by
  unfold execRepairRequest
  refine liveWf_kept _ _ _ hwf ?_
  refine .trans ?_ (State.rxRepair_kept _ _ _ _ _ ?_)
  · exact .rfl
  · intro a0 a1 a2 a3 a4 a5
    extract_lets x6
    clear_value x6
    split
    · rename_i y7
      refine .trans ?_ (State.sendRepair_kept ..)
      refine .trans ?_ (State.updMod_kept ..)
      exact State.bistServe_kept ..
    · exact .rfl

theorem execRepairEcho_kept (m : Nat) (f : List Byte) (s : State) (hwf : (flitWf m f) = true) : ∃ t, execRepairEcho m f s = .next t ∧ Kept s t := by
  unfold execRepairEcho
  refine liveWf_kept _ _ _ hwf ?_
  refine .trans ?_ (State.rxRepair_kept _ _ _ _ _ ?_)
  · exact .rfl
  · intro a0 a1 a2 a3 a4 a5
    exact State.updMod_kept ..

theorem execRepairCancel_kept (m : Nat) (f : List Byte) (s : State) (hwf : (flitWf m f) = true) : ∃ t, execRepairCancel m f s = .next t ∧ Kept s t
    := by
  unfold execRepairCancel
  refine liveWf_kept _ _ _ hwf ?_
  refine .trans ?_ (State.rxRepair_kept _ _ _ _ _ ?_)
  · exact .rfl
  · intro a0 a1 a2 a3 a4 a5
    exact State.updMod_kept ..

theorem execRepairSwitch_kept (m : Nat) (f : List Byte) (s : State) (hwf : (flitWf m f) = true) : ∃ t, execRepairSwitch m f s = .next t ∧ Kept s t
    := by
  unfold execRepairSwitch
  refine liveWf_kept _ _ _ hwf ?_
  refine .trans ?_ (State.rxRepair_kept _ _ _ _ _ ?_)
  · exact .rfl
  · intro a0 a1 a2 a3 a4 a5
    split
    · rename_i y6 y7 y8
      split
      · rename_i y9
        exact State.applyRxSwap_kept ..
      · exact .rfl
    · exact .rfl

theorem execRepairResend_kept (m : Nat) (s : State) (hwf : (decide (m < 16)) = true) : ∃ t, execRepairResend m s = .next t ∧ Kept s t := by
  unfold execRepairResend
  refine liveWf_kept _ _ _ hwf ?_
  split
  · rename_i y0 y1 y2
    split
    · rename_i y3
      refine .trans ?_ (State.sendRepair_kept ..)
      exact State.updMod_kept ..
    · exact .rfl
  · exact .rfl

theorem execRepairNoEcho_kept (m : Nat) (s : State) (hwf : (decide (m < 16)) = true) : ∃ t, execRepairNoEcho m s = .next t ∧ Kept s t := by
  unfold execRepairNoEcho
  refine liveWf_kept _ _ _ hwf ?_
  split
  · rename_i y0 y1 y2
    split
    · rename_i y3
      refine .trans ?_ (State.sendRepair_kept ..)
      refine .trans ?_ (State.repairEnds_kept ..)
      exact State.updMod_kept ..
    · exact .rfl
  · exact .rfl

theorem execSwapSwitchSend_kept (m : Nat) (s : State) (hwf : (decide (m < 16)) = true) : ∃ t, execSwapSwitchSend m s = .next t ∧ Kept s t := by
  unfold execSwapSwitchSend
  refine liveWf_kept _ _ _ hwf ?_
  split
  · rename_i y0 y1 y2 y3 y4 y5
    split
    · rename_i y6
      refine .trans ?_ (State.updMod_kept ..)
      exact State.sendCtrl_kept ..
    · exact .rfl
  · exact .rfl

theorem execSwapReceiverTimeout_kept (m : Nat) (s : State) (hwf : (decide (m < 16)) = true) : ∃ t, execSwapReceiverTimeout m s = .next t ∧ Kept s
    t := by
  unfold execSwapReceiverTimeout
  refine liveWf_kept _ _ _ hwf ?_
  split
  · rename_i y0 y1 y2
    extract_lets x3
    clear_value x3
    split
    · rename_i y4
      exact State.applyRxSwap_kept ..
    · exact .rfl
  · exact .rfl

theorem execSwapFrostEnd_kept (m : Nat) (s : State) (hwf : (decide (m < 16)) = true) : ∃ t, execSwapFrostEnd m s = .next t ∧ Kept s t := by
  unfold execSwapFrostEnd
  refine liveWf_kept _ _ _ hwf ?_
  split
  · rename_i y0 y1 y2
    split
    · rename_i y3
      exact State.updMod_kept ..
    · exact .rfl
  · exact .rfl

theorem execHmSample_kept (x : HmInputs) (s : State) : ∃ t, execHmSample x s = .next t ∧ Kept s t := by
  refine ⟨_, Eq.refl _, ?_⟩
  split
  · exact State.hmSample_kept ..
  · split
    · exact .rfl
    · exact State.when_kept _ _ _ ((State.hmFilter_kept ..).trans (State.supplyAlarm_kept ..))

theorem execRateStepRequest_kept (s : State) : ∃ t, execRateStepRequest s = .next t ∧ Kept s t := by
  unfold execRateStepRequest
  refine live_kept _ _ ?_
  refine .trans ?_ (State.takeMgmt_kept _ _ _ ?_)
  · exact .rfl
  · intro a0 a1
    extract_lets x2 x3 x4 x5 x6
    clear_value x2 x3 x4 x5 x6
    split
    · rename_i y7
      exact State.sendStep_kept ..
    · rename_i y8
      refine .trans ?_ (State.sendStep_kept ..)
      exact State.updHm_kept ..

theorem execRateStepEcho_kept (s : State) : ∃ t, execRateStepEcho s = .next t ∧ Kept s t := by
  unfold execRateStepEcho
  refine live_kept _ _ ?_
  refine .trans ?_ (State.takeMgmt_kept _ _ _ ?_)
  · exact .rfl
  · intro a0 a1
    exact State.updHm_kept ..

theorem execRateStepRefuse_kept (s : State) : ∃ t, execRateStepRefuse s = .next t ∧ Kept s t := by
  unfold execRateStepRefuse
  refine live_kept _ _ ?_
  refine .trans ?_ (State.takeMgmt_kept _ _ _ ?_)
  · exact .rfl
  · intro a0 a1
    exact State.updHm_kept ..

theorem execRateStepCancel_kept (s : State) : ∃ t, execRateStepCancel s = .next t ∧ Kept s t := by
  unfold execRateStepCancel
  refine live_kept _ _ ?_
  refine .trans ?_ (State.takeMgmt_kept _ _ _ ?_)
  · exact .rfl
  · intro a0 a1
    exact State.updHm_kept ..

theorem execRateStepNoEcho_kept (s : State) : ∃ t, execRateStepNoEcho s = .next t ∧ Kept s t := by
  unfold execRateStepNoEcho
  refine live_kept _ _ ?_
  split
  · rename_i y0 y1 y2
    extract_lets x3
    clear_value x3
    split
    · rename_i y4
      refine .trans ?_ (State.sendStep_kept ..)
      exact State.updHm_kept ..
    · exact .rfl
  · exact .rfl

theorem execTrafficWake_kept (s : State) : ∃ t, execTrafficWake s = .next t ∧ Kept s t := by
  unfold execTrafficWake
  refine live_kept _ _ ?_
  split
  · rename_i y0
    refine .trans ?_ (State.hmAct_kept ..)
    exact State.startWake_kept ..
  · exact .rfl

theorem execHeartbeatSend_kept (s : State) : ∃ t, execHeartbeatSend s = .next t ∧ Kept s t := by
  unfold execHeartbeatSend
  refine live_kept _ _ ?_
  split
  · exact .rfl
  · rename_i y1
    split
    · rename_i y2
      exact State.twinCheck_kept ..
    · rename_i y3
      refine .trans ?_ (State.when_kept _ _ _ ?_)
      · exact .rfl
      · exact State.sendHeartbeat_kept ..

theorem execHeartbeat_kept (linkOk : Bool) (half : Nat) (news : HbNews) (s : State) : ∃ t, execHeartbeat linkOk half news s = .next t ∧ Kept s t
    := by
  unfold execHeartbeat
  refine live_kept _ _ ?_
  exact State.takeHeartbeat_kept ..

theorem execTwnCtrlForce_kept (s : State) : ∃ t, execTwnCtrlForce s = .next t ∧ Kept s t := by
  unfold execTwnCtrlForce
  refine portCmd_kept _ _ (fun s => ?_)
  exact State.forceFail_kept ..

theorem execInstLost_kept (s : State) : ∃ t, execInstLost s = .next t ∧ Kept s t := by
  unfold execInstLost
  refine live_kept _ _ ?_
  split
  · rename_i y0 y1 y2
    refine .trans ?_ (State.when_kept _ _ _ ?_)
    · exact .rfl
    · exact State.sisterLost_kept ..
  · exact .rfl

theorem execNoSister_kept (s : State) : ∃ t, execNoSister s = .next t ∧ Kept s t := by
  unfold execNoSister
  refine live_kept _ _ ?_
  split
  · rename_i y0 y1 y2
    split
    · rename_i y3
      refine .trans ?_ (State.twinEvent_kept ..)
      exact State.updTwin_kept ..
    · exact .rfl
  · exact .rfl

theorem execTakeoverRequest_kept (s : State) : ∃ t, execTakeoverRequest s = .next t ∧ Kept s t := by
  unfold execTakeoverRequest
  refine live_kept _ _ ?_
  refine .trans ?_ (State.takeMgmt_kept _ _ _ ?_)
  · exact .rfl
  · intro a0 a1
    extract_lets x2 x3 x4
    clear_value x2 x3
    have hx4 : Kept a1 x4 := by
      unfold x4
      exact State.updTwin_kept ..
    clear_value x4
    split
    · exact .rfl
    · rename_i y6
      refine .trans ?_ (State.sendHeartbeat_kept ..)
      refine .trans ?_ (State.sendTwinFn_kept ..)
      refine .trans ?_ (State.twinEvent_kept ..)
      refine .trans ?_ (State.freeze_kept ..)
      exact hx4

theorem execTakeoverEcho_kept (s : State) : ∃ t, execTakeoverEcho s = .next t ∧ Kept s t := by
  unfold execTakeoverEcho
  refine live_kept _ _ ?_
  refine .trans ?_ (State.takeMgmt_kept _ _ _ ?_)
  · exact .rfl
  · intro a0 a1
    split
    · rename_i y2 y3 y4
      extract_lets x5
      clear_value x5
      split
      · exact .rfl
      · rename_i y7
        refine .trans ?_ (State.sendHeartbeat_kept ..)
        exact State.updTwin_kept ..
    · exact .rfl

theorem execTwinStreamState_kept (x : StreamState) (s : State) (hwf : (decide (x.stream < 64)) = true) : ∃ t, execTwinStreamState x s = .next t ∧
    Kept s t := by
  unfold execTwinStreamState
  refine liveWf_kept _ _ _ hwf ?_
  split
  · exact .rfl
  · rename_i y1
    split
    · rename_i y2
      split
      · exact .rfl
      · rename_i y4
        exact State.adoptStream_kept ..
    · rename_i y5
      split
      · rename_i y6
        exact State.updTwin_kept ..
      · rename_i y7
        split
        · rename_i y8
          exact State.regainStream_kept ..
        · exact .rfl

theorem execStreamState_kept (s : State) : ∃ t, execStreamState s = .next t ∧ Kept s t := by
  unfold execStreamState
  refine live_kept _ _ ?_
  refine .trans ?_ (State.takeMgmt_kept _ _ _ ?_)
  · exact .rfl
  · intro a0 a1
    extract_lets x2 x3 x4
    clear_value x2 x3
    have hx4 : Kept a1 x4 := by
      unfold x4
      exact State.updTwin_kept ..
    clear_value x4
    split
    · exact .rfl
    · rename_i y6
      refine .trans ?_ (State.each_kept _ _ _ ?_)
      · exact hx4
      · intro a7 a8
        exact State.updStrm_kept ..

theorem execOperationRecord_kept (r : TwinOp) (s : State) (hwf : (recordOk r) = true) : ∃ t, execOperationRecord r s = .next t ∧ Kept s t := by
  unfold execOperationRecord
  refine liveWf_kept _ _ _ hwf ?_
  refine .trans ?_ (State.when_kept _ _ _ ?_)
  · exact .rfl
  · exact State.takeRecordOp_kept ..

theorem execCompletionReport_kept (tag : Nat) (status : BitVec 4) (psn : Bool) (ecount : Nat) (s : State) (hwf : (decide (tag < 256)) = true) : ∃
    t, execCompletionReport tag status psn ecount s = .next t ∧ Kept s t := by
  unfold execCompletionReport
  refine liveWf_kept _ _ _ hwf ?_
  split
  · rename_i y0 y1 y2
    extract_lets x3 x4
    clear_value x3 x4
    split
    · rename_i y5
      refine .trans ?_ (State.opCheck_kept ..)
      exact State.setOp_kept ..
    · exact .rfl
  · exact .rfl

theorem execResponseLogTransfer_kept (xs : List LogEnt) (s : State) (hwf : (xs.all fun x => decide (x.stream < 64) && decide (x.msg.tc < 4)) =
    true) : ∃ t, execResponseLogTransfer xs s = .next t ∧ Kept s t := by
  unfold execResponseLogTransfer
  refine liveWf_kept _ _ _ hwf ?_
  split
  · exact .rfl
  · rename_i y1
    split
    rename_i y2 y3 y4 y5
    refine .trans ?_ (State.each_kept _ _ _ ?_)
    · refine .trans ?_ (State.addResend_kept ..)
      refine Kept.of_snd y5 ?_
      exact State.memHit_kept ..
    · intro a6 a7
      split
      · rename_i y8 y9 y10 y11
        exact State.reread_kept ..
      · exact .rfl

theorem execReleaseCommand_kept (stream : Nat) (sseq : Nat) (s : State) (hwf : (decide (stream < 64)) = true) : ∃ t, execReleaseCommand stream
    sseq s = .next t ∧ Kept s t := by
  unfold execReleaseCommand
  refine liveWf_kept _ _ _ hwf ?_
  split
  · exact .rfl
  · rename_i y2 y3 y4
    split
    · exact .rfl
    · rename_i y7 y8 y9
      extract_lets x10 x11 x12 x13
      have hx10 : Kept s x10 := by
        unfold x10
        refine .trans ?_ (State.setBit_kept ..)
        exact State.count32_kept ..
      clear_value x10 x11
      have hx12 : Kept s x12 := by
        unfold x12
        refine .trans ?_ (State.updStrm_kept ..)
        exact hx10
      clear_value x12
      have hx13 : Kept s x13 := by
        unfold x13
        refine .trans ?_ (State.updTc_kept ..)
        exact hx12
      clear_value x13
      refine .trans ?_ (State.releaseMsg_kept ..)
      exact hx13

theorem execTwnCtrlRejoin_kept (s : State) : ∃ t, execTwnCtrlRejoin s = .next t ∧ Kept s t := by
  unfold execTwnCtrlRejoin
  refine portCmd_kept _ _ (fun s => ?_)
  exact State.askRejoin_kept ..

theorem execRejoinRequest_kept (s : State) : ∃ t, execRejoinRequest s = .next t ∧ Kept s t := by
  unfold execRejoinRequest
  refine live_kept _ _ ?_
  refine .trans ?_ (State.takeMgmt_kept _ _ _ ?_)
  · exact .rfl
  · intro a0 a1
    extract_lets x2
    clear_value x2
    split
    · exact .rfl
    · rename_i y4
      refine .trans ?_ (State.sendTwinFn_kept ..)
      exact State.updTwin_kept ..

theorem execRejoinEcho_kept (s : State) : ∃ t, execRejoinEcho s = .next t ∧ Kept s t := by
  unfold execRejoinEcho
  refine live_kept _ _ ?_
  refine .trans ?_ (State.takeMgmt_kept _ _ _ ?_)
  · exact .rfl
  · intro a0 a1
    exact State.updTwin_kept ..

theorem execMgmtResend_kept (s : State) : ∃ t, execMgmtResend s = .next t ∧ Kept s t := by
  unfold execMgmtResend
  refine live_kept _ _ ?_
  extract_lets x0 x1 x2 x3
  clear_value x0
  have hx1 : Kept s x1 := by
    unfold x1
    split
    · rename_i y4 y5 y6
      split
      · rename_i y7
        refine .trans ?_ (State.sendTwinFn_kept ..)
        exact State.updTwin_kept ..
      · exact .rfl
    · exact .rfl
  clear_value x1
  have hx2 : Kept s x2 := by
    unfold x2
    split
    · rename_i y11 y12 y13
      split
      · rename_i y14
        refine .trans ?_ (State.sendTwinFn_kept ..)
        refine .trans ?_ (State.updTwin_kept ..)
        exact hx1
      · rename_i y15
        exact hx1
    · rename_i y16 y17
      exact hx1
  clear_value x2
  have hx3 : Kept s x3 := by
    unfold x3
    split
    · rename_i y18 y19 y20
      split
      · rename_i y21
        refine .trans ?_ (State.sendStep_kept ..)
        refine .trans ?_ (State.updHm_kept ..)
        exact hx2
      · rename_i y22
        exact hx2
    · rename_i y23 y24
      exact hx2
  clear_value x3
  refine .trans ?_ (State.each_kept _ _ _ ?_)
  · exact hx3
  · intro a25 a26
    split
    · rename_i y27 y28 y29
      split
      · rename_i y30
        refine .trans ?_ (State.sendRetire_kept ..)
        exact State.updMod_kept ..
      · exact .rfl
    · exact .rfl

theorem execTrnCtrlGo_kept (s : State) : ∃ t, execTrnCtrlGo s = .next t ∧ Kept s t := by
  unfold execTrnCtrlGo
  refine portCmd_kept _ _ (fun s => ?_)
  exact State.trainGo_kept ..

theorem execPresent_kept (m : Nat) (x : SbMsg) (s : State) (hwf : (decide (m < 16)) = true) : ∃ t, execPresent m x s = .next t ∧ Kept s t := by
  unfold execPresent
  refine liveWf_kept _ _ _ hwf ?_
  refine .trans ?_ (State.rxSb_kept _ _ _ _ _ ?_)
  · exact .rfl
  · intro a0 a1
    split
    · exact .rfl
    · rename_i y3
      split
      · rename_i y4
        refine .trans ?_ (State.sendCaprec_kept ..)
        refine .trans ?_ (State.updTrn_kept ..)
        exact State.sendSb_kept ..
      · rename_i y5
        split
        · rename_i y6
          refine .trans ?_ (State.updTrn_kept ..)
          exact State.sendSb_kept ..
        · exact .rfl

theorem execPresentResend_kept (s : State) : ∃ t, execPresentResend s = .next t ∧ Kept s t := by
  unfold execPresentResend
  refine live_kept _ _ ?_
  refine .trans ?_ (State.when_kept _ _ _ ?_)
  · exact .rfl
  · exact State.sendPresent_kept ..

theorem execNopeer_kept (s : State) : ∃ t, execNopeer s = .next t ∧ Kept s t := by
  unfold execNopeer
  refine live_kept _ _ ?_
  refine .trans ?_ (State.when_kept _ _ _ ?_)
  · exact .rfl
  · exact State.updTrn_kept ..

theorem execCaprec_kept (m : Nat) (x : SbMsg) (s : State) (hwf : (decide (m < 16)) = true) : ∃ t, execCaprec m x s = .next t ∧ Kept s t := by
  unfold execCaprec
  refine liveWf_kept _ _ _ hwf ?_
  refine .trans ?_ (State.rxSb_kept _ _ _ _ _ ?_)
  · exact .rfl
  · intro a0 a1
    extract_lets x2
    subst x2
    split
    · exact .rfl
    · rename_i y4
      split
      · rename_i y5
        refine .trans ?_ (State.phase2Check_kept ..)
        refine .trans ?_ (State.updTrn_kept ..)
        exact State.sendSb_kept ..
      · rename_i y6
        split
        · rename_i y7
          refine .trans ?_ (State.sendCaprec_kept ..)
          refine .trans ?_ (State.updTrn_kept ..)
          exact State.sendSb_kept ..
        · rename_i y8
          refine .trans ?_ (State.when_kept _ _ _ ?_)
          · exact .rfl
          · exact State.sendSb_kept ..

theorem execCapack_kept (m : Nat) (x : SbMsg) (s : State) (hwf : (decide (m < 16)) = true) : ∃ t, execCapack m x s = .next t ∧ Kept s t := by
  unfold execCapack
  refine liveWf_kept _ _ _ hwf ?_
  refine .trans ?_ (State.rxSb_kept _ _ _ _ _ ?_)
  · exact .rfl
  · intro a0 a1
    split
    · rename_i y2
      refine .trans ?_ (State.phase2Check_kept ..)
      exact State.updTrn_kept ..
    · exact .rfl

theorem execLanemap_kept (m : Nat) (x : SbMsg) (s : State) (hwf : (decide (m < 16)) = true) : ∃ t, execLanemap m x s = .next t ∧ Kept s t := by
  unfold execLanemap
  refine liveWf_kept _ _ _ hwf ?_
  refine .trans ?_ (State.rxSb_kept _ _ _ _ _ ?_)
  · exact .rfl
  · intro a0 a1
    extract_lets x2 x3 x4
    clear_value x2 x3
    have hx4 : Kept a1 x4 := by
      unfold x4
      exact State.updMod_kept ..
    clear_value x4
    split
    · exact .rfl
    · rename_i y6
      refine .trans ?_ (State.when_kept _ _ _ ?_)
      · exact hx4
      · exact State.sendLanemap_kept ..

theorem execPalat_kept (m : Nat) (x : SbMsg) (s : State) (hwf : (decide (m < 16)) = true) : ∃ t, execPalat m x s = .next t ∧ Kept s t := by
  unfold execPalat
  refine liveWf_kept _ _ _ hwf ?_
  refine .trans ?_ (State.rxSb_kept _ _ _ _ _ ?_)
  · exact .rfl
  · intro a0 a1
    extract_lets x2 x3
    clear_value x2
    have hx3 : Kept a1 x3 := by
      unfold x3
      exact State.updMod_kept ..
    clear_value x3
    split
    · rename_i y4
      refine .trans ?_ (State.when_kept _ _ _ ?_)
      · exact .rfl
      · exact State.sendPalat_kept ..
    · rename_i y5
      refine .trans ?_ (State.when_kept _ _ _ ?_)
      · exact hx3
      · exact State.sendPalat_kept ..

theorem execPhase_kept (m : Nat) (x : SbMsg) (s : State) (hwf : (decide (m < 16)) = true) : ∃ t, execPhase m x s = .next t ∧ Kept s t := by
  unfold execPhase
  refine liveWf_kept _ _ _ hwf ?_
  refine .trans ?_ (State.rxSb_kept _ _ _ _ _ ?_)
  · exact .rfl
  · intro a0 a1
    extract_lets x2
    clear_value x2
    split
    · rename_i y3
      exact State.hearRate_kept ..
    · rename_i y4
      split
      · exact .rfl
      · rename_i y6
        split
        · rename_i y7
          split
          · rename_i y8
            exact State.sendPhase_kept ..
          · rename_i y9
            refine .trans ?_ (State.verdict_kept ..)
            exact State.updTrn_kept ..
        · rename_i y10
          split
          · rename_i y11
            exact State.sendPhase_kept ..
          · rename_i y12
            split
            · rename_i y13
              exact State.sendPhase_kept ..
            · exact .rfl

theorem execTrainingPhaseComplete_kept (m : Nat) (r : PhyReport) (s : State) (hwf : (decide (m < 16)) = true) : ∃ t, execTrainingPhaseComplete m r
    s = .next t ∧ Kept s t := by
  unfold execTrainingPhaseComplete
  refine liveWf_kept _ _ _ hwf ?_
  split
  · exact .rfl
  · rename_i y1
    split
    · rename_i y2
      exact State.openDone_kept ..
    · rename_i y3
      refine .trans ?_ (State.when_kept _ _ _ ?_)
      · exact .rfl
      · exact State.phaseDone_kept ..

theorem execTrainingMessageResend_kept (s : State) : ∃ t, execTrainingMessageResend s = .next t ∧ Kept s t := by
  unfold execTrainingMessageResend
  refine live_kept _ _ ?_
  extract_lets x0 x1 x2
  clear_value x0
  have hx1 : Kept s x1 := by
    unfold x1
    refine .trans ?_ (State.when_kept _ _ _ ?_)
    · exact .rfl
    · exact State.sendCaprec_kept ..
  clear_value x1
  have hx2 : Kept s x2 := by
    unfold x2
    refine .trans ?_ (State.each_kept _ _ _ ?_)
    · exact hx1
    · intro a3 a4
      extract_lets x5 x6 x7
      clear_value x5
      have hx6 : Kept a3 x6 := by
        unfold x6
        refine .trans ?_ (State.when_kept _ _ _ ?_)
        · exact .rfl
        · exact State.sendLanemap_kept ..
      clear_value x6
      have hx7 : Kept a3 x7 := by
        unfold x7
        refine .trans ?_ (State.when_kept _ _ _ ?_)
        · exact hx6
        · exact State.sendPalat_kept ..
      clear_value x7
      refine .trans ?_ (State.when_kept _ _ _ ?_)
      · exact hx7
      · exact State.sendRate_kept ..
  clear_value x2
  split
  · exact .rfl
  · rename_i y9
    split
    · rename_i y10 y11 y12
      refine .trans ?_ (State.when_kept _ _ _ ?_)
      · exact hx2
      · refine .trans ?_ (State.updTrn_kept ..)
        exact State.sendPhase_kept ..
    · rename_i y13 y14
      exact hx2

theorem execVendorCapabilityMessage_kept (idx : BitVec 3) (vid : BitVec 16) (word : W64) (s : State) : ∃ t, execVendorCapabilityMessage idx vid
    word s = .next t ∧ Kept s t := by
  unfold execVendorCapabilityMessage
  refine live_kept _ _ ?_
  split
  · rename_i y0
    exact State.updTrn_kept ..
  · exact .rfl

theorem execUcieLinkDown_kept (m : Nat) (s : State) (hwf : (decide (m < 16)) = true) : ∃ t, execUcieLinkDown m s = .next t ∧ Kept s t := by
  unfold execUcieLinkDown
  refine liveWf_kept _ _ _ hwf ?_
  refine .trans ?_ (State.when_kept _ _ _ ?_)
  · exact .rfl
  · exact State.modDown_kept ..

theorem execBistSliceStart_kept (s : State) : ∃ t, execBistSliceStart s = .next t ∧ Kept s t := by
  unfold execBistSliceStart
  refine live_kept _ _ ?_
  extract_lets x0 x1 x2 x3 x4 x5 x6
  clear_value x0 x1 x2 x3 x4 x5 x6
  split
  · exact .rfl
  · rename_i y8
    split
    · exact .rfl
    · rename_i y10
      split
      · rename_i y11
        refine .trans ?_ (State.irq_kept ..)
        refine .trans ?_ (State.setBit_kept ..)
        exact State.count32_kept ..
      · rename_i y12
        refine .trans ?_ (State.updBist_kept ..)
        exact Kept.upd .rfl (Eq.refl _) (Eq.refl _)

theorem execBistSliceEnd_kept (misr : W64) (count : Nat) (s : State) : ∃ t, execBistSliceEnd misr count s = .next t ∧ Kept s t := by
  unfold execBistSliceEnd
  refine live_kept _ _ ?_
  split
  · exact .rfl
  · rename_i y2 y3 y4 y5 y6
    extract_lets x7
    clear_value x7
    exact State.bistResult_kept ..

theorem execBistMonthTimeout_kept (s : State) : ∃ t, execBistMonthTimeout s = .next t ∧ Kept s t := by
  unfold execBistMonthTimeout
  refine live_kept _ _ ?_
  extract_lets x0 x1 x2
  clear_value x0 x1
  subst x2
  split
  · rename_i y3 y4 y5
    split
    · rename_i y6
      exact State.runEnd_kept ..
    · exact .rfl
  · rename_i y8 y9
    split
    · rename_i y10
      exact State.monthEnd_kept ..
    · exact .rfl

theorem execBistRunGo_kept (d : W32) (s : State) : ∃ t, execBistRunGo d s = .next t ∧ Kept s t := by
  unfold execBistRunGo
  refine portCmd_kept _ _ (fun s => ?_)
  exact State.writeBistRun_kept ..

theorem execAitCtrlGo_kept (d : W32) (s : State) : ∃ t, execAitCtrlGo d s = .next t ∧ Kept s t := by
  unfold execAitCtrlGo
  refine portCmd_kept _ _ (fun s => ?_)
  exact State.writeAitCtrl_kept ..

theorem execAitStepComplete_kept (r : AitResult) (s : State) (hwf : aitWf r = true) :
    ∃ t, execAitStepComplete r s = .next t ∧ Kept s t :=
  ⟨_, if_pos hwf, State.aitStepped_kept ..⟩

theorem execMemReadData_kept (b : MemBeat) (s : State) (hwf : (b.data.length == 128) = true) : ∃ t, execMemReadData b s = .next t ∧ Kept s t := by
  unfold execMemReadData
  refine liveWf_kept _ _ _ hwf ?_
  exact State.memBeat_kept ..

theorem execMemWriteAck_kept (tag : Nat) (err : Bool) (s : State) : ∃ t, execMemWriteAck tag err s = .next t ∧ Kept s t := by
  unfold execMemWriteAck
  refine live_kept _ _ ?_
  exact State.writeAck_kept ..

theorem execMergeBufferFlush_kept (s : State) : ∃ t, execMergeBufferFlush s = .next t ∧ Kept s t := by
  unfold execMergeBufferFlush
  refine live_kept _ _ ?_
  refine .trans ?_ (State.each_kept _ _ _ ?_)
  · exact .rfl
  · intro a0 a1
    exact State.flushEnt_kept ..

theorem execCfgPortWrite_kept (off : BitVec 20) (d : W32) (s : State) : ∃ t, execCfgPortWrite off d s = .next t ∧ Kept s t := by
  unfold execCfgPortWrite
  refine portTake_kept _ _ ?_
  refine .trans ?_ (State.cfgAnswer_kept ..)
  exact State.portWrite_kept ..

theorem execCfgPortReadLowHalf_kept (off : BitVec 20) (s : State) : ∃ t, execCfgPortReadLowHalf off s = .next t ∧ Kept s t := by
  unfold execCfgPortReadLowHalf
  refine portTake_kept _ _ ?_
  split
  rename_i y0 y1 y2 y3
  refine .trans ?_ (State.cfgAnswer_kept ..)
  refine Kept.of_snd y3 ?_
  exact State.portRead_kept ..

theorem execMergeBufferWrite_kept (off : BitVec 20) (d : W32) (s : State) : ∃ t, execMergeBufferWrite off d s = .next t ∧ Kept s t := by
  unfold execMergeBufferWrite
  refine portTake_kept _ _ ?_
  split
  · rename_i y0
    refine .trans ?_ (State.cfgAnswer_kept ..)
    exact State.portWrite_kept ..
  · exact .rfl

theorem execWsBypass_kept (s : State) : ∃ t, execWsBypass s = .next t ∧ Kept s t := ⟨_, Eq.refl _, State.wrapShift_kept ..⟩

theorem execWsExtest_kept (s : State) : ∃ t, execWsExtest s = .next t ∧ Kept s t := ⟨_, Eq.refl _, State.wrapShift_kept ..⟩

theorem execWsIntest_kept (s : State) : ∃ t, execWsIntest s = .next t ∧ Kept s t := ⟨_, Eq.refl _, State.wrapShift_kept ..⟩

theorem execCfgAccess_kept (dr : W64) (s : State) : ∃ t, execCfgAccess dr s = .next t ∧ Kept s t := by
  refine ⟨_, Eq.refl _, ?_⟩
  split
  · exact (State.setWir_kept ..).trans (State.updBist_kept ..)
  · exact (State.setWir_kept ..).trans (State.wrapAccess_kept ..)

theorem execAitRun_kept (ctrl cfg : W32) (s : State) : ∃ t, execAitRun ctrl cfg s = .next t ∧ Kept s t :=
  ⟨_, Eq.refl _, ((State.setWir_kept ..).trans ((State.writeAitCfg_kept ..).trans (State.writeAitCtrl_kept ..))).trans (State.wrapOut_kept ..)⟩

theorem execAitRead_kept (s : State) : ∃ t, execAitRead s = .next t ∧ Kept s t :=
  ⟨_, Eq.refl _, (State.setWir_kept ..).trans (State.wrapOut_kept ..)⟩

theorem execBistRun_kept (dr : W32) (s : State) : ∃ t, execBistRun dr s = .next t ∧ Kept s t :=
  ⟨_, Eq.refl _, ((State.setWir_kept ..).trans (State.writeBistRun_kept ..)).trans (State.wrapOut_kept ..)⟩

theorem execNop_kept (s : State) : ∃ t, execNop s = .next t ∧ Kept s t := by
  unfold execNop
  refine live_kept _ _ ?_
  refine .trans ?_ (State.issue_kept _ _ _ _ ?_)
  · exact .rfl
  · intro a0 a1
    exact State.advance_kept ..

theorem execEndProg_kept (s : State) : ∃ t, execEndProg s = .next t ∧ Kept s t := by
  unfold execEndProg
  refine live_kept _ _ ?_
  refine .trans ?_ (State.issue_kept _ _ _ _ ?_)
  · exact .rfl
  · intro a0 a1
    exact State.endProg_kept ..

theorem execJmp_kept (s : State) : ∃ t, execJmp s = .next t ∧ Kept s t := by
  unfold execJmp
  refine live_kept _ _ ?_
  refine .trans ?_ (State.issue_kept _ _ _ _ ?_)
  · exact .rfl
  · intro a0 a1
    exact State.jump_kept ..

theorem execBr_kept (s : State) : ∃ t, execBr s = .next t ∧ Kept s t := by
  unfold execBr
  refine live_kept _ _ ?_
  refine .trans ?_ (State.issue_kept _ _ _ _ ?_)
  · exact .rfl
  · intro a0 a1
    split
    · rename_i y2
      exact State.jump_kept ..
    · rename_i y3
      exact State.advance_kept ..

theorem execLoop_kept (s : State) : ∃ t, execLoop s = .next t ∧ Kept s t := by
  unfold execLoop
  refine live_kept _ _ ?_
  refine .trans ?_ (State.issue_kept _ _ _ _ ?_)
  · exact .rfl
  · intro a0 a1
    extract_lets x2 x3
    clear_value x2
    have hx3 : Kept a1 x3 := by
      unfold x3
      exact State.setGreg_kept ..
    clear_value x3
    split
    · rename_i y4
      refine .trans ?_ (State.jump_kept ..)
      exact hx3
    · rename_i y5
      refine .trans ?_ (State.advance_kept ..)
      exact hx3

theorem execCall_kept (s : State) : ∃ t, execCall s = .next t ∧ Kept s t := by
  unfold execCall
  refine live_kept _ _ (State.issue_kept _ _ _ _ fun w t => ?_)
  split
  · exact State.trap_kept ..
  · rename_i h
    refine .trans ?_ (State.jump_kept ..)
    exact ⟨Eq.refl _, Eq.refl _, fun ⟨⟨h1, h2, h3, h4, h5, h6, h7, h8, h9, h10, h11, h12, h13, h14, h15, h16⟩, ⟨h17, h18⟩, h19⟩ =>
      ⟨⟨h1, h2, h3, h4, h5, h6, h7, h8, h9, h10, h11, h12, h13, h14, h15, h16⟩, ⟨h17,
        (by simp only [List.length_append, List.length_cons, List.length_nil]; omega)⟩, h19⟩⟩

theorem execRet_kept (s : State) : ∃ t, execRet s = .next t ∧ Kept s t := by
  unfold execRet
  refine live_kept _ _ (State.issue_kept _ _ _ _ fun w t => ?_)
  split
  · exact State.trap_kept ..
  · refine .trans ?_ (State.jump_kept ..)
    exact ⟨Eq.refl _, Eq.refl _, fun ⟨⟨h1, h2, h3, h4, h5, h6, h7, h8, h9, h10, h11, h12, h13, h14, h15, h16⟩, ⟨h17, h18⟩, h19⟩ =>
      ⟨⟨h1, h2, h3, h4, h5, h6, h7, h8, h9, h10, h11, h12, h13, h14, h15, h16⟩, ⟨h17,
        (by simp only [List.length_dropLast]; omega)⟩, h19⟩⟩

theorem execTrap_kept (s : State) : ∃ t, execTrap s = .next t ∧ Kept s t := by
  unfold execTrap
  refine live_kept _ _ ?_
  refine .trans ?_ (State.issue_kept _ _ _ _ ?_)
  · exact .rfl
  · intro a0 a1
    exact State.trap_kept ..

theorem execInvalidOp_kept (s : State) : ∃ t, execInvalidOp s = .next t ∧ Kept s t := by
  unfold execInvalidOp
  refine live_kept _ _ ?_
  refine .trans ?_ (State.issue_kept _ _ _ _ ?_)
  · exact .rfl
  · intro a0 a1
    exact State.trap_kept ..

theorem execLi_kept (s : State) : ∃ t, execLi s = .next t ∧ Kept s t := by
  unfold execLi
  refine live_kept _ _ ?_
  refine .trans ?_ (State.issue_kept _ _ _ _ ?_)
  · exact .rfl
  · intro a0 a1
    extract_lets x2
    clear_value x2
    refine .trans ?_ (State.advance_kept ..)
    exact State.setGreg_kept ..

theorem execAddi_kept (s : State) : ∃ t, execAddi s = .next t ∧ Kept s t := by
  unfold execAddi
  refine live_kept _ _ ?_
  exact State.aluR_kept ..

theorem execAdd_kept (s : State) : ∃ t, execAdd s = .next t ∧ Kept s t := by
  unfold execAdd
  refine live_kept _ _ ?_
  exact State.aluR_kept ..

theorem execSub_kept (s : State) : ∃ t, execSub s = .next t ∧ Kept s t := by
  unfold execSub
  refine live_kept _ _ ?_
  exact State.aluR_kept ..

theorem execAnd_kept (s : State) : ∃ t, execAnd s = .next t ∧ Kept s t := by
  unfold execAnd
  refine live_kept _ _ ?_
  exact State.aluR_kept ..

theorem execOr_kept (s : State) : ∃ t, execOr s = .next t ∧ Kept s t := by
  unfold execOr
  refine live_kept _ _ ?_
  exact State.aluR_kept ..

theorem execXor_kept (s : State) : ∃ t, execXor s = .next t ∧ Kept s t := by
  unfold execXor
  refine live_kept _ _ ?_
  exact State.aluR_kept ..

theorem execShl_kept (s : State) : ∃ t, execShl s = .next t ∧ Kept s t := by
  unfold execShl
  refine live_kept _ _ ?_
  exact State.aluR_kept ..

theorem execShr_kept (s : State) : ∃ t, execShr s = .next t ∧ Kept s t := by
  unfold execShr
  refine live_kept _ _ ?_
  exact State.aluR_kept ..

theorem execMul_kept (s : State) : ∃ t, execMul s = .next t ∧ Kept s t := by
  unfold execMul
  refine live_kept _ _ ?_
  exact State.aluR_kept ..

theorem execCmp_kept (s : State) : ∃ t, execCmp s = .next t ∧ Kept s t := by
  unfold execCmp
  refine live_kept _ _ ?_
  refine .trans ?_ (State.issue_kept _ _ _ _ ?_)
  · exact .rfl
  · intro a0 a1
    extract_lets x2
    clear_value x2
    refine .trans ?_ (State.advance_kept ..)
    exact State.setFlag_kept ..

theorem execLdd_kept (s : State) : ∃ t, execLdd s = .next t ∧ Kept s t := by
  unfold execLdd
  refine live_kept _ _ ?_
  refine .trans ?_ (State.issue_kept _ _ _ _ ?_)
  · exact .rfl
  · intro a0 a1
    extract_lets x2
    clear_value x2
    split
    rename_i y3 y4 y5 y6
    split
    · rename_i y7
      refine .trans ?_ (State.trap_kept ..)
      refine Kept.of_snd y6 ?_
      exact State.eccRead_kept ..
    · rename_i y8
      refine .trans ?_ (State.advance_kept ..)
      refine .trans ?_ (State.setGreg_kept ..)
      refine Kept.of_snd y6 ?_
      exact State.eccRead_kept ..

theorem execStd_kept (s : State) : ∃ t, execStd s = .next t ∧ Kept s t := by
  unfold execStd
  refine live_kept _ _ ?_
  refine .trans ?_ (State.issue_kept _ _ _ _ ?_)
  · exact .rfl
  · intro a0 a1
    refine .trans ?_ (State.advance_kept ..)
    exact State.setTdWord_kept ..

theorem execLds_kept (s : State) : ∃ t, execLds s = .next t ∧ Kept s t := by
  unfold execLds
  refine live_kept _ _ ?_
  refine .trans ?_ (State.issue_kept _ _ _ _ ?_)
  · exact .rfl
  · intro a0 a1
    extract_lets x2
    clear_value x2
    split
    · rename_i y3
      exact State.trap_kept ..
    · rename_i y4
      split
      · rename_i y5
        refine .trans ?_ (State.advance_kept ..)
        exact State.setGreg_kept ..
      · rename_i y6
        split
        rename_i y7 y8 y9 y10
        split
        · rename_i y11
          refine .trans ?_ (State.trap_kept ..)
          refine Kept.of_snd y10 ?_
          exact State.eccRead_kept ..
        · rename_i y12
          refine .trans ?_ (State.advance_kept ..)
          refine .trans ?_ (State.setGreg_kept ..)
          refine Kept.of_snd y10 ?_
          exact State.eccRead_kept ..

theorem execSts_kept (s : State) : ∃ t, execSts s = .next t ∧ Kept s t := by
  unfold execSts
  refine live_kept _ _ ?_
  refine .trans ?_ (State.issue_kept _ _ _ _ ?_)
  · exact .rfl
  · intro a0 a1
    extract_lets x2 x3 x4 x5
    clear_value x2 x3 x4 x5
    split
    · rename_i y6
      exact State.trap_kept ..
    · rename_i y7
      split
      · rename_i y8
        refine .trans ?_ (State.advance_kept ..)
        refine .trans ?_ (State.setEvc_kept ..)
        exact Kept.upd .rfl (Eq.refl _) (Eq.refl _)
      · rename_i y9
        refine .trans ?_ (State.advance_kept ..)
        exact State.setScratch_kept ..

theorem execHvHoldExpiry_kept (s : State) : ∃ t, execHvHoldExpiry s = .next t ∧ Kept s t := by
  unfold execHvHoldExpiry
  refine live_kept _ _ ?_
  exact State.holdExpiry_kept ..

theorem execDigestFreeTimer_kept (s : State) : ∃ t, execDigestFreeTimer s = .next t ∧ Kept s t := by
  unfold execDigestFreeTimer
  refine live_kept _ _ ?_
  refine .trans ?_ (State.when_kept _ _ _ ?_)
  · exact .rfl
  · exact State.sendDigest_kept ..

theorem execSolstice_kept (s : State) : ∃ t, execSolstice s = .next t ∧ Kept s t := by
  unfold execSolstice
  refine live_kept _ _ ?_
  extract_lets x0
  have hx0 : Kept s x0 := by
    unfold x0
    exact State.settle_kept ..
  clear_value x0
  split
  · rename_i y1 y2 y3
    refine .trans ?_ (State.when_kept _ _ _ ?_)
    · exact hx0
    · exact State.turn_kept ..
  · rename_i y4 y5
    exact hx0

theorem execTickPulse_kept (num : BitVec 48) (s : State) : ∃ t, execTickPulse num s = .next t ∧ Kept s t := by
  unfold execTickPulse
  refine live_kept _ _ ?_
  refine .trans ?_ (State.pulse_kept ..)
  exact State.settle_kept ..

theorem execTickMarker_kept (m : Nat) (f : List Byte) (frac : BitVec 3) (s : State) (hwf : (flitWf m f) = true) : ∃ t, execTickMarker m f frac s =
    .next t ∧ Kept s t := by
  unfold execTickMarker
  refine liveWf_kept _ _ _ hwf ?_
  refine .trans ?_ (State.rxCtrl_kept _ _ _ _ _ ?_)
  · exact .rfl
  · intro a0 a1
    exact State.marker_kept ..

theorem execRd32_kept (s : State) : ∃ t, execRd32 s = .next t ∧ Kept s t := by
  unfold execRd32
  refine live_kept _ _ ?_
  refine .trans ?_ (State.issue_kept _ _ _ _ ?_)
  · exact .rfl
  · intro a0 a1
    extract_lets x2
    clear_value x2
    split
    · rename_i y3
      exact State.trap_kept ..
    · rename_i y4
      split
      rename_i y5 y6 y7 y8 y9
      extract_lets x10
      have hx10 : Kept a1 x10 := by
        unfold x10
        refine .trans ?_ (State.telLatch_kept ..)
        refine Kept.of_snd2 y9 ?_
        exact State.telPair_kept ..
      clear_value x10
      refine .trans ?_ (State.advance_kept ..)
      refine .trans ?_ (State.setGreg_kept ..)
      exact hx10

theorem execRd64_kept (s : State) : ∃ t, execRd64 s = .next t ∧ Kept s t := by
  unfold execRd64
  refine live_kept _ _ ?_
  refine .trans ?_ (State.issue_kept _ _ _ _ ?_)
  · exact .rfl
  · intro a0 a1
    extract_lets x2
    clear_value x2
    split
    · rename_i y3
      exact State.trap_kept ..
    · rename_i y4
      split
      rename_i y5 y6 y7 y8 y9
      split
      rename_i y10 y11 y12 y13
      refine .trans ?_ (State.advance_kept ..)
      refine .trans ?_ (State.setGreg_kept ..)
      refine .trans ?_ (State.telLatch_kept ..)
      refine Kept.of_snd y13 ?_
      split
      · rename_i y14
        dsimp only
        refine Kept.of_snd2 y9 ?_
        exact State.telPair_kept ..
      · rename_i y15
        split
        rename_i y16 y17 y18 y19 y20
        dsimp only
        refine Kept.of_snd2 y20 ?_
        refine .trans ?_ (State.readPair_kept ..)
        refine Kept.of_snd2 y9 ?_
        exact State.telPair_kept ..

theorem execWr32_kept (s : State) : ∃ t, execWr32 s = .next t ∧ Kept s t := by
  unfold execWr32
  refine live_kept _ _ ?_
  refine .trans ?_ (State.issue_kept _ _ _ _ ?_)
  · exact .rfl
  · intro a0 a1
    extract_lets x2 x3 x4 x5 x6 x7 x8 x9 x10
    have hx2 : Kept a1 x2 := by
      unfold x2
      exact State.landWr32_kept ..
    clear_value x2 x3 x4 x5 x6
    have hx7 : Kept a1 x7 := by
      unfold x7
      refine .trans ?_ (State.telLatch_kept ..)
      exact hx2
    clear_value x7 x9
    have hx10 : Kept a1 x10 := by
      unfold x10
      split
      · rename_i y11
        refine Kept.upd ?_ (Eq.refl _) (Eq.refl _)
        exact hx7
      · rename_i y12
        refine Kept.upd ?_ (Eq.refl _) (Eq.refl _)
        exact hx7
    clear_value x10
    split
    · rename_i y13
      refine .trans ?_ (State.trap_kept ..)
      exact hx2
    · rename_i y14
      refine .trans ?_ (State.advance_kept ..)
      exact hx10

theorem execEmit_kept (s : State) : ∃ t, execEmit s = .next t ∧ Kept s t := by
  unfold execEmit
  refine live_kept _ _ ?_
  refine .trans ?_ (State.issue_kept _ _ _ _ ?_)
  · exact .rfl
  · intro a0 a1
    refine .trans ?_ (State.advance_kept ..)
    exact State.tel_kept ..

end Sys2Proof.Machine
end

