-- ==== Sys2Proof/Laws/Issue.lean ====
section
/-! SUPPORT. The issue of an instruction: what it does when its word is clean and its reserved bits are zero, and when they are not. -/
namespace Sys2Proof.Machine

theorem live_eq {s : State} (h : s.inReset = false) (f : State → State) : live s f = .next (f s) := by
  simp only [State.inReset] at h
  simp [live, h]

theorem liveWf_eq {s : State} {ok : Bool} (hok : ok = true) (h : s.inReset = false) (f : State → State) :
    liveWf ok s f = .next (f s) := by subst hok; exact live_eq h f

/-- In reset the event of a command does not occur. -/
theorem live_reset {s : State} (h : s.inReset = true) (f : State → State) : live s f = .next s := by
  simp only [State.inReset] at h
  simp [live, h]

theorem liveWf_reset {s : State} {ok : Bool} (hok : ok = true) (h : s.inReset = true) (f : State → State) :
    liveWf ok s f = .next s := by subst hok; exact live_reset h f

/-- A request of the configuration port that the block takes acts; one that it cannot take yet leaves it as it is. -/
theorem portTake_ready {s : State} (h : s.cfgReady = true) (f : State → State) : portTake s f = .next (f s) := by simp [portTake, h]

theorem portTake_busy {s : State} (h : s.cfgReady = false) (f : State → State) : portTake s f = .next s := by simp [portTake, h]

theorem State.cfgReady_reset {s : State} (h : s.inReset = true) : s.cfgReady = false := by simp [State.cfgReady, h]

theorem portCmd_ready {s : State} (h : s.cfgReady = true) (f : State → State) : portCmd s f = .next ((f s.accessed).cfgAnswer 32 0) :=
  portTake_ready h _

theorem portCmd_busy {s : State} (h : s.cfgReady = false) (f : State → State) : portCmd s f = .next s := portTake_busy h _

theorem portCmdWf_ready {s : State} {ok : Bool} (hok : ok = true) (h : s.cfgReady = true) (f : State → State) :
    portCmdWf ok s f = .next ((f s.accessed).cfgAnswer 32 0) := by subst hok; exact portCmd_ready h f

theorem portCmdWf_busy {s : State} {ok : Bool} (hok : ok = true) (h : s.cfgReady = false) (f : State → State) :
    portCmdWf ok s f = .next s := by subst hok; exact portCmd_busy h f

theorem State.settle_none {s : State} (h : s.seq.stopReq = none) : s.settle = s := by
  simp [State.settle, h]

theorem State.eccRead_clean {s : State} {id idx : Nat} (h : s.upsetAt id idx = 0) : s.eccRead id idx = (false, s) := by
  simp [State.eccRead, h]

theorem State.endTimed_none {s : State} (h : s.seq.wait = none) : s.endTimed = s := by simp [State.endTimed, h]

/-- Below the last word of program memory no opcode is kept. -/
theorem State.keepOp_below {s : State} (h : s.seq.pc < 16383) (w : W64) : s.keepOp w = s := by
  simp [State.keepOp, State.when, Nat.ne_of_lt h]

theorem State.keepOp_clean {s : State} {w : W64} {id idx : Nat} (h : s.upsetAt id idx = 0) : (s.keepOp w).upsetAt id idx = 0 := by
  unfold State.keepOp State.when; split
  · exact h
  · exact h

theorem State.keepOp_pc (s : State) (w : W64) : (s.keepOp w).seq.pc = s.seq.pc := by unfold State.keepOp State.when; split <;> rfl

/-- An instruction whose word is clean and whose reserved bits are zero acts. -/
theorem State.Issues.act {s : State} {op : Nat} {w : W64} (h : s.Issues op w) {is : W64 → Bool} {offend : W64 → List Nat}
    (his : is w = true) (hoff : offend w = []) (f : W64 → State → State) : s.issue is offend f = f w (s.keepOp w) := by
  have hr : s.ready = true := by simp [State.ready, h.running, h.noStall, h.noStop, h.noEnd]; exact h.due
  unfold State.issue
  simp only [State.settle_none h.noStop, State.endTimed_none h.noWait, h.word, hr, his, hoff,
    State.eccRead_clean (State.keepOp_clean (w := w) h.clean)]
  simp

/-- An instruction with a reserved bit set traps with RSVD_FIELD at the lowest such bit. -/
theorem State.Issues.reserved {s : State} {op : Nat} {w : W64} (h : s.Issues op w) {is : W64 → Bool} {offend : W64 → List Nat}
    (his : is w = true) (hoff : offend w ≠ []) (f : W64 → State → State) :
    s.issue is offend f = (s.keepOp w).trap 0x02 (lowest (offend w)) := by
  have hr : s.ready = true := by simp [State.ready, h.running, h.noStall, h.noStop, h.noEnd]; exact h.due
  unfold State.issue
  simp only [State.settle_none h.noStop, State.endTimed_none h.noWait, h.word, hr, his,
    State.eccRead_clean (State.keepOp_clean (w := w) h.clean)]
  simp [hoff]

theorem State.Issues.is {s : State} {op : Nat} {w : W64} (h : s.Issues op w) : opIs op w = true := by
  simp [opIs, h.opcode]

/-- Below the last word of program memory the next instruction follows. -/
theorem State.advance_eq {s : State} (h : s.seq.pc < 16383) (cc : Nat) : s.advance cc = s.goTo (s.seq.pc + 1) cc := by
  simp [State.advance, State.goTo, Nat.ne_of_lt h]

@[simp] theorem State.setGreg_fields (s : State) (n : Nat) (v : W64) :
    (s.setGreg n v).seq = s.seq ∧ (s.setGreg n v).env = s.env ∧ (s.setGreg n v).regs = s.regs ∧ (s.setGreg n v).pm = s.pm ∧
      (s.setGreg n v).td = s.td ∧ (s.setGreg n v).scratch = s.scratch ∧ (s.setGreg n v).ev = s.ev ∧ (s.setGreg n v).ops = s.ops := by
  unfold State.setGreg; split <;> simp

/-- A register-format instruction. -/
theorem State.Issues.alu {s : State} {op : Nat} {w : W64} (h : s.Issues op w) (hpc : s.seq.pc < 16383) (cc : Nat) {offend : W64 → List Nat}
    (hoff : offend w = []) (f : W64 → W64 → W64 → W64) :
    s.aluR op cc offend f = (s.setGreg (fRd w) (f w (s.greg (fRa w)) (s.greg (fRb w)))).goTo (s.seq.pc + 1) cc := by
  unfold State.aluR
  rw [h.act h.is hoff, State.keepOp_below hpc, State.advance_eq (by simpa using hpc)]
  simp

end Sys2Proof.Machine
end

