-- ==== Sys2Proof/Laws/SeqKept.lean ====
section
/-! SUPPORT. The state of the sequencer stays as it is. The operations that a start of an engine instruction calls leave it alone
(Laws/SeqFrames.lean). -/
namespace Sys2Proof.Machine

/-- The sequencer of t is that of s. -/
structure SeqKept (s t : State) : Prop where
  seq : t.seq = s.seq

theorem SeqKept.rfl {s : State} : SeqKept s s := ⟨Eq.refl _⟩

theorem SeqKept.trans {s t u : State} (h : SeqKept s t) (k : SeqKept t u) : SeqKept s u := ⟨k.seq.trans h.seq⟩

/-- Every field but the sequencer may change. -/
theorem SeqKept.upd {s t : State} (h : SeqKept s t)
    {pending env free out upset regs shadow calDirty hits cc portRd portWr merge commit digOld digAt pendOld pendAt digestAt digPrev tick
      pm g scratch td ev ops far rdq wrq wd xtx cfgq ord calTick calClr red mrg dsl cmb mods flow credAt credLast credDue flowLast flowDue d1 d2 ctl
      streams rr tx rsp transit mgmtQ mgmtRx rel owed nextFlit slipN slipMax lateFlits plan planRun gapEnd tags fills fillWait recOps rdecs ackWait
      flushSet trn twin hm pwr ecc bist} :
    SeqKept s (State.mk pending env free out upset regs shadow calDirty hits cc portRd portWr merge commit digOld digAt pendOld pendAt
      digestAt digPrev tick t.seq pm g scratch td ev ops far rdq wrq wd xtx cfgq ord calTick calClr red mrg dsl cmb mods flow credAt credLast credDue flowLast flowDue d1
      d2 ctl streams rr tx rsp transit mgmtQ mgmtRx rel owed nextFlit slipN slipMax lateFlits plan planRun gapEnd tags fills fillWait recOps rdecs
      ackWait flushSet trn twin hm pwr ecc bist) := ⟨h.seq⟩

theorem SeqKept.of_snd {α : Type} {s t : State} {p : α × State} {a : α} (h : p = (a, t)) (k : SeqKept s p.2) : SeqKept s t := by
  subst h; exact k

theorem SeqKept.of_snd2 {α β : Type} {s t : State} {p : α × β × State} {a : α} {b : β} (h : p = (a, b, t)) (k : SeqKept s p.2.2) :
    SeqKept s t := by subst h; exact k

theorem SeqKept.of_getD {s u : State} {o : Option State} (h : ∀ t, o = some t → SeqKept s t) (k : SeqKept s u) : SeqKept s (o.getD u) := by
  cases o with
  | none => exact k
  | some t => exact h t (Eq.refl _)

theorem State.when_seqKept (s : State) (c : Bool) (f : State → State) (h : SeqKept s (f s)) : SeqKept s (s.when c f) := by
  unfold State.when; split
  · exact h
  · exact .rfl

theorem SeqKept.foldl {α : Type} {f : State → α → State} (xs : List α) (s : State) (h : ∀ t x, SeqKept t (f t x)) :
    SeqKept s (xs.foldl f s) := by
  induction xs generalizing s with
  | nil => exact .rfl
  | cons x xs ih => exact (h s x).trans (ih _)

theorem State.each_seqKept {α : Type} (s : State) (xs : List α) (f : State → α → State) (h : ∀ t x, SeqKept t (f t x)) :
    SeqKept s (s.each xs f) := SeqKept.foldl xs s h

end Sys2Proof.Machine
end

