-- ==== Sys2Proof/Laws/SeqFrames.lean ====
section
/-! SUPPORT. What the start of an engine instruction calls after its tag is taken leaves the sequencer alone: one lemma for each operation. -/
namespace Sys2Proof.Machine

theorem State.setRg_seqKept (s : State) (off : Nat) (v : W32) : SeqKept s (State.setRg s off v) := by
  unfold State.setRg
  refine SeqKept.upd ?_
  exact .rfl

theorem State.setRf_seqKept (s : State) (off : Nat) (hi : Nat) (lo : Nat) (v : Nat) : SeqKept s (State.setRf s off hi lo v) := by
  unfold State.setRf
  exact State.setRg_seqKept ..

theorem State.hit_seqKept (s : State) (off : Nat) (hi : Nat) (lo : Nat) (n : Nat) : SeqKept s (State.hit s off hi lo n) := by
  unfold State.hit
  refine SeqKept.upd ?_
  exact .rfl

theorem State.setBit_seqKept (s : State) (off : Nat) (i : Nat) : SeqKept s (State.setBit s off i) := by
  unfold State.setBit
  refine .trans ?_ (State.hit_seqKept ..)
  exact State.setRf_seqKept ..

theorem State.setRg64_seqKept (s : State) (off : Nat) (v : W64) : SeqKept s (State.setRg64 s off v) := by
  unfold State.setRg64
  refine .trans ?_ (State.setRg_seqKept ..)
  exact State.setRg_seqKept ..

theorem State.count_seqKept (s : State) (off : Nat) (hi : Nat) (lo : Nat) (n : Nat) : SeqKept s (State.count s off hi lo n) := by
  unfold State.count
  refine .trans ?_ (State.hit_seqKept ..)
  exact State.setRf_seqKept ..

theorem State.count32_seqKept (s : State) (off : Nat) (n : Nat) : SeqKept s (State.count32 s off n) := by
  unfold State.count32
  exact State.count_seqKept ..

theorem State.irq_seqKept (s : State) (n : Nat) : SeqKept s (State.irq s n) := by
  unfold State.irq
  exact State.setBit_seqKept ..

theorem State.emit_seqKept (s : State) (o : Out) : SeqKept s (State.emit s o) := by
  unfold State.emit
  refine SeqKept.upd ?_
  exact .rfl

theorem State.draw_seqKept (s : State) : SeqKept s (State.draw s).2 := by
  unfold State.draw
  dsimp only
  refine SeqKept.upd ?_
  exact .rfl

theorem State.sendXpt_seqKept (s : State) (dst : BitVec 3) (u : XptUnit) : SeqKept s (State.sendXpt s dst u) := by
  unfold State.sendXpt
  refine SeqKept.upd ?_
  exact .rfl

theorem State.fresh_seqKept (s : State) : SeqKept s (State.fresh s).2 := by
  unfold State.fresh
  dsimp only
  refine SeqKept.upd ?_
  exact .rfl

theorem State.updTc_seqKept (s : State) (c : Nat) (f : Flow → Flow) : SeqKept s (State.updTc s c f) := by
  unfold State.updTc
  refine SeqKept.upd ?_
  exact .rfl

theorem State.flowCheck_seqKept (s : State) (c : Nat) : SeqKept s (State.flowCheck s c) := by
  unfold State.flowCheck
  extract_lets x0 x1 x2 x3 x4
  clear_value x0
  clear_value x1
  clear_value x2
  clear_value x3
  have hx4 : SeqKept s x4 := by
    unfold x4
    exact State.updTc_seqKept ..
  clear_value x4
  split
  · rename_i y5
    refine SeqKept.upd ?_
    exact hx4
  · exact .rfl

theorem State.grant_seqKept (s : State) (m : Msg) : SeqKept s (State.grant s m) := by
  unfold State.grant
  extract_lets x0 x1
  have hx0 : SeqKept s x0 := by
    unfold x0
    exact State.updTc_seqKept ..
  clear_value x0
  have hx1 : SeqKept s x1 := by
    unfold x1
    refine SeqKept.upd ?_
    exact hx0
  clear_value x1
  refine .trans ?_ (State.flowCheck_seqKept ..)
  exact hx1

theorem State.setEvc_seqKept (s : State) (n : Nat) (v : W64) : SeqKept s (State.setEvc s n v) := by
  unfold State.setEvc
  refine SeqKept.upd ?_
  exact .rfl

theorem State.evAdd_seqKept (s : State) (n : Nat) (amount : Nat) (err : Bool) (psn : Bool) : SeqKept s (State.evAdd s n amount err psn) := by
  unfold State.evAdd
  extract_lets x0 x1 x2 x3 x4
  clear_value x0
  clear_value x1
  clear_value x2
  have hx3 : SeqKept s x3 := by
    unfold x3
    refine .trans ?_ (State.hit_seqKept ..)
    exact State.setEvc_seqKept ..
  clear_value x3
  have hx4 : SeqKept s x4 := by
    unfold x4
    split
    · rename_i y5
      refine .trans ?_ (State.hit_seqKept ..)
      exact hx3
    · rename_i y6
      exact hx3
  clear_value x4
  split
  · rename_i y7
    refine .trans ?_ (State.hit_seqKept ..)
    exact hx4
  · rename_i y8
    exact hx4

theorem State.respond_seqKept (s : State) (m : Msg) : SeqKept s (State.respond s m) := by
  unfold State.respond
  split
  rename_i y0 y1 y2 y3
  refine SeqKept.upd ?_
  refine SeqKept.of_snd y3 ?_
  exact State.fresh_seqKept ..

theorem State.read1_seqKept (s : State) (owner : RdOwner) (a : Nat × Nat) : SeqKept s (State.read1 s owner a) := by
  unfold State.read1
  extract_lets x0 x1
  clear_value x0
  clear_value x1
  split
  rename_i y2 y3 y4 y5
  refine SeqKept.upd ?_
  refine SeqKept.of_snd y5 ?_
  exact State.fresh_seqKept ..

theorem State.readMem_seqKept (s : State) (owner : RdOwner) (addr : Nat) (n : Nat) : SeqKept s (State.readMem s owner addr n) := by
  unfold State.readMem
  refine .trans ?_ (State.each_seqKept _ _ _ ?_)
  · exact .rfl
  · intro a0 a1
    exact State.read1_seqKept ..

theorem State.write1_seqKept (s : State) (owner : WrOwner) (stream : Option Nat) (ord : Nat) (addr : Nat) (data : List Byte) (psn : Bool) : SeqKept s (State.write1 s owner stream ord addr data psn) := by
  unfold State.write1
  split
  rename_i y0 y1 y2 y3
  extract_lets x4
  clear_value x4
  refine SeqKept.upd ?_
  refine SeqKept.of_snd y3 ?_
  exact State.fresh_seqKept ..

theorem State.writeMem_seqKept (s : State) (owner : WrOwner) (stream : Option Nat) (ord : Nat) (addr : Nat) (data : List Byte) (psn : Bool) : SeqKept s (State.writeMem s owner stream ord addr data psn) := by
  unfold State.writeMem
  refine .trans ?_ (State.each_seqKept _ _ _ ?_)
  · exact .rfl
  · intro a0 a1
    exact State.write1_seqKept ..

theorem State.setOp_seqKept (s : State) (o : Op) : SeqKept s (State.setOp s o) := by
  unfold State.setOp
  refine SeqKept.upd ?_
  exact .rfl

theorem State.updOp_seqKept (s : State) (tag : Nat) (f : Op → Op) : SeqKept s (State.updOp s tag f) := by
  unfold State.updOp
  refine SeqKept.upd ?_
  exact .rfl

theorem State.opRead_seqKept (s : State) (tag : Nat) (addr : Nat) (n : Nat) : SeqKept s (State.opRead s tag addr n) := by
  unfold State.opRead
  refine .trans ?_ (State.updOp_seqKept ..)
  exact State.readMem_seqKept ..

theorem State.opWrite_seqKept (s : State) (tag : Nat) (addr : Nat) (data : List Byte) (psn : Bool) : SeqKept s (State.opWrite s tag addr data psn) := by
  unfold State.opWrite
  extract_lets x0
  clear_value x0
  refine .trans ?_ (State.updOp_seqKept ..)
  exact State.writeMem_seqKept ..

theorem State.errLog_seqKept (s : State) (o : Op) : SeqKept s (State.errLog s o) := by
  unfold State.errLog
  extract_lets x0 x1 x2
  have hx0 : SeqKept s x0 := by
    unfold x0
    exact State.count32_seqKept ..
  clear_value x0
  clear_value x1
  have hx2 : SeqKept s x2 := by
    unfold x2
    split
    · rename_i y3
      refine .trans ?_ (State.setBit_seqKept ..)
      exact hx0
    · rename_i y4
      refine .trans ?_ (State.hit_seqKept ..)
      refine .trans ?_ (State.setRg64_seqKept ..)
      refine .trans ?_ (State.setRg_seqKept ..)
      refine .trans ?_ (State.setRg_seqKept ..)
      exact hx0
  clear_value x2
  split
  · exact .rfl
  · rename_i y6
    refine .trans ?_ (State.when_seqKept _ _ _ ?_)
    · exact hx2
    · exact State.irq_seqKept ..

theorem State.freeSlots_seqKept (s : State) (tag : Nat) : SeqKept s (State.freeSlots s tag) := by
  unfold State.freeSlots
  extract_lets x0 x1 x2
  have hx0 : SeqKept s x0 := by
    unfold x0
    split
    · rename_i y3 y4 y5 y6
      extract_lets x7
      clear_value x7
      refine .trans ?_ (State.setRf_seqKept ..)
      exact State.setRf_seqKept ..
    · exact .rfl
  clear_value x0
  subst x1
  have hx2 : SeqKept s x2 := by
    unfold x2
    split
    · rename_i y10 y11 y12 y13
      extract_lets x14 x15 x16
      have hx14 : SeqKept s x14 := by
        unfold x14
        refine .trans ?_ (State.setRg64_seqKept ..)
        exact hx0
      clear_value x14
      have hx15 : SeqKept s x15 := by
        unfold x15
        refine .trans ?_ (State.count32_seqKept ..)
        refine .trans ?_ (State.count32_seqKept ..)
        exact hx14
      clear_value x15
      clear_value x16
      refine SeqKept.upd ?_
      exact hx15
    · rename_i y17 y18
      exact hx0
  clear_value x2
  refine SeqKept.upd ?_
  exact hx2

theorem State.mtDone_seqKept (s : State) (o : Op) : SeqKept s (State.mtDone s o) := by
  unfold State.mtDone
  split
  · exact .rfl
  · rename_i y2 y3 y4
    extract_lets x5
    clear_value x5
    refine .trans ?_ (State.setRg64_seqKept ..)
    refine .trans ?_ (State.setRg64_seqKept ..)
    exact State.setRg_seqKept ..

theorem State.finishOp_seqKept (s : State) (o : Op) : SeqKept s (State.finishOp s o) := by
  unfold State.finishOp
  extract_lets x0 x1
  have hx0 : SeqKept s x0 := by
    unfold x0
    refine .trans ?_ (State.mtDone_seqKept ..)
    refine .trans ?_ (State.freeSlots_seqKept ..)
    refine SeqKept.upd ?_
    exact .rfl
  clear_value x0
  have hx1 : SeqKept s x1 := by
    unfold x1
    refine .trans ?_ (State.when_seqKept _ _ _ ?_)
    · exact hx0
    · exact State.evAdd_seqKept ..
  clear_value x1
  split
  · rename_i y2 y3 y4
    refine .trans ?_ (State.emit_seqKept ..)
    exact hx0
  · rename_i y5 y6
    refine .trans ?_ (State.errLog_seqKept ..)
    exact hx1

theorem State.opCheck_seqKept (s : State) (tag : Nat) : SeqKept s (State.opCheck s tag) := by
  unfold State.opCheck
  split
  · rename_i y0 y1 y2
    split
    · rename_i y3
      exact State.finishOp_seqKept ..
    · exact .rfl
  · exact .rfl

theorem State.setFar_seqKept (s : State) (f : FarOp) : SeqKept s (State.setFar s f) := by
  unfold State.setFar
  refine SeqKept.upd ?_
  exact .rfl

theorem State.dropFar_seqKept (s : State) (k : FarKey) : SeqKept s (State.dropFar s k) := by
  unfold State.dropFar
  refine SeqKept.upd ?_
  exact .rfl

theorem State.takeCompletion_seqKept (s : State) (tag : Nat) (die : Nat) (st : Nat) (psn : Bool) (ecount : Nat) : SeqKept s (State.takeCompletion s tag die st psn ecount) := by
  unfold State.takeCompletion
  split
  · rename_i y0 y1 y2
    extract_lets x3 x4 x5
    clear_value x3
    clear_value x4
    clear_value x5
    split
    · exact .rfl
    · rename_i y7
      refine .trans ?_ (State.opCheck_seqKept ..)
      exact State.setOp_seqKept ..
  · exact .rfl

theorem State.farCheck_seqKept (s : State) (k : FarKey) : SeqKept s (State.farCheck s k) := by
  unfold State.farCheck
  split
  · exact .rfl
  · rename_i y2 y3 y4
    extract_lets x5
    clear_value x5
    split
    · rename_i y6
      split
      · rename_i y7
        refine .trans ?_ (State.takeCompletion_seqKept ..)
        exact State.dropFar_seqKept ..
      · rename_i y8
        refine .trans ?_ (State.respond_seqKept ..)
        exact State.dropFar_seqKept ..
    · exact .rfl

theorem State.eccJudge_seqKept (s : State) (id : Nat) (n : Nat) (ue : Bool) : SeqKept s (State.eccJudge s id n ue) := by
  unfold State.eccJudge
  extract_lets x0 x1 x2
  clear_value x0
  have hx1 : SeqKept s x1 := by
    unfold x1
    exact State.setRf_seqKept ..
  clear_value x1
  clear_value x2
  split
  · rename_i y3
    refine SeqKept.upd ?_
    exact hx1
  · rename_i y4
    split
    · rename_i y5
      refine .trans ?_ (State.when_seqKept _ _ _ ?_)
      · refine .trans ?_ (State.setBit_seqKept ..)
        exact State.setRf_seqKept ..
      · exact State.irq_seqKept ..
    · rename_i y6
      split
      · rename_i y7
        refine SeqKept.upd ?_
        exact .rfl
      · exact .rfl

theorem State.eccLog_seqKept (s : State) (id : Nat) (idx : Nat) (syn : Nat) (ue : Bool) : SeqKept s (State.eccLog s id idx syn ue) := by
  unfold State.eccLog
  extract_lets x0 x1
  have hx0 : SeqKept s x0 := by
    unfold x0
    split
    · rename_i y2
      refine .trans ?_ (State.when_seqKept _ _ _ ?_)
      · refine .trans ?_ (State.setBit_seqKept ..)
        exact State.count32_seqKept ..
      · exact State.irq_seqKept ..
    · rename_i y3
      refine .trans ?_ (State.setBit_seqKept ..)
      exact State.count32_seqKept ..
  clear_value x0
  clear_value x1
  split
  · rename_i y4 y5 y6
    extract_lets x7 x8
    clear_value x7
    have hx8 : SeqKept s x8 := by
      unfold x8
      refine .trans ?_ (State.setRg64_seqKept ..)
      refine .trans ?_ (State.setRf_seqKept ..)
      refine .trans ?_ (State.count_seqKept ..)
      exact hx0
    clear_value x8
    refine .trans ?_ (State.eccJudge_seqKept ..)
    exact hx8
  · rename_i y9 y10
    split
    · rename_i y11 y12 y13
      extract_lets x14 x15 x16
      clear_value x14
      have hx15 : SeqKept s x15 := by
        unfold x15
        refine .trans ?_ (State.setRg_seqKept ..)
        refine .trans ?_ (State.setRg_seqKept ..)
        exact hx0
      clear_value x15
      have hx16 : SeqKept s x16 := by
        unfold x16
        refine .trans ?_ (State.hit_seqKept ..)
        refine .trans ?_ (State.setRg64_seqKept ..)
        refine .trans ?_ (State.setRg64_seqKept ..)
        exact hx15
      clear_value x16
      refine .trans ?_ (State.eccJudge_seqKept ..)
      exact hx16
    · rename_i y17 y18
      refine .trans ?_ (State.when_seqKept _ _ _ ?_)
      · refine .trans ?_ (State.setBit_seqKept ..)
        refine .trans ?_ (State.count32_seqKept ..)
        exact hx0
      · exact State.irq_seqKept ..

theorem State.eccRead_seqKept (s : State) (id : Nat) (idx : Nat) : SeqKept s (State.eccRead s id idx).2 := by
  unfold State.eccRead
  extract_lets x0
  clear_value x0
  split
  · rename_i y1
    dsimp only
    exact .rfl
  · rename_i y2
    dsimp only
    exact State.eccLog_seqKept ..

theorem State.eccWritten_seqKept (s : State) (id : Nat) (idx : Nat) : SeqKept s (State.eccWritten s id idx) := by
  unfold State.eccWritten
  split
  · exact .rfl
  · rename_i y1
    refine SeqKept.upd ?_
    exact .rfl

theorem State.memHit_seqKept (s : State) (id : Nat) : SeqKept s (s.memHit id).2 := by
  unfold State.memHit
  generalize s.upset.filter _ = xs
  have key : ∀ (b : Bool) (t : State), SeqKept s t → SeqKept s (xs.foldl (fun (r : Bool × State) e =>
      let (hit, t) := r.2.draw
      if hit then
        let (ue, t) := t.eccRead id (e.1 % 0x1000000)
        (r.1 || ue, t)
      else (r.1, t)) (b, t)).2 := by
    induction xs with
    | nil => exact fun _ _ h => h
    | cons x xs ih =>
      intro b t h
      have hd : SeqKept s (t.draw).2 := h.trans (State.draw_seqKept ..)
      rw [List.foldl_cons]
      dsimp only
      split
      · exact ih _ _ (hd.trans (State.eccRead_seqKept ..))
      · exact ih _ _ hd
  exact key _ _ .rfl

theorem State.eccReads_seqKept (s : State) (id : Nat) (idxs : List Nat) : SeqKept s (State.eccReads s id idxs) := by
  unfold State.eccReads
  refine .trans ?_ (State.each_seqKept _ _ _ ?_)
  · exact .rfl
  · intro a0 a1
    exact State.eccRead_seqKept ..

theorem State.readRoute_seqKept (s : State) (m : Msg) : SeqKept s (State.readRoute s m) := by
  unfold State.readRoute
  split
  · exact .rfl
  · rename_i y1
    exact State.eccRead_seqKept ..

theorem State.sendRouted_seqKept (s : State) (m : Msg) : SeqKept s (State.sendRouted s m) := by
  unfold State.sendRouted
  extract_lets x0
  have hx0 : SeqKept s x0 := by
    unfold x0
    exact State.readRoute_seqKept ..
  clear_value x0
  split
  · rename_i y1 y2 y3
    refine .trans ?_ (State.respond_seqKept ..)
    exact hx0
  · rename_i y4 y5 y6
    refine .trans ?_ (State.sendXpt_seqKept ..)
    exact hx0
  · rename_i y7 y8
    refine .trans ?_ (State.irq_seqKept ..)
    refine .trans ?_ (State.count32_seqKept ..)
    exact hx0

theorem State.setTag_seqKept (s : State) (e : Nat) (t : Tag) : SeqKept s (State.setTag s e t) := by
  unfold State.setTag
  refine SeqKept.upd ?_
  exact .rfl

theorem State.readSet_seqKept (s : State) (set : Nat) : SeqKept s (State.readSet s set) := by
  unfold State.readSet
  refine .trans ?_ (State.each_seqKept _ _ _ ?_)
  · exact .rfl
  · intro a0 a1
    split
    rename_i y2 y3 y4 y5
    split
    rename_i y6 y7 y8 y9
    refine .trans ?_ (State.when_seqKept _ _ _ ?_)
    · refine SeqKept.of_snd y9 ?_
      refine .trans ?_ (State.eccRead_seqKept ..)
      refine SeqKept.of_snd y5 ?_
      exact State.eccRead_seqKept ..
    · exact State.setTag_seqKept ..

theorem State.touchTag_seqKept (s : State) (e : Nat) : SeqKept s (State.touchTag s e) := by
  unfold State.touchTag
  split
  rename_i y0 y1 y2 y3
  extract_lets x4
  clear_value x4
  refine .trans ?_ (State.setTag_seqKept ..)
  refine SeqKept.of_snd y3 ?_
  exact State.fresh_seqKept ..

theorem State.tagWritten_seqKept (s : State) (e : Nat) : SeqKept s (State.tagWritten s e) := by
  unfold State.tagWritten
  refine .trans ?_ (State.eccWritten_seqKept ..)
  exact State.eccWritten_seqKept ..

theorem State.dropTag_seqKept (s : State) (e : Nat) : SeqKept s (State.dropTag s e) := by
  unfold State.dropTag
  extract_lets x0 x1
  clear_value x0
  have hx1 : SeqKept s x1 := by
    unfold x1
    refine SeqKept.upd ?_
    exact .rfl
  clear_value x1
  refine .trans ?_ (State.sendRouted_seqKept ..)
  refine .trans ?_ (State.tagWritten_seqKept ..)
  refine .trans ?_ (State.setTag_seqKept ..)
  exact hx1

theorem State.evictTag_seqKept (s : State) (e : Nat) : SeqKept s (State.evictTag s e) := by
  unfold State.evictTag
  refine .trans ?_ (State.count32_seqKept ..)
  exact State.dropTag_seqKept ..

theorem State.retireWay_seqKept (s : State) (e : Nat) : SeqKept s (State.retireWay s e) := by
  unfold State.retireWay
  refine .trans ?_ (State.when_seqKept _ _ _ ?_)
  · exact .rfl
  · exact State.evictTag_seqKept ..

theorem State.flushNow_seqKept (s : State) (e : Nat) : SeqKept s (State.flushNow s e) := by
  unfold State.flushNow
  split
  · rename_i y0 y1 y2
    split
    · rename_i y3
      refine .trans ?_ (State.when_seqKept _ _ _ ?_)
      · refine SeqKept.upd ?_
        exact .rfl
      · exact State.evictTag_seqKept ..
    · exact .rfl
  · exact .rfl

theorem State.unhold_seqKept (s : State) (e : Nat) : SeqKept s (State.unhold s e) := by
  unfold State.unhold
  extract_lets x0
  clear_value x0
  refine .trans ?_ (State.flushNow_seqKept ..)
  refine .trans ?_ (State.retireWay_seqKept ..)
  exact State.setTag_seqKept ..

theorem State.faultLog_seqKept (s : State) (opcode : Nat) (tag : Nat) (cause : Nat) (pid : Nat) : SeqKept s (State.faultLog s opcode tag cause pid) := by
  unfold State.faultLog
  split
  · rename_i y0
    exact State.setBit_seqKept ..
  · rename_i y1
    refine .trans ?_ (State.hit_seqKept ..)
    refine .trans ?_ (State.setRg64_seqKept ..)
    exact State.setRg64_seqKept ..

theorem State.farPut_seqKept (s : State) (m : Msg) (dom : Nat) (ord : Nat) : SeqKept s (State.farPut s m dom ord) := by
  unfold State.farPut
  extract_lets x0 x1 x2
  clear_value x0
  clear_value x1
  clear_value x2
  refine .trans ?_ (State.writeMem_seqKept ..)
  exact State.setFar_seqKept ..

theorem State.farChecked_seqKept (s : State) (m : Msg) (dom : Nat) (ord : Nat) (ok : Bool) : SeqKept s (State.farChecked s m dom ord ok) := by
  unfold State.farChecked
  split
  · rename_i y0
    exact State.farPut_seqKept ..
  · rename_i y1
    exact State.setFar_seqKept ..

theorem State.startChecks_seqKept (s : State) : SeqKept s (State.startChecks s) := by
  unfold State.startChecks
  split
  · exact .rfl
  · rename_i y1
    refine .trans ?_ (State.each_seqKept _ _ _ ?_)
    · exact .rfl
    · intro a2 a3
      extract_lets x4
      clear_value x4
      refine .trans ?_ (State.each_seqKept _ _ _ ?_)
      · exact .rfl
      · intro a5 a6
        extract_lets x7 x8
        clear_value x7
        clear_value x8
        split
        · exact .rfl
        · rename_i y10
          refine .trans ?_ (State.read1_seqKept ..)
          exact State.setFar_seqKept ..

theorem State.takeWrite_seqKept (s : State) (m : Msg) (dom : Nat) (ord : Nat) : SeqKept s (State.takeWrite s m dom ord) := by
  unfold State.takeWrite
  extract_lets x0 x1 x2 x3 x4 x5 x6
  clear_value x0
  clear_value x1
  clear_value x2
  have hx3 : SeqKept s x3 := by
    unfold x3
    exact State.setFar_seqKept ..
  clear_value x3
  clear_value x4
  clear_value x5
  have hx6 : SeqKept s x6 := by
    unfold x6
    split
    · rename_i y7
      refine .trans ?_ (State.farPut_seqKept ..)
      exact hx3
    · rename_i y8
      split
      · rename_i y9
        refine .trans ?_ (State.setFar_seqKept ..)
        exact hx3
      · rename_i y10
        split
        · rename_i y11 y12 y13 y14
          refine .trans ?_ (State.farChecked_seqKept ..)
          exact hx3
        · rename_i y15 y16
          refine .trans ?_ (State.startChecks_seqKept ..)
          refine .trans ?_ (State.setFar_seqKept ..)
          exact hx3
  clear_value x6
  refine .trans ?_ (State.farCheck_seqKept ..)
  exact hx6

theorem State.walkHeader_seqKept (s : State) (tag : Nat) : SeqKept s (State.walkHeader s tag) := by
  unfold State.walkHeader
  split
  · rename_i y0 y1 y2
    refine .trans ?_ (State.opRead_seqKept ..)
    exact State.setOp_seqKept ..
  · exact .rfl

theorem State.walkFailed_seqKept (s : State) (o : Op) (torn : State → Op → State) (htorn : ∀ a0 a1, SeqKept a0 (torn a0 a1)) : SeqKept s (State.walkFailed s o torn) := by
  unfold State.walkFailed
  split
  · rename_i y0
    refine .trans ?_ (State.setOp_seqKept ..)
    exact State.count_seqKept ..
  · rename_i y1
    refine .trans ?_ (htorn ..)
    refine .trans ?_ (State.faultLog_seqKept ..)
    exact State.count_seqKept ..

theorem State.walkNext_seqKept (s : State) (o : Op) (done : State → Op → State) (torn : State → Op → State) (hdone : ∀ a0 a1, SeqKept a0 (done a0 a1)) (htorn : ∀ a0 a1, SeqKept a0 (torn a0 a1)) : SeqKept s (State.walkNext s o done torn) := by
  unfold State.walkNext
  split
  · rename_i y0 y1
    extract_lets x2 x3 x4 x5
    clear_value x2
    clear_value x3
    clear_value x4
    have hx5 : SeqKept s x5 := by
      unfold x5
      exact State.setOp_seqKept ..
    clear_value x5
    split
    · rename_i y6
      refine .trans ?_ (State.walkFailed_seqKept _ _ _ ?_)
      · exact .rfl
      · intro a7 a8
        exact htorn ..
    · rename_i y9
      refine .trans ?_ (State.each_seqKept _ _ _ ?_)
      · exact hx5
      · intro a10 a11
        exact State.opRead_seqKept ..
  · rename_i y12 y13
    extract_lets x14 x15
    clear_value x14
    clear_value x15
    refine .trans ?_ (State.opRead_seqKept ..)
    exact State.setOp_seqKept ..
  · rename_i y16 y17
    split
    · rename_i y18
      exact hdone ..
    · rename_i y19
      refine .trans ?_ (State.walkFailed_seqKept _ _ _ ?_)
      · exact .rfl
      · intro a20 a21
        exact htorn ..
  · exact .rfl

theorem State.locate_seqKept (s : State) (tag : Nat) (source : Bool) (len : Nat) (j : Nat) (e : W64) : SeqKept s (State.locate s tag source len j e).2 := by
  unfold State.locate
  extract_lets x0 x1 x2 x3
  clear_value x0
  clear_value x1
  clear_value x2
  have hx3 : SeqKept s x3 := by
    unfold x3
    split
    · rename_i y4
      exact State.readSet_seqKept ..
    · exact .rfl
  clear_value x3
  split
  · rename_i y6
    dsimp only
    exact .rfl
  · rename_i y7
    split
    · rename_i y8
      dsimp only
      exact .rfl
    · rename_i y9
      split
      · rename_i y10 y11 y12
        extract_lets x13 x14
        clear_value x13
        have hx14 : SeqKept s x14 := by
          unfold x14
          refine .trans ?_ (State.touchTag_seqKept ..)
          refine .trans ?_ (State.setTag_seqKept ..)
          exact hx3
        clear_value x14
        split
        · rename_i y15
          dsimp only
          refine .trans ?_ (State.updOp_seqKept ..)
          exact hx14
        · rename_i y16
          dsimp only
          refine SeqKept.upd ?_
          exact hx3
      · rename_i y17 y18
        split
        · rename_i y19
          dsimp only
          exact hx3
        · rename_i y20
          dsimp only
          exact hx3

theorem State.locateAll_seqKept (s : State) (o : Op) : SeqKept s (State.locateAll s o) := by
  unfold State.locateAll
  refine .trans ?_ (State.each_seqKept _ _ _ ?_)
  · exact .rfl
  · intro a0 a1
    split
    rename_i y2 y3 y4 y5
    refine .trans ?_ (State.updOp_seqKept ..)
    refine SeqKept.of_snd y5 ?_
    exact State.locate_seqKept ..

theorem State.sendPieces_seqKept (s : State) (o : Op) (ps : List Piece) : SeqKept s (State.sendPieces s o ps) := by
  unfold State.sendPieces
  extract_lets x0 x1 x2 x3 x4 x5 x6 x7 x8 x9 x10
  clear_value x0
  clear_value x1
  clear_value x2
  clear_value x3
  clear_value x4
  clear_value x5
  clear_value x6
  clear_value x7
  have hx8 : SeqKept s x8 := by
    unfold x8
    exact State.setOp_seqKept ..
  clear_value x8
  have hx9 : SeqKept s x9 := by
    unfold x9
    split
    · rename_i y11
      refine .trans ?_ (State.each_seqKept _ _ _ ?_)
      · exact hx8
      · intro a12 a13
        split
        rename_i y14 y15 y16 y17
        refine .trans ?_ (State.takeWrite_seqKept ..)
        refine SeqKept.of_snd y17 ?_
        exact State.fresh_seqKept ..
    · rename_i y18
      refine .trans ?_ (State.each_seqKept _ _ _ ?_)
      · exact hx8
      · intro a19 a20
        exact State.opWrite_seqKept ..
  clear_value x9
  have hx10 : SeqKept s x10 := by
    unfold x10
    refine .trans ?_ (State.each_seqKept _ _ _ ?_)
    · exact hx9
    · intro a21 a22
      exact State.unhold_seqKept ..
  clear_value x10
  refine .trans ?_ (State.opCheck_seqKept ..)
  exact hx10

theorem State.xferSource_seqKept (s : State) (o : Op) : SeqKept s (State.xferSource s o) := by
  unfold State.xferSource
  extract_lets x0 x1 x2 x3 x4 x5 x6
  clear_value x1
  clear_value x2
  subst x3
  have hx4 : SeqKept s x4 := by
    unfold x4
    refine .trans ?_ (State.count32_seqKept ..)
    refine .trans ?_ (State.count32_seqKept ..)
    exact State.count32_seqKept ..
  clear_value x4
  clear_value x5
  have hx6 : SeqKept s x6 := by
    unfold x6
    refine .trans ?_ (State.setOp_seqKept ..)
    exact hx4
  clear_value x6
  refine .trans ?_ (State.each_seqKept _ _ _ ?_)
  · exact hx6
  · intro a7 a8
    exact State.opRead_seqKept ..

theorem State.xferMap_seqKept (s : State) (o : Op) : SeqKept s (State.xferMap s o) := by
  unfold State.xferMap
  extract_lets x0 x1 x2 x3 x4
  clear_value x0
  clear_value x1
  clear_value x2
  clear_value x3
  have hx4 : SeqKept s x4 := by
    unfold x4
    exact State.setOp_seqKept ..
  clear_value x4
  split
  · rename_i y5
    exact State.setOp_seqKept ..
  · rename_i y6
    split
    · rename_i y7
      exact State.xferSource_seqKept ..
    · rename_i y8
      split
      · rename_i y9
        refine .trans ?_ (State.each_seqKept _ _ _ ?_)
        · exact hx4
        · intro a10 a11
          exact State.opRead_seqKept ..
      · rename_i y12
        exact State.setOp_seqKept ..

theorem State.xferMoves_seqKept (s : State) (o : Op) : SeqKept s (State.xferMoves s o) := by
  unfold State.xferMoves
  extract_lets x0
  clear_value x0
  split
  · rename_i y1
    split
    · rename_i y2
      refine .trans ?_ (State.opCheck_seqKept ..)
      exact State.setOp_seqKept ..
    · rename_i y3
      exact State.setOp_seqKept ..
  · rename_i y4
    split
    · rename_i y5 y6 y7
      refine .trans ?_ (State.walkHeader_seqKept ..)
      exact State.setOp_seqKept ..
    · rename_i y8 y9
      exact State.xferMap_seqKept ..

theorem State.countSkips_seqKept (s : State) (o : Op) : SeqKept s (State.countSkips s o) := by
  unfold State.countSkips
  extract_lets x0
  clear_value x0
  split
  · exact .rfl
  · rename_i y2
    exact State.count32_seqKept ..

theorem State.xferTorn_seqKept (s : State) (o : Op) : SeqKept s (State.xferTorn s o) := by
  unfold State.xferTorn
  refine .trans ?_ (State.opCheck_seqKept ..)
  exact State.setOp_seqKept ..

theorem State.xferNext_seqKept (s : State) (o : Op) : SeqKept s (State.xferNext s o) := by
  unfold State.xferNext
  split
  · exact .rfl
  · rename_i y1
    split
    · rename_i y2 y3
      exact State.xferMoves_seqKept ..
    · rename_i y4 y5
      refine .trans ?_ (State.walkNext_seqKept _ _ _ _ ?_ ?_)
      · exact .rfl
      · intro a6 a7
        refine .trans ?_ (State.locateAll_seqKept ..)
        exact State.setOp_seqKept ..
      · intro a8 a9
        exact State.xferTorn_seqKept ..
    · rename_i y10 y11
      refine .trans ?_ (State.walkNext_seqKept _ _ _ _ ?_ ?_)
      · exact .rfl
      · intro a12 a13
        refine .trans ?_ (State.locateAll_seqKept ..)
        exact State.setOp_seqKept ..
      · intro a14 a15
        exact State.xferTorn_seqKept ..
    · rename_i y16 y17
      refine .trans ?_ (State.walkNext_seqKept _ _ _ _ ?_ ?_)
      · exact .rfl
      · intro a18 a19
        refine .trans ?_ (State.locateAll_seqKept ..)
        exact State.setOp_seqKept ..
      · intro a20 a21
        exact State.xferTorn_seqKept ..
    · rename_i y22 y23
      split
      · exact .rfl
      · rename_i y25
        exact State.xferMap_seqKept ..
    · rename_i y26 y27
      split
      · rename_i y28
        exact State.xferSource_seqKept ..
      · exact .rfl
    · rename_i y30 y31
      refine .trans ?_ (State.sendPieces_seqKept ..)
      exact State.countSkips_seqKept ..
    · exact .rfl

theorem State.xferGo_seqKept (n : Nat) (s : State) (tag : Nat) : SeqKept s (State.xferGo n s tag) := by
  induction n generalizing s with
  | zero => exact .rfl
  | succ n ih =>
    unfold State.xferGo
    split
    · exact .rfl
    · split
      · exact .rfl
      · exact (State.xferNext_seqKept ..).trans (ih _)

theorem State.readRows_seqKept (s : State) (tag : Nat) (d : Desc) (a : Nat) (n : Nat) : SeqKept s (State.readRows s tag d a n) := by
  unfold State.readRows
  extract_lets x0 x1
  clear_value x0
  clear_value x1
  refine .trans ?_ (State.each_seqKept _ _ _ ?_)
  · exact .rfl
  · intro a2 a3
    exact State.opRead_seqKept ..

theorem State.hvCount_seqKept (s : State) (tag : Nat) (c : Cnt) : SeqKept s (State.hvCount s tag c) := by
  unfold State.hvCount
  extract_lets x0
  have hx0 : SeqKept s x0 := by
    unfold x0
    refine .trans ?_ (State.count32_seqKept ..)
    exact State.count32_seqKept ..
  clear_value x0
  refine .trans ?_ (State.when_seqKept _ _ _ ?_)
  · exact hx0
  · exact State.updOp_seqKept ..

theorem State.sendMade_seqKept (s : State) (o : Op) (ps : List Piece) : SeqKept s (State.sendMade s o ps) := by
  unfold State.sendMade
  extract_lets x0 x1 x2 x3
  clear_value x0
  clear_value x1
  clear_value x2
  have hx3 : SeqKept s x3 := by
    unfold x3
    exact State.setOp_seqKept ..
  clear_value x3
  refine .trans ?_ (State.opCheck_seqKept ..)
  refine .trans ?_ (State.each_seqKept _ _ _ ?_)
  · exact hx3
  · intro a4 a5
    exact State.opWrite_seqKept ..

theorem State.answerContrib_seqKept (s : State) (m : Msg) (orig : Nat) (st : Nat) (psn : Bool) (ecount : Nat) : SeqKept s (State.answerContrib s m orig st psn ecount) := by
  unfold State.answerContrib
  extract_lets x0
  clear_value x0
  split
  · rename_i y1
    split
    · rename_i y2
      exact State.takeCompletion_seqKept ..
    · rename_i y3
      exact State.sendXpt_seqKept ..
  · rename_i y4
    exact State.sendRouted_seqKept ..

theorem State.takeRel_seqKept (s : State) (r : Rel) : SeqKept s (State.takeRel s r) := by
  unfold State.takeRel
  extract_lets x0
  have hx0 : SeqKept s x0 := by
    unfold x0
    refine SeqKept.upd ?_
    exact .rfl
  clear_value x0
  refine .trans ?_ (State.when_seqKept _ _ _ ?_)
  · exact hx0
  · exact State.grant_seqKept ..

theorem State.holdRel_seqKept (s : State) (r : Rel) (count : Bool) : SeqKept s (State.holdRel s r count) := by
  unfold State.holdRel
  extract_lets x0
  have hx0 : SeqKept s x0 := by
    unfold x0
    refine .trans ?_ (State.when_seqKept _ _ _ ?_)
    · exact .rfl
    · exact State.count32_seqKept ..
  clear_value x0
  refine SeqKept.upd ?_
  exact hx0

theorem State.stagePeak_seqKept (s : State) : SeqKept s (State.stagePeak s) := by
  unfold State.stagePeak
  exact State.setRf_seqKept ..

theorem State.calNote_seqKept (s : State) (n : Nat) (mx : Option Int) (ovf : Nat) (ufl : Nat) : SeqKept s (State.calNote s n mx ovf ufl) := by
  unfold State.calNote
  extract_lets x0 x1 x2
  clear_value x0
  have hx1 : SeqKept s x1 := by
    unfold x1
    split
    · rename_i y3 y4
      extract_lets x5
      have hx5 : SeqKept s x5 := by
        unfold x5
        refine SeqKept.upd ?_
        exact .rfl
      clear_value x5
      refine .trans ?_ (State.setRf_seqKept ..)
      exact hx5
    · exact .rfl
  clear_value x1
  have hx2 : SeqKept s x2 := by
    unfold x2
    refine .trans ?_ (State.count_seqKept ..)
    refine .trans ?_ (State.count_seqKept ..)
    exact hx1
  clear_value x2
  split
  · rename_i y7 y8 y9 y10 y11
    extract_lets x12
    clear_value x12
    refine SeqKept.upd ?_
    exact hx2
  · rename_i y13 y14
    split
    · rename_i y15
      exact hx2
    · rename_i y16
      refine SeqKept.upd ?_
      exact hx2

theorem State.setRed_seqKept (s : State) (r : Nat) (x : Red) : SeqKept s (State.setRed s r x) := by
  unfold State.setRed
  refine SeqKept.upd ?_
  exact .rfl

theorem State.redAdd_seqKept (s : State) (r : Nat) (e : Nat) (vs : List Val) (psn : Bool) : SeqKept s (State.redAdd s r e vs psn) := by
  unfold State.redAdd
  split
  rename_i y0 y1 y2 y3
  extract_lets x4 x5 x6
  clear_value x4
  have hx5 : SeqKept s x5 := by
    unfold x5
    exact State.setRed_seqKept ..
  clear_value x5
  have hx6 : SeqKept s x6 := by
    unfold x6
    refine .trans ?_ (State.count32_seqKept ..)
    refine .trans ?_ (State.count32_seqKept ..)
    refine .trans ?_ (State.count32_seqKept ..)
    exact hx5
  clear_value x6
  split
  · rename_i y7
    refine .trans ?_ (State.calNote_seqKept ..)
    exact hx6
  · rename_i y8
    exact hx6

theorem State.redCheck_seqKept (s : State) (r : Nat) : SeqKept s (State.redCheck s r) := by
  unfold State.redCheck
  extract_lets x0 x1 x2 x3 x4
  clear_value x0
  clear_value x1
  subst x2
  clear_value x3
  clear_value x4
  split
  · exact .rfl
  · rename_i y6
    split
    rename_i y7 y8 y9 y10 y11
    split
    rename_i y12 y13 y14 y15
    extract_lets x16 x17
    clear_value x16
    have hx17 : SeqKept s x17 := by
      unfold x17
      refine .trans ?_ (State.count32_seqKept ..)
      refine .trans ?_ (State.setRed_seqKept ..)
      refine SeqKept.of_snd y15 ?_
      exact State.memHit_seqKept ..
    clear_value x17
    split
    · rename_i y18 y19
      exact hx17
    · rename_i y20 y21 y22
      extract_lets x23 x24
      clear_value x23
      clear_value x24
      refine .trans ?_ (State.sendMade_seqKept ..)
      exact hx17

theorem State.redPhase0_seqKept (s : State) (r : Nat) (c : Nat) (b : Nat) (es : List (Option Int)) (psn : Bool) : SeqKept s (State.redPhase0 s r c b es psn) := by
  unfold State.redPhase0
  extract_lets x0 x1 x2 x3 x4 x5
  clear_value x0
  clear_value x1
  clear_value x2
  clear_value x3
  clear_value x4
  clear_value x5
  exact State.setRed_seqKept ..

theorem State.dropStale_seqKept (s : State) (r : Rel) (last : Bool) (orig : Nat) (st : Nat) : SeqKept s (State.dropStale s r last orig st) := by
  unfold State.dropStale
  extract_lets x0
  have hx0 : SeqKept s x0 := by
    unfold x0
    refine .trans ?_ (State.count32_seqKept ..)
    exact State.takeRel_seqKept ..
  clear_value x0
  refine .trans ?_ (State.when_seqKept _ _ _ ?_)
  · exact hx0
  · exact State.answerContrib_seqKept ..

theorem State.redFault_seqKept (s : State) (r : Nat) (rel : Rel) : SeqKept s (State.redFault s r rel) := by
  unfold State.redFault
  extract_lets x0 x1 x2 x3 x4
  clear_value x0
  clear_value x1
  clear_value x2
  clear_value x3
  clear_value x4
  split
  rename_i y5 y6 y7 y8
  extract_lets x9 x10 x11 x12
  clear_value x9
  clear_value x10
  have hx11 : SeqKept s x11 := by
    unfold x11
    refine .trans ?_ (State.setRed_seqKept ..)
    refine .trans ?_ (State.count32_seqKept ..)
    exact State.takeRel_seqKept ..
  clear_value x11
  have hx12 : SeqKept s x12 := by
    unfold x12
    refine .trans ?_ (State.when_seqKept _ _ _ ?_)
    · exact hx11
    · exact State.updOp_seqKept ..
  clear_value x12
  refine .trans ?_ (State.redCheck_seqKept ..)
  refine .trans ?_ (State.when_seqKept _ _ _ ?_)
  · exact hx12
  · exact State.answerContrib_seqKept ..

theorem State.redTake_seqKept (s : State) (r : Nat) (rel : Rel) : SeqKept s (State.redTake s r rel) := by
  unfold State.redTake
  extract_lets x0 x1 x2 x3 x4 x5 x6 x7 x8 x9
  clear_value x0
  clear_value x1
  clear_value x2
  clear_value x3
  clear_value x4
  clear_value x5
  clear_value x6
  clear_value x7
  clear_value x8
  clear_value x9
  split
  · rename_i y10
    split
    · rename_i y11
      exact State.redFault_seqKept ..
    · rename_i y12
      refine .trans ?_ (State.redCheck_seqKept ..)
      refine .trans ?_ (State.redPhase0_seqKept ..)
      refine .trans ?_ (State.setRed_seqKept ..)
      exact State.takeRel_seqKept ..
  · rename_i y13
    split
    · rename_i y14 y15
      exact State.redFault_seqKept ..
    · rename_i y16 y17 y18
      split
      · rename_i y19
        exact State.redFault_seqKept ..
      · rename_i y20
        split
        · rename_i y21
          exact State.holdRel_seqKept ..
        · rename_i y22
          split
          rename_i y23 y24 y25 y26
          extract_lets x27 x28 x29 x30
          clear_value x27
          clear_value x28
          clear_value x29
          have hx30 : SeqKept s x30 := by
            unfold x30
            refine .trans ?_ (State.redAdd_seqKept ..)
            refine .trans ?_ (State.setRed_seqKept ..)
            exact State.takeRel_seqKept ..
          clear_value x30
          refine .trans ?_ (State.redCheck_seqKept ..)
          refine .trans ?_ (State.when_seqKept _ _ _ ?_)
          · exact hx30
          · exact State.answerContrib_seqKept ..

theorem State.contribAt_seqKept (s : State) (rel : Rel) : SeqKept s (State.contribAt s rel) := by
  unfold State.contribAt
  extract_lets x0 x1 x2 x3
  clear_value x0
  clear_value x1
  clear_value x2
  clear_value x3
  split
  · rename_i y4
    exact State.holdRel_seqKept ..
  · rename_i y5
    split
    · rename_i y6
      exact State.dropStale_seqKept ..
    · rename_i y7
      exact State.redTake_seqKept ..

theorem State.retryContribs_seqKept (s : State) (r : Nat) : SeqKept s (State.retryContribs s r) := by
  unfold State.retryContribs
  refine .trans ?_ (State.each_seqKept _ _ _ ?_)
  · exact .rfl
  · intro a0 a1
    split
    · exact .rfl
    · rename_i y3
      exact State.contribAt_seqKept ..

theorem State.readRecs_seqKept (s : State) (tag : Nat) (d : Desc) : SeqKept s (State.readRecs s tag d) := by
  unfold State.readRecs
  extract_lets x0 x1
  clear_value x0
  clear_value x1
  refine .trans ?_ (State.each_seqKept _ _ _ ?_)
  · exact .rfl
  · intro a2 a3
    exact State.opRead_seqKept ..

theorem State.setMrg_seqKept (s : State) (n : Nat) (x : Mrg) : SeqKept s (State.setMrg s n x) := by
  unfold State.setMrg
  refine SeqKept.upd ?_
  exact .rfl

theorem State.orphanReads_seqKept (s : State) (tag : Nat) : SeqKept s (State.orphanReads s tag) := by
  unfold State.orphanReads
  refine SeqKept.upd ?_
  exact .rfl

theorem State.mrgCheck_seqKept (s : State) (n : Nat) : SeqKept s (State.mrgCheck s n) := by
  unfold State.mrgCheck
  extract_lets x0
  clear_value x0
  split
  · rename_i y1
    split
    · rename_i y2 y3 y4
      extract_lets x5 x6
      have hx5 : SeqKept s x5 := by
        unfold x5
        refine .trans ?_ (State.when_seqKept _ _ _ ?_)
        · exact .rfl
        · exact State.orphanReads_seqKept ..
      clear_value x5
      clear_value x6
      split
      · exact .rfl
      · rename_i y8
        refine .trans ?_ (State.opCheck_seqKept ..)
        refine .trans ?_ (State.setOp_seqKept ..)
        exact hx5
    · exact .rfl
  · exact .rfl

theorem State.mrgLast_seqKept (s : State) (n : Nat) (c : Nat) : SeqKept s (State.mrgLast s n c) := by
  unfold State.mrgLast
  extract_lets x0 x1
  clear_value x0
  clear_value x1
  split
  · exact .rfl
  · rename_i y3
    exact State.setMrg_seqKept ..

theorem State.mrgFault_seqKept (s : State) (n : Nat) (rel : Rel) : SeqKept s (State.mrgFault s n rel) := by
  unfold State.mrgFault
  extract_lets x0 x1 x2 x3
  clear_value x0
  clear_value x1
  clear_value x2
  clear_value x3
  split
  rename_i y4 y5 y6 y7
  extract_lets x8 x9 x10 x11 x12
  clear_value x8
  clear_value x9
  clear_value x10
  have hx11 : SeqKept s x11 := by
    unfold x11
    refine .trans ?_ (State.setMrg_seqKept ..)
    refine .trans ?_ (State.count32_seqKept ..)
    exact State.takeRel_seqKept ..
  clear_value x11
  have hx12 : SeqKept s x12 := by
    unfold x12
    refine .trans ?_ (State.updOp_seqKept ..)
    exact hx11
  clear_value x12
  refine .trans ?_ (State.mrgCheck_seqKept ..)
  refine .trans ?_ (State.when_seqKept _ _ _ ?_)
  · exact hx12
  · exact State.answerContrib_seqKept ..

theorem State.mrgTake_seqKept (s : State) (n : Nat) (rel : Rel) : SeqKept s (State.mrgTake s n rel) := by
  unfold State.mrgTake
  extract_lets x0 x1 x2 x3 x4 x5 x6 x7 x8 x9
  clear_value x0
  clear_value x1
  clear_value x2
  clear_value x3
  clear_value x4
  clear_value x5
  clear_value x6
  clear_value x7
  clear_value x8
  clear_value x9
  split
  · rename_i y10
    exact State.mrgFault_seqKept ..
  · rename_i y11
    split
    rename_i y12 y13 y14 y15
    extract_lets x16 x17 x18 x19
    clear_value x16
    clear_value x17
    clear_value x18
    have hx19 : SeqKept s x19 := by
      unfold x19
      refine .trans ?_ (State.setMrg_seqKept ..)
      exact State.takeRel_seqKept ..
    clear_value x19
    split
    · rename_i y20
      refine .trans ?_ (State.mrgCheck_seqKept ..)
      refine .trans ?_ (State.answerContrib_seqKept ..)
      refine .trans ?_ (State.mrgLast_seqKept ..)
      exact hx19
    · rename_i y21
      exact hx19

theorem State.partialAt_seqKept (s : State) (rel : Rel) : SeqKept s (State.partialAt s rel) := by
  unfold State.partialAt
  extract_lets x0 x1 x2 x3 x4
  clear_value x0
  clear_value x1
  clear_value x2
  clear_value x3
  have hx4 : SeqKept s x4 := by
    unfold x4
    refine .trans ?_ (State.count32_seqKept ..)
    exact State.takeRel_seqKept ..
  clear_value x4
  split
  · rename_i y5
    exact State.holdRel_seqKept ..
  · rename_i y6
    split
    · rename_i y7
      refine .trans ?_ (State.when_seqKept _ _ _ ?_)
      · exact hx4
      · exact State.answerContrib_seqKept ..
    · rename_i y8
      exact State.mrgTake_seqKept ..

theorem State.readMap_seqKept (s : State) : SeqKept s (State.readMap s) := by
  unfold State.readMap
  exact State.eccReads_seqKept ..

theorem State.setDsl_seqKept (s : State) (d : Nat) (x : Dsl) : SeqKept s (State.setDsl s d x) := by
  unfold State.setDsl
  refine SeqKept.upd ?_
  exact .rfl

theorem State.dispNext_seqKept (s : State) (o : Op) : SeqKept s (State.dispNext s o) := by
  unfold State.dispNext
  extract_lets x0 x1 x2 x3 x4 x5 x6 x7 x8 x9 x10 x11 x12 x13
  clear_value x0
  clear_value x1
  clear_value x2
  clear_value x3
  clear_value x4
  clear_value x5
  clear_value x6
  clear_value x7
  clear_value x8
  subst x9
  clear_value x10
  clear_value x11
  clear_value x12
  have hx13 : SeqKept s x13 := by
    unfold x13
    refine .trans ?_ (State.hvCount_seqKept ..)
    refine .trans ?_ (State.stagePeak_seqKept ..)
    refine .trans ?_ (State.setDsl_seqKept ..)
    exact State.setOp_seqKept ..
  clear_value x13
  split
  · exact .rfl
  · rename_i y15
    refine .trans ?_ (State.sendMade_seqKept ..)
    exact hx13

end Sys2Proof.Machine
end

