-- ==== Sys2Proof/Laws/Engine.lean ====
section
/-! SUPPORT. The issue of an engine instruction: descriptors without error, the tag it takes, and the sequencer after its start. -/
namespace Sys2Proof.Machine

/-- Descriptors whose words are free of error read without effect. -/
theorem descEcc_clean {s : State} {ns : List Nat} (h : ∀ n ∈ ns, ∀ k < 4, s.upsetAt 1 (4 * n + k) = 0) : s.descEcc ns = (none, s) := by
  have hw : ∀ i ∈ ns.flatMap (fun n => (List.range 4).map (4 * n + ·)), s.upsetAt 1 i = 0 := by
    intro i hi
    obtain ⟨n, hn, hi⟩ := List.mem_flatMap.1 hi
    obtain ⟨k, hk, rfl⟩ := List.mem_map.1 hi
    exact h n hn k (List.mem_range.1 hk)
  have he : ∀ ws : List Nat, (∀ i ∈ ws, s.upsetAt 1 i = 0) → s.each ws (fun s i => (s.eccRead 1 i).2) = s := by
    intro ws
    induction ws with
    | nil => intro _; rfl
    | cons a ws ih =>
      intro h
      show State.each (s.eccRead 1 a).2 ws _ = s
      rw [State.eccRead_clean (h a List.mem_cons_self)]
      exact ih fun i hi => h i (List.mem_cons_of_mem _ hi)
  unfold State.descEcc
  extract_lets ws
  rw [he ws hw]
  have : ws.find? (s.uncorr 1 ·) = none := List.find?_eq_none.2 fun i hi => by simp [State.uncorr, hw i hi]
  rw [this]; rfl

/-- Reading the calibration entry leaves the sequencer alone. -/
theorem readCal_seq {s u : State} {e : EngSpec} {i : Iss} (h : s.readCal e = (i, u)) : u.seq = s.seq := by
  unfold State.readCal at h
  split at h
  · cases h; rfl
  · split at h
    cases h
    exact (SeqKept.of_snd (by assumption) (State.eccRead_seqKept ..)).seq

/-- An operation that takes its tag: the next instruction issues 2 cc later. -/
theorem takeTag_seq {s : State} (hpc : s.seq.pc < 16383) (o : Op) :
    (s.takeTag o).seq = { s.seq with lastTag := o.tag, stall := none, pc := s.seq.pc + 1, nextAt := s.now + 2 } := by
  simp [State.takeTag, State.advance, Nat.ne_of_lt hpc, State.now]

/-- The sequencer after the start. -/
theorem startXfer_seq {s : State} (hpc : s.seq.pc < 16383) (tag i) :
    (startXfer s tag i).seq = { s.seq with lastTag := tag, stall := none, pc := s.seq.pc + 1, nextAt := s.now + 2 } := by
  unfold startXfer
  extract_lets o0 o t q
  have ht : t.seq = _ := takeTag_seq hpc o
  clear_value t
  split
  · exact ht
  · split
    · exact (State.opRead_seqKept ..).seq.trans ht
    · exact ((State.xferMoves_seqKept ..).trans (State.xferGo_seqKept ..)).seq.trans ht

/-- The sequencer after the start. -/
theorem startConvert_seq {s : State} (hpc : s.seq.pc < 16383) (tag i) :
    (startConvert s tag i).seq = { s.seq with lastTag := tag, stall := none, pc := s.seq.pc + 1, nextAt := s.now + 2 } := by
  unfold startConvert
  extract_lets t
  have ht : t.seq = _ := takeTag_seq hpc (newOp s tag i .src)
  clear_value t
  split
  · exact (State.updOp_seqKept ..).seq.trans ht
  · exact ((State.updOp_seqKept ..).trans (State.readRows_seqKept ..)).seq.trans ht

/-- The sequencer after the start. -/
theorem startFoldSend_seq {s : State} (hpc : s.seq.pc < 16383) (tag i) :
    (startFoldSend s tag i).seq = { s.seq with lastTag := tag, stall := none, pc := s.seq.pc + 1, nextAt := s.now + 2 } :=
  ((State.updOp_seqKept ..).trans (State.readRows_seqKept ..)).seq.trans (takeTag_seq hpc (newOp s tag i .src))

/-- The sequencer after the start. -/
theorem startMergeSend_seq {s : State} (hpc : s.seq.pc < 16383) (tag i) :
    (startMergeSend s tag i).seq = { s.seq with lastTag := tag, stall := none, pc := s.seq.pc + 1, nextAt := s.now + 2 } := by
  unfold startMergeSend
  extract_lets t
  have ht : t.seq = _ := (State.updOp_seqKept ..).seq.trans (takeTag_seq hpc (newOp s tag i .src))
  clear_value t
  split
  · exact (State.updOp_seqKept ..).seq.trans ht
  · exact (State.readRecs_seqKept ..).seq.trans ht

/-- The sequencer after the start. -/
theorem startMerge_seq {s : State} (hpc : s.seq.pc < 16383) (tag i) :
    (startMerge s tag i).seq = { s.seq with lastTag := tag, stall := none, pc := s.seq.pc + 1, nextAt := s.now + 2 } := by
  unfold startMerge
  extract_lets x t u
  have ht : t.seq = _ := ((State.setMrg_seqKept ..).trans (State.stagePeak_seqKept ..)).seq.trans (takeTag_seq hpc (newOp s tag i (if i.isLocal then .src else .run)))
  clear_value t
  have hu : u.seq = t.seq := (State.each_seqKept _ _ _ fun t x => by split; exact .rfl; exact State.partialAt_seqKept ..).seq
  clear_value u
  split
  · exact (State.readRecs_seqKept ..).seq.trans (hu.trans ht)
  · exact hu.trans ht

/-- The sequencer after the start. -/
theorem startReduce_seq {s : State} (hpc : s.seq.pc < 16383) (tag i) :
    (startReduce s tag i).seq = { s.seq with lastTag := tag, stall := none, pc := s.seq.pc + 1, nextAt := s.now + 2 } := by
  unfold startReduce
  extract_lets g x t v
  have ht : t.seq = _ := ((State.setRed_seqKept ..).trans (State.stagePeak_seqKept ..)).seq.trans (takeTag_seq hpc (newOp s tag i (if i.isLocal then .src else .run)))
  have hv2 : v.seq = t.seq := (State.retryContribs_seqKept ..).seq
  clear_value v t
  split
  · exact (State.readRows_seqKept ..).seq.trans (hv2.trans ht)
  · exact hv2.trans ht

/-- The sequencer after the start. -/
theorem startPage_seq {s : State} (hpc : s.seq.pc < 16383) (tag i) :
    (startPage s tag i).seq = { s.seq with lastTag := tag, stall := none, pc := s.seq.pc + 1, nextAt := s.now + 2 } := by
  unfold startPage
  extract_lets t
  have ht : t.seq = _ := takeTag_seq hpc (newOp s tag i .list)
  clear_value t
  split
  · exact (State.walkHeader_seqKept ..).seq.trans ht
  · split
    · exact (State.updOp_seqKept ..).seq.trans ht
    · exact (State.opRead_seqKept ..).seq.trans ht

/-- The sequencer after the start. -/
theorem startDispatch_seq {s : State} (hpc : s.seq.pc < 16383) (tag i) :
    (startDispatch s tag i).seq = { s.seq with lastTag := tag, stall := none, pc := s.seq.pc + 1, nextAt := s.now + 2 } := by
  have hm := (State.readMap_seqKept s).seq
  have hn : s.readMap.now = s.now := congrArg Env.now (State.readMap_kept s).env
  unfold startDispatch
  extract_lets a x b c d
  have ha : a.seq = _ := (State.updOp_seqKept ..).seq.trans (takeTag_seq (by rw [hm]; exact hpc) (newOp s tag i .index))
  rw [hm, hn] at ha
  have hb : b.seq = a.seq := (State.setDsl_seqKept ..).seq
  have hc : c.seq = b.seq := (State.each_seqKept _ _ _ fun t _ => State.opRead_seqKept ..).seq
  have hd : d.seq = c.seq := (State.readRows_seqKept ..).seq
  clear_value a x b c d
  have h := hd.trans (hc.trans (hb.trans ha))
  split
  · exact (State.dispNext_seqKept ..).seq.trans h
  · exact h

/-- The sequencer after the start. -/
theorem startCmbSend_seq {s : State} (hpc : s.seq.pc < 16383) (tag i) :
    (startCmbSend s tag i).seq = { s.seq with lastTag := tag, stall := none, pc := s.seq.pc + 1, nextAt := s.now + 2 } := by
  have hm := (State.readMap_seqKept s).seq
  have hn : s.readMap.now = s.now := congrArg Env.now (State.readMap_kept s).env
  unfold startCmbSend
  extract_lets a
  have ha : a.seq = _ := (State.updOp_seqKept ..).seq.trans (takeTag_seq (by rw [hm]; exact hpc) (newOp s tag i .header))
  rw [hm, hn] at ha
  clear_value a
  split
  · exact (State.updOp_seqKept ..).seq.trans ha
  · exact (State.each_seqKept _ _ _ fun t _ => State.opRead_seqKept ..).seq.trans ha

/-- A COMBINE COLLECT takes its tag while the sequencer stalls on it. -/
theorem startCollect_seq (s : State) (tag i) : (startCollect s tag i).seq = { s.seq with lastTag := tag, stall := some i } :=
  (State.opRead_seqKept ..).seq

end Sys2Proof.Machine
end

