-- ==== Sys2Proof/Laws/Regs.lean ====
section
/-! SUPPORT. What the registers read after a field, a bit, a counter or an interrupt is set. -/
namespace Sys2Proof.Machine

/-- The register whose field is set. -/
theorem State.rg_setRf_same (s : State) (off hi lo v : Nat) : (s.setRf off hi lo v).rg off = setFld (s.rg off) hi lo v :=
  State.rg_setRg_same ..

/-- Another register. -/
theorem State.rg_setRf_other (s : State) {off o : Nat} (hi lo v : Nat) (h : off ≠ o) : (s.setRf off hi lo v).rg o = s.rg o :=
  State.rg_setRg_other _ _ h

/-- The register whose bit is set. -/
theorem State.rg_setBit_same (s : State) (off i : Nat) : (s.setBit off i).rg off = setFld (s.rg off) i i 1 :=
  State.rg_setRg_same ..

/-- Another register. -/
theorem State.rg_setBit_other (s : State) {off o : Nat} (i : Nat) (h : off ≠ o) : (s.setBit off i).rg o = s.rg o :=
  State.rg_setRg_other _ _ h

/-- The register of a counter. -/
theorem State.rg_count_same (s : State) (off hi lo n : Nat) : (s.count off hi lo n).rg off = setFld (s.rg off) hi lo (min (s.rf off hi lo + n) (2 ^ (hi - lo + 1) - 1)) :=
  State.rg_setRg_same ..

/-- Another register. -/
theorem State.rg_count_other (s : State) {off o : Nat} (hi lo n : Nat) (h : off ≠ o) : (s.count off hi lo n).rg o = s.rg o :=
  State.rg_setRg_other _ _ h

/-- Another register than IRQ_PEND. -/
theorem State.rg_irq_other (s : State) {o : Nat} (n : Nat) (h : 0x30 ≠ o) : (s.irq n).rg o = s.rg o :=
  State.rg_setRg_other _ _ h

/-- The event shows in IRQ_PEND. -/
theorem State.bit_irq (s : State) {n : Nat} (h : n < 32) : bit ((s.irq n).rg 0x30) n = true := by
  unfold State.irq; rw [State.rg_setBit_same, bit_setFld _ _ _ h (Nat.le_refl _), if_pos ⟨Nat.le_refl _, Nat.le_refl _⟩, Nat.sub_self]; rfl

/-- Another register than the two words. -/
theorem State.rg_setRg64_other (s : State) {off o : Nat} (v : W64) (h : off ≠ o) (h' : off + 4 ≠ o) : (s.setRg64 off v).rg o = s.rg o := by
  unfold State.setRg64; rw [State.rg_setRg_other _ _ h', State.rg_setRg_other _ _ h]

end Sys2Proof.Machine
end

