-- ==== Sys2Proof/Laws/Resets.lean ====
section
/-! SUPPORT. The resets, the fuse read, the end of the clear sweep and the passing of a cc: what they make of the environment, and that they
keep the queue and the invariant. -/
namespace Sys2Proof.Machine

/-- t has the queue of s, and the invariant if s has it; its environment is e. -/
structure Moved (s : State) (e : Env) (t : State) : Prop where
  env : t.env = e
  pending : t.pending = s.pending
  inv : s.Inv → t.Inv

theorem Moved.kept {s t u : State} {e : Env} (h : Moved s e t) (k : Kept t u) : Moved s e u :=
  ⟨k.env.trans h.env, k.pending.trans h.pending, fun i => k.inv (h.inv i)⟩

/-- The environment may change but for the member, its clock and the strap that the reset values depend on. -/
theorem State.updEnv_moved (s : State) (f : Env → Env) (hm : (f s.env).member = s.env.member)
    (hc : (f s.env).clk = s.env.clk) (hs : (f s.env).strapOpen = s.env.strapOpen) : Moved s (f s.env) (s.updEnv f) := by
  refine ⟨rfl, rfl, fun ⟨⟨h1, h2, h3, h4, h5, h6, h7, h8, h9, h10, h11, h12, h13, h14, h15, h16⟩, ⟨h17, h18⟩, h19⟩ =>
    ⟨⟨?_, ?_, h3, h4, h5, h6, h7, h8, h9, h10, h11, h12, h13, h14, h15, h16⟩, ⟨h17, h18⟩, ?_⟩⟩
  · show spWf (regReset (f s.env).member (f s.env).strapOpen) s.regs = true
    rw [hm, hs]; exact h1
  · show spWf (regReset (f s.env).member (f s.env).strapOpen) s.shadow = true
    rw [hm, hs]; exact h2
  · show clkInRange (f s.env).member (f s.env).clk = true
    rw [hm, hc]; exact h19

/-- One cc passes: the cc advances, and nothing else of the environment changes. -/
theorem State.elapse_moved (s : State) : Moved s { s.env with now := s.env.now + 1 } s.elapse := by
  have h0 : Moved s { s.env with now := s.env.now + 1 } ({ s.updEnv fun e => { e with now := e.now + 1 } with
      hits := [], cc := { s.cc with td := [], sts := [], cal := [], late := false } } : State) :=
    (State.updEnv_moved s (fun e => { e with now := e.now + 1 }) rfl rfl rfl).kept (Kept.upd .rfl rfl rfl)
  unfold State.elapse
  extract_lets _ _ _ t u
  have ht : Moved s { s.env with now := s.env.now + 1 } t := h0
  clear_value t
  split
  · exact ht
  · have hu : Kept t u :=
      ((State.when_kept _ _ _ (State.landHeld_kept ..)).trans (State.landWr32_kept ..)).trans (State.seqCc_kept ..)
    clear_value u
    exact ht.kept (hu.trans ((State.each_kept _ _ _ fun _ _ => State.wakeOp_kept ..).trans
      ((State.sisReleaseAll_kept ..).trans ((State.launchDue_kept ..).trans ((State.pulseOut_kept ..).trans
        ((State.telDrain_kept ..).trans ((State.portsCc_kept ..).trans (State.bistWatch_kept ..))))))))

/-- FUSE_ACK: only the fuse words and the address asked for change of the environment. -/
theorem execFuseAck_moved (word : W32) (s : State) : ∃ t e, execFuseAck word s = .next t ∧ Moved s e t ∧
    e = { s.env with fuseAddr := e.fuseAddr, fuseId := e.fuseId, fuseLanes := e.fuseLanes } := by
  unfold execFuseAck
  by_cases hr : s.inReset = true
  · exact ⟨s, s.env, live_reset hr _, ⟨rfl, rfl, id⟩, rfl⟩
  · rw [live_eq (Bool.eq_false_iff.2 hr)]
    dsimp only
    split
    · exact ⟨s, s.env, rfl, ⟨rfl, rfl, id⟩, rfl⟩
    · rename_i a _
      let f1 : Env → Env := fun e => if a = 0 then { e with fuseId := word } else { e with fuseLanes := spPut 0 e.fuseLanes a word }
      have e1 : f1 s.env = { s.env with fuseId := (f1 s.env).fuseId, fuseLanes := (f1 s.env).fuseLanes } := by
        simp only [f1]; split <;> rfl
      have h1 : Moved s (f1 s.env) (s.updEnv f1) := State.updEnv_moved s f1 (by rw [e1]) (by rw [e1]) (by rw [e1])
      let t := (s.updEnv f1).when (a == 0 && !(s.updEnv f1).fuseOk) (·.tickEnWrite false)
      have ht : Moved s (f1 s.env) t := h1.kept (State.when_kept _ _ _ (State.tickEnWrite_kept ..))
      have h2 : ∀ x, Moved s { f1 s.env with fuseAddr := x } (t.updEnv fun e => { e with fuseAddr := x }) := fun x =>
        ⟨congrArg (fun e : Env => { e with fuseAddr := x }) ht.env, ht.pending, fun i =>
          (State.updEnv_moved t (fun e => { e with fuseAddr := x }) rfl rfl rfl).inv (ht.inv i)⟩
      by_cases hc : a < 2 * modules t.member
      · refine ⟨_, { f1 s.env with fuseAddr := some (a + 1) }, congrArg _ (if_pos hc), (h2 _).kept (State.emit_kept ..), ?_⟩
        conv => lhs; rw [e1]
      · refine ⟨_, { f1 s.env with fuseAddr := none }, congrArg _ (if_neg hc),
          (h2 _).kept ((State.fuseModules_kept ..).trans (State.trainIfReady_kept ..)), ?_⟩
        conv => lhs; rw [e1]

/-- RESET_CLEAR_SWEEP_DONE: the sweep is over, unless the block is held in reset. -/
theorem execResetClearSweepDone_moved (s : State) : ∃ t, execResetClearSweepDone s = .next t ∧
    Moved s { s.env with sweepDone := s.env.sweepDone || !s.env.inReset } t := by
  unfold execResetClearSweepDone
  by_cases hr : s.inReset = true
  · refine ⟨s, live_reset hr _, ?_⟩
    rw [show s.env.inReset = true from hr, Bool.not_true, Bool.or_false]
    exact ⟨rfl, rfl, id⟩
  · refine ⟨_, live_eq (Bool.eq_false_iff.2 hr) _, ?_⟩
    rw [show s.env.inReset = false from Bool.eq_false_iff.2 hr, Bool.not_false, Bool.or_true]
    split
    · rename_i hd
      rw [← show s.env.sweepDone = true from hd]
      exact ⟨rfl, rfl, id⟩
    · exact (State.updEnv_moved s (fun e => { e with sweepDone := true }) rfl rfl rfl).kept (State.trainIfReady_kept ..)

/-- COLD_RESET: the straps are those sampled, the fuse read and the sweep begin anew, and the block is out of reset. -/
theorem execColdReset_moved (a o : Bool) (s : State) : ∃ t, execColdReset a o s = .next t ∧
    Moved s { now := s.env.now, member := s.env.member, clk := s.env.clk, aon := s.env.aon, strapTrain := a, strapOpen := o } t := by
  refine ⟨_, rfl, Moved.kept (t := s.coldReset a o) ?_ (State.wrapWaiting_kept ..)⟩
  refine ⟨rfl, rfl, fun h => ?_⟩
  exact ⟨⟨rfl, rfl, rfl, rfl, rfl, rfl, rfl, spWf_filter _ h.canonical.upset, rfl, rfl, rfl, rfl, rfl, rfl, rfl, rfl⟩,
    ⟨Nat.zero_lt_succ _, Nat.zero_le _⟩, h.clock⟩

/-- WARM_RESET: the sweep begins anew, and the block is out of reset. -/
theorem execWarmReset_moved (s : State) : ∃ t, execWarmReset s = .next t ∧
    Moved s { s.env with inReset := false, cold := false, sweepDone := false } t := by
  refine ⟨_, rfl, Moved.kept (t := s.warmReset) ?_ (State.wrapWaiting_kept ..)⟩
  unfold State.warmReset
  extract_lets _ _ _ t
  have ht : Moved s { s.env with inReset := false, cold := false, sweepDone := false } t := by
    refine ⟨rfl, rfl, fun h => ?_⟩
    have h1 : spWf (regReset s.env.member s.env.strapOpen) (s.regs.filter fun e => warmKeeps e.1) = true := spWf_filter _ h.canonical.regs
    have h8 : spWf (fun _ => 0) (s.upset.filter fun e => e.2 / 512 % 2 == 1) = true := spWf_filter _ h.canonical.upset
    exact ⟨⟨h1, spWf_nil _, spWf_nil _, spWf_nil _, spWf_nil _, spWf_nil _, spWf_nil _, h8, spWf_nil _, spWf_nil _, spWf_nil _,
      spWf_nil _, spWf_nil _, spWf_nil _, spWf_nil _, spWf_nil _⟩, ⟨Nat.zero_lt_succ _, Nat.zero_le _⟩, h.clock⟩
  clear_value t
  split
  · exact ht.kept (State.fuseModules_kept ..)
  · exact ht

/-- RESET_ASSERT: the block is in reset; a cold one also ends the fuse read. -/
theorem execResetAssert_moved (cold : Bool) (s : State) : ∃ t, execResetAssert cold s = .next t ∧
    Moved s { s.env with inReset := true, cold := s.env.cold || cold, fuseAddr := if cold then some 0 else s.env.fuseAddr } t := by
  refine ⟨_, rfl, rfl, rfl, fun ⟨⟨h1, h2, h3, h4, h5, h6, h7, h8, h9, h10, h11, h12, h13, h14, h15, h16⟩, ⟨h17, h18⟩, h19⟩ =>
    ⟨⟨spWf_filter _ h1, h2, h3, h4, h5, h6, h7, h8, h9, h10, h11, h12, h13, h14, h15, h16⟩, ⟨h17, h18⟩, h19⟩⟩

end Sys2Proof.Machine
end

