-- ==== Sys2Proof/Tests/Slice0.lean ====
section
/-! SUPPORT. Tests on small states, with expected values from the spec's tables and examples, and for every statement with hypotheses a witness
of them: concrete states and operands that meet the hypotheses of each of its clauses, at the ends of their ranges. -/
set_option Elab.async false

namespace Sys2Proof.Tests
open Sys2Proof Sys2Proof.Machine

/-- A block whose reset is over, its sequencer stopped and its link untrained. -/
def live : State := { State.reset with env := { State.reset.env with now := 3000000, fuseAddr := none, fuseId := 0xC0000000, sweepDone := true } }

/-- That block while a word issues at index 0. -/
def at_ (w : W64) : State := { live with pm := [(0, w)], seq := { st := .running } }

/-- That block with its link up on module 0. -/
def up : State := { live with mods := [(0, { st := .active, clkP := true, frmP := true })], trn := { st := 5, linkDown := false } }

/-- A root with its tick running, LOCKED at tick 7, whose next Solstice is due. -/
def ticking : State := { live with
  regs := [(0x2000, 6)], tick := { lock := 2, num := 7, phase8 := 8 * 2990400, nextSol := some 2999999 } }

/-- An empty message from die 1 on stream 0. -/
def msg0 : Msg :=
  { mtype := 0, poison := false, resend := false, stream := 0, tc := 0, sseq := 0, src := 1, dst := 0, optag := 0, arg := 0, data := [] }

/-- A message released on the link. -/
def rel0 (m : Msg) : Rel := { ord := 0, dom := 0, msg := m, due := none, tick := 0, held := false, psn := false, err := false }

theorem issues_at {w : W64} {op : Nat} (h : fld w 63 56 = op) : (at_ w).Issues op w :=
  ⟨rfl, rfl, rfl, rfl, rfl, rfl, Nat.zero_le _, rfl, rfl, h⟩

theorem hears {s : State} {x : SbMsg} {code len k : Nat}
    (h : s.inReset = false ∧ s.sbLive = true ∧ sbOk code len x = true ∧ sbModule x = k ∧ k < modules s.member) : s.Hears x code len k :=
  ⟨h.1, h.2.1, h.2.2.1, h.2.2.2.1, h.2.2.2.2⟩

/-! ## Witnesses -/

theorem wit_StepSafe : ({ live with pending := [.solstice, .data 15 (List.replicate 256 0)] } : State).queueOk = true ∧ live.queueOk = true := by decide +kernel

theorem wit_StepKeepsInv : up.Inv ∧ ∃ t, step up = .next t := by
  refine ⟨⟨?_, ?_, by decide +kernel⟩, _, rfl⟩
  · constructor <;> decide +kernel
  · constructor <;> decide +kernel

theorem wit_FaultsExactly : (Instr.data 16 []).wf = false ∧ (Instr.messageAdmission 3).wf = true := by decide

theorem wit_HeldInReset : Instr.solstice.wf = true ∧ ({ live with env := { live.env with inReset := true } } : State).inReset = true ∧
    actsInReset .solstice = false := by decide

theorem wit_EnvironmentKept : settles .trnCtrlGo = false ∧ ∃ t, exec .trnCtrlGo live = .next t := ⟨rfl, _, rfl⟩

theorem wit_ResetResults : live.bist.wait = none ∧ live.fuseAddr = none ∧ live.Canonical := by
  refine ⟨rfl, rfl, ?_⟩
  constructor <;> decide +kernel

theorem wit_FuseRead :
    (State.reset.inReset = false ∧ State.reset.fuseAddr = some 0 ∧ 0 < 2 * modules State.reset.member ∧ State.reset.sweepDone = false ∧
      State.reset.trn.goWait = false) ∧
    (let s := { live with env := { live.env with fuseAddr := some 31 } }
     s.fuseAddr = some 31 ∧ 31 < 2 * modules s.member) ∧
    (let s := { live with env := { live.env with fuseAddr := some 32 } }
     s.fuseAddr = some 32 ∧ 32 = 2 * modules s.member ∧ s.trn.goWait = false) := by decide

theorem wit_FutureTick : ({ live with tick := { num := 0xFFFFFFFFFFFF } } : State).tick.num < 2 ^ 48 ∧ live.tick.first = false ∧
    future 0x7FFFFFFFFFFF 0 = true ∧ future 0x800000000000 0 = false ∧ future 0 0xFFFFFFFFFFFF = true := by decide +kernel

theorem wit_TrainingStart :
    (live.inReset = false ∧ live.trainRuns = false ∧ live.resetOver = true ∧ live.cfgReady = true) ∧
    (State.reset.trainRuns = false ∧ State.reset.resetOver = false ∧ State.reset.cfgReady = true) ∧
    (let s := { live with trn := { st := 2, via := 15 } }
     s.Hears (sbMake 0x10 15 []) 0x10 0 15 ∧ s.trn.open_ = false ∧ s.trn.st = 2 ∧ s.trn.peer = []) ∧
    (let s := { live with trn := { st := 1 } }
     s.Hears (sbMake 0x10 15 []) 0x10 0 15 ∧ s.trn.open_ = false ∧ s.trn.st = 1 ∧ s.trn.nextSend ≤ s.now ∧ s.trn.since + s.dur 2400000 ≤ s.now) := by
  refine ⟨by decide, by decide, ⟨hears (by decide +kernel), by decide⟩, hears (by decide +kernel), by decide +kernel⟩

theorem wit_CapabilityExchange :
    let s := { live with trn := { st := 2 } }
    let r := { live with trn := { st := 2, peer := [0] } }
    let a := sbMake 0x12 0 [bf 64 31 0 (fld (live.capRecord.getD 7 0) 31 0)]
    (s.Hears (sbMake 0x11 0 live.capRecord) 0x11 8 0 ∧ recordValid (sbMake 0x11 0 live.capRecord).words = true ∧ s.trn.acked = false ∧ s.trn.peer = []) ∧
    (s.Hears (sbMake 0x11 0 (List.replicate 8 1)) 0x11 8 0 ∧ recordValid (List.replicate 8 1) = false) ∧
    (s.Hears a 0x12 1 0 ∧ fld (sbWord a 0) 31 0 = fld (s.capRecord.getD 7 0) 31 0) ∧
    (r.Hears a 0x12 1 0 ∧ fld (sbWord a 0) 31 0 = fld (r.capRecord.getD 7 0) 31 0 ∧ r.trn.peer ≠ []) := by
  refine ⟨⟨hears ?_, ?_⟩, ⟨hears ?_, ?_⟩, ⟨hears ?_, ?_⟩, hears ?_, ?_⟩ <;> decide +kernel

theorem wit_TrainingMessages :
    let s := { live with mods := [(0, { st := .training, tphase := 5 })], trn := { st := 3, rate := 2 } }
    let r := { s with trn := { st := 3, rate := 2, passMine := some true } }
    let p := sbMake 0x15 0 [0x25]
    (s.Hears (sbMake 0x13 0 [1, 0]) 0x13 2 0 ∧ (s.mod 0).st = .training ∧ (s.mod 0).laneGot = false) ∧
    (s.Hears (sbMake 0x14 0 [64]) 0x14 1 0 ∧ (s.mod 0).palGot = false) ∧
    (s.Hears p 0x15 1 0 ∧ fld (sbWord p 0) 3 0 = 5 ∧ fld (sbWord p 0) 7 4 = s.trn.rate ∧ s.trn.passMine = none) ∧
    (r.Hears p 0x15 1 0 ∧ r.trn.st = 3 ∧ r.trn.passMine = some true ∧ bit (sbWord p 0) 8 = false ∧
      (∀ k ∈ r.inTraining, (r.mod k).tphase ≤ 5 ∨ 8 ≤ (r.mod k).tphase) ∧ r.trn.rate ≠ 0) := by
  refine ⟨⟨hears ?_, ?_⟩, ⟨hears ?_, ?_⟩, ⟨hears ?_, ?_⟩, hears ?_, ?_⟩ <;> decide +kernel

theorem wit_TrainingPhases :
    let s := fun (n : Nat) (r : Option Retrain) => { live with mods := [(0, { st := .training, tphase := n, palGot := true, retrain := r })] }
    let k : Retrain := { since := 0, limitFrom := none, mine := true, reason := 1, answered := true, nextReq := 0, phase7 := false, gotFlit := false, planned := false }
    let o := { live with mods := [(15, { st := .active })], trn := { st := 2, open_ := true } }
    (((s 3 none).mod 0).st = .training ∧ ((s 3 none).mod 0).tphase = 3 ∧ (s 3 none).trn.open_ = false) ∧ ((s 4 none).mod 0).tphase = 4 ∧
    (((s 6 (some k)).mod 0).tphase = 6 ∧ ((s 6 (some k)).mod 0).retrain ≠ none) ∧
    (((s 7 (some k)).mod 0).tphase = 7 ∧ ((s 7 (some k)).mod 0).palGot = true ∧ ((s 7 (some k)).mod 0).retrain = some k) ∧
    (o.inReset = false ∧ 15 < modules o.member ∧ o.trn.open_ = true ∧ (o.mod 15).carries = true ∧ o.trn.st = 2) ∧
    (let t := { live with trn := { st := 2 } }
     t.trn.open_ = false ∧ t.trn.nextSend ≤ t.now ∧ t.trn.st = 2 ∧ t.trn.acked = false ∧ t.trn.passMine = none ∧
      ∀ k < modules t.member, (t.mod k).st ≠ .training) := by decide +kernel

theorem wit_SolsticeResult :
    let e := fun (w : W32) (q : Seq) => { live with regs := [(0x201C, 1), (0x2400, w)], seq := q }
    let p : Prog := { tick := 4, slot := 4, entry := 16383, deadline := 8, serial := 1 }
    (ticking.inReset = false ∧ ticking.seq.stopReq = none ∧ ticking.tickOn = true ∧ ticking.byPulse = false ∧ ticking.tick.nextSol = some 2999999 ∧
      2999999 ≤ ticking.now ∧ ticking.sounds = true ∧ ({ ticking with tick := { ticking.tick with mute := some 99 } } : State).sounds = false) ∧
    ((e 0 { st := .waiting, prog := some p }).seq.prog = some p ∧ future p.deadline 7 = true ∧ future p.deadline 8 = false) ∧
    (bit ((e 0x80F00000 {}).rg 0x2400) 31 = true ∧ bit ((e 0x70000000 {}).rg 0x2400) 31 = false ∧ (e 0x80F00000 {}).upsetAt 3 128 = 0 ∧
      (∀ st ∈ [SeqSt.stopped, .halted, .trapped, .idle, .running, .waiting], (e 0x80F00000 { st := st }).seq.st = st ∧
        (e 0x80F00000 { st := st }).seq.defer = none) ∧
      (e 0x80F00000 { st := .idle, defer := some p }).seq.defer ≠ none ∧ ∀ u, (e 0x80F00000 { startAt := some 4 }).seq.startAt = some u → u < 5) := by
  decide +kernel

theorem wit_OverrunAndDefer :
    let p : Prog := { tick := 4, slot := 4, entry := 16383, deadline := 8, serial := 1 }
    let s := fun (q : Seq) => { ticking with seq := { q with prog := some p } }
    let halts := { s { st := .running, nextAt := 3000001 } with regs := [(0x2000, 0x26)] }
    let d := { ticking with seq := { st := .idle, defer := some p, endAt := 2999996, deferAt := 3000000 } }
    (live.inReset = false ∧ ticking.seq.stopReq = none ∧ ticking.solNow = true ∧ ticking.late 8 = false ∧ live.solNow = false) ∧
    ((s { st := .running }).solNow = true ∧ (s { st := .running }).nextTick = 8 ∧ (s { st := .running }).late 8 = true ∧
      (s { st := .running }).seq.ovrAt ≠ some 8 ∧ (s { st := .running }).rf 0x2000 5 4 ≠ 2) ∧
    (halts.solNow = true ∧ halts.late 8 = true ∧ halts.rf 0x2000 5 4 = 2 ∧ halts.seq.st = .running ∧ halts.now < halts.seq.nextAt) ∧
    (d.inReset = false ∧ d.seq.stopReq = none ∧ d.seq.defer = some p ∧ d.tickOn = true ∧ d.seq.st = .idle ∧ d.seq.endAt + 4 ≤ d.now ∧
      d.seq.deferAt ≤ d.now) := by decide +kernel

theorem wit_TickControl :
    let r := { live with regs := [(0x2000, 2)] }
    let on := fun (role : Nat) => { live with regs := [(0x2000, BitVec.ofNat 32 (4 + role))], tick := { lock := 2, miss := 16 } }
    let mw := fun (role : Nat) => { on role with pwr := { st := 4 } }
    let f := { live with regs := [(0x2000, 4), (0x2004, 1200)], tick := { lock := 2, phase8 := 8 * 2998801 } }
    let h := fun (ty : BitVec 8) (a : W64) => { rel0 { msg0 with mtype := ty, arg := a } with held := true }
    let rel := fun r => { live with rel := [r], regs := [(0x70040, 5)], tick := { num := 5 } }
    (live.cfgReady = true ∧ live.tickOn = false ∧ live.blank = false ∧ r.tickOn = false ∧ r.tickRole = 2) ∧ (on 0).tickOn = true ∧
    (let b := { live with env := { live.env with fuseId := 0 } }
     b.tickOn = false ∧ b.blank = true ∧ b.die = 0) ∧ (live.tickOn = false ∧ (2 : BitVec 2) ≠ 3 ∧ live.die = 0 ∧ live.blank = false) ∧
    (let s := { live with env := { live.env with fuseId := 0x01000000 } }
     s.tickOn = false ∧ s.blank = true ∧ s.die ≠ 0) ∧
    ((on 1).tickRole ≠ 2 ∧ (on 1).byPulse = false ∧ (on 2).tickOn = true ∧ (on 2).tickRole = 2) ∧
    (f.tickOn = true ∧ f.byPulse = true ∧ 8 * f.now < f.tick.phase8 + 8 * f.period ∧ f.tick.phase8 % 8 = 0 ∧ 0 < f.period) ∧
    ((mw 1).pwr.st = 4 ∧ (mw 1).tickOn = true ∧ (mw 1).tickRole ≠ 2 ∧ (mw 2).tickRole = 2) ∧
    (live.tick.lock = 0 ∧ live.digestAt + 4800 ≤ live.now) ∧ ({ live with digestAt := 2995201 } : State).now < 2995201 + 4800 ∧
    ((rel (h 0x10 0)).rel.filter (rel (h 0x10 0)).heldOver = [h 0x10 0] ∧ (h 0x10 0).msg.mtype = 0x10) ∧
    ((rel (h 0x11 0)).rel.filter (rel (h 0x11 0)).heldOver = [h 0x11 0] ∧ (h 0x11 0).msg.mtype = 0x11) ∧
    ((rel (h 0x12 0)).rel.filter (rel (h 0x12 0)).heldOver = [h 0x12 0] ∧ (h 0x12 0).msg.mtype = 0x12) ∧
    ((on 1).tickOn = true ∧ (on 1).tickRole = 1 ∧ 16 ≤ (on 1).tick.miss) ∧
    ({ on 1 with tick := { lock := 2, miss := 14 } } : State).tick.miss + 1 < 16 := by decide +kernel

/-! ## Flits -/

/-- A flit of a type and a payload (filled with zeros) on stream 0. -/
def fl (type : Nat) (b : List Byte) (seed : Nat) : List Byte :=
  flitMake (flitHeader type 0 0 4095 0) (b ++ List.replicate (240 - b.length) 0) seed

/-- A control flit of a subtype, with bytes from 6 on. -/
def ctl (sub : Byte) (b : List Byte) : List Byte := fl 3 (sub :: 0 :: b) 0x1FFF

theorem accepts {s : State} {f g : List Byte} {fixed : List Nat} {p n q : Nat} (h : rxClass f p n = .good g fixed q) (hf : f.length = 256)
    (hs : s.inReset = false ∧ (s.mod 0).receives = true ∧ s.openMode = false ∧ (s.mod 0).p = p ∧ (s.mod 0).n = n) : s.Accepts 0 f g fixed q := by
  refine ⟨hs.1, by simp [flitWf, hf], ?_⟩
  simp [State.rxGood, hs.2.1, hs.2.2.1, hs.2.2.2.1, hs.2.2.2.2, h]

set_option maxRecDepth 100000

def fMark : List Byte := ctl 1 [7, 0, 0, 0, 0, 0, 0, 0]

theorem good_mark : rxClass fMark 4095 0 = .good fMark [] 0x1FFF ∧ fMark.length = 256 := by decide +kernel

def fCredit : List Byte := ctl 2 []

theorem good_credit : rxClass fCredit 4095 0 = .good fCredit [] 0x1FFF ∧ fCredit.length = 256 := by decide +kernel

def fFlow : List Byte := ctl 3 []

theorem good_flow : rxClass fFlow 4095 0 = .good fFlow [] 0x1FFF ∧ fFlow.length = 256 := by decide +kernel

def fRep1 : List Byte := ctl 4 [15, 1, 9, 2, 0xFF, 0xFF, 0xFF, 0xFF, 9]

theorem good_rep1 : rxClass fRep1 4095 0 = .good fRep1 [] 0x1FFF ∧ fRep1.length = 256 := by decide +kernel

def fRep2 : List Byte := ctl 4 [0, 2, 9]

theorem good_rep2 : rxClass fRep2 4095 0 = .good fRep2 [] 0x1FFF ∧ fRep2.length = 256 := by decide +kernel

def fRep3 : List Byte := ctl 4 [0, 3, 9]

theorem good_rep3 : rxClass fRep3 4095 0 = .good fRep3 [] 0x1FFF ∧ fRep3.length = 256 := by decide +kernel

def fRep4 : List Byte := ctl 4 [0, 4, 9]

theorem good_rep4 : rxClass fRep4 4095 0 = .good fRep4 [] 0x1FFF ∧ fRep4.length = 256 := by decide +kernel

def fRtr : List Byte := ctl 5 [0, 2]

theorem good_rtr : rxClass fRtr 4095 0 = .good fRtr [] 0x1FFF ∧ fRtr.length = 256 := by decide +kernel

def fSub6 : List Byte := ctl 6 []

theorem good_sub6 : rxClass fSub6 4095 0 = .good fSub6 [] 0x1FFF ∧ fSub6.length = 256 := by decide +kernel

def fIdle : List Byte := fl 0 [] 0x1FFF

theorem good_idle : rxClass fIdle 4095 0 = .good fIdle [] 0x1FFF ∧ fIdle.length = 256 := by decide +kernel

def fData : List Byte := fl 1 [] 0

theorem good_data : rxClass fData 4095 0 = .good fData [] 0 ∧ fData.length = 256 := by decide +kernel

def fRetx : List Byte := fl 2 [] 0

theorem good_retx : rxClass fRetx 4095 0 = .good fRetx [] 0 ∧ rxClass fRetx 4095 1 = .good fRetx [] 0 ∧ fRetx.length = 256 := by decide +kernel

def fType4 : List Byte := fl 4 [] 0x1FFF

theorem good_type4 : rxClass fType4 4095 0 = .good fType4 [] 0x1FFF ∧ fType4.length = 256 := by decide +kernel

theorem wit_TickPulseResult :
    let f := fun (l : BitVec 2) => { live with regs := [(0x2000, 4), (0x2004, 1200)], tick := { lock := l, num := 7, phase8 := 8 * 2998800 } }
    let run := fun (k : Cand) => { f 1 with tick := { (f 1).tick with cand := some k } }
    (live.inReset = false ∧ live.seq.stopReq = none ∧ live.tickOn = false ∧ (f 1).tickOn = true ∧ (f 1).tickRole = 0) ∧
    ((f 2).tick.lock = 2 ∧ (8#48).toNat = (f 2).nextTick ∧ 8 * (f 2).now = (f 2).tick.phase8 + 8 * (f 2).period) ∧
    (let s := { f 2 with tick := { (f 2).tick with phase8 := 8 * 3000000 } }
     (7#48).toNat = s.tick.num ∧ 8 * s.now = s.tick.phase8 ∧ (7#48).toNat ≠ s.nextTick) ∧
    ((9#48).toNat ≠ (f 2).nextTick ∧ (9#48).toNat ≠ (f 2).tick.num ∧ 8 * (f 2).now ≠ (f 2).tick.phase8) ∧
    ((f 1).tick.lock = 1 ∧ (f 1).tick.cand = none ∧ (f 3).tick.lock = 3) ∧
    (let c : Cand := { num := 0xFFFFFFFFFFFF, phase8 := 8 * 2998800 - 1, run := 3 }
     (run c).tick.cand = some c ∧ (0#48).toNat = (c.num + 1) % 2 ^ 48 ∧
      ((8 * (run c).now : Nat) : Int) - ((c.phase8 + 8 * (run c).period : Nat) : Int) = 1 ∧ 3 ≤ c.run) ∧
    (let c : Cand := { num := 7, phase8 := 8 * 2998800 - 2, run := 1 }
     (run c).tick.cand = some c ∧ 1 < ((8 * (run c).now : Nat) : Int) - ((c.phase8 + 8 * (run c).period : Nat) : Int) ∧ c.run < 3) := by
  decide +kernel

/-- The block with its link up, the tick LOCKED at tick 7. -/
def upAt7 : State := { up with regs := [(0x2000, 4)], tick := { lock := 2, num := 7 } }

theorem wit_MarkerResult :
    (up.Accepts 0 fMark fMark [] 0x1FFF ∧ flitType fMark = 3 ∧ (fMark.getD 4 0).toNat = 1) ∧
    (let u := { upAt7 with regs := [(0x2000, 5)] }
     (u.tickOn = true ∧ u.openMode = false ∧ u.tickRole = 1 ∧ u.rf 0x2000 11 8 = 0 ∧ u.rf 0x2000 11 8 ≠ 15 ∧ u.tick.lock = 2 ∧ 7 = u.tick.num ∧
       8 ≠ u.tick.num) ∧
     (let e := fun (a : Int) => a - ((u.mod 0).marker8 : Int) - ((0 : Nat) : Int) - (u.tick.phase8 : Int)
      (-4 ≤ e 4 ∧ e 4 ≤ 4) ∧ 4 < e 5)) ∧
    (let u := { up with regs := [(0x2000, 5)], tick := { lock := 1 } }
     u.tickRole = 1 ∧ u.tick.lock = 1 ∧ u.tick.cand = none) ∧
    (let u := { upAt7 with regs := [(0x2000, 6)] }
     u.tickOn = true ∧ u.openMode = false ∧ u.tickRole = 2 ∧ u.locked = true ∧ ({ u with tick := { lock := 1 } } : State).locked = false) := by
  refine ⟨⟨accepts good_mark.1 good_mark.2 (by decide +kernel), ?_⟩, ?_⟩ <;> decide +kernel

theorem wit_CommitRequests :
    let c : CommitReq := { target := none, viaSeq := false, at_ := 0, flag := none }
    let s := { live with regs := [(0x1008, 1)] }
    (live.cfgReady = true ∧ live.cc.late = false ∧ live.commit = none ∧ ({ live with cc := { live.cc with late := true } } : State).cc.late = true) ∧
    (s.commit = none ∧ future ((s.rg64 0x1008).toNat % 2 ^ 48) s.tick.num = true) ∧
    (live.commit = none ∧ future ((live.rg64 0x1008).toNat % 2 ^ 48) live.tick.num = false) ∧ ({ live with commit := some c } : State).commit ≠ none ∧
    (let f : CommitReq := { target := none, viaSeq := true, at_ := 3000000, flag := some 7 }
     ({ live with commit := some f } : State).commit = some f ∧ f.viaSeq = true ∧ f.at_ = live.now ∧ c.viaSeq = false) ∧
    ((at_ 0x8000010000000000).Issues 0x80 0x8000010000000000 ∧ zeros (0x8000010000000000 : W64) 45 41 = [] ∧ zeros (0x8000010000000000 : W64) 38 0 = [] ∧
      bit (0x8000010000000000 : W64) 39 = false ∧ zeros (0x8000010000000000 : W64) 55 51 = [] ∧ zeros (0x8000010000000000 : W64) 50 46 = []) ∧
    ((at_ 0x8038008000000000).Issues 0x80 0x8038008000000000 ∧ zeros (0x8038008000000000 : W64) 45 41 = [] ∧ zeros (0x8038008000000000 : W64) 38 0 = [] ∧
      bit (0x8038008000000000 : W64) 39 = true ∧ fRd 0x8038008000000000 < 8 ∧ bit (0x8038008000000000 : W64) 40 = false) := by
  refine ⟨?_, ?_, ?_, ?_, ?_, ⟨issues_at ?_, ?_⟩, issues_at ?_, ?_⟩ <;> decide +kernel

theorem wit_CommitAtSolstice :
    let c := fun (t : Option Nat) => ({ target := t, viaSeq := false, at_ := 0, flag := none } : CommitReq)
    let s := { live with tick := { num := 7 } }
    let b := { s with shadow := [(0x2004, 599)] }
    let d := { s with shadow := [(0x2004, 600)] }
    let l := { d with tick := { num := 7, lock := 2 } }
    (({ s with commit := some (c (some 8)) } : State).commit = some (c (some 8)) ∧ future 8 s.tick.num = true) ∧
    (future 6 s.tick.num = false ∧ 6 ≠ s.tick.num) ∧ ((c none).target = none ∧ (c none).at_ < 1 ∧ 0 ≤ (c none).at_ ∧ (c (some 7)).target = some s.tick.num) ∧
    (b.outOfRange = [0x2004] ∧ 0x2004 < 2 ^ 20) ∧ (d.outOfRange = [] ∧ d.digestInput true ≠ d.digestInput false ∧ d.locked = false) ∧
    (l.outOfRange = [] ∧ l.locked = true) ∧ (s.outOfRange = [] ∧ s.digestInput true = s.digestInput false) := by decide +kernel

theorem wit_PortResults :
    let half := { live with merge := [{ addr := 0x8000, lo := some 1, hi := none, since := 2999936 }] }
    let e : State := { live with portRd := none, portWr := none }
    let row := fun (o : Nat) (d : W32) (hf : Nat) (rws w1c : Bool) => ∃ r, regRow (modules live.member) o = some r ∧ r.half = hf ∧ (r.rws != 0) = rws ∧
      (r.w1c != 0) = w1c ∧ merges o = false ∧ e.writeSpecial o d = none
    (live.cfgReady = true ∧ live.seq.stopReq = none ∧ live.sweepDone = true ∧ live.hits = [] ∧ live.solNow = false ∧ ticking.solNow = true ∧
      ({ live with cfgq := List.replicate 8 (0, 0) } : State).cfgReady = false ∧ live.inReset = false) ∧
    (row 0x34 0xFF 0 false false ∧ row 0x2004 600 0 true false ∧ ((regRow (modules live.member) 0x2004).map fun r => (r.rw, r.w1c)) = some (0, 0) ∧
      0x34 < 0x30400) ∧
    (row 0x1008 7 1 false false ∧ row 0x100C 7 2 false false ∧ ((regRow (modules live.member) 0x1008).map (·.rws)) = some 0 ∧
      ({ live with portWr := some (0x1008, 5) } : State).portWr = some (0x100C - 4, 5) ∧ live.portWr = none) ∧
    ((0x30200#20).toNat / 4 * 4 = 0x30200 ∧ live.seqOpen = true ∧ (at_ 0).seqOpen = false ∧ (0x301FC#20).toNat / 4 * 4 = 0x30104 + 8 * 31) ∧
    (({ live with portRd := some (0x200C, 5) } : State).portRd = some (0x200C, 5)) ∧
    (live.portRd = none ∧ merges 0x2008 = false ∧ memWords 0x2008 = []) ∧ (inPm 0x5FFF8 = true ∧ live.merge = []) ∧
    (inPm 0x40004 = true ∧ 0x40004 % 8 = 4 ∧ half.merge = [{ addr := 0x40004 / 8, lo := some 1, hi := none, since := 2999936 }] ∧
      2999936 + 64 ≤ half.now) ∧
    (∀ e ∈ ({ live with merge := [{ addr := 0x8000, lo := some 1, hi := none, since := 2999937 }] } : State).merge, live.now < e.since + 64) := by
  refine ⟨?_, ⟨⟨_, rfl, ?_⟩, ⟨_, rfl, ?_⟩, ?_⟩, ⟨⟨_, rfl, ?_⟩, ⟨_, rfl, ?_⟩, ?_⟩, ?_, ?_, ?_, ?_, ?_, ?_⟩ <;> decide +kernel

theorem wit_WindowInstructions :
    let rd32 : W64 := 0x8108000000002004
    let rd64 : W64 := 0x8108004000002008
    let bad : W64 := 0x8108000000000002
    let bad64 : W64 := 0x8108004000002004
    let wr32 := fun (o : Nat) => BitVec.ofNat 64 (0x8100008000000000 + o)
    let latched := { at_ (wr32 0x7037C) with seq := { st := .running, wrLatch := some (0x70378, 5) } }
    let emit : W64 := 0x810800C000000000
    ((at_ bad).Issues 0x81 bad ∧ offTelem false bad = [] ∧ fld bad 19 0 % 4 ≠ 0 ∧ fld bad 39 38 = 0) ∧
    ((at_ bad64).Issues 0x81 bad64 ∧ offTelem false bad64 = [] ∧ fld bad64 19 0 % 8 = 4 ∧ fld bad64 39 38 = 1) ∧
    ((at_ rd32).Issues 0x81 rd32 ∧ (at_ rd32).seq.pc < 16383 ∧ offTelem false rd32 = [] ∧ fld rd32 39 38 = 0 ∧ memWords 0x2004 = [] ∧
      merges 0x2004 = false) ∧
    ((at_ rd64).Issues 0x81 rd64 ∧ offTelem false rd64 = [] ∧ fld rd64 39 38 = 1 ∧ memWords 0x2008 = [] ∧ memWords 0x200C = [] ∧
      merges 0x2008 = false) ∧
    ((at_ (wr32 0x2004)).Issues 0x81 (wr32 0x2004) ∧ offTelem false (wr32 0x2004) = [] ∧ fld (wr32 0x2004) 39 38 = 2 ∧
      (at_ (wr32 0x2004)).seq.wrPend = none ∧ wr32Ok 16 0x2004 = true ∧ (regRow 16 0x2004).map (·.half) = some 0 ∧ wr32Ok 16 0x34 = false) ∧
    (wr32Ok 16 0x78000 = true ∧ (regRow 16 0x78000).map (·.half) = some 1 ∧ inCal 0x78000 = true ∧ wr32Ok 16 0x70378 = true ∧
      (regRow 16 0x70378).map (·.half) = some 1 ∧ inCal 0x70378 = false) ∧
    (wr32Ok 16 0x7037C = true ∧ (regRow 16 0x7037C).map (·.half) = some 2 ∧ latched.seq.wrLatch = some (0x7037C - 4, 5) ∧ (at_ 0).seq.wrLatch = none) ∧
    ((at_ emit).Issues 0x81 emit ∧ offTelem true emit = [] ∧ fld emit 39 38 = 3) := by
  refine ⟨⟨issues_at ?_, ?_⟩, ⟨issues_at ?_, ?_⟩, ⟨issues_at ?_, ?_⟩, ⟨issues_at ?_, ?_⟩, ⟨issues_at ?_, ?_⟩, ?_, ?_, issues_at ?_, ?_⟩ <;>
    decide +kernel

/-- An instruction word: opcode, RD, RA, RB and the bits below 41. -/
def wd (op rd ra rb low : Nat) : W64 := BitVec.ofNat 64 (op * 2 ^ 56 + rd * 2 ^ 51 + ra * 2 ^ 46 + rb * 2 ^ 41 + low)

theorem wit_AluResults :
    ((at_ (wd 0x0B 31 1 2 0)).Issues 0x0B (wd 0x0B 31 1 2 0) ∧ zeros (wd 0x0B 31 1 2 0) 40 0 = [] ∧ (at_ 0).seq.pc < 16383) ∧
    ((at_ (wd 0x11 3 1 2 0x10000000000)).Issues 0x11 (wd 0x11 3 1 2 0x10000000000) ∧ zeros (wd 0x11 3 1 2 0x10000000000) 39 0 = []) ∧
    ((at_ (wd 0x0A 3 1 0 0x80000000)).Issues 0x0A (wd 0x0A 3 1 0 0x80000000) ∧ zeros (wd 0x0A 3 1 0 0x80000000) 45 32 = []) := by
  refine ⟨⟨issues_at ?_, ?_⟩, ⟨issues_at ?_, ?_⟩, issues_at ?_, ?_⟩ <;> decide

theorem wit_RegisterWrite : (31 : Nat) ≠ 0 ∧ (30 : Nat) ≠ 31 := by decide

theorem wit_MoveResults :
    let li := wd 0x09 1 0 0 0xFFFF
    let li1 := wd 0x09 1 8 0 0xFFFF
    let cmp := wd 0x13 7 1 0 0x1A000000005
    let ldd := wd 0x14 1 2 0 0x1FF00000003
    let m := fun (op low : Nat) => wd op 1 0 0 low
    ((at_ li).Issues 0x09 li ∧ zeros li 48 48 = [] ∧ fld li 50 49 = 0) ∧ ((at_ li1).Issues 0x09 li1 ∧ zeros li1 48 48 = [] ∧ fld li1 50 49 = 1 ∧ zeros li1 47 16 = []) ∧
    ((at_ cmp).Issues 0x13 cmp ∧ offK cmp = [] ∧ (cmpCond (fld cmp 39 37) 0 5).isSome = true) ∧
    ((at_ ldd).Issues 0x14 ldd ∧ zeros ldd 45 41 = [] ∧ zeros ldd 31 2 = [] ∧ (at_ ldd).upsetAt 1 1023 = 0) ∧
    ((at_ (m 0x16 4)).Issues 0x16 (m 0x16 4) ∧ zeros (m 0x16 4) 45 16 = [] ∧ fld (m 0x16 4) 15 0 % 8 ≠ 0) ∧
    ((at_ (m 0x16 0xFF8)).Issues 0x16 (m 0x16 0xFF8) ∧ fld (m 0x16 0xFF8) 15 0 < 0x1000 ∧ (at_ (m 0x16 0xFF8)).upsetAt 2 511 = 0) ∧
    ((at_ (m 0x17 0x1000)).Issues 0x17 (m 0x17 0x1000) ∧ 0x1000 ≤ fld (m 0x17 0x1000) 15 0 ∧ fld (m 0x17 0x11F8) 15 0 < 0x1200) ∧
    ((at_ (m 0x17 0x1200)).Issues 0x17 (m 0x17 0x1200) ∧ 0x1200 ≤ fld (m 0x17 0x1200) 15 0) := by
  refine ⟨⟨issues_at ?_, ?_⟩, ⟨issues_at ?_, ?_⟩, ⟨issues_at ?_, ?_⟩, ⟨issues_at ?_, ?_⟩, ⟨issues_at ?_, ?_⟩, ⟨issues_at ?_, ?_⟩, ⟨issues_at ?_, ?_⟩,
    issues_at ?_, ?_⟩ <;> decide

theorem wit_ControlResults :
    let at16383 := fun w => { at_ 0 with pm := [(16383, w)], seq := { st := .running, pc := 16383 } }
    let deep := { at_ (wd 0x06 0 0 0 16383) with seq := { st := .running, stack := List.replicate 8 0 } }
    let one := { at_ (wd 0x07 0 0 0 0) with seq := { st := .running, stack := [16383] } }
    let count := fun n => { at_ (wd 0x05 1 0 0 5) with g := [(1, n)] }
    ((at_ (wd 0 0 0 0 0)).Issues 0 (wd 0 0 0 0 0) ∧ zeros (wd 0 0 0 0 0) 55 0 = []) ∧ ((at16383 0).Issues 0 0 ∧ (at16383 0).seq.pc = 16383) ∧
    (at_ (wd 1 0 0 0 0)).Issues 1 (wd 1 0 0 0 0) ∧
    ((at_ (wd 3 0 1 0 0x10000000000)).Issues 3 (wd 3 0 1 0 0x10000000000) ∧ offB (wd 3 0 1 0 0x10000000000) = []) ∧
    ((at_ (wd 6 0 0 0 16383)).Issues 6 (wd 6 0 0 0 16383) ∧ offB (wd 6 0 0 0 16383) = [] ∧ (at_ 0).seq.stack.length < 8) ∧
    (deep.Issues 6 (wd 6 0 0 0 16383) ∧ deep.seq.stack.length = 8) ∧
    (one.Issues 7 (wd 7 0 0 0 0) ∧ one.seq.stack.getLast? = some 16383) ∧ ((at_ (wd 7 0 0 0 0)).Issues 7 (wd 7 0 0 0 0) ∧ (at_ (wd 7 0 0 0 0)).seq.stack = []) ∧
    ((at_ (wd 4 7 0 0 0x10000000001)).Issues 4 (wd 4 7 0 0 0x10000000001) ∧ fRd (wd 4 7 0 0 0x10000000001) < 8 ∧
      ((at_ 0).flag 7 != bit (wd 4 7 0 0 0x10000000001) 40) = true) ∧
    ((at_ (wd 4 7 0 0 1)).Issues 4 (wd 4 7 0 0 1) ∧ (at_ 0).flag 7 = bit (wd 4 7 0 0 1) 40 ∧ zeros (wd 4 7 0 0 1) 50 41 = [] ∧ zeros (wd 4 7 0 0 1) 39 14 = []) ∧
    ((count 2).Issues 5 (wd 5 1 0 0 5) ∧ fRd (wd 5 1 0 0 5) ≠ 0 ∧ zeros (wd 5 1 0 0 5) 50 40 = [] ∧ zeros (wd 5 1 0 0 5) 39 14 = [] ∧
      (count 2).greg 1 - 1 ≠ 0 ∧ (count 1).greg 1 - 1 = 0 ∧ (count 0).greg 1 = 0) ∧
    ((at_ (wd 5 0 0 0 5)).Issues 5 (wd 5 0 0 0 5) ∧ fRd (wd 5 0 0 0 5) = 0) ∧
    ((at_ (wd 8 0 0 0 0xFFFF)).Issues 8 (wd 8 0 0 0 0xFFFF) ∧ zeros (wd 8 0 0 0 0xFFFF) 55 16 = []) ∧
    ((at_ 0xFFFFFFFFFFFFFFFF).Issues 0xFF 0xFFFFFFFFFFFFFFFF ∧ opcodeOk 0xFF = false) ∧
    (let ended := fun n => { live with seq := { st := .running, pc := 16383, pcEnd := true, nextAt := n } }
     (ended 0).seq.stopReq = none ∧ (ended 0).seq.wait = none ∧ (ended 0).seq.pcEnd = true ∧ (ended 0).seq.st = .running ∧
      (ended 3000000).seq.nextAt ≤ live.now ∧ live.now < (ended 3000001).seq.nextAt) := by
  refine ⟨⟨issues_at ?_, ?_⟩, ⟨⟨rfl, rfl, rfl, rfl, rfl, rfl, Nat.zero_le _, rfl, rfl, rfl⟩, ?_⟩, issues_at ?_, ⟨issues_at ?_, ?_⟩, ⟨issues_at ?_, ?_⟩,
    ⟨⟨rfl, rfl, rfl, rfl, rfl, rfl, Nat.zero_le _, rfl, rfl, rfl⟩, ?_⟩, ⟨⟨rfl, rfl, rfl, rfl, rfl, rfl, Nat.zero_le _, rfl, rfl, rfl⟩, ?_⟩, ⟨issues_at ?_, ?_⟩,
    ⟨issues_at ?_, ?_⟩, ⟨issues_at ?_, ?_⟩, ⟨⟨rfl, rfl, rfl, rfl, rfl, rfl, Nat.zero_le _, rfl, rfl, rfl⟩, ?_⟩, ⟨issues_at ?_, ?_⟩, ⟨issues_at ?_, ?_⟩,
    ⟨issues_at ?_, ?_⟩, ?_⟩ <;> decide

theorem wit_TrapEffect : 0xFF < 256 ∧ ((at_ (wd 0x0B 1 2 3 1)).Issues 0x0B (wd 0x0B 1 2 3 1) ∧ zeros (wd 0x0B 1 2 3 1) 40 0 ≠ []) ∧
    ((at_ (wd 2 0 0 0 1)).Issues 2 (wd 2 0 0 0 1) ∧ zeros (wd 2 0 0 0 1) 55 0 ≠ []) ∧
    ((at_ (wd 0x0A 0 0 16 0)).Issues 0x0A (wd 0x0A 0 0 16 0) ∧ zeros (wd 0x0A 0 0 16 0) 45 32 ≠ []) ∧
    ((at_ 0).seq.pcEnd = false ∧ (at_ 0).seq.wait = none ∧ (at_ 0).seq.stall = none ∧ ({ pcEnd := true } : Seq).pcEnd = true) := by
  refine ⟨?_, ⟨issues_at ?_, ?_⟩, ⟨issues_at ?_, ?_⟩, ⟨issues_at ?_, ?_⟩, ?_⟩ <;> decide

theorem wit_SyncResults :
    let wt := wd 0x21 7 0 0 0x13F00050000
    let pl := wd 0x21 7 0 0 0x1BF00050000
    let fe := wd 0x22 0 0 0 0x8000000000
    let op : Op := { tag := 0, iss := default, serial := 0, issuedAt := 0, phase := .run }
    let fenced := { at_ fe with ops := [op] }
    let w := fun x => { live with seq := { st := .waiting, wait := some x }, ev := [(63, 5)] }
    ((at_ (wd 2 0 0 0 0)).Issues 2 (wd 2 0 0 0 0) ∧ zeros (wd 2 0 0 0 0) 55 0 = []) ∧
    ((at_ wt).Issues 0x21 wt ∧ zeros wt 45 41 = [] ∧ bit wt 40 = true ∧ fRd wt < 8 ∧ evReached ((at_ wt).evc 63) 5 = false ∧ bit wt 39 = false ∧
      evReached (5 : W64) 5 = true ∧ bit wt 38 = false) ∧ ((at_ pl).Issues 0x21 pl ∧ bit pl 39 = true) ∧
    (fenced.Issues 0x22 fe ∧ zeros fe 55 41 = [] ∧ zeros fe 38 38 = [] ∧ zeros fe 31 0 = [] ∧
      fenced.fenceScope (bit fe 39) (bit fe 40) (fld fe 37 32) ≠ [] ∧ (at_ fe).fenceScope (bit fe 39) (bit fe 40) (fld fe 37 32) = []) ∧
    (live.inReset = false ∧ (w .tick).seq.stopReq = none ∧ (w .tick).seq.st = .waiting ∧ (w .tick).seq.pc < 16383 ∧ evReached ((w .tick).evc 63) 5 = true ∧
      evReached ((w .tick).evc 63) 6 = false ∧ 3000000 ≤ (w .tick).now ∧ ∀ o ∈ (w (.fence [0])).ops, o.uid ∉ [0]) ∧
    ((w (.timed 63 5 (some 7) false)).seq.wait = some (.timed 63 5 (some 7) false) ∧
      (w (.ev 63 6 (some 3000000) none true)).seq.wait = some (.ev 63 6 (some 3000000) none true) ∧
      (w (.tickEnd 3000000)).seq.wait = some (.tickEnd 3000000) ∧ live.now < 3000001) := by
  refine ⟨⟨issues_at ?_, ?_⟩, ⟨issues_at ?_, ?_⟩, ⟨issues_at ?_, ?_⟩, ⟨⟨rfl, rfl, rfl, rfl, rfl, rfl, Nat.zero_le _, rfl, rfl, rfl⟩, ?_⟩, ?_, ?_⟩ <;> decide +kernel

theorem wit_SignalResults :
    let far := wd 0x20 0 0 0 0x1000000FFF
    let own := wd 0x20 0 0 0 0x0000000001
    let op : Op := { tag := 255, iss := { (default : Iss) with opcode := 0x20 }, serial := 0, issuedAt := 0, phase := .run }
    let s := { live with ops := [op] }
    ((at_ far).Issues 0x20 far ∧ offG far = [] ∧ (at_ far).freeTag = some 0 ∧ (at_ far).unadmitted < 64 ∧ fld far 39 36 ≠ (at_ far).die) ∧
    ((at_ own).Issues 0x20 own ∧ fld own 39 36 = (at_ own).die) ∧
    (s.inReset = false ∧ s.op? 255 = some op ∧ op.iss.opcode = 0x20 ∧ op.phase = .run ∧ ∀ p ∈ s.ops, p.uid ∉ op.fence) := by
  refine ⟨⟨issues_at ?_, ?_⟩, ⟨issues_at ?_, ?_⟩, ?_⟩ <;> decide +kernel

theorem wit_CounterIncrement : ((at_ (wd 0x17 1 0 0 0x11F8)).Issues 0x17 (wd 0x17 1 0 0 0x11F8) ∧ zeros (wd 0x17 1 0 0 0x11F8) 45 16 = [] ∧
    (let addr := ((at_ 0).greg (fRa (wd 0x17 1 0 0 0x11F8)) + BitVec.ofNat 64 (fld (wd 0x17 1 0 0 0x11F8) 15 0)).toNat
     addr % 8 = 0 ∧ 0x1000 ≤ addr ∧ addr < 0x1200)) ∧ 0xFFFFFFFF < 2 ^ 32 := by
  refine ⟨⟨issues_at ?_, ?_⟩, ?_⟩ <;> decide

theorem wit_SequencerControl :
    let st := fun x => { live with seq := { st := x } }
    let i : Iss := { (default : Iss) with opcode := 0x20 }
    let stalled := { live with seq := { st := .running, stall := some i } }
    (live.inReset = false ∧ live.cfgReady = true ∧ live.seq.stopReq = none ∧ live.sweepDone = true ∧ live.blank = false ∧
      (st .trapped).seq.st = .trapped ∧ (st .halted).seq.st = .halted ∧ (st .stopped).seq.st = .stopped) ∧
    ((st .waiting).seq.st = .waiting ∧ (st .idle).seq.st = .idle) ∧
    (({ live with seq := { st := .running, nextAt := 3000001 } } : State).now < 3000001) ∧
    ((st .running).seq.st = .running ∧ (st .running).seq.stall = none ∧ (st .running).seq.nextAt ≤ live.now) ∧
    (bit (0x80000000 : W32) 31 = true ∧ live.seq.pmCheck = none) ∧ ({ live with seq := { pmCheck := some (16383, 1) } } : State).seq.pmCheck = some (16383, 1) ∧
    (stalled.seq.stall = some i ∧ stalled.readingCombine = false ∧ stalled.waitingCombine = none ∧ stalled.freeTag = some 0 ∧ canStart stalled i = true) ∧
    (let full := { stalled with ops := (List.range 256).map fun t => { tag := t, iss := default, serial := 0, issuedAt := 0, phase := .run } }
     full.freeTag = none) := by decide +kernel

/-- The words of descriptor n: format, die, address, rows, elements per row, STRIDE1 and the flags PAGED and BMAP. -/
def td4 (n fmt die addr dim1 dim0 stride flags : Nat) : List (Nat × W64) :=
  [(4 * n, BitVec.ofNat 64 (2 ^ 63 + flags * 2 ^ 58 + fmt * 2 ^ 52 + die * 2 ^ 48 + addr)),
   (4 * n + 1, BitVec.ofNat 64 (2 ^ 48 + dim1 * 2 ^ 24 + dim0)), (4 * n + 2, BitVec.ofNat 64 stride), (4 * n + 3, 0x3F800000)]

/-- A block with its link up, every capability active, a route to die 1, seven descriptors, and an engine instruction to issue. -/
def eng (w : W64) (g : List (Nat × W64)) : State := { at_ w with
  td := td4 0 0 0 0x1000 2 4 64 0 ++ td4 1 0 1 0x2000 2 4 64 0 ++ td4 2 0x21 0 0x4000 1 2048 0 0 ++ td4 3 0 0 0x9000 2 4 64 0 ++
    td4 4 0x21 0 0x10000 2 2 64 0 ++ td4 5 0x21 1 0x10000 1 16 0 0 ++ td4 6 0x20 0 0x40000 4 64 64 2,
  g := g, regs := [(0x20604, 0x80000000)], trn := { st := 5, linkDown := false, act := some 0xFFFFFFFFFFFFFFFF } }

/-- An engine instruction: opcode, RA g1, RB g2, RC, TDA, TDB and OPT. -/
def dw (op rc tda tdb opt : Nat) : W64 :=
  BitVec.ofNat 64 (op * 2 ^ 56 + 1 * 2 ^ 51 + 2 * 2 ^ 46 + rc * 2 ^ 41 + tda * 2 ^ 32 + tdb * 2 ^ 24 + opt)

/-- That block with every operation tag taken. -/
def full (w : W64) (g : List (Nat × W64)) : State :=
  { eng w g with ops := (List.range 256).map fun t => { tag := t, iss := default, serial := 0, issuedAt := 0, phase := .run } }

/-- The three cases of EngineIssues: it starts, it stalls for a tag, and it traps where no descriptor is valid. -/
abbrev Cases (spec : State → W64 → EngSpec) (can : State → Iss → Bool) (off : W64 → List Nat) (w : W64) (g : List (Nat × W64)) : Prop :=
  let s := eng w g
  let bare := { s with td := [] }
  ((∀ d ∈ (spec s w).tds, ∀ k < 4, s.upsetAt 1 (4 * d.1 + k) = 0) ∧ off w = [] ∧ (spec s w).fail s = none ∧ s.freeTag = some 0 ∧
    can s (spec s w).iss = true) ∧ (spec (full w g) w).fail (full w g) = none ∧ ((spec bare w).fail bare).isSome = true

theorem full_tags (w : W64) (g : List (Nat × W64)) : (full w g).freeTag = none := by
  have h : (full 0 []).freeTag = none := by decide +kernel
  exact h

theorem issues_eng {w : W64} {op : Nat} {g : List (Nat × W64)} (h : fld w 63 56 = op) : (eng w g).Issues op w ∧ (eng w g).seq.pc < 16383 :=
  ⟨⟨rfl, rfl, rfl, rfl, rfl, rfl, Nat.zero_le _, rfl, rfl, h⟩, by show 0 < 16383; omega⟩

theorem wit_TransferIssue :
    (((eng (dw 0x28 3 0 1 0) []).Issues 0x28 (dw 0x28 3 0 1 0) ∧ (eng (dw 0x28 3 0 1 0) []).seq.pc < 16383) ∧
      Cases xferSpec canXfer (fun w => offOpt w [2, 4, 5, 6, 7, 8, 9, 10, 11]) (dw 0x28 3 0 1 0) []) ∧
    (((eng (dw 0x29 3 1 0 0) []).Issues 0x29 (dw 0x29 3 1 0 0) ∧ (eng (dw 0x29 3 1 0 0) []).seq.pc < 16383) ∧
      Cases xferSpec canXfer (fun w => offOpt w [2, 4, 5, 6, 7, 8, 9, 10, 11]) (dw 0x29 3 1 0 0) []) ∧
    (((eng (dw 0x2A 3 1 0 0) []).Issues 0x2A (dw 0x2A 3 1 0 0) ∧ (eng (dw 0x2A 3 1 0 0) []).seq.pc < 16383) ∧
      Cases xferSpec canXfer (fun w => offOpt w [2, 4, 5, 6, 7, 8, 9, 10, 11]) (dw 0x2A 3 1 0 0) [(2, 2), (3, 2)]) ∧
    (((eng (dw 0x2B 3 0 1 0) []).Issues 0x2B (dw 0x2B 3 0 1 0) ∧ (eng (dw 0x2B 3 0 1 0) []).seq.pc < 16383) ∧
      Cases xferSpec canXfer (fun w => offOpt w [4, 5, 6, 7, 8, 9, 10, 11]) (dw 0x2B 3 0 1 0) [(2, 2), (3, 2)]) ∧
    (((eng (0x2C00000003000000) []).Issues 0x2C 0x2C00000003000000 ∧ (eng 0x2C00000003000000 []).seq.pc < 16383) ∧
      Cases xferSpec canXfer (fun w => offOpt w [2, 5, 6, 7, 8, 9, 10, 11] ++ offRegs w) 0x2C00000003000000 []) := by
  refine ⟨⟨issues_eng ?_, ?_⟩, ⟨issues_eng ?_, ?_⟩, ⟨issues_eng ?_, ?_⟩, ⟨issues_eng ?_, ?_⟩, issues_eng ?_, ?_⟩ <;> decide +kernel

theorem wit_TransferIssue_moves :
    let o : Op := { tag := 0, iss := default, serial := 0, issuedAt := 0, phase := .run }
    let far : Piece := { sdie := 1, saddr := 2 ^ 48 - 4096, ddie := 0, daddr := 0x1000, len := 4096, lit := none, pid := none, ans := false }
    let got : Piece := { far with len := 1 }
    let data : Msg := { msg0 with mtype := 0x03, arg := 0x10000, data := [0xA5] }
    let s := { live with ops := [{ o with trk := [(0, got)] }] }
    (o.iss.zskip = false ∧ o.iss.tda.paged = false ∧ o.iss.tdb.paged = false) ∧ (4088 ≤ 4088 ∧ far.lit = none) ∧
    (o.iss.pgcheck = false ∧ 0 < far.len ∧ far.len ≤ 4096 ∧ far.saddr < 2 ^ 48 ∧ far.daddr < 2 ^ 48 ∧ far.sdie < 16 ∧ far.ddie < 16) ∧
    (o.abort = false ∧ bit msg0.arg 52 = false) ∧
    (s.op? data.optag.toNat = some { o with trk := [(0, got)] } ∧ [(0, got)].find? (fun t => !t.2.ans) = some (0, got) ∧ got.sdie = data.src.toNat ∧
      got.ddie ≠ 16 ∧ got.len ≤ data.data.length ∧ fld data.arg 19 16 ≤ 1) := by decide +kernel

theorem wit_HarvestIssue :
    ((eng (dw 0x40 3 0 1 0) []).Issues 0x40 (dw 0x40 3 0 1 0) ∧
      Cases convSpec canConvert (fun w => offOpt w [5, 6, 7, 8, 9, 10, 11]) (dw 0x40 3 0 1 0) []) ∧
    (isFold false (dw 0x41 3 0 1 0) = true ∧ Cases (foldSpec true) canConvert (foldOff true) (dw 0x41 3 0 1 0) []) ∧
    (isFold true (dw 0x41 3 0 3 4) = true ∧ Cases (foldSpec false) canReduce (foldOff false) (dw 0x41 3 0 3 4) [(2, 65536)]) ∧
    (isMerge false (dw 0x48 3 0 1 0) = true ∧ Cases (mergeSpec true) canConvert (mergeOff true) (dw 0x48 3 0 1 0) [(2, 0x101)]) ∧
    (isMerge true (dw 0x48 3 0 3 4) = true ∧ Cases (mergeSpec false) canMerge (mergeOff false) (dw 0x48 3 0 3 4) [(2, 0x240)]) := by
  refine ⟨⟨(issues_eng ?_).1, ?_⟩, ?_, ?_, ?_, ?_⟩ <;> decide +kernel

theorem wit_HarvestIssue_results :
    let o : Op := { tag := 0, iss := default, serial := 0, issuedAt := 0, phase := .src }
    let x : Red := { busy := true, gfinal := true, k := 1, done := [0], tag := 0 }
    let s := { live with ops := [{ o with phase := .run }], red := [(7, x)] }
    let r : PRec := { row := 0, m := 0x3F800000, l := 0x3F800000, o := [0x40000000] }
    (o.phase = .src ∧ o.rdLeft = 0) ∧ ((-3 : Int) ≤ -3 ∧ gridMax * 2 ^ ((-3 : Int) - -3).toNat ≤ gridMax) ∧
    (({} : Red).op = 0 ∧ Val.num true 1 0 ≠ .nan ∧ (spGet {} ({} : Red).acc 3).nan = false) ∧
    ((s.redAt 7).busy = true ∧ (s.redAt 7).converted = false ∧ (s.redAt 7).gfinal = true ∧ (s.redAt 7).k ≤ (s.redAt 7).done.length ∧
      s.op? (s.redAt 7).tag = some { o with phase := .run }) ∧
    ((recNan { r with m := 0x7FC00000 } = true) ∧ recBad { r with l := 0xBF800000 } = true) ∧
    ((foldHead false 1 [r] {}).1 = .done 0x3F800000 0x3F800000 [0x40000000] ∧ ({} : Mrg).outp = false) := by decide +kernel

theorem wit_SparseIssue :
    ((eng (dw 0x60 3 0 3 0) []).Issues 0x60 (dw 0x60 3 0 3 0) ∧
      Cases dispSpec canDispatch (fun w => offOpt w [4, 5, 6, 7, 8, 9, 10, 11]) (dw 0x60 3 0 3 0) [(3, 0x101000204)]) ∧
    (isCombine false (dw 0x50 3 0 3 0) = true ∧ Cases (cmbSpec true) canConvert (cmbOff true) (dw 0x50 3 0 3 0) []) ∧
    (isCombine true (dw 0x50 0 0 3 4) = true ∧ Cases (cmbSpec false) canCollect (cmbOff false) (dw 0x50 0 0 3 4) [(1, 2)]) := by
  refine ⟨⟨(issues_eng ?_).1, ?_⟩, ?_, ?_⟩ <;> decide +kernel

theorem wit_SparseIssue_results :
    let o : Op := { tag := 0, iss := default, serial := 0, issuedAt := 0, phase := .run }
    let d : Desc := { (default : Desc) with fmt := 9, die := 0, dim1 := 4, dim0 := 32 }
    let i : Iss := { (default : Iss) with tdb := d, tdd := d }
    let row : Placed := { token := 5, k := 0, late := false, die := 1, row := 3, data := { token := 5, route := [], carries := 0, row := [1], scales := [1], fmt := 9, dim0 := 32, psn := false } }
    let p : Place := { rows := [row], outs := [{ token := 5, state := 1, late := false, carries := 0, kmask := 1 }] }
    (row ∈ p.rows ∧ fmtMx d.fmt = true ∧ p.outs[0]? = some { token := 5, state := 1, late := false, carries := 0, kmask := 1 }) ∧
    (i.tdb = d ∧ (0 : Nat) < 1) ∧ ({ live with ops := [o] } : State).op? (live.cmbAt 15).tag = some o := by decide +kernel

theorem wit_PageIssue :
    ((eng (dw 0x70 0 2 0 0) []).Issues 0x70 (dw 0x70 0 2 0 0) ∧ Cases pgSpec canPage pgOff (dw 0x70 0 2 0 0) []) ∧
    ((eng (dw 0x71 0 2 0 0) []).Issues 0x71 (dw 0x71 0 2 0 0) ∧ Cases pgSpec canPage pgOff (dw 0x71 0 2 0 0) []) ∧
    ((eng (dw 0x72 0 2 0 0) []).Issues 0x72 (dw 0x72 0 2 0 0) ∧ Cases pgSpec canPage pgOff (dw 0x72 0 2 0 0) []) ∧
    ((eng (dw 0x73 3 2 0 3) []).Issues 0x73 (dw 0x73 3 2 0 3) ∧ Cases pgSpec canPage pgOff (dw 0x73 3 2 0 3) []) ∧
    ((eng (dw 0x74 0 6 2 0) []).Issues 0x74 (dw 0x74 0 6 2 0) ∧ Cases pgSpec canPage pgOff (dw 0x74 0 6 2 0) []) := by
  refine ⟨⟨(issues_eng ?_).1, ?_⟩, ⟨(issues_eng ?_).1, ?_⟩, ⟨(issues_eng ?_).1, ?_⟩, ⟨(issues_eng ?_).1, ?_⟩, (issues_eng ?_).1, ?_⟩ <;> decide +kernel

theorem wit_PageIssue_results :
    let o : Op := { tag := 0, iss := default, serial := 0, issuedAt := 0, phase := .run,
                    ents := [{ pid := 0, gen := 0, out := some 5, val := 0, pend := false }] }
    let far : PgEnt := { pid := 2 ^ 36, gen := 1, out := none, val := 0, pend := false }
    let pooled := { live with regs := [(0x8010C, 0x80000001)] }
    let e := ((live.setEntries (rpcSet far.pid)).headD 0)
    let kept := fun (n : Nat) => (pooled.setTag e { st := 2, pid := far.pid, gen := 1, pin := n }).readSet (rpcSet far.pid)
    (pidDie 0 = live.die ∧ pidDie far.pid ≠ live.die ∧ live.pageOk far.pid = false ∧ pooled.pageOk far.pid = true) ∧
    ((pooled.readSet (rpcSet far.pid)).findTag far.pid 1 = none ∧ (kept 0).findTag far.pid 1 = some e ∧ ((kept 0).tag e).pin = 0 ∧
      ((kept 1).tag e).pin ≠ 0) ∧
    (o.phase = .run ∧ o.rdLeft = 0 ∧ (∀ x ∈ o.ents, x.out ≠ none) ∧ o.iss.pgFetch = false) ∧
    (let r : W64 := 0x0000000100000001
     1 = recGen r ∧ 0 < recCount r ∧ recCount r ≠ 2 ^ 32 - 1 ∧ recCount r = 1 ∧ recCount r ≠ 2 ∧ recCount (0xFFFFFFFF : W64) = 2 ^ 32 - 1 ∧
      ¬ (2 = recGen r ∧ 0 < recCount r)) := by decide +kernel

/-- An operation of tag 0. -/
def op0 : Op := { tag := 0, iss := default, serial := 0, issuedAt := 0, phase := .run }

/-- A module that carries flits. -/
def carrying : Mod := { st := .active, clkP := true, frmP := true }

theorem wit_HarvestSlots :
    let m := fun (x : Mrg) => { live with mrg := [(7, x)], ops := [op0] }
    let c := fun (x : Cmb) => { live with cmb := [(3, x)] }
    let g : Mrg := { busy := true, k := 1, gsize := 2, rows := 4, masked := [0] }
    let q : Mrg := { busy := true, k := 1, cutoffAt := some 3000000 }
    let x : Cmb := { ready := true, cutoffAt := some 3000000, toks := [{ token := 0, state := 1, late := false, carries := 0, kmask := 1 }] }
    (live.inReset = false ∧ live.cfgReady = true) ∧
    (((m g).mrgAt 7).busy = true ∧ 1 < ((m g).mrgAt 7).groups ∧ ((m g).mrgAt 7).written.contains 1 = false ∧
      ∀ r ∈ ((m g).mrgAt 7).groupRows 1, ((m g).mrgAt 7).rowReady r = true) ∧
    (((m q).mrgAt 7).cutoffAt = some 3000000 ∧ (m q).op? ((m q).mrgAt 7).tag = some op0 ∧ ((m q).mrgAt 7).busy = true ∧ ((m q).mrgAt 7).cut = false ∧ ((m q).mrgAt 7).allLast = false ∧
      3000000 ≤ (m q).now ∧ (m q).now < 3000001) ∧
    (((c x).cmbAt 3).cutoffAt = some 3000000 ∧ ((c x).cmbAt 3).ready = true ∧ ((c x).cmbAt 3).cut = false ∧ ((c x).cmbAt 3).allTaken = false) ∧
    ((({ live with dsl := [(3, { busy := true })] } : State).dslAt 3).busy = true ∧ (live.dslAt 0).busy = false) ∧ bit (0x80FFF000 : W32) 31 = true ∧
    ({ live with calClr := some (4095, 1, 0) } : State).calClr ≠ none := by decide +kernel

theorem wit_PageControl :
    let o := { op0 with tag := 255, phase := .walkWait, retryAt := 3000000 }
    let s := { live with ops := [o] }
    let w := { live with flushSet := some [5], tags := [(5, { st := 1 })] }
    let m := { live with ops := [{ op0 with mt := some 3 }] }
    (s.inReset = false ∧ s.op? 255 = some o ∧ o.phase = .walkWait ∧ o.retryAt ≤ s.now) ∧
    (({ live with ops := [{ o with retryAt := 3000001 }] } : State).now < 3000001) ∧ live.flushSet = none ∧
    (w.flushSet = some [5] ∧ 5 ∈ [5] ∧ (w.tag 5).st = 1) ∧ (∀ e ∈ [6], (w.tag e).st ≠ 1) ∧ bit (1 : W32) 0 = true ∧ w.cfgReady = true ∧
    (let i := { live with flushSet := some [5], tags := [(5, { st := 2 })] }
     i.flushSet = some [5] ∧ 5 ∈ [5] ∧ (i.tag 5).idle = true) ∧ ({ ticking with tick := { ticking.tick with nextSol := some 3000000 } } : State).solNow = true ∧
    (bit (0 : W32) 0 = false ∧ ∃ e ∈ w.tags, e.2.st ≠ 0) ∧ (m.mtOp 3 = some { op0 with mt := some 3 } ∧ op0.abort = false) := by decide +kernel

theorem wit_FlitSlot :
    let o := { up with trn := { st := 5, linkDown := false, open_ := true } }
    let mk := { up with tick := { markerDue := true } }
    let r : Retrain := { since := 0, limitFrom := none, mine := true, reason := 1, answered := false, nextReq := 0, phase7 := true, gotFlit := false, planned := false }
    let re := fun (p : Bool) => { up with mods := [(0, { st := .training, retrain := some { r with phase7 := p } })] }
    (up.inReset = false ∧ up.openMode = false ∧ (up.mod 0).carries = true) ∧ (((re true).mod 0).retrain = some r ∧ r.phase7 = true) ∧
    (o.openMode = true ∧ (o.mod 0).carries = true) ∧ ((up.mod 15).carries = false ∧ (up.mod 15).retrain = none) ∧
    (((re false).mod 0).carries = false ∧ (((re false).mod 0).retrain.all (!·.phase7)) = true) ∧
    ((up.stopBarred 0).slotItem 0 ≠ .marker ∧ (up.stopBarred 0).slotItem 0 ≠ .retx ∧ (mk.stopBarred 0).slotItem 0 = .marker) ∧
    (mk.tick.markerDue = true ∧ mk.active.head? = some 0 ∧ (mk.mod 0).retrain = none ∧ up.tick.markerDue = false) := by
  decide +kernel

theorem wit_FlitSlot_items :
    let e : RepEnt := { seq := 0, tc := 0, stream := 0, pay := [], ids := [], sent := 0, retx := 0, owed := true, rpt := false, wait := 7 }
    let m := fun (x : Machine.Mod) => { up with mods := [(0, x)] }
    let urgent := m { carrying with rep := [e] }
    let full := m { carrying with rep := List.replicate 80 { e with owed := false }, sinceReq := 7 }
    let ctl := { up with ctl := [(0, [5])] }
    let tx := fun (c : Nat) => { up with tx := [{ id := 0, msg := { msg0 with tc := c }, off := 0 }] }
    (up.ctl.find? (fun c => c.1 == 0) = none ∧ ctl.ctl.find? (fun c => c.1 == 0) = some (0, [5]) ∧ (ctl.mod 0).retxUrgent = false) ∧
    (({ up with flowDue := [0] } : State).flowDue.contains 0 = true ∧ up.flowDue.contains 0 = false ∧ ({ up with credDue := true } : State).credDue = true ∧
      up.credDue = false) ∧
    ((urgent.mod 0).retxUrgent = true ∧ (∃ e ∈ (urgent.mod 0).rep, e.owed = true) ∧ (urgent.mod 0).rep.find? (·.owed) = some e ∧
      urgent.upsetAt 0xA (0 * 96 + e.seq % 96) = 0) ∧
    (80 ≤ (full.mod 0).rep.length ∧ 7 ≤ (full.mod 0).sinceReq ∧ (∀ e ∈ (full.mod 0).rep, e.owed = false) ∧ (up.mod 0).rep.length < 80) ∧
    ((m { carrying with grants := [e] }).overdue 0 = true ∧ ((m { carrying with grants := [e] }).mod 0).grants = [e] ∧ up.overdue 0 = false) ∧
    ((∀ c < 4, up.mayData 0 c = false) ∧ (tx 3).mayData 0 3 = true ∧ (tx 0).mayData 0 3 = false ∧ (tx 0).mayData 0 0 = true ∧
      (tx 2).mayData 0 0 = false ∧ (tx 2).mayData 0 2 = true) ∧
    ((tx 0).stoppedFlit 0 0 = none ∧ ((tx 0).fillData 0).isSome = true) := by decide +kernel

theorem wit_FlitReceipt :
    let fails : List Byte := [1, 2, 3, 4, 5, 6, 7, 8] ++ List.replicate 248 0
    (up.Accepts 0 fData fData [] 0 ∧ flitType fData = 1) ∧
    (up.Accepts 0 fRetx fRetx [] 0 ∧ flitType fRetx = 2 ∧ (((up.rxCommon 0 fRetx []).mod 0).takeRetx 0 (rxFlitOf fRetx false false) up.now).isSome = true) ∧
    (let v := { up with mods := [(0, { carrying with n := 1 })] }
     v.Accepts 0 fRetx fRetx [] 0 ∧ ((v.rxCommon 0 fRetx []).mod 0).takeRetx 0 (rxFlitOf fRetx false false) v.now = none) ∧
    (up.Accepts 0 fIdle fIdle [] 0x1FFF ∧ flitType fIdle = 0 ∧ (fIdle.getD 4 0).toNat = 0) ∧
    (up.Accepts 0 fCredit fCredit [] 0x1FFF ∧ flitType fCredit = 3 ∧ (fCredit.getD 4 0).toNat = 2) ∧
    (up.Accepts 0 fFlow fFlow [] 0x1FFF ∧ flitType fFlow = 3 ∧ (fFlow.getD 4 0).toNat = 3) ∧ (up.Accepts 0 fType4 fType4 [] 0x1FFF ∧ 4 ≤ flitType fType4) ∧
    (up.Accepts 0 fSub6 fSub6 [] 0x1FFF ∧ flitType fSub6 = 3 ∧ 6 ≤ (fSub6.getD 4 0).toNat) ∧
    (up.inReset = false ∧ fails.length = 256 ∧ up.openMode = false ∧ (up.mod 0).carries = true ∧ (up.mod 0).rxLock = true ∧
      rxClass fails (up.mod 0).p (up.mod 0).n = .uncorrectable ∧ rxClass (List.replicate 256 0) (up.mod 0).p (up.mod 0).n = .crcFail 0) ∧
    (let v := { up with mods := [(0, { carrying with clkP := false, vldGood := 2 })] }
     (v.mod 0).carries = true ∧ (v.mod 0).rxLock = false ∧ (v.mod 0).vldGood < 3) := by
  refine ⟨⟨accepts good_data.1 good_data.2 ?_, ?_⟩, ⟨accepts good_retx.1 good_retx.2.2 ?_, ?_⟩, ⟨accepts good_retx.2.1 good_retx.2.2 ?_, ?_⟩, ⟨accepts good_idle.1 good_idle.2 ?_, ?_⟩,
    ⟨accepts good_credit.1 good_credit.2 ?_, ?_⟩, ⟨accepts good_flow.1 good_flow.2 ?_, ?_⟩, ⟨accepts good_type4.1 good_type4.2 ?_, ?_⟩,
    ⟨accepts good_sub6.1 good_sub6.2 ?_, ?_⟩, ?_, ?_⟩ <;> decide +kernel

theorem wit_LinkTimers :
    let a := fun (t : Nat) => { up with mods := [(15, { carrying with ackAt := some t })], regs := [(0x20000, 0x00080000)] }
    let on : State := { up with regs := [(0x20000, 1)] }
    let o := { up with trn := { st := 5, open_ := true } }
    (up.inReset = false ∧ ((a 2999992).mod 15).ackAt = some 2999992 ∧ 2999992 + (a 2999992).rf 0x20000 23 16 ≤ (a 2999992).now) ∧
    ((a 2999993).now < 2999993 + (a 2999993).rf 0x20000 23 16) ∧
    (up.onOff = false ∧ up.linkDownNow = false ∧ up.creditOwed = true ∧ up.openMode = false) ∧ on.onOff = true ∧
    (on.openMode = false ∧ on.flowLast + (if on.xoffBits = 0 then 1024 else 32) ≤ on.now) ∧
    (o.openMode = true ∧ (o.mod 0).carries = true ∧ flitType ([0, 0, 0, 0x10] ++ List.replicate 240 0) = 1 ∧
      2 ≤ flitType ([0, 0, 0, 0x20] ++ List.replicate 240 0)) ∧
    (o.onOff = false ∧ o.linkDownNow = false ∧ o.creditOwed = true) := by decide +kernel

theorem wit_RepairFlits :
    let r : Repair := { id := 9, width := 2, map := [], target := 9, echoed := false, cancel := false, nextSend := 0, began := none }
    let s := fun (x : Mod) => { upAt7 with mods := [(0, x)] }
    ((upAt7.Accepts 0 fRep1 fRep1 [] 0x1FFF ∧ flitType fRep1 = 3 ∧ (fRep1.getD 4 0).toNat = 4) ∧ (fRep1.getD 7 0).toNat = 1 ∧
      (upAt7.heard 0 fRep1 []).locked = true ∧ future (leAt fRep1 14 6) (upAt7.heard 0 fRep1 []).tick.num = true ∧ (fRep1.getD 6 0).toNat < modules (upAt7.heard 0 fRep1 []).member ∧ (fRep1.getD 9 0).toNat < 3) ∧
    (up.Accepts 0 fRep1 fRep1 [] 0x1FFF ∧ (up.heard 0 fRep1 []).locked = false) ∧
    ((s { carrying with repRx := some r }).Accepts 0 fRep2 fRep2 [] 0x1FFF ∧ (fRep2.getD 7 0).toNat = 2 ∧ r.id = (fRep2.getD 8 0).toNat ∧ r.cancel = false ∧
      (((s { carrying with repRx := some r }).heard 0 fRep2 []).mod 0).repRx = some r) ∧
    ((s { carrying with repTx := some r }).Accepts 0 fRep3 fRep3 [] 0x1FFF ∧ (fRep3.getD 7 0).toNat = 3 ∧
      (((s { carrying with repTx := some r }).heard 0 fRep3 []).mod 0).repTx = some r ∧ future 9 7 = true) ∧
    ((s { carrying with swapRx := some r }).Accepts 0 fRep4 fRep4 [] 0x1FFF ∧ (fRep4.getD 7 0).toNat = 4 ∧ (fRep4.getD 8 0).toNat = r.id ∧
      (((s { carrying with swapRx := some r }).heard 0 fRep4 []).mod 0).swapRx = some r ∧
      (((s { carrying with swapRx := some r }).heard 0 fRep4 []).mod 0).planWidth ≠ some r.width) := by
  refine ⟨⟨⟨accepts good_rep1.1 good_rep1.2 ?_, ?_⟩, ?_⟩, ⟨accepts good_rep1.1 good_rep1.2 ?_, ?_⟩, ⟨accepts good_rep2.1 good_rep2.2 ?_, ?_⟩,
    ⟨accepts good_rep3.1 good_rep3.2 ?_, ?_⟩, accepts good_rep4.1 good_rep4.2 ?_, ?_⟩ <;> decide +kernel

theorem wit_RepairSteps :
    let r : Repair := { id := 9, width := 0, map := [], target := 8, echoed := false, cancel := false, nextSend := 3000000, began := none }
    let f : Frost := { since := 2999280, kind := 1, tx := true, rx := false, switched := false }
    let s := fun (x : Mod) => { upAt7 with mods := [(0, x)] }
    let o := { upAt7 with trn := { st := 5, open_ := true } }
    (up.cfgReady = true ∧ o.openMode = true ∧ ((s { carrying with frost := some f }).mod 0).swapTx = none) ∧
    (up.inReset = false ∧ 15 < modules up.member ∧ bit (0x80000000 : W32) 31 = true ∧ up.openMode = false ∧ up.locked = false) ∧
    (((s { carrying with repRx := some r }).mod 0).repRx = some r ∧ r.echoed = false ∧ (s carrying).locked = true ∧ r.nextSend ≤ live.now ∧ r.cancel = false ∧ ({ r with cancel := true } : Repair).cancel = true ∧
      future r.target ((s carrying).tickPlus 1) = false) ∧
    (((s { carrying with frost := some f, swapTx := some r }).mod 0).frost = some f ∧ ((s { carrying with frost := some f, swapTx := some r }).mod 0).swapTx = some r ∧
      f.kind = 1 ∧ f.tx = true ∧ f.switched = false ∧
      f.since + 480 ≤ live.now ∧ f.since + 720 ≤ live.now) ∧
    (((s { carrying with swapRx := some { r with began := some 2999400 } }).mod 0).swapRx = some { r with began := some 2999400 } ∧
      ((s carrying).mod 0).planWidth ≠ some r.width ∧ r.width = ((s carrying).mod 0).width ∧ 2999400 + 600 ≤ live.now) := by decide +kernel

theorem wit_RetrainHandshake :
    let r : Retrain := { since := 0, limitFrom := none, mine := true, reason := 1, answered := false, nextReq := 0, phase7 := false, gotFlit := false, planned := false }
    let s := fun (x : Retrain) => { up with mods := [(0, { carrying with retrain := some x })] }
    ((up.Accepts 0 fRtr fRtr [] 0x1FFF ∧ flitType fRtr = 3 ∧ (fRtr.getD 4 0).toNat = 5) ∧ (up.heard 0 fRtr []).canRetrain 0 = true ∧
      (up.heard 0 fRtr []).openMode = false) ∧
    (({ up with trn := { linkDown := false } } : State).Accepts 0 fRtr fRtr [] 0x1FFF ∧
      (({ up with trn := { linkDown := false } } : State).heard 0 fRtr []).canRetrain 0 = false) ∧
    ((s r).Hears (sbMake 0x16 0 [1]) 0x16 1 0 ∧ ((s r).mod 0).retrain = some r ∧ r.mine = true ∧ r.answered = false ∧ r.nextReq ≤ (s r).now) ∧
    (let e := { r with phase7 := true, gotFlit := true }
     ((s e).mod 0).retrain = some e ∧ e.phase7 = true ∧ e.gotFlit = true ∧ r.gotFlit = false) ∧
    (((s { r with limitFrom := some 2992800 }).mod 0).retrain = some { r with limitFrom := some 2992800 } ∧ 2992800 + live.dur 7200 ≤ live.now ∧
      live.now < 2992801 + live.dur 7200) ∧
    ((s r).pwr.st ≠ 4 ∧ ({ s r with pwr := { st := 4 } } : State).pwr.st = 4) ∧
    (up.cfgReady = true ∧ live.canRetrain 0 = false ∧ up.canRetrain 0 = true ∧ up.openMode = false ∧ (up.mod 0).st ≠ .fallow) := by
  refine ⟨⟨⟨accepts good_rtr.1 good_rtr.2 ?_, ?_⟩, ?_⟩, ⟨accepts good_rtr.1 good_rtr.2 ?_, ?_⟩, ⟨hears ?_, ?_⟩, ?_⟩ <;> decide +kernel

theorem wit_LockEvents :
    let s := fun (x : Mod) => { up with mods := [(0, x)] }
    let both := { s { carrying with clkA := true, frmA := true } with regs := [(0x10004, 0x10000)] }
    let lost := fun (t : Nat) => s { st := .active, lostAt := some t }
    let alt := { both with mods := [(0, { carrying with clkA := true, frmA := true, altSel := true })] }
    (up.inReset = false ∧ (up.mod 0).altSel = false ∧ (up.mod 0).clkA = false ∧ altSet up.member = true ∧
      altSet ({ up with env := { up.env with member := .q1s } } : State).member = false ∧
      bit (({ up with regs := [(0x10004, 0)] } : State).rg 0x10004) 16 = false) ∧
    ((alt.mod 0).altSel = true ∧ ((alt.mod 0).clkP && (alt.mod 0).frmP) = true ∧ bit (alt.rg 0x10004) 16 = true) ∧
    (let c := s { carrying with lostAt := some 5, clkLost := true }
     (c.mod 0).lostAt ≠ none ∧ (c.mod 0).clkLost = true ∧ (c.mod 0).carries = true ∧ (up.mod 0).lostAt = none) ∧
    (bit (both.rg 0x10004) 16 = true ∧ (both.mod 0).clkA = true ∧ (both.mod 0).frmA = true ∧ (both.mod 0).altSel = false) ∧
    (let t := 2999999 - live.rf 0x10004 15 0
     ((lost t).mod 0).lostAt = some t ∧ t + live.rf 0x10004 15 0 < live.now ∧ ((lost t).mod 0).rxLock = false ∧ ((lost t).mod 0).carries = true) ∧
    (let t := 3000000 - live.rf 0x10004 15 0
     live.now ≤ t + live.rf 0x10004 15 0) ∧
    (((lost 5).mod 0).lostAt ≠ none ∧ ((lost 5).mod 0).altSel = false ∧ ((lost 5).mod 0).clkLost = false) ∧
    (67 < 68 ∧ 15 < modules up.member ∧ up.prbsWatched 15 67 = true ∧ up.prbsWatched 15 0 = false) := by
  decide +kernel

theorem wit_PlannedChanges :
    let f : Frost := { since := 2999520, kind := 2, tx := true, rx := true, switched := false }
    let s := { up with mods := [(0, { carrying with frost := some f })] }
    let g := { upAt7 with gapEnd := some 7, regs := [(0x20074, 0x80000000)] }
    let p := { upAt7 with regs := [(0x20068, 8)] }
    (s.inReset = false ∧ (s.mod 0).frost = some f ∧ f.kind ≠ 1 ∧ f.kind ≠ 4 ∧ f.kind ≠ 5 ∧ (s.mod 0).retrain = none ∧ f.since + 480 ≤ s.now ∧ s.drained 0 = true) ∧
    (∀ k ∈ [4, 5], let v := { up with mods := [(0, { carrying with frost := some { f with kind := k } })] }
      ((v.mod 0).frost.map (·.kind)) = some k ∧ (v.mod 0).retrain = none ∧ v.drained 0 = true) ∧
    (let e := { carrying with rep := [{ seq := 0, tc := 0, stream := 0, pay := [], ids := [], sent := 0, retx := 0, owed := false, rpt := false }] }
     ({ up with mods := [(0, e)] } : State).drained 0 = false ∧ live.now < 2999521 + 480) ∧
    (g.gapEnd = some 7 ∧ bit (g.rg 0x20074) 31 = true ∧ future 7 g.tick.num = false ∧ future 8 g.tick.num = true) ∧
    (let o := { upAt7 with trn := { st := 5, open_ := true } }
     o.cfgReady = true ∧ o.openMode = true ∧ up.openMode = false) ∧
    (bit (0x80000000 : W32) 31 = true ∧ up.locked = false) ∧ (upAt7.locked = true ∧ future ((upAt7.rg64 0x20068).toNat % 2 ^ 48) upAt7.tick.num = false) ∧
    (p.locked = true ∧ future ((p.rg64 0x20068).toNat % 2 ^ 48) p.tick.num = true ∧ 0 < modules p.member ∧
      (({ p with mods := [(0, { st := .fallow })] } : State).mod 0).st = .fallow) := by decide +kernel

/-- A block with one message released. -/
def got (m : Msg) : State := { live with rel := [rel0 m] }

theorem wit_ReleaseData :
    let f : Frag := { mod := 0, moff := 0, bytes := [], due := none, untimed := false, retrained := false, flit := 0, rdy := 0, released := false }
    let h : Held := { sseq := 0, tc := 0, frags := [f] }
    let s := { live with streams := [(63, { held := [h] })] }
    let rd := { msg0 with mtype := 2 }
    let held := { got rd with wrq := [{ id := 0, addr := 0, data := [], poison := false, stream := some 0, ord := 0, owner := .ring, issued := true }], rel := [{ rel0 rd with ord := 1 }] }
    let other := { msg0 with mtype := 3, arg := 0x1000 }
    (s.inReset = false ∧ s.joinStub 63 = s ∧ (s.strm 63).stopped = false ∧ (∀ r ∈ s.rel, r.held = true → r.dom ≠ 63) ∧
      (s.strm 63).held.find? (fun h => h.sseq == (s.strm 63).e) = some h ∧ lowFrag (h.frags.filter (s.fragReady h)) = some f) ∧
    (let run := { live with streams := [(63, { stopped := true, runTo := some 1, held := [h] })] }
     run.joinStub 63 = run ∧ (run.strm 63).runTo = some 1 ∧ 1 ≠ (run.strm 63).e ∧
      lowFrag (h.frags.filter fun f => !f.released && decide (f.rdy ≤ run.now)) = some f) ∧
    (({ live with streams := [(0, { stopped := true })] } : State).strm 0).stopped = true ∧
    (({ live with streams := [(0, { stopped := true, runTo := some 0 })] } : State).strm 0).runTo = some 0 ∧
    ((got { msg0 with mtype := 1 }).nextRel 0 (·.mtype == 0x01) 0x01).isSome = true ∧
    ((got rd).nextRel 0 (·.mtype == 0x02) 0x02 = some (rel0 rd) ∧ (got rd).writesBefore (rel0 rd) = false) ∧
    (held.nextRel 0 (·.mtype == 0x02) 0x02 = some { rel0 rd with ord := 1 } ∧ held.writesBefore { rel0 rd with ord := 1 } = true) ∧
    ((got { msg0 with mtype := 3 }).nextRel 0 (·.mtype == 0x03) 0x03 = some (rel0 { msg0 with mtype := 3 }) ∧
      (got { msg0 with mtype := 3 }).op? 256 = none ∧ fld msg0.arg 14 12 = live.inst.toNat) ∧
    ((got other).nextRel 0 (·.mtype == 0x03) 0x03 = some (rel0 other) ∧ (rel0 other).dom < 64 ∧ fld other.arg 14 12 ≠ live.inst.toNat ∧
      (got other).op? 256 = none ∧ (got other).sisterGone = false) ∧
    (let w := { got { other with arg := 0x4000 } with twin := { st := 5 } }
     w.sisterGone = true ∧ 4 = w.sister.toNat ∧ fld (0x4000 : W64) 14 12 = 4 ∧ 4 ≠ w.inst.toNat) := by
  decide +kernel

theorem wit_ReleaseSignals :
    let sg := { msg0 with mtype := 4 }
    let held := { live with wrq := [{ id := 0, addr := 0, data := [], poison := false, stream := some 0, ord := 0, owner := .ring, issued := true }], rel := [{ rel0 sg with ord := 1 }] }
    let c := { msg0 with mtype := 5 }
    (live.inReset = false ∧ (got sg).nextRel 0 (·.mtype == 0x04) 0x04 = some (rel0 sg) ∧ (got sg).writesBefore (rel0 sg) = false) ∧
    (held.nextRel 0 (·.mtype == 0x04) 0x04 = some { rel0 sg with ord := 1 } ∧ held.writesBefore { rel0 sg with ord := 1 } = true) ∧
    ((got c).nextRel 0 (·.mtype == 0x05) 0x05 = some (rel0 c) ∧ origOf c = (got c).inst) ∧
    (let d := { c with arg := 0x1000000000000 }
     (got d).nextRel 0 (·.mtype == 0x05) 0x05 = some (rel0 d) ∧ (got d).op? (256 + d.optag.toNat) = none ∧ origOf d ≠ (got d).inst ∧ (got d).sisterGone = false) ∧
    (let m := { msg0 with stream := 63, tc := 3, data := List.replicate 16 0 }
     live.blank = false ∧ m.stream < 64 ∧ m.tc < 4 ∧ m.data.length ≤ 4096 ∧ m.dst.toNat = live.die) ∧
    (({ msg0 with dst := 15 } : Msg).dst.toNat ≠ live.die ∧ msgCap { msg0 with dst := 15 } = none) := by decide +kernel

/-- A Harvest or page message of a type with an argument. -/
def hv (ty : BitVec 8) (a : W64) : Msg := { msg0 with mtype := ty, arg := a }

theorem wit_ReleaseEngines : live.inReset = false ∧ live.nextHv 0x10 0 = none ∧ live.nextHv 0x11 0 = none ∧ live.nextHv 0x12 0 = none ∧ live.sisterGone = false ∧
    (got (hv 0x10 0x100000)).nextHv 0x10 0 = some (rel0 (hv 0x10 0x100000)) ∧ rinstOf (hv 0x10 0x100000) ≠ live.inst ∧
    (got (hv 0x11 0x100000)).nextHv 0x11 0 = some (rel0 (hv 0x11 0x100000)) ∧ rinstOf (hv 0x11 0x100000) ≠ live.inst ∧
    (got (hv 0x12 0x40000000)).nextHv 0x12 0 = some (rel0 (hv 0x12 0x40000000)) ∧ rinstOf (hv 0x12 0x40000000) ≠ live.inst ∧
    tagOlder 0 1 = true ∧ tagOlder 1 0 = false ∧ tagOlder 0 0 = false ∧ fld (0x0100000000000000 : W64) 63 56 = 1 := by decide +kernel

/-- A contribution at its port, and the reduction in its slot. -/
def redGot (x : Red) (a : W64) : State := { got (hv 0x10 a) with red := [(0, x)] }

theorem wit_ReleaseEngines_contrib :
    (redGot { busy := true, k := 1, gfinal := true } 0).nextHv 0x10 0 = some (rel0 (hv 0x10 0)) ∧ rinstOf (hv 0x10 0) = live.inst ∧
    ((redGot { busy := true, k := 1, gfinal := true } 0).redAt 0).busy = true ∧ (live.redAt 0).busy = false ∧
    ((redGot { busy := true, k := 1, gfinal := true } 0).redAt 0).gfinal = true ∧ ((redGot { busy := true, k := 0, gfinal := true } 0).redAt 0).k ≤ 0 := by
  decide +kernel

/-- A partial record at its port, and a merge of one row of one element. -/
def partMsg : Msg := { hv 0x11 0 with data := List.replicate 12 0 }
def mrgGot : State := { got partMsg with mrg := [(0, { busy := true, k := 1, gsize := 1, d := 1, rows := 1 })] }

theorem wit_ReleaseEngines_partial : mrgGot.nextHv 0x11 0 = some (rel0 partMsg) ∧ rinstOf partMsg = mrgGot.inst ∧ (mrgGot.mrgAt 0).busy = true ∧
    (mrgGot.mrgAt 0).rtag = 0 ∧ 0 < (mrgGot.mrgAt 0).k ∧ (mrgGot.mrgAt 0).localIdx ≠ some 0 ∧ 0 ∉ (mrgGot.mrgAt 0).last ∧ (mrgGot.mrgAt 0).cut = false ∧
    fld partMsg.arg 36 29 + 1 = (mrgGot.mrgAt 0).d ∧ fld partMsg.arg 40 37 + 1 = (mrgGot.mrgAt 0).gsize ∧ (mrgGot.mrgAt 0).ofmt = [] ∧
    partMsg.data.length % 12 = 0 ∧ fld partMsg.arg 55 41 + partMsg.data.length / 12 ≤ (mrgGot.mrgAt 0).rows ∧ bit partMsg.arg 27 = false ∧
    bit partMsg.arg 26 = false := by decide +kernel

/-- A return at its port, and the combine in its slot. -/
def cmbGot (x : Cmb) : State := { got (hv 0x12 0) with cmb := [(0, x)] }

theorem wit_ReleaseEngines_return : (cmbGot { opened := true }).nextHv 0x12 0 = some (rel0 (hv 0x12 0)) ∧ rinstOf (hv 0x12 0) = live.inst ∧
    ((cmbGot { opened := true }).cmbAt 0).opened = true ∧ ((cmbGot { opened := true }).cmbAt 0).ready = false ∧
    ((cmbGot { opened := true, cut := true }).cmbAt 0).cut = true ∧ bit (0 : W64) 36 = false ∧
    ((cmbGot { opened := true, ready := true }).cmbAt 0).ready = true ∧ (live.cmbAt 0).opened = false := by decide +kernel

/-- A reduction that waits for the grid, and a phase-0 contribution to it. -/
def gridRed (k : Nat) : State :=
  { live with rel := [rel0 { msg0 with mtype := 0x10, data := [0, 0] }],
              red := [(0, { busy := true, k := k, gmode := 1, tdb := { (default : Desc) with dim0 := 32, dim1 := 1, dim2 := 1 } })] }

theorem wit_ReleaseEngines_grid :
    ((gridRed 1).redAt 0).gfinal = false ∧ (((gridRed 1).redTake 0 (rel0 { msg0 with mtype := 0x10, data := [0, 0] })).redAt 0).gfinal = true := by
  decide +kernel
theorem wit_ReleaseEngines_more :
    (((gridRed 2).redTake 0 (rel0 { msg0 with mtype := 0x10, data := [0, 0] })).redAt 0).gfinal = false := by decide +kernel

theorem wit_ReleasePages :
    let pg := fun (op : Nat) => hv 0x22 (BitVec.ofNat 64 (op * 2 ^ 43))
    let ok := { got (hv 0x20 0) with regs := [(0x80104, 0x80000001)] }
    let away := { got (hv 0x20 0) with regs := [(0x80000, 0x10)] }
    let after := { got (hv 0x20 0) with rel := [{ rel0 (pg 0) with dom := 1 }, { rel0 (hv 0x20 0) with ord := 1 }] }
    ((got (hv 0x20 0)).nextRel 0 (·.mtype == 0x20) 0x20 = some (rel0 (hv 0x20 0)) ∧ live.nextRel 0 (·.mtype == 0x20) 0x20 = none) ∧
    (∀ op < 5, (got (pg op)).nextRel 0 (isAtomic op) 0x22 = some (rel0 (pg op))) ∧
    (after.nextRel 0 (·.mtype == 0x20) 0x20 = some { rel0 (hv 0x20 0) with ord := 1 } ∧ after.recBefore 0 1 = true ∧ ok.recBefore 0 0 = false) ∧
    (away.home ≠ away.inst ∧ ok.home = ok.inst ∧ pidDie 0 = ok.die ∧ ok.pageOk 0 = true ∧ live.pageOk 0 = false) ∧
    ((got (hv 0x21 0)).nextRel 0 (·.mtype == 0x21) 0x21 = some (rel0 (hv 0x21 0)) ∧ fld (0 : W64) 50 48 = live.inst.toNat ∧
      (got (hv 0x21 0x1000000000000)).nextRel 0 (·.mtype == 0x21) 0x21 = some (rel0 (hv 0x21 0x1000000000000)) ∧
      fld (0x1000000000000 : W64) 50 48 ≠ live.inst.toNat ∧ live.sisterGone = false) ∧
    ((got (hv 0x23 0)).nextRel 0 (·.mtype == 0x23) 0x23 = some (rel0 (hv 0x23 0)) ∧ fld (0 : W64) 14 12 = live.inst.toNat ∧ fld (0 : W64) 17 15 ≠ 4 ∧
      (got (hv 0x23 0x160000)).nextRel 0 (·.mtype == 0x23) 0x23 = some (rel0 (hv 0x23 0x160000)) ∧ fld (0x160000 : W64) 17 15 = 4 ∧
      fld (0x160000 : W64) 21 18 = 5 ∧ fld (0x160000 : W64) 14 12 = live.inst.toNat ∧ fld (0x1000 : W64) 14 12 ≠ live.inst.toNat) := by decide +kernel

theorem wit_MemoryPort :
    let b : MemBeat := { tag := 5, data := List.replicate 128 0, gv := 3, err := 0, poison := 0, last := false }
    let r : RdReq := { id := 9, addr := 0, n := 2, owner := .op 0, got := [], wire := some 5, took := true }
    let w : WrReq :=
      { id := 9, addr := 127, data := [1, 2], poison := false, stream := none, ord := 0, owner := .ring, issued := true, wire := some 5, took := true }
    let s := { live with rdq := [r], wrq := [w] }
    let waits := { live with wrq := [{ w with took := false }] }
    (s.inReset = false ∧ b.data.length = 128 ∧ s.rdq.find? (fun r => r.took && r.wire == some b.tag) = some r ∧ b.last = false ∧
      ({ b with last := true } : MemBeat).last = true) ∧
    (∀ r ∈ s.rdq, r.took = true → r.wire ≠ some 6) ∧ (∀ w ∈ s.wrq, w.took = true → w.wire ≠ some 6) ∧
    (s.wrq.find? (fun w => w.took && w.wire == some 5) = some w ∧ ∀ b ∈ s.wd, b.wire ≠ 5) ∧ freeWire [0] 0 = some 1 ∧
    (0 < w.data.length ∧ 127 < 128 ∧ (w.beats 5)[1]?.isSome = true) ∧
    ((waits.wrq.find? (·.onCh 0) = some { w with took := false }) ∧ s.wrq.find? (·.onCh 0) = none) := by decide +kernel

/-- A management function with an argument and its data, released. -/
def mg (arg : W64) (data : List Byte) : MgmtIn :=
  { msg := { msg0 with mtype := 0x30, tc := 3, arg := arg, data := data }, untimed := true, rdy := 0, released := true }

/-- s where that management function waits. -/
def State.told (s : State) (x : MgmtIn) : State := { s with mgmtRx := [x] }

/-- That state without it, its credits granted back. -/
def State.heardMgmt (s : State) (x : MgmtIn) : State :=
  ({ State.told s x with mgmtRx := (State.told s x).mgmtRx.tail } : State).when (!freeOfCredit x.msg) (·.grant x.msg)

theorem manages {s : State} {kind : Msg → Bool} {x : MgmtIn} (h : s.inReset = false ∧ x.released = true ∧ kind x.msg = true) :
    (State.told s x).Manages kind x (State.heardMgmt s x) := ⟨h.1, 0, by simp [State.told, h.2.1, h.2.2], rfl, rfl⟩

theorem wit_Management :
    let rq := mg 0x90142 [15]
    let ec := mg 0x90242 [0]
    let k : Shake := { target := 8, mine := true, echoed := false, nextSend := 0, arg := 0 }
    let s := { up with mods := [(0, { carrying with retire := some k })] }
    let o := { up with trn := { st := 5, open_ := true } }
    let t := { up with twin := { take := some k } }
    (State.told up (mg 1 [])).Manages (fun m => mgmtFn m == 1) (mg 1 []) (State.heardMgmt up (mg 1 [])) ∧
    ((State.told o (mg 2 [])).Manages (fun m => mgmtFn m == 2) (mg 2 []) (State.heardMgmt o (mg 2 [])) ∧ (State.heardMgmt o (mg 2 [])).openMode = true ∧
      (State.heardMgmt up (mg 2 [])).openMode = false) ∧
    ((State.told up rq).Manages (mgmtIs 0x42 1) rq (State.heardMgmt up rq) ∧ retireMod rq.msg < modules (State.heardMgmt up rq).member ∧
      ((State.heardMgmt up rq).mod 15).st ≠ .retired ∧ ((State.heardMgmt up rq).mod 15).retire = none ∧ modules up.member ≤ retireMod (mg 0 [16]).msg) ∧
    ((State.told s ec).Manages (mgmtIs 0x42 2) ec (State.heardMgmt s ec) ∧ ((State.heardMgmt s ec).mod (retireMod ec.msg)).retire = some k) ∧
    (up.inReset = false ∧ fld (0x8000000F : W32) 3 0 < modules up.member ∧ (up.mod 15).st ≠ .retired ∧ bit (0x8000000F : W32) 31 = true ∧
      bit (0x4000000F : W32) 30 = true ∧ up.cfgReady = true) ∧
    (({ carrying with st := .retired } : Mod).st = .retired ∧ up.plan = none ∧ ({ up with plan := some (9, 0, 0) } : State).plan ≠ none) ∧
    (t.twin.rejoin = none ∧ t.hm.stepReq = none ∧ (∀ m < modules t.member, (t.mod m).retire = none) ∧ t.twin.take = some k ∧ k.mine = true ∧
      k.echoed = false ∧ k.nextSend ≤ t.now ∧ up.twin.take = none ∧
      ({ up with twin := { rejoin := some k } } : State).twin.rejoin = some k ∧ ({ up with hm := { stepReq := some k } } : State).hm.stepReq = some k ∧ k.arg < 16) := by
  refine ⟨manages ?_, ⟨manages ?_, ?_⟩, ⟨manages ?_, ?_⟩, ⟨manages ?_, ?_⟩, ?_, ?_, ?_⟩ <;> decide +kernel

/-- A twin of role 1 in Equinox. -/
def pairedUp : State := { up with env := { up.env with fuseId := 0x80001000 }, twin := { st := 1, alive := true } }

theorem wit_TwinHandshakes :
    let rq := mg 0x92140 []
    let ec := mg 0x92240 []
    let k : Shake := { target := 8, mine := true, echoed := false, nextSend := 0, arg := 2 }
    let s := { pairedUp with twin := { st := 2, take := some k } }
    let v := { pairedUp with twin := { st := 3, sisOk := true, alive := true } }
    let vk := { v with twin := { st := 3, rejoin := some k } }
    let late := { v with regs := [(0x90008, 1)] }
    ((State.told pairedUp rq).Manages (mgmtIs 0x40 1) rq (State.heardMgmt pairedUp rq) ∧ (State.heardMgmt pairedUp rq).paired = true ∧
      twinRole rq.msg = (State.heardMgmt pairedUp rq).sisRole ∧ (State.heardMgmt pairedUp rq).twin.st < 3 ∧ (State.heardMgmt pairedUp rq).twin.take = none) ∧
    ((State.told s ec).Manages (mgmtIs 0x40 2) ec (State.heardMgmt s ec) ∧ (State.heardMgmt s ec).twin.take = some k ∧
      (State.heardMgmt s ec).paired = true ∧ k.arg ≠ (State.heardMgmt s ec).role ∧ laterTick k.target (mgmtTick ec.msg) = mgmtTick ec.msg ∧
      laterTick k.target (mgmtTick (mg 0x72240 []).msg) ≠ mgmtTick (mg 0x72240 []).msg ∧ (State.heardMgmt v rq).hearsTakeover rq.msg = false) ∧
    ((State.told v (mg 0x2041 [])).Manages (fun m => mgmtFn m == 0x41) (mg 0x2041 []) (State.heardMgmt v (mg 0x2041 [])) ∧
      (State.heardMgmt v (mg 0x2041 [])).paired = true ∧ (State.heardMgmt v (mg 0x2041 [])).twin.st = 3 ∧ twinRole (mg 0x2041 []).msg = (State.heardMgmt v (mg 0x2041 [])).sisRole) ∧
    ((State.told v (mg 0x92143 [])).Manages (mgmtIs 0x43 1) (mg 0x92143 []) (State.heardMgmt v (mg 0x92143 [])) ∧
      (State.heardMgmt v (mg 0x92143 [])).paired = true ∧ (State.heardMgmt v (mg 0x92143 [])).twin.st = 3 ∧
      (State.heardMgmt v (mg 0x92143 [])).twin.moving = false ∧ (State.heardMgmt v (mg 0x92143 [])).twin.rejoin = none) ∧
    ((State.told vk (mg 0x92243 [])).Manages (mgmtIs 0x43 2) (mg 0x92243 []) (State.heardMgmt vk (mg 0x92243 [])) ∧
      (State.heardMgmt vk (mg 0x92243 [])).twin.rejoin = some k) ∧
    (let lost := { pairedUp with twin := { st := 5 } }
     (State.told lost (mg 0x92540 [])).Manages (mgmtIs 0x40 1) (mg 0x92540 []) (State.heardMgmt lost (mg 0x92540 [])) ∧
      twinRole (mg 0x92540 []).msg = (State.heardMgmt lost (mg 0x92540 [])).sisRole ∧ twinLost (mg 0x92540 []).msg = true) ∧
    (pairedUp.cfgReady = true ∧ pairedUp.paired = true ∧ pairedUp.twin.st = 1 ∧ up.paired = false) ∧
    (v.twin.st = 3 ∧ v.twin.sisOk = true ∧ v.twin.alive = true ∧ v.twin.rejoin = none ∧ future ((v.rg64 0x90008).toNat % 2 ^ 48) v.tick.num = false ∧
      future ((late.rg64 0x90008).toNat % 2 ^ 48) late.tick.num = true) := by
  refine ⟨⟨manages ?_, ?_⟩, ⟨manages ?_, ?_⟩, ⟨manages ?_, ?_⟩, ⟨manages ?_, ?_⟩, ⟨manages ?_, ?_⟩, ⟨manages ?_, ?_⟩, ?_, ?_⟩ <;> decide +kernel

theorem wit_TwinBus :
    let p := fun (x : Twin) => { pairedUp with twin := x }
    let frag : Frag := { mod := 0, moff := 0, bytes := [5] ++ List.replicate 15 0, due := none, untimed := true, retrained := false, flit := 0, rdy := 0, released := false }
    let h : Held := { sseq := 3, tc := 0, frags := [frag] }
    let o := { op0 with tag := 255, handed := true }
    (pairedUp.inReset = false ∧ pairedUp.paired = true ∧ (p { nextHb := 3000000 }).twin.st ≠ 1 ∧ (p { nextHb := 3000000 }).twin.nextHb ≤ live.now ∧
      live.now < (p { nextHb := 3000001 }).twin.nextHb) ∧
    ((p {}).twin.st = 0 ∧ (p {}).linkOk = true ∧ pairedUp.twin.st = 1 ∧ pairedUp.linkFails = false ∧
      pairedUp.twin.failed = false ∧ ({ pairedUp with mods := [] } : State).linkFails = true) ∧
    (let t := 3000000 - 64 * live.rf 0x90000 15 8
     (p { lastHb := some t }).twin.lastHb = some t ∧ t + 64 * (p {}).rf 0x90000 15 8 ≤ live.now ∧ live.now < t + 1 + 64 * live.rf 0x90000 15 8) ∧
    ((p { enAt := some 600000 }).twin.enAt = some 600000 ∧ (p { enAt := some 600000 }).twin.st = 0 ∧ (p { enAt := some 600000 }).twin.alive = false ∧
      600000 + 2400000 ≤ live.now ∧ live.now < 600001 + 2400000) ∧
    recordOk { tag := 255, orig := 0, opcode := 0x28, stream := 1, tc := 0, msgs := [msg0] } = true ∧
    (255 < 256 ∧ ({ pairedUp with ops := [o] } : State).op? 255 = some o ∧ o.handed = true ∧ (1 : BitVec 4) ≠ 5) ∧
    ((p { st := 3 }).twin.st = 3 ∧ (p { st := 2 }).twin.st = 2 ∧ roleStream pairedUp.sisRole 63 = true ∧ roleStream pairedUp.role 62 = true ∧
      roleStream pairedUp.sisRole 62 = false) ∧
    ((∀ x ∈ ([{ stream := 63, sseq := 0, msg := msg0, src := none }] : List LogEnt), x.stream < 64 ∧ x.msg.tc < 4)) ∧
    (∀ h ∈ (pairedUp.strm 63).held, h.sseq ≠ 3) ∧
    (let s := { pairedUp with streams := [(63, { held := [h] })] }
     (s.strm 63).held.find? (fun h => h.sseq == 3) = some h ∧ (heldLen h.frags).isSome = true) := by decide +kernel

theorem wit_HealthAndRate :
    let rq := mg 0x84150 []
    let ok := { up with regs := [(0xA0008, 0x4010)] }
    let k : Shake := { target := 9, mine := true, echoed := false, nextSend := 0, arg := 4 }
    let s := { ok with hm := { stepReq := some k }, tick := { num := 8 } }
    let sent := { msg0 with dst := 1, stream := 2 }
    let w := { live with pwr := { st := 3 }, regs := [(0xA0008, 0x20), (0xA0104, 0x40000000)], transit := [{ msg := sent, src := 1, since := 0 }] }
    let other := { s with hm := { stepReq := some { k with mine := false, echoed := true } } }
    let due := { live with regs := [(0xA0000, 0x80000064)], hm := { lastAt := 2997600 } }
    (up.inReset = false ∧ bit (live.rg 0xA0000) 31 = true ∧ bit (({ live with regs := [(0xA0000, 0)] } : State).rg 0xA0000) 31 = false) ∧
    (({ live with env := { live.env with inReset := true, cold := true } } : State).env.cold = true ∧ live.env.cold = false ∧ live.bist.cur = none ∧
      due.sampleDue = true ∧ ({ due with hm := { lastAt := 2997601 } } : State).sampleDue = false) ∧
    ((State.told s rq).Manages (stepIs 1) rq (State.heardMgmt s rq) ∧ bit ((State.heardMgmt s rq).rg 0xA0008) 4 = true ∧
      (State.heardMgmt s rq).rf 0xA0008 15 12 ≤ stepRate rq.msg ∧ (State.heardMgmt s rq).plan = none ∧ (State.heardMgmt s rq).hm.stepReq = some k) ∧
    ((State.told other (mg 0x94350 [])).Manages (stepIs 3) (mg 0x94350 []) (State.heardMgmt other (mg 0x94350 [])) ∧
      (State.heardMgmt other (mg 0x94350 [])).hm.stepReq = some { k with mine := false, echoed := true }) ∧
    ((State.told other (mg 0x94250 [])).Manages (stepIs 2) (mg 0x94250 []) (State.heardMgmt other (mg 0x94250 [])) ∧
      future 9 (({ s with tick := { num := 7 } } : State).tickPlus 1) = true ∧ ({ s with tick := { num := 9 } } : State).tick.num = k.target ∧
      16 ≤ ({ k with arg := 20 } : Shake).arg ∧ { k with arg := 20 }.nextSend ≤ s.now ∧ w.waitedLong false = true ∧
      ({ w with transit := [] } : State).waitedLong false = false) ∧
    ((State.told up rq).Manages (stepIs 1) rq (State.heardMgmt up rq) ∧ bit ((State.heardMgmt up rq).rg 0xA0008) 4 = false) ∧
    ((State.told ok rq).Manages (stepIs 1) rq (State.heardMgmt ok rq) ∧ bit ((State.heardMgmt ok rq).rg 0xA0008) 4 = true ∧
      (State.heardMgmt ok rq).rf 0xA0008 15 12 ≤ stepRate rq.msg ∧ (State.heardMgmt ok rq).plan = none ∧ (State.heardMgmt ok rq).hm.stepReq = none) ∧
    ((State.told s (mg 0x94250 [])).Manages (stepIs 2) (mg 0x94250 []) (State.heardMgmt s (mg 0x94250 [])) ∧
      (State.heardMgmt s (mg 0x94250 [])).hm.stepReq = some k ∧ k.mine = true ∧ k.arg < 16 ∧
      laterTick k.target (mgmtTick (mg 0x94250 []).msg) = mgmtTick (mg 0x94250 []).msg) ∧
    ((State.told s (mg 0x84250 [])).Manages (stepIs 2) (mg 0x84250 []) (State.heardMgmt s (mg 0x84250 [])) ∧
      (State.heardMgmt s (mg 0x84250 [])).hm.stepReq = some k ∧
      laterTick k.target (mgmtTick (mg 0x84250 []).msg) ≠ mgmtTick (mg 0x84250 []).msg) ∧
    ((State.told s (mg 0x94350 [])).Manages (stepIs 3) (mg 0x94350 []) (State.heardMgmt s (mg 0x94350 [])) ∧ k.echoed = false) ∧
    ((State.told s (mg 0x94450 [])).Manages (stepIs 4) (mg 0x94450 []) (State.heardMgmt s (mg 0x94450 []))) ∧
    (s.hm.stepReq = some k ∧ k.arg < 16 ∧ future k.target (s.tickPlus 1) = false ∧ future k.target s.tick.num = true) ∧
    (w.pwr.st = 3 ∧ w.pwr.wakeSent = false ∧ bit (w.rg 0xA0104) 30 = true ∧ bit (w.rg 0xA0008) 5 = true ∧ w.waitedLong false = true) := by
  refine ⟨?_, ?_, ⟨manages ?_, ?_⟩, ⟨manages ?_, ?_⟩, ⟨manages ?_, ?_⟩, ⟨manages ?_, ?_⟩, ⟨manages ?_, ?_⟩, ⟨manages ?_, ?_⟩, ⟨manages ?_, ?_⟩, ⟨manages ?_, ?_⟩, manages ?_, ?_, ?_⟩ <;> decide +kernel

theorem wit_FallowResults :
    let two := { up with mods := [(0, carrying), (15, carrying)], regs := [(0xA0104, 0x80010000)] }
    let s := fun (x : Mod) => { up with mods := [(0, x)] }
    ((two.inReset = false ∧ two.activeMods.getLast? = some 15 ∧ bit (two.rg 0xA0104) 31 = true ∧ two.rf 0xA0104 20 16 < two.activeMods.length ∧
      two.modIdle 15 = true ∧ (two.mod 15).fallowReq = false ∧ two.openMode = false ∧ 1 < two.activeMods.length)) ∧
    (up.Hears (sbMake 1 0 []) 1 0 0 ∧ up.txIdle 0 = true) ∧
    ((s { carrying with lastUse := 3000000, rep := [{ seq := 0, tc := 0, stream := 0, pay := [], ids := [], sent := 0, retx := 0, owed := false, rpt := false }] }).Hears (sbMake 1 0 []) 1 0 0 ∧ (s { carrying with lastUse := 3000000, rep := [{ seq := 0, tc := 0, stream := 0, pay := [], ids := [], sent := 0, retx := 0, owed := false, rpt := false }] }).txIdle 0 = false) ∧
    ((s { st := .fallow }).Hears (sbMake 1 0 []) 1 0 0 ∧ (s { st := .fallow }).txIdle 0 = false ∧ ((s { st := .fallow }).mod 0).wakeAt = none) ∧
    ((s { carrying with fallowReq := true }).Hears (sbMake 2 0 []) 2 0 0 ∧ ((s { carrying with fallowReq := true }).mod 0).fallowReq = true ∧ carrying.st = .active) ∧
    (up.Hears (sbMake 3 15 []) 3 0 15) ∧
    (let x := s { st := .fallow, wantWake := true }
     0 < modules x.member ∧ (x.mod 0).st = .fallow ∧ (x.mod 0).wakeAt = none ∧ (x.mod 0).wantWake = true ∧ (∀ k < 0, (x.mod k).st ≠ .fallow) ∧ x.mayWake = true ∧
      x.bist.cur = none) ∧
    (((s { st := .fallow, wakeAt := some 2999904 }).mod 0).wakeAt = some 2999904 ∧ 2999904 + live.dur 96 ≤ live.now ∧
      ((s { st := .fallow, wakeAt := some 2999904 }).mod 0).wantRetrain = none ∧ live.now < 2999905 + live.dur 96) ∧
    (((s { st := .fallow, wakeAt := some 2999904, wantRetrain := some 2 }).mod 0).wantRetrain = some 2 ∧ live.cfgReady = true) := by
  refine ⟨?_, ⟨hears ?_, ?_⟩, ⟨hears ?_, ?_⟩, ⟨hears ?_, ?_⟩, ⟨hears ?_, ?_⟩, hears ?_, ?_, ?_, ?_⟩ <;> decide +kernel

theorem wit_MidwinterResults :
    let p := fun (x : Pwr) => { upAt7 with pwr := x }
    let t := { upAt7 with regs := [(0xA0108, 11)] }
    let ask := sbMake 6 0 [11]
    (upAt7.inReset = false ∧ upAt7.cfgReady = true ∧ upAt7.pwr.st = 0 ∧ upAt7.linkDownNow = false ∧ upAt7.openMode = false ∧ up.locked = false ∧ upAt7.locked = true ∧
      future ((upAt7.rg64 0xA0108).toNat % 2 ^ 48) upAt7.tick.num = false ∧ future ((t.rg64 0xA0108).toNat % 2 ^ 48) t.tick.num = true) ∧
    (upAt7.Hears ask 6 1 0 ∧ fld (sbWord ask 0) 47 0 ≠ 0) ∧ (upAt7.Hears (sbMake 6 0 [0]) 6 1 0 ∧ fld (sbWord (sbMake 6 0 [0]) 0) 47 0 = 0) ∧
    ((p { st := 1, mwGo := some 11 }).Hears (sbMake 7 0 [11]) 7 1 0 ∧ (p { st := 1, mwGo := some 11 }).pwr.mwGo = some (fld (sbWord (sbMake 7 0 [11]) 0) 47 0)) ∧
    ((p { st := 1, mwGo := some 8 }).pwr.mwGo = some 8 ∧ future 8 (upAt7.tickPlus 1) = false ∧ (p { st := 1, mwGo := some 8 }).pwr.acked = false ∧
      (p { st := 1, mwGo := some 8 }).locked = true) ∧
    ((p { st := 2, entryAt := 2997600 }).pwr.st = 2 ∧ 2997600 + live.dur 2400 ≤ live.now) ∧ ((p { st := 3 }).pwr.st = 3 ∧ (p { st := 3 }).pwr.wakeSent = false) ∧
    ((p { st := 3 }).Hears (sbMake 8 0 []) 8 0 0 ∧ upAt7.Hears (sbMake 8 0 []) 8 0 0 ∧ upAt7.pwr.st ≠ 3 ∧ upAt7.pwr.st ≠ 4) ∧
    ((p { st := 3, wakeSent := true }).Hears (sbMake 9 0 []) 9 0 0 ∧ (p { st := 3, wakeSent := true }).pwr.wakeSent = true ∧
      (p { st := 3, wakeSent := true, nextSend := 3000000 }).pwr.nextSend ≤ live.now) ∧
    ((p { st := 4, exitStep := 4, exitAt := 2971200 }).pwr.st = 4 ∧ exitTimes[4]? = some 28800 ∧ 2971200 + live.dur 28800 ≤ live.now ∧
      live.now < 2971201 + live.dur 28800 ∧ exitTimes[3]? = some 26400 ∧ exitTimes[2]? = some 22800 ∧
      exitTimes[0]?.isSome = true) ∧
    (let z := fun (k : Nat) (x : Machine.Mod) => { upAt7 with pwr := { st := 4, exitStep := k }, mods := [(15, x)] }
     (∀ m < modules upAt7.member, ((z 4 carrying).mod m).retrain = none) ∧ ((z 2 { st := .midwinter }).mod 15).st = .midwinter ∧
      ((z 4 { st := .frost }).mod 15).st = .frost ∧ ((z 3 carrying).exitRetrain.pwr.exitStep = 3) ∧
      ¬ ∀ m < modules upAt7.member, ((z 2 { st := .midwinter }).exitRetrain.mod m).retrain = none) ∧
    ((p { st := 4 }).Hears (sbMake 8 0 []) 8 0 0 ∧ (p { capPend := [(1, 2), (3, 4)] }).pwr.capPend.getLast? = some (3, 4)) ∧
    (({ live with regs := [(0xD0000, 0x40000000)] } : State).capOn = true ∧ live.capOn = false ∧ fld (0xF1F0000000000000008 : BitVec 128) 3 0 = 8 ∧
      fld (9 : BitVec 128) 3 0 = 9) := by
  refine ⟨?_, ⟨hears ?_, ?_⟩, ⟨hears ?_, ?_⟩, ⟨hears ?_, ?_⟩, ?_, ?_, ?_, ⟨hears ?_, hears ?_, ?_⟩, ⟨hears ?_, ?_⟩, ?_, ?_, ⟨hears ?_, ?_⟩, ?_⟩ <;> decide +kernel

theorem wit_ErrorMemory :
    let e := { live with ecc := { pend := [0] }, regs := [(eccLogOff 0 + 4, 0x80000000)] }
    let g := { live with regs := [(0xC0028, 1)] }
    let sc := fun (left : Nat) => { live with ecc := { scrub := some (0, 16383, left), nextAt := 3000000 } }
    let rt := fun (id : W32) => { live with regs := [(0xC0080, 0x80000000 + (id <<< 24))], ecc := { retire := [(id.toNat, 0)] } }
    (live.inReset = false ∧ e.ecc.pend.contains 0 = true ∧ bit (e.rg (eccLogOff 0 + 4)) 31 = true ∧ live.ecc.pend.contains 0 = false) ∧
    (bit (0x80000000 : W32) 31 = true ∧ bit (0x80000000 : W32) 28 = false ∧ g.ecc.scrub = none ∧ fld (0x80000000 : W32) 27 24 ≠ 0xA ∧
      fld (0x80000000 : W32) 27 24 ≠ 0xB ∧ g.rf 0xC0028 23 0 ≠ 0) ∧
    ((sc 1).ecc.scrub = some (0, 16383, 1) ∧ (sc 1).ecc.nextAt ≤ (sc 1).now ∧ 1 ≤ 1 ∧ 1 < 2 ∧
      ({ sc 2 with ecc := { scrub := some (0, 0, 2), nextAt := 3000001 } } : State).now < 3000001) ∧ (7 < 8 ∧ bit (0 : W32) 31 = false) ∧
    ((rt 7).ecc.retire.contains (fld ((rt 7).rg 0xC0080) 27 24, fld ((rt 7).rg 0xC0080) 19 0) = true ∧ fld ((rt 7).rg 0xC0080) 27 24 = 7) ∧
    ((rt 8).ecc.retire.contains (fld ((rt 8).rg 0xC0080) 27 24, fld ((rt 8).rg 0xC0080) 19 0) = true ∧ fld ((rt 8).rg 0xC0080) 27 24 ≠ 7 ∧
      (rt 8).trainRuns = false ∧ ({ rt 8 with trn := { st := 4 } } : State).trainRuns = true ∧ live.ecc.retire.contains (7, 0) = false) ∧
    (live.cfgReady = true ∧ live.rf 0xC0028 23 0 = 0 ∧ (sc 1).ecc.scrub ≠ none ∧ fld (0x8A000000 : W32) 27 24 = 0xA ∧
      fld (0x8B000000 : W32) 27 24 = 0xB ∧ (sc 1).upsetAt 0 ((sc 1).physWord 0 16383) = 0) ∧
    (511 < 512 ∧ ({ live with ecc := { spStage := [9, 5] } } : State).ecc.spStage.findIdx? (· == 5) = some 1 ∧
      ({ live with ecc := { spRx := [5] } } : State).ecc.spRx.findIdx? (· == 5) = some 0) := by decide +kernel

theorem wit_SelfTest :
    let y := { live with regs := [(0xB0000, 0x80000000)], hm := { vdd := 750 }, bist := { mhz := some (minClk live.member) } }
    let run := fun (began : Nat) => { live with bist := { run := some 12, runBegan := began }, regs := [(0xB0000, 0x10000)], tick := { num := 4096 } }
    let isDue := fun (s : State) => 4096 * s.rf 0xB0000 23 16 ≤ (s.tick.num + 2 ^ 48 - s.bist.began) % 2 ^ 48
    (live.inReset = false ∧ live.cfgReady = true ∧ bit (0x80000000 : W32) 31 = true ∧ bit (0x80000000 : W32) 30 = false ∧
      fld (0x80000000 : W32) 3 0 = 0 ∧ 12 < fld (0x8000000D : W32) 3 0 ∧ live.blank = false ∧ live.bist.run = none ∧
      fld (0x8000000C : W32) 3 0 = 12 ∧ 0 < bistSlices live.member 12 ∧ (run 0).bist.run ≠ none ∧ bit (0 : W32) 31 = false) ∧
    (({ live with bist := { cur := some (1, 0, false) } } : State).bist.cur ≠ none) ∧
    (y.bist.cur = none ∧ y.blank = false ∧ y.bist.run = none ∧ bit (y.rg 0xB0000) 31 = true ∧ y.bist.lastEnd + 64 * y.rf 0xB0000 15 8 ≤ y.now ∧
      (∀ t, y.tick.nextSol = some t → y.now + 1040 ≤ t) ∧ y.bistNext y.bist.month y.bist.slices ≠ [] ∧ y.envelope = true ∧
      ({ y with hm := { vdd := 719 } } : State).envelope = false) ∧
    (({ live with bist := { cur := some (9, 0, false) } } : State).bist.cur = some (9, 0, false)) ∧
    ((run 0).bist.run = some 12 ∧ 4096 * (run 0).rf 0xB0000 23 16 ≤ ((run 0).tick.num + 2 ^ 48 - 0) % 2 ^ 48 ∧
      ((run 1).tick.num + 2 ^ 48 - 1) % 2 ^ 48 < 4096 * (run 1).rf 0xB0000 23 16) ∧
    (y.bist.run = none ∧ isDue y ∧ ¬ isDue { y with regs := [(0xB0000, 0x80010000)] } ∧ bit (live.rg 0xB0000) 31 = false) ∧
    (live.bist.aitStep = 0 ∧ live.trn.st = 0 ∧ up.trn.st ≠ 0 ∧ up.trn.st ≠ 6) ∧
    (aitWf { wires := [(15, 73)], errs := [(15, 67, 65536)] } = true ∧ ({ live with bist := { aitStep := 2 } } : State).bist.aitStep = 2 ∧
      ({ live with bist := { aitStep := 3 } } : State).bist.aitStep = 3) := by
  decide +kernel

theorem wit_WrapperResults :
    let held := { live with env := { live.env with inReset := true } }
    let run := { live with bist := { run := some 1 } }
    (held.inReset = true ∧ live.inReset = false) ∧
    (let dr : W64 := 0x110004
     bit dr 20 = true ∧ fld dr 19 0 / 4 * 4 = 0x10004 ∧
      ((regRow (modules live.member) 0x10004).map fun r => (r.half, r.rws, merges 0x10004)) = some (0, 0, false) ∧ live.seq.stopReq = none ∧
      live.hits = [] ∧ ({ live with portRd := none, portWr := none, bist := { live.bist with wir := 0x08 } } : State).writeSpecial 0x10004 0 = none) ∧
    (let dr : W64 := 0x2008
     bit dr 20 = false ∧ live.portRd = none ∧ merges (fld dr 19 0 / 4 * 4) = false ∧ memWords (fld dr 19 0 / 4 * 4) = []) ∧
    (bit (0x7FFFFFFF : W32) 31 = false ∧ bit (0x80000001 : W32) 31 = true ∧ live.bist.aitStep = 0 ∧ live.trn.st = 0 ∧
      ({ live with trn := { st := 6 } } : State).trn.st = 6) ∧
    (live.blank = false ∧ live.bist.run = none ∧ fld (0x8000000C : W32) 3 0 = 12 ∧ 0 < bistSlices live.member 12 ∧ run.bist.run ≠ none) := by
  decide +kernel

/-! ## Well-formedness: an ill-formed term for each check -/

theorem test_wf_module : (Instr.ackTimer 16).wf = false ∧ (Instr.ackTimer 15).wf = true := by decide
theorem test_wf_flit : (Instr.data 0 []).wf = false ∧ (Instr.idle 16 []).wf = false ∧ (Instr.failedSlot 0 (some [])).wf = false ∧
    (Instr.failedSlot 0 none).wf = true := by decide
theorem test_wf_unit : (Instr.openDataUnit 0 []).wf = false := by decide
theorem test_wf_stream : (Instr.writeRelease 64).wf = false ∧ (Instr.fragmentRelease (some 64)).wf = false ∧
    (Instr.twinStreamState ⟨64, 0, 0, []⟩).wf = false := by decide
theorem test_wf_class : (Instr.messageAdmission 4).wf = false := by decide
theorem test_wf_msg : (Instr.passThroughUnit (.msg 0 { msg0 with stream := 64 })).wf = false ∧ (Instr.passThroughUnit (.msg 0 { msg0 with tc := 4 })).wf = false ∧
    (Instr.responseLogTransfer [⟨0, 0, { msg0 with tc := 4 }, none⟩]).wf = false := by decide
theorem test_wf_beat : (Instr.memReadData ⟨0, [], 0, 0, 0, false⟩).wf = false := by decide
theorem test_wf_slots : (Instr.mergeGroupFold 8 0).wf = false ∧ (Instr.mergeCutoff 8).wf = false ∧ (Instr.combineCutoff 4).wf = false ∧
    (Instr.xeMtStatAbort 4).wf = false ∧ (Instr.sxDslotFlush 4).wf = false ∧ (Instr.eccRetireWrite 8 0).wf = false := by decide
theorem test_wf_records : (Instr.operationRecord ⟨256, 0, 0, 0, 0, []⟩).wf = false ∧ (Instr.completionReport 256 0 false 0).wf = false ∧
    (Instr.aitStepComplete ⟨[(0, 74)], []⟩).wf = false ∧ (Instr.sparePrbsError 0 68 0).wf = false := by decide

/-! ## The sequencer -/

/-- The state that a command leaves. -/
def ran (c : Instr) (s : State) : State :=
  match exec c s with
  | .next t => t
  | _ => s

/-- A word that issues, with general registers. -/
def atG (w : W64) (g : List (Nat × W64)) : State := { at_ w with g := g }

theorem test_add_wraps : (ran .add (atG (wd 0x0B 3 1 2 0) [(1, 0xFFFFFFFFFFFFFFFF), (2, 2)])).greg 3 = 1 := by decide
theorem test_sub_borrow : (ran .sub (atG (wd 0x0C 1 1 2 0) [(1, 1), (2, 3)])).greg 1 = 0xFFFFFFFFFFFFFFFE := by decide
theorem test_addi_negative : (ran .addi (atG (wd 0x0A 3 1 0 0xFFFFFFFF) [(1, 5)])).greg 3 = 4 := by decide
theorem test_g0_discards : (ran .addi (at_ (wd 0x0A 0 0 0 7))).greg 0 = 0 := by decide
theorem test_shr_arith : (ran .shr (atG (wd 0x11 3 1 2 0x10000000000) [(1, 0x8000000000000000), (2, 63)])).greg 3 = 0xFFFFFFFFFFFFFFFF := by decide
theorem test_shl_mod64 : (ran .shl (atG (wd 0x10 3 1 2 0) [(1, 1), (2, 65)])).greg 3 = 2 := by decide
theorem test_mul_low : (ran .mul (atG (wd 0x12 3 1 2 0) [(1, 0x100000001), (2, 0x100000001)])).greg 3 = 0x200000001 := by decide
theorem test_logic : (ran .xor (atG (wd 0x0F 3 1 2 0) [(1, 0xC), (2, 0xA)])).greg 3 = 6 ∧
    (ran .and (atG (wd 0x0D 3 1 2 0) [(1, 0xC), (2, 0xA)])).greg 3 = 8 ∧ (ran .or (atG (wd 0x0E 3 1 2 0) [(1, 0xC), (2, 0xA)])).greg 3 = 0xE := by
  decide
theorem test_li_negative : (ran .li (at_ (wd 0x09 3 0 0 0x8000))).greg 3 = 0x8000 ∧
    (ran .li (at_ 0x0918FFFFFFFFFFFE)).greg 3 = 0xFFFFFFFFFFFFFFFE := by decide
theorem test_call_ret : (ran .call (at_ (wd 6 0 0 0 0x100))).seq.pc = 0x100 ∧ (ran .call (at_ (wd 6 0 0 0 0x100))).seq.stack = [1] ∧
    (ran .ret { at_ (wd 7 0 0 0 0) with seq := { st := .running, stack := [9, 5] } }).seq.pc = 5 := by decide
theorem test_ret_empty : fld ((ran .ret (at_ (wd 7 0 0 0 0))).rg 0x30008) 7 0 = 3 := by decide +kernel
theorem test_pc_end :
    let t := ran .nop { at_ 0 with pm := [(16383, 0)], seq := { st := .running, pc := 16383 } }
    t.seq.pcEnd = true ∧ fld (State.seqCc { t with env := { t.env with now := t.seq.nextAt } } |>.rg 0x30008) 7 0 = 4 := by decide +kernel
theorem test_invalid_op : fld ((ran .invalidOp (at_ 0xFF00000000000000)).rg 0x30008) 15 0 = 0xFF01 := by decide +kernel
theorem test_lds_range : (ran .lds (at_ (wd 0x16 1 0 0 0x1200))).rg 0x3000C = 0x1200 := by decide +kernel
theorem test_sts_counter : (ran .sts { atG (wd 0x17 1 0 0 0x1010) [(1, 0x100000009)] with ev := [(2, 0x300000001)] }).evc 2 = 0x200000009 := by decide
theorem test_wrong_opcode : ran .add (at_ (wd 0x0C 1 2 3 0)) = at_ (wd 0x0C 1 2 3 0) := by decide +kernel

/-- Table 5-13 at 0x0101: CMP p1, g7, #0, LT. -/
theorem test_table_cmp : (ran .cmp (atG 0x1309C18000000000 [(7, 0x8000000000000000)])).flag 1 = true ∧
    (ran .cmp (atG 0x1309C18000000000 [(7, 5)])).flag 1 = false := by decide
/-- At 0x0102: BR p1, 0x0109. -/
theorem test_table_br : (ran .br { at_ 0x0408000000000109 with seq := { st := .running, p := 2 } }).seq.pc = 0x109 ∧
    (ran .br (at_ 0x0408000000000109)).seq.pc = 1 := by decide
/-- At 0x0103: ADDI g6, g6, 1. -/
theorem test_table_addi : (ran .addi (atG 0x0A31800000000001 [(6, 41)])).greg 6 = 42 := by decide
/-- At 0x0105: SIGNAL die 1, s4, ev2, +1. -/
theorem test_table_signal : ((ran .signal (at_ 0x2000001000102001)).ops.map fun o => (o.tag, o.iss.stream, o.msgs.map fun m => (m.dst, m.stream, m.mtype))) =
    [(0, 4, [(1, 4, 4)])] := by decide +kernel
/-- At 0x0106: WAIT p2, ev3 ≥ g6, timeout 200 × 16 cc. -/
theorem test_table_wait : (ran .wait (atG 0x21118103000000C8 [(6, 7)])).seq.wait = some (.ev 3 7 (some 3003200) (some 2) false) := by decide
/-- At 0x0107: BR !p2, 0x010A. -/
theorem test_table_brnot : (ran .br (at_ 0x041001000000010A)).seq.pc = 0x10A ∧ (ran .br (at_ 0x041001000000010A)).seq.nextAt = 3000003 := by decide
/-- At 0x010A: TRAP #0x0042. -/
theorem test_table_trap : (ran .trap (at_ 0x0800000000000042)).rg 0x3000C = 0x42 ∧ fld ((ran .trap (at_ 0x0800000000000042)).rg 0x30008) 7 0 = 0x0B := by
  decide +kernel

/-! ## Codes, formats and tables, against the examples of the spec -/

/-- The check value of the standard CRC-32C. -/
theorem test_crc32c : crcStd [0x31, 0x32, 0x33, 0x34, 0x35, 0x36, 0x37, 0x38, 0x39] = 0xE3069283 := by decide +kernel
/-- 07, the example of MX conversion: scale byte 0x81 and the codes of elements 0 to 4, one saturation. -/
theorem test_mx_block :
    let vs := ([0x4496, 0xC4EE, 0x447A, 0x4040, 0x3C20] ++ List.replicate 27 0).map (bf16f.dec false)
    let r := mxBlock 0x08 ⟨false, false⟩ [] vs
    r.1.take 6 = [0x79, 0xFE, 0x78, 0x34, 0x01, 0x00] ∧ r.2.1 = 0x81 ∧ r.2.2.sat = 1 := by decide +kernel
/-- 07, the example of the grid: b saturates at G = -10, and c becomes 512. -/
theorem test_align : (alignVal (-10) (f32Dec 0xCE6E6B26) {}).1 = -549755813887 ∧ (alignVal (-10) (f32Dec 0x3F000000) {}).1 = 512 ∧
    (alignVal (-8) (f32Dec 0x4E6E6B28) {}).1 = 256000000000 := by decide +kernel
/-- 07, the example of calibration: GOFF -20 to -16, then to -17. -/
theorem test_cal : calNext (-20) 2 21 true = -16 ∧ calNext (-16) 2 15 false = -17 := by decide
/-- 08, the example: both exp units give 0.5. -/
theorem test_exp : exp1 0x3FA746F4 0x40000000 = 0x3F000000 ∧ exp3 0x3FA746F4 0x40000000 = 0x3F000000 := by decide +kernel
/-- 08, the example: 8 / 5 and 1 / 5 in FP32. -/
theorem test_div : f32Div 0x41000000 0x40A00000 = 0x3FCCCCCD ∧ f32Div 0x3F800000 0x40A00000 = 0x3E4CCCCD := by decide +kernel
/-- 10: page id 0x30_0000_0101 falls in set 0xD01. -/
theorem test_rpc_set : rpcSet 0x3000000101 = 0xD01 := by decide

/-! ## The link and the port -/

theorem test_tick_wraps : (ran .solstice { ticking with tick := { ticking.tick with num := 0xFFFFFFFFFFFF } }).tick.num = 0 := by decide +kernel
theorem test_role_err : bit ((ran (.tickRoleWrite 2) { live with env := { live.env with fuseId := 0x81000000 } }).rg 0x2010) 4 = true := by decide +kernel
theorem test_port_irq_en : (ran (.cfgPortWrite 0x34 0xFFFFFFFF) live).rg 0x34 = 0xFF := by decide +kernel
theorem test_port_pending : (ran (.cfgPortWrite 0x30 0x5) { live with regs := [(0x30, 0x7)] }).rg 0x30 = 0x2 := by decide +kernel
theorem test_present : (ran (.present 0 (sbMake 0x10 0 [])) { live with trn := { st := 1 } }).trn.st = 2 := by decide +kernel
theorem test_signal_release : (ran (.signalRelease 0) (got { msg0 with mtype := 4, arg := 0x70003 })).evc 3 = 7 := by decide +kernel
theorem test_pass_through : (ran (.passThroughUnit (.msg 2 msg0)) live).rel.map (·.dom) = [192] := by decide +kernel
theorem test_retrain_answer : (ran (.lockLoss 0 false true) up).mod 0 = { carrying with clkP := false, frmP := false, clkLost := true, lostAt := some 3000000 } := by
  decide +kernel
theorem test_step_idle : (match step live with | .next t => t.now | _ => 0) = 3000001 := by decide +kernel

end Sys2Proof.Tests
end

section
/-! The tick number: the count that wraps at 48 bits, and the half of its circle that lies ahead of a tick (R21). -/
namespace Sys2Proof.Machine

/-- What follows a tick number on the circle of 48 bits, with the wrap spelt out. -/
theorem succ_mod_tickMod {n : Nat} (h : n < tickMod) : (n + 1) % tickMod = if n = tickMod - 1 then 0 else n + 1 := by
  unfold tickMod at *
  split
  · next hlast => rw [hlast]
  · next hlast => exact Nat.mod_eq_of_lt (by omega)

/-- The next tick is a 48-bit number, whatever the current one. -/
theorem State.nextTick_lt (s : State) : s.nextTick < tickMod := by
  unfold State.nextTick
  split
  · decide
  · exact Nat.mod_lt _ (by decide)

/-- Past a root's first Solstice the count goes on by one and wraps. -/
theorem State.nextTick_eq {s : State} (hfirst : s.tick.first = false) (h : s.tick.num < tickMod) :
    s.nextTick = if s.tick.num = tickMod - 1 then 0 else s.tick.num + 1 := by
  rw [← succ_mod_tickMod h]
  simp [State.nextTick, State.tickPlus, hfirst]

/-- The phase point turns the count to the next tick. -/
theorem State.turnPhase_num (s : State) : s.turnPhase.tick.num = s.nextTick := rfl

/-- `future` measures the way from one 48-bit tick to another as the integers modulo 2^48 do. -/
theorem tickDist_eq_emod {t c : Nat} (ht : t < tickMod) (hc : c < tickMod) :
    (((t % tickMod + tickMod - c % tickMod) % tickMod : Nat) : Int) = ((t : Int) - (c : Int)) % tickMod := by
  rw [Nat.mod_eq_of_lt ht, Nat.mod_eq_of_lt hc]
  have hway : ((t + tickMod - c : Nat) : Int) = (t : Int) - c + tickMod := by omega
  rw [Int.natCast_emod, hway, Int.add_emod_right]

/-- A tick is in the future when the way to it is neither empty nor as long as half the circle. -/
theorem future_iff {t c : Nat} (ht : t < tickMod) (hc : c < tickMod) :
    future t c = true ↔ 1 ≤ ((t : Int) - (c : Int)) % tickMod ∧ ((t : Int) - (c : Int)) % tickMod ≤ 2 ^ 47 - 1 := by
  rw [← tickDist_eq_emod ht hc]
  simp only [future, Bool.and_eq_true, decide_eq_true_eq]
  omega

/-- Settles O11: the phase point moves the count to `nextTick`, and `future` is read over the integers. -/
theorem futureTick : Obligations.FutureTick := by
  unfold Obligations.FutureTick
  refine ⟨fun s hnum => ?_, fun t c ht hc => future_iff ht hc⟩
  simp only [State.turnPhase_num]
  exact ⟨s.nextTick_lt, fun hfirst => State.nextTick_eq hfirst hnum⟩

end Sys2Proof.Machine
end

section
/-! The general registers (R172). -/
namespace Sys2Proof.Machine

/-- A write of g0 is discarded. -/
@[simp] theorem State.setGreg_zero (s : State) (v : W64) : s.setGreg 0 v = s := if_pos rfl

/-- Settles O26: a read after a write of the same register, of another one, and of g0. -/
theorem registerWrite : Obligations.RegisterWrite := by
  unfold Obligations.RegisterWrite
  intro s n k v
  refine ⟨s.greg_zero, s.setGreg_zero v, fun hn => ?_, fun hk => s.greg_setGreg_other v (Ne.symm hk)⟩
  rw [s.greg_setGreg_same, if_neg hn]

end Sys2Proof.Machine
end

section
/-! LI, CMP and the moves between registers, descriptors, scratch and event counters (R175, R176, R188, R195, R196): what each does when its
reserved bits are zero. -/
namespace Sys2Proof.Machine

/-- Below the last word of program memory an instruction with its reserved bits zero acts on the state as it stands. -/
theorem State.Issues.live_act {s : State} {op : Nat} {w : W64} (h : s.Issues op w) (hpc : s.seq.pc < 16383) {offend : W64 → List Nat}
    (hoff : offend w = []) (act : W64 → State → State) : Machine.live s (·.issue (opIs op) offend act) = .next (act w s) := by
  rw [live_eq h.live, h.act h.is hoff, State.keepOp_below hpc]

/-- The advance of an instruction that has not moved PC. -/
theorem State.advance_from {s t : State} (hseq : t.seq.pc = s.seq.pc) (hpc : s.seq.pc < 16383) (cc : Nat) :
    t.advance cc = t.goTo (s.seq.pc + 1) cc := by
  rw [State.advance_eq (hseq ▸ hpc), hseq]

@[simp] theorem State.setGreg_seq (s : State) (n : Nat) (v : W64) : (s.setGreg n v).seq = s.seq := (s.setGreg_fields n v).1

@[simp] theorem State.setTdWord_seq (s : State) (n i : Nat) (v : W64) : (s.setTdWord n i v).seq = s.seq :=
  (State.eccWritten_seqKept _ 1 (4 * n + i)).seq

@[simp] theorem State.setScratch_seq (s : State) (i : Nat) (v : W64) : (s.setScratch i v).seq = s.seq :=
  (State.eccWritten_seqKept _ 2 i).seq

/-! ## The local space (Table 5-3) -/

theorem localBad_iff (a : W64) : localBad a = true ↔ a.toNat % 8 ≠ 0 ∨ 0x1200 ≤ a.toNat := by simp [localBad]

theorem localBad_eq_false_iff (a : W64) : localBad a = false ↔ a.toNat % 8 = 0 ∧ a.toNat < 0x1200 := by simp [localBad]

/-! ## Descriptor words under a port write of the same cc (R188) -/

/-- Where the port wrote no half of the descriptor word in this cc, STD's value stands. -/
theorem State.underPort_unwritten {s : State} {i : Nat} (h : ∀ e ∈ s.cc.td, e.1 ≠ i) (v : W64) : s.underPort i v = v := by
  have hnone : s.cc.td.filter (·.1 == i) = [] := List.filter_eq_nil_iff.2 fun e he => by simpa using h e he
  simp [State.underPort, hnone]

/-! ## The instructions -/

section
variable {s : State} {w : W64}

theorem execLi_eq (h : s.Issues 0x09 w) (hpc : s.seq.pc < 16383) (hoff : offL w = []) : execLi s =
    .next ((s.setGreg (fRd w) (if fld w 50 49 = 0 then BitVec.ofInt 64 (sgn 48 (fld w 47 0))
      else setFld (s.greg (fRd w)) 63 48 (fld w 15 0))).goTo (s.seq.pc + 1) 1) := by
  unfold execLi
  rw [h.live_act hpc hoff, State.advance_from (by simp) hpc]

theorem execCmp_eq (h : s.Issues 0x13 w) (hpc : s.seq.pc < 16383) (hoff : offK w = []) {v : Bool}
    (hv : cmpCond (fld w 39 37) (s.greg (fRa w)) (if bit w 40 then fImm w else s.greg (fRb w)) = some v) :
    execCmp s = .next ((s.setFlag (fRd w) v).goTo (s.seq.pc + 1) 1) := by
  unfold execCmp
  rw [h.live_act hpc hoff]
  simp only [hv, Option.getD_some]
  rw [State.advance_from (by simp [State.setFlag]) hpc]

theorem execLdd_eq (h : s.Issues 0x14 w) (hpc : s.seq.pc < 16383) (hoff : offX w = [])
    (hclean : s.upsetAt 1 (4 * s.tdIndex w + fld w 1 0) = 0) :
    execLdd s = .next ((s.setGreg (fRd w) (s.tdWord (s.tdIndex w) (fld w 1 0))).goTo (s.seq.pc + 1) 2) := by
  have hword : fld w 1 0 < 4 := fld_lt w 1 0
  have hdiv : (4 * s.tdIndex w + fld w 1 0) / 4 = s.tdIndex w := by omega
  have hmod : (4 * s.tdIndex w + fld w 1 0) % 4 = fld w 1 0 := by omega
  unfold execLdd
  rw [h.live_act hpc hoff]
  simp only [State.eccRead_clean hclean, hdiv, hmod, Bool.false_eq_true, if_false]
  rw [State.advance_from (by simp) hpc]

theorem execStd_eq (h : s.Issues 0x15 w) (hpc : s.seq.pc < 16383) (hoff : offX w = []) : execStd s =
    .next ((s.setTdWord (s.tdIndex w) (fld w 1 0) (s.underPort (4 * s.tdIndex w + fld w 1 0) (s.greg (fRd w)))).goTo (s.seq.pc + 1) 2) := by
  unfold execStd
  rw [h.live_act hpc hoff, State.advance_from (by simp) hpc]

/-- LDS of an address outside the local space traps with SCRATCH_RANGE. -/
theorem execLds_bad (h : s.Issues 0x16 w) (hpc : s.seq.pc < 16383) (hoff : offM w = []) (hbad : localBad (s.localAddr w) = true) :
    execLds s = .next (s.trap 0x05 (s.localAddr w).toNat) := by
  unfold execLds
  rw [h.live_act hpc hoff]
  simp [hbad]

theorem execLds_scratch (h : s.Issues 0x16 w) (hpc : s.seq.pc < 16383) (hoff : offM w = []) (hok : localBad (s.localAddr w) = false)
    (hlow : (s.localAddr w).toNat < 0x1000) (hclean : s.upsetAt 2 ((s.localAddr w).toNat / 8) = 0) :
    execLds s = .next ((s.setGreg (fRd w) (s.scratchWord ((s.localAddr w).toNat / 8))).goTo (s.seq.pc + 1) 2) := by
  unfold execLds
  rw [h.live_act hpc hoff]
  simp only [hok, Nat.not_le.2 hlow, State.eccRead_clean hclean, Bool.false_eq_true, if_false]
  rw [State.advance_from (by simp) hpc]

theorem execLds_counter (h : s.Issues 0x16 w) (hpc : s.seq.pc < 16383) (hoff : offM w = []) (hok : localBad (s.localAddr w) = false)
    (hhigh : 0x1000 ≤ (s.localAddr w).toNat) :
    execLds s = .next ((s.setGreg (fRd w) (s.evc (((s.localAddr w).toNat - 0x1000) / 8))).goTo (s.seq.pc + 1) 2) := by
  unfold execLds
  rw [h.live_act hpc hoff]
  simp only [hok, hhigh, Bool.false_eq_true, if_false, if_true]
  rw [State.advance_from (by simp) hpc]

/-- STS to an address outside the local space traps with SCRATCH_RANGE. -/
theorem execSts_bad (h : s.Issues 0x17 w) (hpc : s.seq.pc < 16383) (hoff : offM w = []) (hbad : localBad (s.localAddr w) = true) :
    execSts s = .next (s.trap 0x05 (s.localAddr w).toNat) := by
  unfold execSts
  rw [h.live_act hpc hoff]
  simp [hbad]

theorem execSts_scratch (h : s.Issues 0x17 w) (hpc : s.seq.pc < 16383) (hoff : offM w = []) (hok : localBad (s.localAddr w) = false)
    (hlow : (s.localAddr w).toNat < 0x1000) :
    execSts s = .next ((s.setScratch ((s.localAddr w).toNat / 8) (s.greg (fRd w))).goTo (s.seq.pc + 1) 2) := by
  unfold execSts
  rw [h.live_act hpc hoff]
  simp only [hok, Nat.not_le.2 hlow, Bool.false_eq_true, if_false]
  rw [State.advance_from (by simp) hpc]

/-- s after an STS of d to event counter n, PC apart: the store is noted for the increments of its cc (R179). -/
def State.storeEvc (s : State) (n : Nat) (d : W64) : State :=
  ({ s with cc := { s.cc with sts := s.cc.sts ++ [n] } } : State).setEvc n (s.evAfter n (stsEv (s.evc n) d))

theorem State.storeEvc_pc (s : State) (n : Nat) (d : W64) : (s.storeEvc n d).seq.pc = s.seq.pc := rfl

theorem execSts_counter (h : s.Issues 0x17 w) (hpc : s.seq.pc < 16383) (hoff : offM w = []) (hok : localBad (s.localAddr w) = false)
    (hhigh : 0x1000 ≤ (s.localAddr w).toNat) :
    execSts s = .next ((s.storeEvc (((s.localAddr w).toNat - 0x1000) / 8) (s.greg (fRd w))).goTo (s.seq.pc + 1) 2) := by
  unfold execSts
  rw [h.live_act hpc hoff]
  simp only [hok, hhigh, Bool.false_eq_true, if_false, if_true]
  exact congrArg Host.Outcome.next (State.advance_from (State.storeEvc_pc ..) hpc 2)

end

/-- Settles O27: each clause is the equation of its instruction, with the reserved bits of its format spelt out. -/
theorem moveResults : Obligations.MoveResults := by
  unfold Obligations.MoveResults
  intro s op w h hpc a d addr next td
  have hbad : addr % 8 ≠ 0 ∨ 0x1200 ≤ addr → localBad (s.localAddr w) = true := (localBad_iff _).2
  have hok : addr % 8 = 0 → addr < 0x1200 → localBad (s.localAddr w) = false := fun h8 hlt => (localBad_eq_false_iff _).2 ⟨h8, hlt⟩
  have hbounds : addr % 8 ≠ 0 ∨ 0x1200 ≤ addr → zeros w 45 16 = [] →
      (op = 0x16 → exec .lds s = .next (s.trap 0x05 addr)) ∧ (op = 0x17 → exec .sts s = .next (s.trap 0x05 addr)) := fun hrange hoff =>
    ⟨fun hop => execLds_bad (hop ▸ h) hpc hoff (hbad hrange), fun hop => execSts_bad (hop ▸ h) hpc hoff (hbad hrange)⟩
  refine ⟨fun hop h48 hsel => ?liSigned, fun hop h48 hsel h47 => ?liHigh, fun hop hoff v hv => execCmp_eq (hop ▸ h) hpc hoff hv,
    fun h45 h31 => ?descriptors, fun hoff h8 => hbounds (.inl h8) hoff,
    fun hoff h8 => ⟨fun hlow => ?scratch, fun hhigh hlt => ?counters, fun hpast => hbounds (.inr hpast) hoff⟩⟩
  case liSigned =>
    have hli := execLi_eq (hop ▸ h) hpc (by simp [offL, h48, hsel])
    rwa [if_pos hsel] at hli
  case liHigh =>
    have hli := execLi_eq (hop ▸ h) hpc (by simp [offL, h48, hsel, h47])
    rwa [if_neg (by simp [hsel])] at hli
  case descriptors =>
    have hoff : offX w = [] := by simp [offX, h45, h31]
    exact ⟨fun hop hclean => execLdd_eq (hop ▸ h) hpc hoff hclean, fun hop => execStd_eq (hop ▸ h) hpc hoff,
      fun hport => State.underPort_unwritten hport d⟩
  case scratch =>
    have hmap := hok h8 (Nat.lt_trans hlow (by decide))
    exact ⟨fun hop hclean => execLds_scratch (hop ▸ h) hpc hoff hmap hlow hclean, fun hop => execSts_scratch (hop ▸ h) hpc hoff hmap hlow⟩
  case counters =>
    have hmap := hok h8 hlt
    exact ⟨fun hop => execLds_counter (hop ▸ h) hpc hoff hmap hhigh, fun hop => execSts_counter (hop ▸ h) hpc hoff hmap hhigh⟩

end Sys2Proof.Machine
end

section
/-! The event counters (R176 to R180): COUNT and the sticky bits after an increment, a store, and a store with increments of its cc. -/
namespace Sys2Proof.Machine

/-! ## Bits set and cleared under a condition -/

/-- A word with one bit put under a condition, as any bit of it reads. -/
theorem bit_putIf (c : Prop) [Decidable c] (w : W64) {i : Nat} (hi : i < 64) (v j : Nat) :
    bit (if c then setFld w i i v else w) j = if c ∧ j = i then v.testBit 0 else bit w j := by
  by_cases hc : c
  · have hat : (i ≤ j ∧ j ≤ i) ↔ j = i := by omega
    rw [if_pos hc, bit_setFld w v j hi (Nat.le_refl i)]
    simp only [hat, hc, true_and]
    split <;> simp [*]
  · simp [hc]

/-- COUNT stays where another bit is set or cleared under a condition. -/
theorem count_putIf (c : Prop) [Decidable c] (w : W64) {i : Nat} (hlo : 31 < i) (hi : i < 64) (v : Nat) :
    fld (if c then setFld w i i v else w) 31 0 = fld w 31 0 := by
  split
  · exact fld_setFld_other w v hi (Nat.le_refl i) (Nat.zero_le 31) (.inl hlo)
  · rfl

/-- The bits above COUNT stay where it is set. -/
theorem bit_setCount (w : W64) (v : Nat) {j : Nat} (hj : 31 < j) : bit (setFld w 31 0 v) j = bit w j := by
  rw [bit_setFld w v j (by decide) (by decide), if_neg (by omega)]

/-! ## A counter's word raised by increments, and stored -/

/-- A counter's word after increments that add amount to COUNT and set ERR and POISON as err and psn say (R177, R178). -/
def raisedWord (w : W64) (amount : Nat) (err psn : Bool) : W64 :=
  let w := setFld w 31 0 ((fld w 31 0 + amount) % 0x100000000)
  let w := if err then setFld w 32 32 1 else w
  if psn then setFld w 33 33 1 else w

theorem count_raisedWord (w : W64) (amount : Nat) (err psn : Bool) :
    fld (raisedWord w amount err psn) 31 0 = (fld w 31 0 + amount) % 0x100000000 := by
  unfold raisedWord
  rw [count_putIf _ _ (by decide) (by decide), count_putIf _ _ (by decide) (by decide), fld_setFld_same _ _ (by decide) (by decide)]
  exact Nat.mod_mod _ _

theorem err_raisedWord (w : W64) (amount : Nat) (err psn : Bool) : bit (raisedWord w amount err psn) 32 = (err || bit w 32) := by
  unfold raisedWord
  rw [bit_putIf _ _ (by decide), bit_putIf _ _ (by decide), bit_setCount _ _ (by decide)]
  simp

theorem poison_raisedWord (w : W64) (amount : Nat) (err psn : Bool) : bit (raisedWord w amount err psn) 33 = (psn || bit w 33) := by
  unfold raisedWord
  rw [bit_putIf _ _ (by decide), bit_putIf _ _ (by decide), bit_setCount _ _ (by decide)]
  simp

theorem count_stsEv (old v : W64) : fld (stsEv old v) 31 0 = fld v 31 0 := by
  unfold stsEv
  rw [count_putIf _ _ (by decide) (by decide), count_putIf _ _ (by decide) (by decide), fld_setFld_same _ _ (by decide) (by decide)]
  exact Nat.mod_eq_of_lt (fld_lt v 31 0)

theorem err_stsEv (old v : W64) : bit (stsEv old v) 32 = (bit old 32 && !bit v 32) := by
  unfold stsEv
  rw [bit_putIf _ _ (by decide), bit_putIf _ _ (by decide), bit_setCount _ _ (by decide)]
  simp [Bool.and_comm]

theorem poison_stsEv (old v : W64) : bit (stsEv old v) 33 = (bit old 33 && !bit v 33) := by
  unfold stsEv
  rw [bit_putIf _ _ (by decide), bit_putIf _ _ (by decide), bit_setCount _ _ (by decide)]
  simp [Bool.and_comm]

/-! ## An increment -/

theorem State.evc_evAdd (s : State) (n amount : Nat) (err psn : Bool) (k : Nat) :
    (s.evAdd n amount err psn).evc k = (s.setEvc n (raisedWord (s.evc n) amount err psn)).evc k := by
  cases err <;> cases psn <;> rfl

theorem State.evc_evAdd_same (s : State) (n amount : Nat) (err psn : Bool) :
    (s.evAdd n amount err psn).evc n = raisedWord (s.evc n) amount err psn := by
  rw [s.evc_evAdd, s.evc_setEvc_same]

/-! ## A store, with the increments of its cc after it (R179) -/

/-- What increments of this cc have added to counter n. -/
def State.evMore (s : State) (n : Nat) : Nat := ((s.hits.filter fun h => h.off == 0x30400 + 8 * n && h.hi == 31).map (·.n)).sum

/-- An increment of this cc has set sticky bit k of counter n: ERR is 0, POISON 1. -/
def State.evSets (s : State) (n k : Nat) : Bool := s.hits.any fun h => h.off == 0x30404 + 8 * n && h.hi == k

/-- A choice by whether any element passes a test. -/
theorem ite_filter_isEmpty {α β : Type} (l : List α) (p : α → Bool) (a b : β) :
    (if (l.filter p).isEmpty then a else b) = if l.any p then b else a := by
  have hempty : (l.filter p).isEmpty = true ↔ ¬ l.any p = true := by simp
  simp only [hempty, ite_not]

theorem State.evAfter_eq (s : State) (n : Nat) (w : W64) :
    s.evAfter n w = raisedWord w (s.evMore n) (s.evSets n 0) (s.evSets n 1) := by
  simp only [State.evAfter, ite_filter_isEmpty]
  rfl

theorem State.evc_storeEvc_same (s : State) (n : Nat) (d : W64) : (s.storeEvc n d).evc n =
    raisedWord (stsEv (s.evc n) d) (s.evMore n) (s.evSets n 0) (s.evSets n 1) := by
  rw [State.storeEvc, State.evc_setEvc_same, State.evAfter_eq]

theorem State.evc_storeEvc_other (s : State) {n k : Nat} (d : W64) (h : n ≠ k) : (s.storeEvc n d).evc k = s.evc k :=
  State.evc_setEvc_other _ _ h

/-! ## Targets (R180) -/

/-- `evReached` measures the way from a target to COUNT as the integers modulo 2^32 do. -/
theorem evReached_iff (w : W64) {t : Nat} (ht : t < 2 ^ 32) :
    evReached w t = true ↔ ((fld w 31 0 : Int) - (t : Int)) % 2 ^ 32 < 2 ^ 31 := by
  have hcount : fld w 31 0 < 2 ^ 32 := fld_lt w 31 0
  simp only [evReached, decide_eq_true_eq]
  omega

/-- Settles O32: an increment raises the counter's word; a store sets it, and the increments of its cc raise what it stored. -/
theorem counterIncrement : Obligations.CounterIncrement := by
  unfold Obligations.CounterIncrement
  refine ⟨fun s n amount err psn => ?_, ?_, fun w t ht => evReached_iff w ht⟩
  · dsimp only
    rw [s.evc_evAdd_same]
    exact ⟨count_raisedWord .., err_raisedWord .., poison_raisedWord .., fun k hk =>
      (s.evc_evAdd n amount err psn k).trans (s.evc_setEvc_other _ (Ne.symm hk))⟩
  · intro s w h hpc hoff addr d h8 hge hlt n more sets
    have hok : localBad (s.localAddr w) = false := (localBad_eq_false_iff _).2 ⟨h8, hlt⟩
    have hword : ((s.storeEvc n d).goTo (s.seq.pc + 1) 2).evc n = raisedWord (stsEv (s.evc n) d) more (sets 0) (sets 1) :=
      s.evc_storeEvc_same n d
    refine ⟨(s.storeEvc n d).goTo (s.seq.pc + 1) 2, execSts_counter h hpc hoff hok hge, ?_⟩
    rw [hword, count_raisedWord, err_raisedWord, poison_raisedWord, count_stsEv, err_stsEv, poison_stsEv]
    exact ⟨rfl, Bool.or_comm .., Bool.or_comm .., fun k hk => s.evc_storeEvc_other d (Ne.symm hk), rfl, rfl⟩

end Sys2Proof.Machine
end

section
/-! The form of every command: but for those that act while reset is held, a command checks its operands and then acts on a block out of reset
(R583); it answers a next state, or faults on operands that no wire can carry. -/
namespace Sys2Proof.Machine

/-- A request of the configuration port is no event of a block in reset, which holds cfg_ready at 0. -/
theorem portTake_form (s : State) (f : State → State) : ∃ g, portTake s f = liveWf true s g := by
  refine ⟨fun t => if t.cfgReady then f t else t, ?_⟩
  cases hr : s.inReset
  · rw [liveWf_eq rfl hr]; rfl
  · rw [liveWf_reset rfl hr]
    exact portTake_busy (State.cfgReady_reset hr) f

theorem portCmdWf_form (ok : Bool) (s : State) (f : State → State) : ∃ g, portCmdWf ok s f = liveWf ok s g := by
  cases ok
  · exact ⟨id, rfl⟩
  · exact portTake_form s fun s => (f s.accessed).cfgAnswer 32 0

theorem exec_form (c : Instr) (s : State) (h : actsInReset c = false) : ∃ f, exec c s = liveWf c.wf s f := by
  cases c
  case coldReset | warmReset | resetAssert | wsBypass | wsExtest | wsIntest | cfgAccess | aitRun | aitRead | bistRun | aitStepComplete | hmSample =>
    nomatch h
  case cfgPortWrite off d => unfold exec execCfgPortWrite; exact portTake_form ..
  case cfgPortReadLowHalf off => unfold exec execCfgPortReadLowHalf; exact portTake_form ..
  case mergeBufferWrite off d => unfold exec execMergeBufferWrite; exact portTake_form ..
  case trnCtrlGo | tickEn | tickRoleWrite | tickReacq | cfgCommitReq | cfgCommitCancel | cfgCommitRevert | seqCtrlStart | seqCtrlStop
    | seqCtrlClr | seqPmCheckGo | rpcFlushGo | rpcCfgWrite | hvCalClrGo | llPlanGo | llRetireGo | llRetireForce | twnCtrlForce
    | twnCtrlRejoin | pwrFallowWrite | mwGo | pwrCtrlWake | eccScrubGo | bistRunGo | aitCtrlGo => exact portCmdWf_form true s _
  case paRepairGo | llModCtrlRetrain | xeMtStatAbort | sxDslotFlush | eccRetireWrite => exact portCmdWf_form _ s _
  case passThroughUnit u => cases u <;> exact ⟨_, rfl⟩
  all_goals exact ⟨_, rfl⟩

/-- A well-formed command that settles nothing around the block answers a next state and keeps environment, queue and invariant. -/
theorem exec_kept (c : Instr) (s : State) (hwf : c.wf = true) (h : settles c = false) : ∃ t, exec c s = .next t ∧ Kept s t :=
  match c, hwf, h with
  | .trnCtrlGo, _, _ => execTrnCtrlGo_kept ..
  | .present .., hwf, _ => execPresent_kept (hwf := hwf) ..
  | .presentResend, _, _ => execPresentResend_kept ..
  | .nopeer, _, _ => execNopeer_kept ..
  | .caprec .., hwf, _ => execCaprec_kept (hwf := hwf) ..
  | .capack .., hwf, _ => execCapack_kept (hwf := hwf) ..
  | .lanemap .., hwf, _ => execLanemap_kept (hwf := hwf) ..
  | .palat .., hwf, _ => execPalat_kept (hwf := hwf) ..
  | .phase .., hwf, _ => execPhase_kept (hwf := hwf) ..
  | .trainingPhaseComplete .., hwf, _ => execTrainingPhaseComplete_kept (hwf := hwf) ..
  | .trainingMessageResend, _, _ => execTrainingMessageResend_kept ..
  | .vendorCapabilityMessage .., _, _ => execVendorCapabilityMessage_kept ..
  | .solstice, _, _ => execSolstice_kept ..
  | .overrun, _, _ => execOverrun_kept ..
  | .deferredProgramStart, _, _ => execDeferredProgramStart_kept ..
  | .digestFreeTimer, _, _ => execDigestFreeTimer_kept ..
  | .hvHoldExpiry, _, _ => execHvHoldExpiry_kept ..
  | .tickMarker .., hwf, _ => execTickMarker_kept (hwf := hwf) ..
  | .tickPulse .., _, _ => execTickPulse_kept ..
  | .nomark, _, _ => execNomark_kept ..
  | .tickEn .., _, _ => execTickEn_kept ..
  | .tickRoleWrite .., _, _ => execTickRoleWrite_kept ..
  | .tickReacq, _, _ => execTickReacq_kept ..
  | .cfgCommitReq .., _, _ => execCfgCommitReq_kept ..
  | .cfgCommitCancel, _, _ => execCfgCommitCancel_kept ..
  | .cfgCommitRevert, _, _ => execCfgCommitRevert_kept ..
  | .cfgPortWrite .., _, _ => execCfgPortWrite_kept ..
  | .cfgPortReadLowHalf .., _, _ => execCfgPortReadLowHalf_kept ..
  | .mergeBufferWrite .., _, _ => execMergeBufferWrite_kept ..
  | .mergeBufferFlush, _, _ => execMergeBufferFlush_kept ..
  | .seqCtrlStart, _, _ => execSeqCtrlStart_kept ..
  | .seqCtrlStop, _, _ => execSeqCtrlStop_kept ..
  | .seqCtrlClr, _, _ => execSeqCtrlClr_kept ..
  | .seqPmCheckGo .., _, _ => execSeqPmCheckGo_kept ..
  | .seqPmCheckDone, _, _ => execSeqPmCheckDone_kept ..
  | .nop, _, _ => execNop_kept ..
  | .endProg, _, _ => execEndProg_kept ..
  | .tickwait, _, _ => execTickwait_kept ..
  | .jmp, _, _ => execJmp_kept ..
  | .br, _, _ => execBr_kept ..
  | .loop, _, _ => execLoop_kept ..
  | .call, _, _ => execCall_kept ..
  | .ret, _, _ => execRet_kept ..
  | .trap, _, _ => execTrap_kept ..
  | .li, _, _ => execLi_kept ..
  | .addi, _, _ => execAddi_kept ..
  | .add, _, _ => execAdd_kept ..
  | .sub, _, _ => execSub_kept ..
  | .and, _, _ => execAnd_kept ..
  | .or, _, _ => execOr_kept ..
  | .xor, _, _ => execXor_kept ..
  | .shl, _, _ => execShl_kept ..
  | .shr, _, _ => execShr_kept ..
  | .mul, _, _ => execMul_kept ..
  | .cmp, _, _ => execCmp_kept ..
  | .ldd, _, _ => execLdd_kept ..
  | .std, _, _ => execStd_kept ..
  | .lds, _, _ => execLds_kept ..
  | .sts, _, _ => execSts_kept ..
  | .signal, _, _ => execSignal_kept ..
  | .wait, _, _ => execWait_kept ..
  | .waitTimeout, _, _ => execWaitTimeout_kept ..
  | .waitResume, _, _ => execWaitResume_kept ..
  | .fence, _, _ => execFence_kept ..
  | .fenceResume, _, _ => execFenceResume_kept ..
  | .engineStallResume, _, _ => execEngineStallResume_kept ..
  | .push, _, _ => execPush_kept ..
  | .pull, _, _ => execPull_kept ..
  | .gather, _, _ => execGather_kept ..
  | .scatter, _, _ => execScatter_kept ..
  | .copy, _, _ => execCopy_kept ..
  | .convert, _, _ => execConvert_kept ..
  | .foldSend, _, _ => execFoldSend_kept ..
  | .foldReduce, _, _ => execFoldReduce_kept ..
  | .mergeSend, _, _ => execMergeSend_kept ..
  | .mergeCollect, _, _ => execMergeCollect_kept ..
  | .mergeGroupFold .., hwf, _ => execMergeGroupFold_kept (hwf := hwf) ..
  | .mergeCutoff .., hwf, _ => execMergeCutoff_kept (hwf := hwf) ..
  | .dispatch, _, _ => execDispatch_kept ..
  | .combineSend, _, _ => execCombineSend_kept ..
  | .combineCollect, _, _ => execCombineCollect_kept ..
  | .combineCutoff .., hwf, _ => execCombineCutoff_kept (hwf := hwf) ..
  | .pgfetch, _, _ => execPgfetch_kept ..
  | .pgpin, _, _ => execPgpin_kept ..
  | .pgunpin, _, _ => execPgunpin_kept ..
  | .pgatomic, _, _ => execPgatomic_kept ..
  | .pggather, _, _ => execPggather_kept ..
  | .pageWalkRetry .., _, _ => execPageWalkRetry_kept ..
  | .commit, _, _ => execCommit_kept ..
  | .rd32, _, _ => execRd32_kept ..
  | .rd64, _, _ => execRd64_kept ..
  | .wr32, _, _ => execWr32_kept ..
  | .emit, _, _ => execEmit_kept ..
  | .flitSlot .., hwf, _ => execFlitSlot_kept (hwf := hwf) ..
  | .messageAdmission .., hwf, _ => execMessageAdmission_kept (hwf := hwf) ..
  | .data .., hwf, _ => execData_kept (hwf := hwf) ..
  | .retx .., hwf, _ => execRetx_kept (hwf := hwf) ..
  | .idle .., hwf, _ => execIdle_kept (hwf := hwf) ..
  | .failedSlot .., hwf, _ => execFailedSlot_kept (hwf := hwf) ..
  | .reservedTypeFlit .., hwf, _ => execReservedTypeFlit_kept (hwf := hwf) ..
  | .ackTimer .., hwf, _ => execAckTimer_kept (hwf := hwf) ..
  | .credit .., hwf, _ => execCredit_kept (hwf := hwf) ..
  | .creditTimer, _, _ => execCreditTimer_kept ..
  | .flow .., hwf, _ => execFlow_kept (hwf := hwf) ..
  | .flowTimer, _, _ => execFlowTimer_kept ..
  | .repairRequest .., hwf, _ => execRepairRequest_kept (hwf := hwf) ..
  | .repairEcho .., hwf, _ => execRepairEcho_kept (hwf := hwf) ..
  | .repairCancel .., hwf, _ => execRepairCancel_kept (hwf := hwf) ..
  | .repairSwitch .., hwf, _ => execRepairSwitch_kept (hwf := hwf) ..
  | .repairResend .., hwf, _ => execRepairResend_kept (hwf := hwf) ..
  | .repairNoEcho .., hwf, _ => execRepairNoEcho_kept (hwf := hwf) ..
  | .paRepairGo .., hwf, _ => execPaRepairGo_kept (hwf := hwf) ..
  | .swapSwitchSend .., hwf, _ => execSwapSwitchSend_kept (hwf := hwf) ..
  | .swapReceiverTimeout .., hwf, _ => execSwapReceiverTimeout_kept (hwf := hwf) ..
  | .swapFrostEnd .., hwf, _ => execSwapFrostEnd_kept (hwf := hwf) ..
  | .retrainReq .., hwf, _ => execRetrainReq_kept (hwf := hwf) ..
  | .retrain .., hwf, _ => execRetrain_kept (hwf := hwf) ..
  | .retrainReqResend .., hwf, _ => execRetrainReqResend_kept (hwf := hwf) ..
  | .retrainEnd .., hwf, _ => execRetrainEnd_kept (hwf := hwf) ..
  | .retrainTimeout .., hwf, _ => execRetrainTimeout_kept (hwf := hwf) ..
  | .llModCtrlRetrain .., hwf, _ => execLlModCtrlRetrain_kept (hwf := hwf) ..
  | .lockLoss .., hwf, _ => execLockLoss_kept (hwf := hwf) ..
  | .lockTimeout .., hwf, _ => execLockTimeout_kept (hwf := hwf) ..
  | .lockRegain .., hwf, _ => execLockRegain_kept (hwf := hwf) ..
  | .fragmentRelease .., hwf, _ => execFragmentRelease_kept (hwf := hwf) ..
  | .writeRelease .., hwf, _ => execWriteRelease_kept (hwf := hwf) ..
  | .readReqRelease .., hwf, _ => execReadReqRelease_kept (hwf := hwf) ..
  | .readDataRelease .., hwf, _ => execReadDataRelease_kept (hwf := hwf) ..
  | .signalRelease .., hwf, _ => execSignalRelease_kept (hwf := hwf) ..
  | .localSignalApply .., _, _ => execLocalSignalApply_kept ..
  | .completionRelease .., hwf, _ => execCompletionRelease_kept (hwf := hwf) ..
  | .passThroughUnit (.ack _), _, _ => execPassThroughUnit_kept (hwf := rfl) ..
  | .passThroughUnit (.msg _ _), hwf, _ => execPassThroughUnit_kept (hwf := hwf) ..
  | .hvContrib .., hwf, _ => execHvContrib_kept (hwf := hwf) ..
  | .hvPartial .., hwf, _ => execHvPartial_kept (hwf := hwf) ..
  | .hvExpert .., hwf, _ => execHvExpert_kept (hwf := hwf) ..
  | .pgReq .., hwf, _ => execPgReq_kept (hwf := hwf) ..
  | .pgData .., hwf, _ => execPgData_kept (hwf := hwf) ..
  | .pgAtomicRead .., hwf, _ => execPgAtomicRead_kept (hwf := hwf) ..
  | .pgAtomicInc .., hwf, _ => execPgAtomicInc_kept (hwf := hwf) ..
  | .pgAtomicDec .., hwf, _ => execPgAtomicDec_kept (hwf := hwf) ..
  | .pgAtomicCas .., hwf, _ => execPgAtomicCas_kept (hwf := hwf) ..
  | .pgAtomicRdec .., hwf, _ => execPgAtomicRdec_kept (hwf := hwf) ..
  | .pgAtomicResp .., hwf, _ => execPgAtomicResp_kept (hwf := hwf) ..
  | .rpcFlushGo, _, _ => execRpcFlushGo_kept ..
  | .rpcCfgWrite .., _, _ => execRpcCfgWrite_kept ..
  | .memReadData .., hwf, _ => execMemReadData_kept (hwf := hwf) ..
  | .memWriteAck .., _, _ => execMemWriteAck_kept ..
  | .xeMtStatAbort .., hwf, _ => execXeMtStatAbort_kept (hwf := hwf) ..
  | .hvCalClrGo .., _, _ => execHvCalClrGo_kept ..
  | .hvCalClrDone, _, _ => execHvCalClrDone_kept ..
  | .sxDslotFlush .., hwf, _ => execSxDslotFlush_kept (hwf := hwf) ..
  | .llPlanGo .., _, _ => execLlPlanGo_kept ..
  | .frostEntryComplete .., hwf, _ => execFrostEntryComplete_kept (hwf := hwf) ..
  | .gapOver, _, _ => execGapOver_kept ..
  | .llRetireGo .., _, _ => execLlRetireGo_kept ..
  | .llRetireForce .., _, _ => execLlRetireForce_kept ..
  | .retireRequest, _, _ => execRetireRequest_kept ..
  | .retireEcho, _, _ => execRetireEcho_kept ..
  | .mgmtResend, _, _ => execMgmtResend_kept ..
  | .digest, _, _ => execDigest_kept ..
  | .mgmtCredit, _, _ => execMgmtCredit_kept ..
  | .takeoverRequest, _, _ => execTakeoverRequest_kept ..
  | .takeoverEcho, _, _ => execTakeoverEcho_kept ..
  | .streamState, _, _ => execStreamState_kept ..
  | .rejoinRequest, _, _ => execRejoinRequest_kept ..
  | .rejoinEcho, _, _ => execRejoinEcho_kept ..
  | .twnCtrlForce, _, _ => execTwnCtrlForce_kept ..
  | .twnCtrlRejoin, _, _ => execTwnCtrlRejoin_kept ..
  | .heartbeatSend, _, _ => execHeartbeatSend_kept ..
  | .heartbeat .., _, _ => execHeartbeat_kept ..
  | .instLost, _, _ => execInstLost_kept ..
  | .noSister, _, _ => execNoSister_kept ..
  | .operationRecord .., hwf, _ => execOperationRecord_kept (hwf := hwf) ..
  | .completionReport .., hwf, _ => execCompletionReport_kept (hwf := hwf) ..
  | .twinStreamState .., hwf, _ => execTwinStreamState_kept (hwf := hwf) ..
  | .responseLogTransfer .., hwf, _ => execResponseLogTransfer_kept (hwf := hwf) ..
  | .releaseCommand .., hwf, _ => execReleaseCommand_kept (hwf := hwf) ..
  | .hmSample .., _, _ => execHmSample_kept ..
  | .rateStepRequest, _, _ => execRateStepRequest_kept ..
  | .rateStepEcho, _, _ => execRateStepEcho_kept ..
  | .rateStepRefuse, _, _ => execRateStepRefuse_kept ..
  | .rateStepCancel, _, _ => execRateStepCancel_kept ..
  | .rateStepNoEcho, _, _ => execRateStepNoEcho_kept ..
  | .fallowIdle, _, _ => execFallowIdle_kept ..
  | .fallowReq .., _, _ => execFallowReq_kept ..
  | .fallowAck .., _, _ => execFallowAck_kept ..
  | .fallowNak .., _, _ => execFallowNak_kept ..
  | .fallowWake, _, _ => execFallowWake_kept ..
  | .fallowWakeDetect .., hwf, _ => execFallowWakeDetect_kept (hwf := hwf) ..
  | .fallowWakeDone .., hwf, _ => execFallowWakeDone_kept (hwf := hwf) ..
  | .pwrFallowWrite .., _, _ => execPwrFallowWrite_kept ..
  | .mwGo, _, _ => execMwGo_kept ..
  | .mwReq .., _, _ => execMwReq_kept ..
  | .mwAck .., _, _ => execMwAck_kept ..
  | .mwNoAck, _, _ => execMwNoAck_kept ..
  | .phyOff, _, _ => execPhyOff_kept ..
  | .pwrCtrlWake, _, _ => execPwrCtrlWake_kept ..
  | .mwWake .., _, _ => execMwWake_kept ..
  | .mwWakeAck .., _, _ => execMwWakeAck_kept ..
  | .mwWakeResend, _, _ => execMwWakeResend_kept ..
  | .trafficWake, _, _ => execTrafficWake_kept ..
  | .midwinterExitStep, _, _ => execMidwinterExitStep_kept ..
  | .capRecord .., _, _ => execCapRecord_kept ..
  | .wakeRecord .., _, _ => execWakeRecord_kept ..
  | .eccRewrite .., _, _ => execEccRewrite_kept ..
  | .eccScrubGo .., _, _ => execEccScrubGo_kept ..
  | .scrubRead, _, _ => execScrubRead_kept ..
  | .eccRetireWrite .., hwf, _ => execEccRetireWrite_kept (hwf := hwf) ..
  | .spareUnitReplace .., _, _ => execSpareUnitReplace_kept ..
  | .bistSliceStart, _, _ => execBistSliceStart_kept ..
  | .bistSliceEnd .., _, _ => execBistSliceEnd_kept ..
  | .bistMonthTimeout, _, _ => execBistMonthTimeout_kept ..
  | .bistRunGo .., _, _ => execBistRunGo_kept ..
  | .aitCtrlGo .., _, _ => execAitCtrlGo_kept ..
  | .aitStepComplete .., hwf, _ => execAitStepComplete_kept (hwf := hwf) ..
  | .wsBypass, _, _ => execWsBypass_kept ..
  | .wsExtest, _, _ => execWsExtest_kept ..
  | .wsIntest, _, _ => execWsIntest_kept ..
  | .cfgAccess .., _, _ => execCfgAccess_kept ..
  | .aitRun .., _, _ => execAitRun_kept ..
  | .aitRead, _, _ => execAitRead_kept ..
  | .bistRun .., _, _ => execBistRun_kept ..
  | .openDataUnit .., hwf, _ => execOpenDataUnit_kept (hwf := hwf) ..
  | .openPaddingUnit .., hwf, _ => execOpenPaddingUnit_kept (hwf := hwf) ..
  | .reservedSubtypeFlit .., hwf, _ => execReservedSubtypeFlit_kept (hwf := hwf) ..
  | .sparePrbsError .., hwf, _ => execSparePrbsError_kept (hwf := hwf) ..
  | .invalidOp, _, _ => execInvalidOp_kept ..
  | .rpcFlushDone, _, _ => execRpcFlushDone_kept ..
  | .openReservedUnit .., hwf, _ => execOpenReservedUnit_kept (hwf := hwf) ..
  | .ucieLinkDown .., hwf, _ => execUcieLinkDown_kept (hwf := hwf) ..
  | .coreClkRestart, _, _ => execCoreClkRestart_kept ..

/-! ## What every step keeps -/

/-- What the steps of every command keep: the queue's rest, the member and its clock, the invariant; and the cc, which only `elapse` counts. -/
structure Stepped (s t : State) : Prop where
  pending : t.pending = s.pending
  member : t.member = s.member
  clk : t.clk = s.clk
  now : t.now = s.now
  inv : s.Inv → t.Inv

theorem Kept.stepped {s t : State} (h : Kept s t) : Stepped s t :=
  ⟨h.pending, congrArg Env.member h.env, congrArg Env.clk h.env, congrArg Env.now h.env, h.inv⟩

/-- An environment with the same member, clock and cc is as good as the same one. -/
theorem Moved.stepped {s t : State} {e : Env} (h : Moved s e t) (hm : e.member = s.env.member) (hc : e.clk = s.env.clk)
    (hn : e.now = s.env.now) : Stepped s t :=
  ⟨h.pending, (congrArg Env.member h.env).trans hm, (congrArg Env.clk h.env).trans hc, (congrArg Env.now h.env).trans hn, h.inv⟩

theorem exec_stepped (c : Instr) (s : State) (hwf : c.wf = true) : ∃ t, exec c s = .next t ∧ Stepped s t := by
  cases c
  case coldReset a o =>
    obtain ⟨t, ht, hm⟩ := execColdReset_moved a o s
    exact ⟨t, ht, hm.stepped rfl rfl rfl⟩
  case warmReset =>
    obtain ⟨t, ht, hm⟩ := execWarmReset_moved s
    exact ⟨t, ht, hm.stepped rfl rfl rfl⟩
  case resetAssert cold =>
    obtain ⟨t, ht, hm⟩ := execResetAssert_moved cold s
    exact ⟨t, ht, hm.stepped rfl rfl rfl⟩
  case fuseAck w =>
    obtain ⟨t, e, ht, hm, he⟩ := execFuseAck_moved w s
    exact ⟨t, ht, hm.stepped (by rw [he]) (by rw [he]) (by rw [he])⟩
  case resetClearSweepDone =>
    obtain ⟨t, ht, hm⟩ := execResetClearSweepDone_moved s
    exact ⟨t, ht, hm.stepped rfl rfl rfl⟩
  all_goals
    obtain ⟨t, ht, hk⟩ := exec_kept _ s hwf rfl
    exact ⟨t, ht, hk.stepped⟩

/-- Operands that no wire can carry fault, whatever the state. -/
theorem exec_malformed (c : Instr) (s : State) (hwf : c.wf = false) : exec c s = .fault .malformed := by
  cases hc : actsInReset c
  · obtain ⟨f, hf⟩ := exec_form c s hc
    rw [hf, hwf]
    rfl
  · cases c
    case aitStepComplete r => exact if_neg (by rw [show aitWf r = false from hwf]; exact Bool.false_ne_true)
    case coldReset | warmReset | resetAssert | wsBypass | wsExtest | wsIntest | cfgAccess | aitRun | aitRead | bistRun | hmSample => nomatch hwf
    all_goals nomatch hc

/-- An answered command was well formed. -/
theorem wf_of_next {c : Instr} {s t : State} (h : exec c s = .next t) : c.wf = true := by
  refine Bool.of_not_eq_false fun hwf => ?_
  rw [exec_malformed c s hwf] at h
  nomatch h

theorem exec_next_stepped {c : Instr} {s t : State} (h : exec c s = .next t) : Stepped s t := by
  obtain ⟨u, hu, hk⟩ := exec_stepped c s (wf_of_next h)
  rw [hu] at h
  cases h
  exact hk

/-- The commands that wait may change: the invariant does not speak of them. -/
theorem State.Inv.setPending {s : State} (h : s.Inv) (cs : List Instr) : ({ s with pending := cs } : State).Inv :=
  ⟨⟨h.canonical.regs, h.canonical.shadow, h.canonical.pm, h.canonical.g, h.canonical.td, h.canonical.scratch, h.canonical.ev,
    h.canonical.upset, h.canonical.mods, h.canonical.flow, h.canonical.streams, h.canonical.tags, h.canonical.red, h.canonical.mrg,
    h.canonical.dsl, h.canonical.cmb⟩, ⟨h.seqOk.pc, h.seqOk.stack⟩, h.clock⟩

/-- Settles O2: an empty queue lets a cc pass, and a well-formed command in front answers with what every command keeps. -/
theorem stepSafe : Obligations.StepSafe := by
  unfold Obligations.StepSafe
  intro s hq
  unfold State.queueOk at *
  cases hp : s.pending with
  | nil =>
    have hmoved := s.elapse_moved
    have hpend : s.elapse.pending = [] := hmoved.pending.trans hp
    refine ⟨s.elapse, by simp [step, hp], hpend, by rw [hpend]; rfl, ?_, ?_, ?_⟩
    · exact (congrArg Env.member hmoved.env :)
    · exact (congrArg Env.clk hmoved.env :)
    · exact (congrArg Env.now hmoved.env :)
  | cons c cs =>
    rw [hp, List.all_cons, Bool.and_eq_true] at hq
    obtain ⟨t, ht, hs⟩ := exec_stepped c { s with pending := cs } hq.1
    exact ⟨t, by simpa [step, hp] using ht, hs.pending, by rw [hs.pending]; exact hq.2, hs.member, hs.clk, hs.now⟩

/-- Settles O3: the invariant is one of the things that a cc and every command keep. -/
theorem stepKeepsInv : Obligations.StepKeepsInv := by
  unfold Obligations.StepKeepsInv
  intro s t hi ht
  unfold step at ht
  split at ht
  · cases ht
    exact s.elapse_moved.inv hi
  · exact (exec_next_stepped ht).inv (hi.setPending _)

/-- Settles O5: malformed operands fault, and every other command answers. -/
theorem faultsExactly : Obligations.FaultsExactly := by
  unfold Obligations.FaultsExactly
  intro c s
  have hanswers : c.wf = true → ∃ t, exec c s = .next t := fun hwf =>
    let ⟨t, ht, _⟩ := exec_stepped c s hwf
    ⟨t, ht⟩
  refine ⟨⟨fun hf => Bool.eq_false_iff.2 fun hwf => ?_, exec_malformed c s⟩, hanswers⟩
  obtain ⟨t, ht⟩ := hanswers hwf
  rw [hf] at ht
  nomatch ht

/-- Settles O6: a command that does not act in reset is an event of a live block alone. -/
theorem heldInReset : Obligations.HeldInReset := by
  unfold Obligations.HeldInReset
  intro c s hwf hr hc
  obtain ⟨f, hf⟩ := exec_form c s hc
  rw [hf, liveWf_reset hwf hr]

/-- Settles O7: every command that does not settle the surroundings keeps environment and queue. -/
theorem environmentKept : Obligations.EnvironmentKept := by
  unfold Obligations.EnvironmentKept
  intro c s t hc ht
  obtain ⟨u, hu, hk⟩ := exec_kept c s (wf_of_next ht) hc
  rw [hu] at ht
  cases ht
  exact ⟨hk.env, hk.pending⟩

/-- Settles O1: a step reads the front of the queue. -/
theorem stepRunsFront : Obligations.StepRunsFront := by
  unfold Obligations.StepRunsFront
  exact fun _ _ _ => rfl

/-- Settles O4: after reset every map is empty, PC and the call stack start at 0, and no command waits. -/
theorem resetInv : Obligations.ResetInv := by
  unfold Obligations.ResetInv
  exact ⟨⟨⟨rfl, rfl, rfl, rfl, rfl, rfl, rfl, rfl, rfl, rfl, rfl, rfl, rfl, rfl, rfl, rfl⟩, ⟨by decide, by decide⟩, by decide⟩, rfl, rfl⟩

end Sys2Proof.Machine
end

section
/-! Interrupts (R601), traps (R220, R221), register arithmetic and control transfers (R195 to R199). -/
namespace Sys2Proof.Machine

/-! ## Interrupts -/

/-- A bit that is set reads 1, and the others of its register stay. -/
theorem State.bit_setBit (s : State) (off : Nat) {i : Nat} (hi : i < 32) (k : Nat) :
    bit ((s.setBit off i).rg off) k = (decide (k = i) || bit (s.rg off) k) := by
  have hat : (i ≤ k ∧ k ≤ i) ↔ k = i := by omega
  rw [State.rg_setBit_same, bit_setFld _ _ _ hi (Nat.le_refl i)]
  simp only [hat]
  split
  · next h => simp [h]
  · next h => simp [h]

/-- Settles O10: a raise sets its bit of IRQ_PEND and no other; the outputs are the pending bits under their enables. -/
theorem interrupts : Obligations.Interrupts := by
  unfold Obligations.Interrupts
  intro s n hn
  have hwide : n < 32 := Nat.lt_trans hn (by decide)
  refine ⟨s.bit_irq hwide, fun k _ hk => ?_, fun k hk => ?_, fun off hoff => s.rg_irq_other n (Ne.symm hoff)⟩
  · rw [State.irq, s.bit_setBit 0x30 hwide, decide_eq_false hk, Bool.false_or]
  · simp [State.irqOut, bit, hk]

/-! ## What a trap leaves -/

/-- The end of a program leaves the registers of the window but the count of skipped programs, and everything outside the sequencer. -/
theorem State.rg_endProg (s : State) (st : SeqSt) {off : Nat} (h : off ≠ 0x2014) : (s.endProg st).rg off = s.rg off := by
  unfold State.endProg State.when
  split
  · exact State.rg_count_other s 31 16 1 (Ne.symm h)
  · rfl

/-- What the end of a program makes of the sequencer. -/
theorem State.seq_endProg (s : State) (st : SeqSt) : (s.endProg st).seq =
    { s.seq with st := st, wait := none, stall := none, prog := none, past := s.seq.past ++ s.seq.prog.toList, pcEnd := false,
                 defer := if st = .idle then s.seq.defer else none, endAt := s.now } := by
  unfold State.endProg State.when
  split <;> rfl

/-- The end of a program leaves the memories and the operations. -/
theorem State.endProg_memories (s : State) (st : SeqSt) : (s.endProg st).g = s.g ∧ (s.endProg st).pm = s.pm ∧ (s.endProg st).td = s.td ∧
    (s.endProg st).scratch = s.scratch ∧ (s.endProg st).ev = s.ev ∧ (s.endProg st).ops = s.ops := by
  unfold State.endProg State.when
  split <;> exact ⟨rfl, rfl, rfl, rfl, rfl, rfl⟩

/-- The opcode that a trap records: the kept one behind the last word of program memory, in a wait and in a stall, else that of the word at
PC. -/
def State.trapOp (s : State) : Nat :=
  if s.seq.pcEnd || s.seq.wait.isSome || s.seq.stall.isSome then s.seq.op.toNat else fld (s.pmWord s.seq.pc) 63 56

/-- The word of SEQ_TRAP (Table 5-12). -/
def trapWord (pc op code : Nat) : W32 := bf 32 29 16 pc ||| bf 32 15 8 op ||| bf 32 7 0 code

theorem code_trapWord (pc op code : Nat) : fld (trapWord pc op code) 7 0 = code % 256 := by
  simp [trapWord, fld_or, fld_bf_same, fld_bf_apart]

theorem op_trapWord (pc op code : Nat) : fld (trapWord pc op code) 15 8 = op % 256 := by
  simp [trapWord, fld_or, fld_bf_same, fld_bf_apart]

theorem pc_trapWord (pc op code : Nat) : fld (trapWord pc op code) 29 16 = pc % 16384 := by
  simp [trapWord, fld_or, fld_bf_same, fld_bf_apart]

/-- A 64-bit word is its two halves. -/
theorem halves_append (v : W64) : (v >>> 32).setWidth 32 ++ v.setWidth 32 = v := by
  apply BitVec.eq_of_getLsbD_eq
  intro i hi
  rw [BitVec.getLsbD_append]
  split
  · next hlow => simp [hlow]
  · next hlow =>
    have hback : 32 + (i - 32) = i := by omega
    have hin : i - 32 < 32 := by omega
    simp [hback, hin]

/-- The two words of a 64-bit register that was written. -/
theorem State.rg64_setRg64_same (s : State) (off : Nat) (v : W64) : (s.setRg64 off v).rg64 off = v := by
  unfold State.rg64 State.setRg64
  rw [State.rg_setRg_same, State.rg_setRg_other _ _ (by omega), State.rg_setRg_same, halves_append]

/-- s with the registers of a trap written (R220). -/
def State.trapRegs (s : State) (code info : Nat) : State :=
  ((s.setRg 0x30008 (trapWord s.seq.pc s.trapOp code)).setRg 0x3000C (BitVec.ofNat 32 info)).setRg64 0x30010 (BitVec.ofNat 64 s.tick.num)

theorem State.trap_eq (s : State) (code info : Nat) : s.trap code info = ((s.trapRegs code info).endProg .trapped).irq 3 := rfl

/-- The registers of the window that a trap leaves as its three writes made them. -/
theorem State.rg_trap (s : State) (code info : Nat) {off : Nat} (h : off ≠ 0x2014) (hirq : 0x30 ≠ off) :
    (s.trap code info).rg off = (s.trapRegs code info).rg off := by
  rw [State.trap_eq, State.rg_irq_other _ _ hirq, State.rg_endProg _ _ h]

theorem State.rg_trap_status (s : State) (code info : Nat) : (s.trap code info).rg 0x30008 = trapWord s.seq.pc s.trapOp code := by
  rw [s.rg_trap code info (by decide) (by decide), State.trapRegs, State.rg_setRg64_other _ _ (by decide) (by decide),
    State.rg_setRg_other _ _ (by decide), State.rg_setRg_same]

theorem State.rg_trap_info (s : State) (code info : Nat) : (s.trap code info).rg 0x3000C = BitVec.ofNat 32 info := by
  rw [s.rg_trap code info (by decide) (by decide), State.trapRegs, State.rg_setRg64_other _ _ (by decide) (by decide),
    State.rg_setRg_same]

theorem State.rg64_trap_tick (s : State) (code info : Nat) : (s.trap code info).rg64 0x30010 = BitVec.ofNat 64 s.tick.num := by
  unfold State.rg64
  rw [s.rg_trap code info (by decide) (by decide), s.rg_trap code info (by decide) (by decide)]
  exact State.rg64_setRg64_same ..

theorem State.seq_trap (s : State) (code info : Nat) : (s.trap code info).seq = ((s.trapRegs code info).endProg .trapped).seq := rfl

/-- What a trap leaves in the registers, the sequencer and the memories. -/
theorem State.trap_effect (s : State) (code info : Nat) (hcode : code < 256) :
    let t := s.trap code info
    fld (t.rg 0x30008) 7 0 = code ∧
    (s.seq.pcEnd = false → s.seq.wait = none → s.seq.stall = none → fld (t.rg 0x30008) 15 8 = fld (s.pmWord s.seq.pc) 63 56) ∧
    (s.seq.pcEnd = true ∨ s.seq.wait ≠ none ∨ s.seq.stall ≠ none → fld (t.rg 0x30008) 15 8 = s.seq.op.toNat) ∧
      fld (t.rg 0x30008) 29 16 = s.seq.pc % 16384 ∧
    t.rg 0x3000C = BitVec.ofNat 32 info ∧ t.rg64 0x30010 = BitVec.ofNat 64 s.tick.num ∧
    t.seq.st = .trapped ∧ t.seq.pc = s.seq.pc ∧ t.seq.p = s.seq.p ∧ t.seq.stack = s.seq.stack ∧ t.seq.wait = none ∧ t.seq.prog = none ∧
    bit (t.rg 0x30) 3 = true ∧ t.g = s.g ∧ t.pm = s.pm ∧ t.td = s.td ∧ t.scratch = s.scratch ∧ t.ev = s.ev ∧ t.ops = s.ops := by
  intro t
  have hop : fld (t.rg 0x30008) 15 8 = s.trapOp % 256 := by rw [s.rg_trap_status, op_trapWord]
  have hword : fld (s.pmWord s.seq.pc) 63 56 % 256 = fld (s.pmWord s.seq.pc) 63 56 := Nat.mod_eq_of_lt (fld_lt _ 63 56)
  have hkept : s.seq.op.toNat % 256 = s.seq.op.toNat := Nat.mod_eq_of_lt s.seq.op.isLt
  obtain ⟨hg, hpm, htd, hscratch, hev, hops⟩ := (s.trapRegs code info).endProg_memories .trapped
  have hseq : t.seq = _ := (s.trapRegs code info).seq_endProg .trapped
  refine ⟨?_, fun hend hwait hstall => ?_, fun hstood => ?_, ?_, s.rg_trap_info .., s.rg64_trap_tick ..,
    congrArg Seq.st hseq, (congrArg Seq.pc hseq :), (congrArg Seq.p hseq :), (congrArg Seq.stack hseq :), congrArg Seq.wait hseq, congrArg Seq.prog hseq,
    State.bit_irq _ (by decide), hg, hpm, htd, hscratch, hev, hops⟩
  · rw [s.rg_trap_status, code_trapWord, Nat.mod_eq_of_lt hcode]
  · rw [hop, State.trapOp, if_neg (by simp [hend, hwait, hstall]), hword]
  · have hcond : (s.seq.pcEnd || s.seq.wait.isSome || s.seq.stall.isSome) = true := by
      rcases hstood with h | h | h
      · simp [h]
      · simp [Option.isSome_iff_ne_none.2 h]
      · simp [Option.isSome_iff_ne_none.2 h]
    rw [hop, State.trapOp, if_pos hcond, hkept]
  · rw [s.rg_trap_status, pc_trapWord]

/-- A reserved bit that is set traps at the lowest such bit, before the instruction acts. -/
theorem State.Issues.live_reserved {s : State} {op : Nat} {w : W64} (h : s.Issues op w) {offend : W64 → List Nat} (hoff : offend w ≠ [])
    (act : W64 → State → State) :
    Machine.live s (·.issue (opIs op) offend act) = .next ((s.keepOp w).trap 0x02 (lowest (offend w))) := by
  rw [live_eq h.live, h.reserved h.is hoff]

/-- Settles O29: the writes of a trap read back, and the reserved bits of a format are checked before its instruction. -/
theorem trapEffect : Obligations.TrapEffect := by
  unfold Obligations.TrapEffect
  refine ⟨fun s code info hcode => s.trap_effect code info hcode, fun s op w h => ⟨fun hn => ⟨?_, ?_, ?_, ?_⟩, fun hr => ⟨?_, ?_, ?_⟩, fun hi => ?_⟩⟩
  case refine_1 | refine_2 | refine_3 | refine_4 => rintro rfl; exact h.live_reserved (offend := offN) hn _
  case refine_5 | refine_6 | refine_7 => rintro rfl; exact h.live_reserved (offend := offR) hr _
  case refine_8 => rintro rfl; exact h.live_reserved (offend := offI) hi _

/-! ## Register arithmetic -/

/-- A register-format instruction with its reserved bits zero. -/
theorem State.Issues.live_alu {s : State} {op : Nat} {w : W64} (h : s.Issues op w) (hpc : s.seq.pc < 16383) {cc : Nat}
    {offend : W64 → List Nat} (hoff : offend w = []) (f : W64 → W64 → W64 → W64) : Machine.live s (·.aluR op cc offend f) =
    .next ((s.setGreg (fRd w) (f w (s.greg (fRa w)) (s.greg (fRb w)))).goTo (s.seq.pc + 1) cc) := by
  rw [live_eq h.live, h.alu hpc cc hoff]

/-- Settles O25: every register-format instruction writes its function of RA and RB. -/
theorem aluResults : Obligations.AluResults := by
  unfold Obligations.AluResults
  intro s op w h hpc a b done
  refine ⟨fun hr => ⟨?_, ?_, ?_, ?_, ?_, ?_, ?_⟩, fun hr => ?_, fun hi => ?_⟩
  case refine_1 | refine_2 | refine_3 | refine_4 | refine_5 | refine_6 | refine_7 => rintro rfl; exact h.live_alu hpc (offend := offR) hr _
  case refine_8 => rintro rfl; exact h.live_alu hpc (offend := fun w => zeros w 39 0) hr _
  case refine_9 => rintro rfl; exact h.live_alu hpc (offend := offI) hi _

/-! ## Control transfers -/

/-- A control transfer to an index of program memory. -/
theorem State.jump_eq {s : State} {target : Nat} (h : target < 16384) : s.jump target = s.goTo target 3 := by
  rw [State.jump, Nat.mod_eq_of_lt h]
  rfl

/-- Keeping the opcode at the last word changes nothing that an instruction reads. -/
theorem State.keepOp_reads (s : State) (w : W64) : (s.keepOp w).g = s.g ∧ (s.keepOp w).seq.p = s.seq.p ∧
    (s.keepOp w).seq.stack = s.seq.stack ∧ (s.keepOp w).seq.pc = s.seq.pc ∧ (s.keepOp w).now = s.now := by
  unfold State.keepOp State.when
  split <;> exact ⟨rfl, rfl, rfl, rfl, rfl⟩

theorem State.keepOp_greg (s : State) (w : W64) (n : Nat) : (s.keepOp w).greg n = s.greg n := by
  simp [State.greg, (s.keepOp_reads w).1]

theorem State.keepOp_flag (s : State) (w : W64) (n : Nat) : (s.keepOp w).flag n = s.flag n := by
  simp [State.flag, (s.keepOp_reads w).2.1]

theorem State.keepOp_target (s : State) (w : W64) : (s.keepOp w).target w = s.target w := by
  simp [State.target, s.keepOp_greg w]

theorem State.target_lt (s : State) (w : W64) : s.target w < 16384 := by
  unfold State.target
  split <;> exact fld_lt _ 13 0

theorem State.keepOp_now (s : State) (w : W64) : (s.keepOp w).now = s.now := (s.keepOp_reads w).2.2.2.2

/-- An instruction with its reserved bits zero acts on the state with its opcode kept. -/
theorem State.Issues.live_keepOp {s : State} {op : Nat} {w : W64} (h : s.Issues op w) {is : W64 → Bool} (his : is w = true)
    {offend : W64 → List Nat} (hoff : offend w = []) (act : W64 → State → State) :
    Machine.live s (·.issue is offend act) = .next (act w (s.keepOp w)) := by
  rw [live_eq h.live, h.act his hoff]

/-- Past the last word of program memory the cycles of its instruction are waited for. -/
theorem State.advance_last {s : State} (h : s.seq.pc = 16383) {cc : Nat} (hcc : cc ≠ 0) :
    s.advance cc = { s with seq := { s.seq with pcEnd := true, nextAt := s.now + cc } } := by
  simp [State.advance, h, hcc]

theorem State.keepOp_last {s : State} (h : s.seq.pc = 16383) (w : W64) :
    s.keepOp w = { s with seq := { s.seq with op := BitVec.ofNat 8 (fld w 63 56) } } := by
  simp [State.keepOp, State.when, h]

section
variable {s : State} {w : W64}

theorem execNop_eq (h : s.Issues 0x00 w) (hoff : offN w = []) : execNop s = .next ((s.keepOp w).advance 1) := h.live_keepOp h.is hoff _

theorem execEndProg_eq (h : s.Issues 0x01 w) (hoff : offN w = []) : execEndProg s = .next ((s.keepOp w).endProg .idle) :=
  h.live_keepOp h.is hoff _

theorem execJmp_eq (h : s.Issues 0x03 w) (hoff : offB w = []) : execJmp s = .next ((s.keepOp w).goTo (s.target w) 3) := by
  unfold execJmp
  rw [h.live_keepOp h.is hoff, s.keepOp_target, State.jump_eq (s.target_lt w)]

theorem execBr_eq (h : s.Issues 0x04 w) (hpd : pdBad w = []) (hhigh : zeros w 50 41 = []) (hlow : zeros w 39 14 = []) : execBr s =
    .next (if s.flag (fRd w) != bit w 40 then (s.keepOp w).goTo (fld w 13 0) 3 else (s.keepOp w).advance 1) := by
  unfold execBr
  rw [h.live_keepOp h.is (by simp [hpd, hhigh, hlow]), s.keepOp_flag, State.jump_eq (fld_lt w 13 0)]

theorem execLoop_eq (h : s.Issues 0x05 w) (hrd : fRd w ≠ 0) (hhigh : zeros w 50 40 = []) (hlow : zeros w 39 14 = []) : execLoop s =
    .next (if s.greg (fRd w) - 1 != 0 then ((s.keepOp w).setGreg (fRd w) (s.greg (fRd w) - 1)).goTo (fld w 13 0) 3
      else ((s.keepOp w).setGreg (fRd w) (s.greg (fRd w) - 1)).advance 1) := by
  unfold execLoop
  rw [h.live_keepOp h.is (by simp [hrd, hhigh, hlow])]
  simp only [s.keepOp_greg, State.jump_eq (fld_lt w 13 0)]

/-- LOOP on g0 traps: its counter could never end the loop (R197). -/
theorem execLoop_g0 (h : s.Issues 0x05 w) (hrd : fRd w = 0) : ∃ i, execLoop s = .next ((s.keepOp w).trap 0x02 i) :=
  ⟨_, h.live_reserved (by simp [hrd]) _⟩

theorem execCall_eq (h : s.Issues 0x06 w) (hoff : offB w = []) : execCall s =
    .next (if 8 ≤ s.seq.stack.length then (s.keepOp w).trap 0x03 0
      else ({ s.keepOp w with
        seq := { (s.keepOp w).seq with stack := s.seq.stack ++ [BitVec.ofNat 14 (s.seq.pc + 1)] } } : State).goTo (s.target w) 3) := by
  obtain ⟨-, -, hstack, hpc, -⟩ := s.keepOp_reads w
  unfold execCall
  rw [h.live_keepOp h.is hoff, s.keepOp_target, hstack, hpc]
  simp only [State.jump_eq (s.target_lt w)]

theorem execRet_eq (h : s.Issues 0x07 w) (hoff : offN w = []) {r : BitVec 14} (hr : s.seq.stack.getLast? = some r) : execRet s =
    .next (({ s.keepOp w with seq := { (s.keepOp w).seq with stack := s.seq.stack.dropLast } } : State).goTo r.toNat 3) := by
  obtain ⟨-, -, hstack, -, -⟩ := s.keepOp_reads w
  unfold execRet
  rw [h.live_keepOp h.is hoff]
  simp only [hstack, hr, State.jump_eq (s := _) r.isLt]

theorem execRet_empty (h : s.Issues 0x07 w) (hoff : offN w = []) (hr : s.seq.stack = []) :
    execRet s = .next ((s.keepOp w).trap 0x03 1) := by
  obtain ⟨-, -, hstack, -, -⟩ := s.keepOp_reads w
  unfold execRet
  rw [h.live_keepOp h.is hoff]
  simp only [hstack, hr, List.getLast?_nil]

theorem execTrap_eq (h : s.Issues 0x08 w) (hoff : zeros w 55 16 = []) : execTrap s = .next ((s.keepOp w).trap 0x0B (fld w 15 0)) :=
  h.live_keepOp h.is hoff _

theorem execInvalidOp_eq {op : Nat} (h : s.Issues op w) (hop : opcodeOk op = false) : execInvalidOp s = .next ((s.keepOp w).trap 0x01 0) :=
  h.live_keepOp (by simp [h.opcode, hop]) rfl _

end

/-- PC_END: the fetch past the last word traps once the cycles of its instruction are over. -/
theorem State.seqCc_pcEnd {s : State} (hstop : s.seq.stopReq = none) (hwait : s.seq.wait = none) (hend : s.seq.pcEnd = true)
    (hrun : s.seq.st = .running) : s.seqCc = if s.seq.nextAt ≤ s.now then s.trap 0x04 0 else s := by
  simp [State.seqCc, State.settle_none hstop, State.endTimed_none hwait, hwait, hend, hrun]

/-- Settles O28: each clause is the equation of its instruction. -/
theorem controlResults : Obligations.ControlResults := by
  unfold Obligations.ControlResults
  refine ⟨fun s op w h => ?_, fun s w hpc => State.keepOp_below hpc w, fun s w hpc => State.keepOp_last hpc w,
    fun s hstop hwait hend hrun => ⟨fun hdue => ?_, fun hlate => ?_⟩⟩
  · intro k target byReg called n
    refine ⟨?nop, ?nopLast, ?endProg, fun hb => ⟨?jmp, ?call, ?callFull⟩, fun h7 hoff => ⟨?ret, ?retEmpty⟩, fun h4 hpd hhigh hlow => ⟨?taken, ?not⟩,
      fun h5 hrd hhigh hlow => ⟨?loops, ?ends, ?wraps⟩, ?loopG0, ?trap, ?invalid⟩
    case nop =>
      rintro rfl hoff hpc
      exact (execNop_eq h hoff).trans (by rw [State.keepOp_below hpc, State.advance_eq hpc])
    case nopLast =>
      rintro rfl hoff hpc
      exact (execNop_eq h hoff).trans (by rw [State.advance_last ((s.keepOp_pc w).trans hpc) (by decide), State.keepOp_now])
    case endProg => rintro rfl hoff; exact execEndProg_eq h hoff
    case jmp => rintro rfl; exact execJmp_eq h hb
    case call => rintro rfl hroom; exact (execCall_eq h hb).trans (by rw [if_neg (Nat.not_le.2 hroom)]; rfl)
    case callFull => rintro rfl hfull; exact (execCall_eq h hb).trans (by rw [if_pos (Nat.le_of_eq hfull.symm)])
    case ret => subst h7; exact fun r hr => execRet_eq h hoff hr
    case retEmpty => subst h7; exact execRet_empty h hoff
    case taken => subst h4; exact fun htaken => (execBr_eq h (if_pos hpd) hhigh hlow).trans (by rw [if_pos htaken])
    case not =>
      subst h4
      intro hflag hpc
      exact (execBr_eq h (if_pos hpd) hhigh hlow).trans
        (by rw [if_neg (by simp [hflag]), State.keepOp_below hpc, State.advance_eq hpc])
    case loops => subst h5; exact fun hn => (execLoop_eq h hrd hhigh hlow).trans (by rw [if_pos (bne_iff_ne.2 hn)])
    case ends =>
      subst h5
      intro hn hpc
      exact (execLoop_eq h hrd hhigh hlow).trans
        (by rw [if_neg (fun hne => bne_iff_ne.1 hne hn), State.keepOp_below hpc, State.advance_from (State.setGreg_seq s _ _ ▸ rfl) hpc])
    case wraps =>
      subst h5
      intro hzero
      exact (execLoop_eq h hrd hhigh hlow).trans (by rw [hzero]; rfl)
    case loopG0 => rintro rfl hrd; exact execLoop_g0 h hrd
    case trap => rintro rfl hoff; exact execTrap_eq h hoff
    case invalid => exact execInvalidOp_eq h
  · rw [State.seqCc_pcEnd hstop hwait hend hrun, if_pos hdue]
  · rw [State.seqCc_pcEnd hstop hwait hend hrun, if_neg (Nat.not_le.2 hlate)]

end Sys2Proof.Machine
end

section
/-! WAIT, FENCE, TICKWAIT and SIGNAL, and the events that end their waits (R201 to R206, R247, R248). -/
namespace Sys2Proof.Machine

/-! ## The ends of a wait -/

/-- A wait of at least 2 cc that ends: the next instruction follows, at the end of those cycles at the earliest. -/
theorem State.unblock_eq {s : State} (hpc : s.seq.pc < 16383) : s.unblock =
    { s with seq := { s.seq with st := .running, wait := none, pc := s.seq.pc + 1, nextAt := s.now + (max s.now s.seq.nextAt - s.now) } } := by
  unfold State.unblock
  rw [State.advance_eq (by exact hpc)]
  rfl

/-- The flag that a WAIT names, if any, with what it found. -/
def State.setFlag? (s : State) (fl : Option Nat) (v : Bool) : State := match fl with | some p => s.setFlag p v | none => s

theorem State.waitMissed_eq (s : State) (fl : Option Nat) : s.waitMissed fl = (s.setFlag? fl false).unblock := by
  cases fl <;> rfl

/-- A counter with no error, or a wait that does not ask, ends with the flag at 1. -/
theorem State.waitReached_eq {s : State} {ev : Nat} {te : Bool} (fl : Option Nat)
    (h : te = false ∨ (bit (s.evc ev) 32 = false ∧ bit (s.evc ev) 33 = false)) : s.waitReached ev fl te = (s.setFlag? fl true).unblock := by
  have hno : (te && (bit (s.evc ev) 32 || bit (s.evc ev) 33)) = false := by
    rcases h with h | ⟨h32, h33⟩
    · simp [h]
    · simp [h32, h33]
  cases fl <;> simp [State.waitReached, State.setFlag?, hno]

/-! ## WAIT, FENCE and TICKWAIT issue -/

section
variable {s : State} {op : Nat} {w : W64}

/-- A sync instruction that blocks keeps its opcode. -/
theorem State.Issues.block_eq (h : s.Issues op w) (x : WaitSt) : s.block x =
    { s with seq := { s.seq with st := .waiting, wait := some x, nextAt := s.now + 2, op := BitVec.ofNat 8 op } } := by
  rw [State.block, h.word, h.opcode]

/-- The block of a sync instruction that ends at once: its 2 cc, and its opcode kept. -/
theorem State.Issues.unblock_block (h : s.Issues op w) (hpc : s.seq.pc < 16383) (x : WaitSt) : (s.block x).unblock =
    { s with seq := { s.seq with wait := none, pc := s.seq.pc + 1, nextAt := s.now + 2, op := BitVec.ofNat 8 op } } := by
  have htwo : s.now + (max s.now (s.now + 2) - s.now) = s.now + 2 := by omega
  rw [h.block_eq, State.unblock_eq (by exact hpc)]
  rw [show SeqSt.running = s.seq.st from h.running.symm]
  exact congrArg (fun n => ({ s with seq := { s.seq with
    wait := none, pc := s.seq.pc + 1, nextAt := n, op := BitVec.ofNat 8 op } } : State)) htwo

/-- A flag does not keep an instruction from issuing. -/
theorem State.Issues.setFlag (h : s.Issues op w) (p : Nat) (v : Bool) : (s.setFlag p v).Issues op w :=
  ⟨h.live, h.running, h.noStall, h.noStop, h.noEnd, h.noWait, h.due, h.word, h.clean, h.opcode⟩

/-- The target of a WAIT, and the cc of its timeout. -/
def State.waitTarget (s : State) (w : W64) : Nat := (fld (s.greg (fRa w)) 31 0 + fld w 31 16) % 0x100000000

def State.waitUntil (s : State) (w : W64) : Option Nat := if fld w 15 0 = 0 then none else some (s.now + 16 * fld w 15 0)

/-- What a WAIT with a flag that has not ended blocks on. -/
def State.waitFor (s : State) (w : W64) : WaitSt :=
  .ev (fld w 37 32) (BitVec.ofNat 32 (s.waitTarget w)) (s.waitUntil w) (some (fRd w)) (bit w 38)

theorem execWait_eq (h : s.Issues 0x21 w) (hpc : s.seq.pc < 16383) (hz : zeros w 45 41 = []) (hp : bit w 40 = true) (hrd : fRd w < 8) :
    execWait s = .next (if evReached (s.evc (fld w 37 32)) (s.waitTarget w)
      then (s.block (s.waitFor w)).waitReached (fld w 37 32) (some (fRd w)) (bit w 38)
      else if bit w 39 then (s.block (s.waitFor w)).waitMissed (some (fRd w)) else s.block (s.waitFor w)) := by
  have hoff : (zeros w 45 41 ++ if bit w 40 then pdBad w else zeros w 55 51) = [] := by simp [hz, hp, pdBad, hrd]
  unfold execWait
  rw [h.live_act hpc hoff]
  simp only [hp, if_true]
  rfl

theorem execFence_eq (h : s.Issues 0x22 w) (hpc : s.seq.pc < 16383) (hhigh : zeros w 55 41 = []) (hmid : zeros w 38 38 = [])
    (hlow : zeros w 31 0 = []) : execFence s =
    .next (if (s.fenceScope (bit w 39) (bit w 40) (fld w 37 32)).isEmpty
      then (s.block (.fence (s.fenceScope (bit w 39) (bit w 40) (fld w 37 32)))).unblock
      else s.block (.fence (s.fenceScope (bit w 39) (bit w 40) (fld w 37 32)))) := by
  unfold execFence
  rw [h.live_act hpc (by simp [hhigh, hmid, hlow])]

end

/-! ## The events that end a wait -/

section
variable {s : State} (hlive : s.inReset = false) (hstop : s.seq.stopReq = none)
include hlive hstop

/-- WAIT_RESUME at a wait, timed or not, whose counter has reached its target. -/
theorem execWaitResume_eq {ev : Nat} {t : BitVec 32} {fl : Option Nat} {te : Bool}
    (hwait : (∃ u, s.seq.wait = some (.ev ev t u fl te)) ∨ s.seq.wait = some (.timed ev t fl te)) (hev : evReached (s.evc ev) t.toNat = true) :
    execWaitResume s = .next (s.waitReached ev fl te) := by
  unfold execWaitResume
  rw [live_eq hlive]
  rcases hwait with ⟨u, hwait⟩ | hwait <;> simp only [State.settle_none hstop, hwait, hev, if_true]

theorem execWaitTimeout_eq {ev u : Nat} {t : BitVec 32} {fl : Option Nat} {te : Bool} (hwait : s.seq.wait = some (.ev ev t (some u) fl te))
    (hev : evReached (s.evc ev) t.toNat = false) (hdue : u ≤ s.now) :
    execWaitTimeout s = .next { s with seq := { s.seq with wait := some (.timed ev t fl te) } } := by
  unfold execWaitTimeout
  rw [live_eq hlive]
  simp only [State.settle_none hstop, hwait, hev, hdue, Bool.not_false, decide_true, Bool.and_true, if_true]

theorem execFenceResume_eq {scope : List Nat} (hwait : s.seq.wait = some (.fence scope)) (hdone : ∀ o ∈ s.ops, o.uid ∉ scope) :
    execFenceResume s = .next s.unblock := by
  have hnone : s.ops.any (fun o => scope.contains o.uid) = false := by simpa using hdone
  unfold execFenceResume
  rw [live_eq hlive]
  simp only [State.settle_none hstop, hwait, hnone, Bool.false_eq_true, if_false]

omit hlive

/-- A timed wait is over with its cc, and what follows it past the last word of program memory traps. -/
theorem State.seqCc_timed {ev : Nat} {t : BitVec 32} {fl : Option Nat} {te : Bool} (hwait : s.seq.wait = some (.timed ev t fl te))
    (hpc : s.seq.pc < 16383) :
    s.seqCc = if (s.waitMissed fl).seq.pcEnd && decide ((s.waitMissed fl).seq.nextAt ≤ s.now) then (s.waitMissed fl).trap 0x04 0
      else s.waitMissed fl := by
  have hpc' : (s.setFlag? fl false).seq.pc < 16383 := by cases fl <;> exact hpc
  have hends : s.settle.endTimed = s.waitMissed fl := by rw [State.settle_none hstop, State.endTimed]; simp only [hwait]
  have hnow : (s.setFlag? fl false).now = s.now := by cases fl <;> rfl
  unfold State.seqCc
  simp only [hends, State.waitMissed_eq, State.unblock_eq hpc', beq_self_eq_true, Bool.and_true]
  rw [← hnow]

theorem State.seqCc_tickEnd {t : Nat} (hwait : s.seq.wait = some (.tickEnd t)) (hst : s.seq.st = .waiting) (hpc : s.seq.pc < 16383) :
    s.seqCc = if t ≤ s.now then { s with seq := { s.seq with st := .running, wait := none, pc := s.seq.pc + 1, nextAt := s.now } } else s := by
  have hends : s.settle.endTimed = s := by rw [State.settle_none hstop, State.endTimed]; simp only [hwait]
  unfold State.seqCc
  simp only [hends, hwait, hst, beq_self_eq_true, Bool.true_and, decide_eq_true_eq]
  rw [State.advance_eq (by exact hpc)]
  rfl

end

theorem State.tickwaitEnd_eq {s : State} (hwait : s.seq.wait = some .tick) (t : Nat) :
    s.tickwaitEnd t = { s with seq := { s.seq with wait := some (.tickEnd (t + 4)) } } := by
  simp only [State.tickwaitEnd, hwait]

/-- Settles O30: each instruction blocks or ends at once, and each event ends its wait. -/
theorem syncResults : Obligations.SyncResults := by
  unfold Obligations.SyncResults
  refine ⟨fun s op w h hpc => ?_, fun s hlive hstop hst hpc => ?_⟩
  · intro target ev goes waits until_ scope
    refine ⟨?tickwait, fun hop hz hp hrd => ?_, fun hop hhigh hmid hlow => ⟨?fenceWaits, ?fenceEnds⟩⟩
    case tickwait =>
      rintro rfl hz
      exact (h.live_act hpc (offend := fun w => zeros w 55 0) hz fun _ s => s.block .tick).trans (congrArg _ (h.block_eq .tick))
    case fenceWaits =>
      subst hop
      exact fun hscope => (execFence_eq h hpc hhigh hmid hlow).trans (by rw [if_neg (by simpa using hscope), h.block_eq])
    case fenceEnds =>
      subst hop
      exact fun hscope => (execFence_eq h hpc hhigh hmid hlow).trans (by rw [if_pos (by simpa using hscope), h.unblock_block hpc])
    subst hop
    have hwait := execWait_eq h hpc hz hp hrd
    refine ⟨fun hno hpoll => ?_, fun hno hpoll => ?_, fun hyes hte => ?_⟩ <;> refine hwait.trans (congrArg Host.Outcome.next ?_)
    · exact (if_neg (Bool.eq_false_iff.1 hno)).trans ((if_neg (Bool.eq_false_iff.1 hpoll)).trans (h.block_eq _))
    · refine (if_neg (Bool.eq_false_iff.1 hno)).trans ((if_pos hpoll).trans ((State.waitMissed_eq _ _).trans ?_))
      exact (h.setFlag (fRd w) false).unblock_block hpc _
    · refine (if_pos hyes).trans ((State.waitReached_eq (s := s.block (s.waitFor w)) _ hte).trans ?_)
      exact (h.setFlag (fRd w) true).unblock_block hpc _
  · intro runs
    have hruns : ∀ p v, (s.setFlag p v).unblock = runs (s.setFlag p v) := fun p v => State.unblock_eq (s := s.setFlag p v) hpc
    refine ⟨fun ev t u p hwait hev => ?_, fun ev t p hwait hev => ?_, fun ev t u p b => execWaitTimeout_eq hlive hstop, fun ev t p b hwait => ?_,
      fun scope hwait hdone => ?_, fun hwait t => State.tickwaitEnd_eq hwait t, fun t hwait => ⟨fun hdue => ?_, fun hlate => ?_⟩⟩
    · exact (execWaitResume_eq hlive hstop (.inl ⟨u, hwait⟩) hev).trans (by rw [State.waitReached_eq _ (.inl rfl)]; exact congrArg _ (hruns p true))
    · exact (execWaitResume_eq hlive hstop (.inr hwait) hev).trans (by rw [State.waitReached_eq _ (.inl rfl)]; exact congrArg _ (hruns p true))
    · have hends : s.waitMissed (some p) = runs (s.setFlag p false) := hruns p false
      rw [State.seqCc_timed hstop hwait hpc, hends]
      simp only [Bool.and_eq_true, decide_eq_true_eq]
      rfl
    · exact (execFenceResume_eq hlive hstop hwait hdone).trans (congrArg _ (State.unblock_eq hpc))
    · rw [State.seqCc_tickEnd hstop hwait hst hpc, if_pos hdue]
    · rw [State.seqCc_tickEnd hstop hwait hst hpc, if_neg (Nat.not_le.2 hlate)]

/-! ## SIGNAL -/

/-- An operation that takes its tag below the last word of program memory. -/
theorem State.takeTag_eq {s : State} (hpc : s.seq.pc < 16383) (o : Op) : s.takeTag o =
    { s with ops := s.ops ++ [{ o with uid := s.ord }], ord := s.ord + 1,
             seq := { s.seq with lastTag := o.tag, stall := none, pc := s.seq.pc + 1, nextAt := s.now + 2 } } := by
  unfold State.takeTag
  rw [State.advance_eq (by exact hpc)]
  rfl

/-- A SIGNAL with a free tag and room starts. -/
theorem execSignal_eq {s : State} {w : W64} (h : s.Issues 0x20 w) (hpc : s.seq.pc < 16383) (hoff : offG w = []) {tag : Nat}
    (htag : s.freeTag = some tag) (hroom : s.unadmitted < 64) : execSignal s = .next (startSignal s tag (s.sigIss w)) := by
  unfold execSignal
  rw [h.live_act hpc hoff]
  simp only [htag, canSignal, hroom, decide_true, if_true]

/-- LOCAL_SIGNAL_APPLY behind the last operation of its fence. -/
theorem execLocalSignalApply_eq {s : State} {tag : Nat} {o : Op} (hlive : s.inReset = false) (ho : s.op? tag = some o)
    (hop : o.iss.opcode = 0x20) (hph : o.phase = .run) (hfence : ∀ p ∈ s.ops, p.uid ∉ o.fence) :
    execLocalSignalApply tag s = .next ((s.evAdd o.iss.ev (fld o.iss.ra 31 0) false false).finish tag) := by
  have hnone : s.ops.any (fun p => o.fence.contains p.uid) = false := by simpa using hfence
  unfold execLocalSignalApply
  rw [live_eq hlive]
  simp only [ho, hop, hph, hnone, decide_true, Bool.not_false, Bool.and_self, if_true]

/-- Settles O31: a SIGNAL's die decides between the message and the local increment. -/
theorem signalResults : Obligations.SignalResults := by
  unfold Obligations.SignalResults
  refine ⟨fun s w tag h hpc hoff htag hroom => ?_, fun s tag o hlive ho hop hph hfence => execLocalSignalApply_eq hlive ho hop hph hfence⟩
  intro i base takes
  have hstart := execSignal_eq h hpc hoff htag hroom
  refine ⟨fun hfar => ?_, fun hlocal => ?_⟩ <;> refine hstart.trans (congrArg Host.Outcome.next ?_)
  · have hdie : (s.sigIss w).far ≠ some s.die := fun hd => hfar (Option.some.inj hd)
    exact (if_neg hdie).trans (State.takeTag_eq hpc _)
  · have hdie : (s.sigIss w).far = some s.die := congrArg some hlocal
    exact (if_pos hdie).trans (State.takeTag_eq hpc _)

end Sys2Proof.Machine
end

section
/-! The commit: requests, CANCEL, REVERT, COMMIT, and the Solstice that applies it (R37 to R44, R212 to R214). -/
namespace Sys2Proof.Machine

/-! ## Copies between the banks -/

/-- A word whose bits under a mask come from another. -/
def mixed (m a b : W32) : W32 := (a &&& ~~~m) ||| (b &&& m)

theorem mixed_self (m a : W32) : mixed m a a = a := by
  unfold mixed
  rw [← BitVec.and_or_distrib_left, BitVec.or_comm, BitVec.or_not_self, BitVec.and_allOnes]

theorem mixed_mixed (m a b : W32) : mixed m (mixed m a b) b = mixed m a b := by
  ext i hi
  simp only [mixed, BitVec.getElem_or, BitVec.getElem_and, BitVec.getElem_not]
  cases m[i] <;> simp

/-- One word of the active bank takes its RWS bits from the shadow. -/
def State.commitWord (t : State) (o : Nat) : State := t.setRg o (mixed (rwsMask (modules t.member) o) (t.rg o) (t.sh o))

/-- One word of the shadow takes its RWS bits from the active bank. -/
def State.revertWord (t : State) (o : Nat) : State := t.setSh o (mixed (rwsMask (modules t.member) o) (t.sh o) (t.rg o))

theorem State.shadowToActive_eq (s : State) : s.shadowToActive = (bankKeys s.shadow s.regs).foldl State.commitWord s := rfl

theorem State.activeToShadow_eq (s : State) : s.activeToShadow = (bankKeys s.shadow s.regs).foldl State.revertWord s := rfl

/-- Copies into the active bank change nothing but its words, each listed one once. -/
theorem foldl_commitWord (keys : List Nat) (s : State) : ∃ r, keys.foldl State.commitWord s = { s with regs := r } ∧
    ∀ off, (keys.foldl State.commitWord s).rg off =
      if off ∈ keys then mixed (rwsMask (modules s.member) off) (s.rg off) (s.sh off) else s.rg off := by
  induction keys generalizing s with
  | nil => exact ⟨s.regs, rfl, fun off => (if_neg List.not_mem_nil).symm⟩
  | cons o keys ih =>
    obtain ⟨r, hr, hrg⟩ := ih (s.commitWord o)
    refine ⟨r, hr, fun off => (hrg off).trans ?_⟩
    have hsh : (s.commitWord o).sh off = s.sh off := rfl
    have hmask : rwsMask (modules (s.commitWord o).member) off = rwsMask (modules s.member) off := rfl
    by_cases ho : o = off
    · subst ho
      have hsame : (s.commitWord o).rg o = mixed (rwsMask (modules s.member) o) (s.rg o) (s.sh o) := State.rg_setRg_same ..
      simp only [hsh, hmask, hsame, mixed_mixed, ite_self, List.mem_cons_self, if_true]
    · have hother : (s.commitWord o).rg off = s.rg off := State.rg_setRg_other _ _ ho
      simp only [hsh, hmask, hother, List.mem_cons, Ne.symm ho, false_or]

/-- Copies into the shadow change nothing but its words, each listed one once. -/
theorem foldl_revertWord (keys : List Nat) (s : State) : ∃ r, keys.foldl State.revertWord s = { s with shadow := r } ∧
    ∀ off, (keys.foldl State.revertWord s).sh off =
      if off ∈ keys then mixed (rwsMask (modules s.member) off) (s.sh off) (s.rg off) else s.sh off := by
  induction keys generalizing s with
  | nil => exact ⟨s.shadow, rfl, fun off => (if_neg List.not_mem_nil).symm⟩
  | cons o keys ih =>
    obtain ⟨r, hr, hrg⟩ := ih (s.revertWord o)
    refine ⟨r, hr, fun off => (hrg off).trans ?_⟩
    have hsh : (s.revertWord o).rg off = s.rg off := rfl
    have hmask : rwsMask (modules (s.revertWord o).member) off = rwsMask (modules s.member) off := rfl
    by_cases ho : o = off
    · subst ho
      have hsame : (s.revertWord o).sh o = mixed (rwsMask (modules s.member) o) (s.sh o) (s.rg o) := State.sh_setSh_same ..
      simp only [hsh, hmask, hsame, mixed_mixed, ite_self, List.mem_cons_self, if_true]
    · have hother : (s.revertWord o).sh off = s.sh off := State.sh_setSh_other _ _ ho
      simp only [hsh, hmask, hother, List.mem_cons, Ne.symm ho, false_or]

/-- A key that a map does not list is not found in it. -/
theorem spFind_eq_none {α : Type} {m : Sp α} {i : Nat} (h : i ∉ m.map (·.1)) : spFind m i = none := by
  induction m with
  | nil => rfl
  | cons e m ih =>
    rw [List.map_cons, List.mem_cons, not_or] at h
    exact (if_neg (Ne.symm h.1)).trans (ih h.2)

/-- A word that neither bank lists reads the same in both. -/
theorem State.sh_eq_rg_of_unlisted {s : State} {off : Nat} (h : off ∉ bankKeys s.shadow s.regs) : s.sh off = s.rg off := by
  rw [bankKeys, List.mem_append, not_or] at h
  rw [State.sh, State.rg, spFind_eq_none h.1, spFind_eq_none h.2]

/-- A commit copies every RWS bit of the window from the shadow. -/
theorem State.rg_shadowToActive (s : State) (off : Nat) :
    s.shadowToActive.rg off = mixed (rwsMask (modules s.member) off) (s.rg off) (s.sh off) := by
  obtain ⟨r, -, hrg⟩ := foldl_commitWord (bankKeys s.shadow s.regs) s
  rw [s.shadowToActive_eq, hrg]
  split
  · rfl
  · next h => rw [State.sh_eq_rg_of_unlisted h, mixed_self]

/-- A revert copies every RWS bit of the window to the shadow. -/
theorem State.sh_activeToShadow (s : State) (off : Nat) :
    s.activeToShadow.sh off = mixed (rwsMask (modules s.member) off) (s.sh off) (s.rg off) := by
  obtain ⟨r, -, hsh⟩ := foldl_revertWord (bankKeys s.shadow s.regs) s
  rw [s.activeToShadow_eq, hsh]
  split
  · rfl
  · next h => rw [State.sh_eq_rg_of_unlisted h, mixed_self]

/-- A commit changes nothing but the active bank. -/
theorem State.shadowToActive_regs (s : State) : ∃ r, s.shadowToActive = { s with regs := r } :=
  let ⟨r, hr, _⟩ := foldl_commitWord (bankKeys s.shadow s.regs) s
  ⟨r, hr⟩

/-- A revert changes nothing but the shadow. -/
theorem State.activeToShadow_shadow (s : State) : ∃ r, s.activeToShadow = { s with shadow := r } :=
  let ⟨r, hr, _⟩ := foldl_revertWord (bankKeys s.shadow s.regs) s
  ⟨r, hr⟩

/-! ## The answer of the port -/

/-- An answer of the port waits in its queue; nothing else changes. -/
@[simp] theorem State.cfgAnswer_fields (s : State) (within : Nat) (d : W32) :
    (s.cfgAnswer within d).pending = s.pending ∧ (s.cfgAnswer within d).env = s.env ∧ (s.cfgAnswer within d).free = s.free ∧ (s.cfgAnswer within
    d).out = s.out ∧ (s.cfgAnswer within d).upset = s.upset ∧ (s.cfgAnswer within d).regs = s.regs ∧ (s.cfgAnswer within d).shadow = s.shadow ∧
    (s.cfgAnswer within d).calDirty = s.calDirty ∧ (s.cfgAnswer within d).hits = s.hits ∧ (s.cfgAnswer within d).cc = s.cc ∧ (s.cfgAnswer within
    d).portRd = s.portRd ∧ (s.cfgAnswer within d).portWr = s.portWr ∧ (s.cfgAnswer within d).merge = s.merge ∧ (s.cfgAnswer within d).commit =
    s.commit ∧ (s.cfgAnswer within d).digOld = s.digOld ∧ (s.cfgAnswer within d).digAt = s.digAt ∧ (s.cfgAnswer within d).pendOld = s.pendOld ∧
    (s.cfgAnswer within d).pendAt = s.pendAt ∧ (s.cfgAnswer within d).digestAt = s.digestAt ∧ (s.cfgAnswer within d).digPrev = s.digPrev ∧
    (s.cfgAnswer within d).tick = s.tick ∧ (s.cfgAnswer within d).seq = s.seq ∧ (s.cfgAnswer within d).pm = s.pm ∧ (s.cfgAnswer within d).g = s.g ∧
    (s.cfgAnswer within d).scratch = s.scratch ∧ (s.cfgAnswer within d).td = s.td ∧ (s.cfgAnswer within d).ev = s.ev ∧ (s.cfgAnswer within d).ops =
    s.ops ∧ (s.cfgAnswer within d).far = s.far ∧ (s.cfgAnswer within d).rdq = s.rdq ∧ (s.cfgAnswer within d).wrq = s.wrq ∧ (s.cfgAnswer within d).wd
    = s.wd ∧ (s.cfgAnswer within d).xtx = s.xtx ∧ (s.cfgAnswer within d).ord = s.ord ∧ (s.cfgAnswer within d).calTick = s.calTick ∧ (s.cfgAnswer
    within d).calClr = s.calClr ∧ (s.cfgAnswer within d).red = s.red ∧ (s.cfgAnswer within d).mrg = s.mrg ∧ (s.cfgAnswer within d).dsl = s.dsl ∧
    (s.cfgAnswer within d).cmb = s.cmb ∧ (s.cfgAnswer within d).mods = s.mods ∧ (s.cfgAnswer within d).flow = s.flow ∧ (s.cfgAnswer within d).credAt
    = s.credAt ∧ (s.cfgAnswer within d).credLast = s.credLast ∧ (s.cfgAnswer within d).credDue = s.credDue ∧ (s.cfgAnswer within d).flowLast =
    s.flowLast ∧ (s.cfgAnswer within d).flowDue = s.flowDue ∧ (s.cfgAnswer within d).d1 = s.d1 ∧ (s.cfgAnswer within d).d2 = s.d2 ∧ (s.cfgAnswer
    within d).ctl = s.ctl ∧ (s.cfgAnswer within d).streams = s.streams ∧ (s.cfgAnswer within d).rr = s.rr ∧ (s.cfgAnswer within d).tx = s.tx ∧
    (s.cfgAnswer within d).rsp = s.rsp ∧ (s.cfgAnswer within d).transit = s.transit ∧ (s.cfgAnswer within d).mgmtQ = s.mgmtQ ∧ (s.cfgAnswer within
    d).mgmtRx = s.mgmtRx ∧ (s.cfgAnswer within d).rel = s.rel ∧ (s.cfgAnswer within d).owed = s.owed ∧ (s.cfgAnswer within d).nextFlit = s.nextFlit
    ∧ (s.cfgAnswer within d).slipN = s.slipN ∧ (s.cfgAnswer within d).slipMax = s.slipMax ∧ (s.cfgAnswer within d).lateFlits = s.lateFlits ∧
    (s.cfgAnswer within d).plan = s.plan ∧ (s.cfgAnswer within d).planRun = s.planRun ∧ (s.cfgAnswer within d).gapEnd = s.gapEnd ∧ (s.cfgAnswer
    within d).tags = s.tags ∧ (s.cfgAnswer within d).fills = s.fills ∧ (s.cfgAnswer within d).fillWait = s.fillWait ∧ (s.cfgAnswer within d).recOps
    = s.recOps ∧ (s.cfgAnswer within d).rdecs = s.rdecs ∧ (s.cfgAnswer within d).ackWait = s.ackWait ∧ (s.cfgAnswer within d).flushSet = s.flushSet
    ∧ (s.cfgAnswer within d).trn = s.trn ∧ (s.cfgAnswer within d).twin = s.twin ∧ (s.cfgAnswer within d).hm = s.hm ∧ (s.cfgAnswer within d).pwr =
    s.pwr ∧ (s.cfgAnswer within d).ecc = s.ecc ∧ (s.cfgAnswer within d).bist = s.bist :=
  ⟨Eq.refl _, Eq.refl _, Eq.refl _, Eq.refl _, Eq.refl _, Eq.refl _, Eq.refl _, Eq.refl _, Eq.refl _, Eq.refl _, Eq.refl _, Eq.refl _, Eq.refl _,
    Eq.refl _, Eq.refl _, Eq.refl _, Eq.refl _, Eq.refl _, Eq.refl _, Eq.refl _, Eq.refl _, Eq.refl _, Eq.refl _, Eq.refl _, Eq.refl _, Eq.refl _,
    Eq.refl _, Eq.refl _, Eq.refl _, Eq.refl _, Eq.refl _, Eq.refl _, Eq.refl _, Eq.refl _, Eq.refl _, Eq.refl _, Eq.refl _, Eq.refl _, Eq.refl _,
    Eq.refl _, Eq.refl _, Eq.refl _, Eq.refl _, Eq.refl _, Eq.refl _, Eq.refl _, Eq.refl _, Eq.refl _, Eq.refl _, Eq.refl _, Eq.refl _, Eq.refl _,
    Eq.refl _, Eq.refl _, Eq.refl _, Eq.refl _, Eq.refl _, Eq.refl _, Eq.refl _, Eq.refl _, Eq.refl _, Eq.refl _, Eq.refl _, Eq.refl _, Eq.refl _,
    Eq.refl _, Eq.refl _, Eq.refl _, Eq.refl _, Eq.refl _, Eq.refl _, Eq.refl _, Eq.refl _, Eq.refl _, Eq.refl _, Eq.refl _, Eq.refl _, Eq.refl _,
    Eq.refl _⟩

/-- An access of the port empties its latches; nothing else changes. -/
@[simp] theorem State.accessed_fields (s : State) :
    (s.accessed).pending = s.pending ∧ (s.accessed).env = s.env ∧ (s.accessed).free = s.free ∧ (s.accessed).out = s.out ∧ (s.accessed).upset =
    s.upset ∧ (s.accessed).regs = s.regs ∧ (s.accessed).shadow = s.shadow ∧ (s.accessed).calDirty = s.calDirty ∧ (s.accessed).hits = s.hits ∧
    (s.accessed).cc = s.cc ∧ (s.accessed).merge = s.merge ∧ (s.accessed).commit = s.commit ∧ (s.accessed).digOld = s.digOld ∧ (s.accessed).digAt =
    s.digAt ∧ (s.accessed).pendOld = s.pendOld ∧ (s.accessed).pendAt = s.pendAt ∧ (s.accessed).digestAt = s.digestAt ∧ (s.accessed).digPrev =
    s.digPrev ∧ (s.accessed).tick = s.tick ∧ (s.accessed).seq = s.seq ∧ (s.accessed).pm = s.pm ∧ (s.accessed).g = s.g ∧ (s.accessed).scratch =
    s.scratch ∧ (s.accessed).td = s.td ∧ (s.accessed).ev = s.ev ∧ (s.accessed).ops = s.ops ∧ (s.accessed).far = s.far ∧ (s.accessed).rdq = s.rdq ∧
    (s.accessed).wrq = s.wrq ∧ (s.accessed).wd = s.wd ∧ (s.accessed).xtx = s.xtx ∧ (s.accessed).cfgq = s.cfgq ∧ (s.accessed).ord = s.ord ∧
    (s.accessed).calTick = s.calTick ∧ (s.accessed).calClr = s.calClr ∧ (s.accessed).red = s.red ∧ (s.accessed).mrg = s.mrg ∧ (s.accessed).dsl =
    s.dsl ∧ (s.accessed).cmb = s.cmb ∧ (s.accessed).mods = s.mods ∧ (s.accessed).flow = s.flow ∧ (s.accessed).credAt = s.credAt ∧
    (s.accessed).credLast = s.credLast ∧ (s.accessed).credDue = s.credDue ∧ (s.accessed).flowLast = s.flowLast ∧ (s.accessed).flowDue = s.flowDue ∧
    (s.accessed).d1 = s.d1 ∧ (s.accessed).d2 = s.d2 ∧ (s.accessed).ctl = s.ctl ∧ (s.accessed).streams = s.streams ∧ (s.accessed).rr = s.rr ∧
    (s.accessed).tx = s.tx ∧ (s.accessed).rsp = s.rsp ∧ (s.accessed).transit = s.transit ∧ (s.accessed).mgmtQ = s.mgmtQ ∧ (s.accessed).mgmtRx =
    s.mgmtRx ∧ (s.accessed).rel = s.rel ∧ (s.accessed).owed = s.owed ∧ (s.accessed).nextFlit = s.nextFlit ∧ (s.accessed).slipN = s.slipN ∧
    (s.accessed).slipMax = s.slipMax ∧ (s.accessed).lateFlits = s.lateFlits ∧ (s.accessed).plan = s.plan ∧ (s.accessed).planRun = s.planRun ∧
    (s.accessed).gapEnd = s.gapEnd ∧ (s.accessed).tags = s.tags ∧ (s.accessed).fills = s.fills ∧ (s.accessed).fillWait = s.fillWait ∧
    (s.accessed).recOps = s.recOps ∧ (s.accessed).rdecs = s.rdecs ∧ (s.accessed).ackWait = s.ackWait ∧ (s.accessed).flushSet = s.flushSet ∧
    (s.accessed).trn = s.trn ∧ (s.accessed).twin = s.twin ∧ (s.accessed).hm = s.hm ∧ (s.accessed).pwr = s.pwr ∧ (s.accessed).ecc = s.ecc ∧
    (s.accessed).bist = s.bist :=
  ⟨Eq.refl _, Eq.refl _, Eq.refl _, Eq.refl _, Eq.refl _, Eq.refl _, Eq.refl _, Eq.refl _, Eq.refl _, Eq.refl _, Eq.refl _, Eq.refl _, Eq.refl _,
    Eq.refl _, Eq.refl _, Eq.refl _, Eq.refl _, Eq.refl _, Eq.refl _, Eq.refl _, Eq.refl _, Eq.refl _, Eq.refl _, Eq.refl _, Eq.refl _, Eq.refl _,
    Eq.refl _, Eq.refl _, Eq.refl _, Eq.refl _, Eq.refl _, Eq.refl _, Eq.refl _, Eq.refl _, Eq.refl _, Eq.refl _, Eq.refl _, Eq.refl _, Eq.refl _,
    Eq.refl _, Eq.refl _, Eq.refl _, Eq.refl _, Eq.refl _, Eq.refl _, Eq.refl _, Eq.refl _, Eq.refl _, Eq.refl _, Eq.refl _, Eq.refl _, Eq.refl _,
    Eq.refl _, Eq.refl _, Eq.refl _, Eq.refl _, Eq.refl _, Eq.refl _, Eq.refl _, Eq.refl _, Eq.refl _, Eq.refl _, Eq.refl _, Eq.refl _, Eq.refl _,
    Eq.refl _, Eq.refl _, Eq.refl _, Eq.refl _, Eq.refl _, Eq.refl _, Eq.refl _, Eq.refl _, Eq.refl _, Eq.refl _, Eq.refl _, Eq.refl _, Eq.refl _⟩

@[simp] theorem State.when_true (s : State) (f : State → State) : s.when true f = f s := rfl

@[simp] theorem State.when_false (s : State) (f : State → State) : s.when false f = s := rfl

@[simp] theorem State.rg_cfgAnswer (s : State) (within : Nat) (d : W32) (off : Nat) : (s.cfgAnswer within d).rg off = s.rg off := rfl

@[simp] theorem State.rf_cfgAnswer (s : State) (within : Nat) (d : W32) (off hi lo : Nat) :
    (s.cfgAnswer within d).rf off hi lo = s.rf off hi lo := rfl

@[simp] theorem State.rg_setFlag (s : State) (p : Nat) (v : Bool) (off : Nat) : (s.setFlag p v).rg off = s.rg off := rfl

@[simp] theorem State.seq_setFlag (s : State) (p : Nat) (v : Bool) : (s.setFlag p v).seq = { s.seq with p := setFlagOf s.seq.p p v } := rfl

/-- A port write of one register that the block takes, by what the write makes of the block. -/
theorem portCmd_eq {s t : State} {f : State → State} (h : s.cfgReady = true) (hf : f s.accessed = t) : portCmd s f = .next (t.cfgAnswer 32 0) :=
  hf ▸ portCmd_ready h f

/-! ## CFG_COMMIT_STATUS -/

/-- A field of the register whose field was set. -/
theorem State.rf_setRf_same (s : State) (off v : Nat) {hi lo : Nat} (hi32 : hi < 32) (h : lo ≤ hi) :
    (s.setRf off hi lo v).rf off hi lo = v % 2 ^ (hi - lo + 1) := by
  rw [State.rf, State.rg_setRf_same, fld_setFld_same _ _ hi32 h]

/-- Another field of the register whose field was set. -/
theorem State.rf_setRf_apart (s : State) (off v : Nat) {hi lo hi' lo' : Nat} (hi32 : hi < 32) (h : lo ≤ hi) (h' : lo' ≤ hi')
    (hd : hi' < lo ∨ hi < lo') : (s.setRf off hi lo v).rf off hi' lo' = s.rf off hi' lo' := by
  rw [State.rf, State.rg_setRf_same, fld_setFld_other _ _ hi32 h h' hd]
  rfl

theorem State.rf_commitState (s : State) (st : Nat) (v : Bool) : (s.commitState st v).rf 0x1010 2 0 = st % 8 := by
  unfold State.commitState
  exact (State.rf_setRf_apart _ _ _ (by decide) (by decide) (by decide) (by decide)).trans (State.rf_setRf_same _ _ _ (by decide) (by decide))

theorem State.rg_commitState (s : State) (st : Nat) (v : Bool) {off : Nat} (h : off ≠ 0x1010) : (s.commitState st v).rg off = s.rg off := by
  rw [State.commitState, State.rg_setRf_other _ _ _ _ (Ne.symm h), State.rg_setRf_other _ _ _ _ (Ne.symm h)]

@[simp] theorem State.commitState_keeps (s : State) (st : Nat) (v : Bool) : (s.commitState st v).commit = s.commit ∧
    (s.commitState st v).shadow = s.shadow ∧ (s.commitState st v).seq = s.seq ∧ (s.commitState st v).mods = s.mods ∧
    (s.commitState st v).now = s.now := by simp [State.commitState, State.now]

/-! ## The commit at its Solstice -/

/-- The current tick is not in the future. -/
theorem future_self (n : Nat) : future n n = false := by
  have hdist : (n % tickMod + tickMod - n % tickMod) % tickMod = 0 := by rw [Nat.add_sub_cancel_left, Nat.mod_self]
  simp [future, hdist]

/-- The request waits: for a tick in the future, or for a Solstice later than its own cc. -/
def CommitReq.waits (r : CommitReq) (n cc : Nat) : Bool := (r.target.map fun t => future t n).getD (decide (cc ≤ r.at_))

theorem CommitReq.waits_tick {r : CommitReq} {g : Nat} (hg : r.target = some g) (n cc : Nat) : r.waits n cc = future g n := by
  rw [CommitReq.waits, hg, Option.map_some, Option.getD_some]

/-- s with its request taken up. -/
def State.taken (s : State) : State := { s with commit := none }

@[simp] theorem State.taken_keeps (s : State) : s.taken.commit = none ∧ s.taken.shadow = s.shadow ∧ s.taken.seq = s.seq ∧
    s.taken.now = s.now := by simp [State.taken, State.now]

section
variable {s : State} {r : CommitReq} {cc : Nat} (hreq : s.commit = some r)
include hreq

theorem State.commitSolstice_waits (h : r.waits s.tick.num cc = true) : s.commitSolstice cc = s := by
  unfold State.commitSolstice
  simp only [hreq]
  exact if_pos h

theorem State.commitSolstice_late (h : r.waits s.tick.num cc = false) (hpast : (r.target.map (· != s.tick.num)).getD false = true) :
    s.commitSolstice cc = s.taken.commitState 3 r.viaSeq := by
  unfold State.commitSolstice
  simp only [hreq]
  rw [if_neg (by simpa only [CommitReq.waits, Bool.not_eq_true] using h), if_pos hpast]
  rfl

variable (h : r.waits s.tick.num cc = false) (hnow : (r.target.map (· != s.tick.num)).getD false = false)
include h hnow

theorem State.commitSolstice_invalid {o : Nat} {os : List Nat} (ho : s.outOfRange = o :: os) :
    s.commitSolstice cc = (s.taken.commitState 4 r.viaSeq).setRf 0x1010 24 5 o := by
  have ho' : s.taken.outOfRange = o :: os := ho
  unfold State.commitSolstice
  simp only [hreq]
  rw [if_neg (by simpa only [CommitReq.waits, Bool.not_eq_true] using h), if_neg (by simp only [hnow, Bool.false_eq_true, not_false_eq_true])]
  simp only [State.taken] at ho'
  simp only [ho']
  rfl

theorem State.commitSolstice_legal (ho : s.outOfRange = []) : s.commitSolstice cc =
    if s.digestInput true != s.digestInput false && !s.locked then s.taken.commitState 5 r.viaSeq
    else (s.taken.commitApply).commitState 2 r.viaSeq := by
  have ho' : s.taken.outOfRange = [] := ho
  unfold State.commitSolstice
  simp only [hreq]
  rw [if_neg (by simpa only [CommitReq.waits, Bool.not_eq_true] using h), if_neg (by simp only [hnow, Bool.false_eq_true, not_false_eq_true])]
  simp only [State.taken] at ho'
  simp only [ho']
  rfl

end

/-- What the copy of every shadow field leaves: the words, CFG_COMMIT_LAST, and the shadow itself. -/
theorem State.rg_commitApply (s : State) {off : Nat} (hlo : off ≠ 0x1018) (hhi : off ≠ 0x101C) :
    s.commitApply.rg off = mixed (rwsMask (modules s.member) off) (s.rg off) (s.sh off) := by
  have hlast : s.commitApply.rg off = (s.shadowToActive.setRg64 0x1018 (BitVec.ofNat 64 s.shadowToActive.tick.num)).rg off := rfl
  rw [hlast, State.rg_setRg64_other _ _ (Ne.symm hlo) (Ne.symm hhi), s.rg_shadowToActive]

theorem State.rg64_commitApply (s : State) : s.commitApply.rg64 0x1018 = BitVec.ofNat 64 s.tick.num := by
  obtain ⟨regs, hregs⟩ := s.shadowToActive_regs
  have hlast : s.commitApply.rg64 0x1018 = (s.shadowToActive.setRg64 0x1018 (BitVec.ofNat 64 s.shadowToActive.tick.num)).rg64 0x1018 := rfl
  rw [hlast, State.rg64_setRg64_same, hregs]

theorem State.commitApply_keeps (s : State) : s.commitApply.commit = s.commit ∧ s.commitApply.shadow = s.shadow := by
  obtain ⟨regs, hregs⟩ := s.shadowToActive_regs
  have hcommit : s.commitApply.commit = s.shadowToActive.commit := rfl
  have hshadow : s.commitApply.shadow = s.shadowToActive.shadow := rfl
  rw [hcommit, hshadow, hregs]
  exact ⟨rfl, rfl⟩

/-- Settles O22: a request waits, or is judged at the Solstice in the order LATE, INVALID, NOLOCK, DONE. -/
theorem commitAtSolstice : Obligations.CommitAtSolstice := by
  unfold Obligations.CommitAtSolstice
  intro s r cc hreq n t
  have hothers : ∀ st off, off ≠ 0x1010 → (s.taken.commitState st r.viaSeq).rg off = s.rg off := fun st off => s.taken.rg_commitState st r.viaSeq
  refine ⟨fun hnext hcc => ?_, fun g hg hfuture => ?_, fun g hg hfuture hne => ?_, fun hdue => ?_⟩
  · exact State.commitSolstice_waits hreq (by simp [CommitReq.waits, hnext, hcc])
  · exact State.commitSolstice_waits hreq ((CommitReq.waits_tick hg _ _).trans hfuture)
  · have ht : t = s.taken.commitState 3 r.viaSeq :=
      State.commitSolstice_late hreq ((CommitReq.waits_tick hg _ _).trans hfuture) (by simpa [hg] using hne)
    rw [ht]
    exact ⟨rfl, s.taken.rf_commitState 3 r.viaSeq, hothers 3⟩
  · obtain ⟨hgo, hnow⟩ : r.waits n cc = false ∧ (r.target.map (· != n)).getD false = false := by
      rcases hdue with ⟨hnone, hcc⟩ | hsome
      · simp [CommitReq.waits, hnone, hcc]
      · simp [CommitReq.waits, hsome, future_self]
    have hjudged : ∀ st, (s.taken.commitState st r.viaSeq).commit = none ∧ (s.taken.commitState st r.viaSeq).shadow = s.shadow :=
      fun _ => ⟨rfl, rfl⟩
    have hdone : (s.taken.commitApply.commitState 2 r.viaSeq).commit = none ∧
        (s.taken.commitApply.commitState 2 r.viaSeq).shadow = s.shadow := s.taken.commitApply_keeps
    rcases hor : s.outOfRange with _ | ⟨o, os⟩
    · have ht : t = _ := State.commitSolstice_legal hreq hgo hnow hor
      by_cases hlock : (s.digestInput true != s.digestInput false && !s.locked) = true
      · rw [if_pos hlock] at ht
        simp only [Bool.and_eq_true, bne_iff_ne, Bool.not_eq_true'] at hlock
        rw [ht]
        refine ⟨(hjudged 5).1, (hjudged 5).2, fun o os ho => (nomatch ho), fun _ _ _ => ⟨s.taken.rf_commitState 5 r.viaSeq, hothers 5⟩,
          fun _ hok => ?_⟩
        rcases hok with heq | hlocked
        · exact absurd heq hlock.1
        · rw [hlocked] at hlock
          exact nomatch hlock.2
      · rw [if_neg hlock] at ht
        simp only [Bool.and_eq_true, bne_iff_ne, Bool.not_eq_true', not_and] at hlock
        rw [ht]
        refine ⟨hdone.1, hdone.2, fun o os ho => (nomatch ho), fun _ hne hno => absurd hno (hlock hne), fun _ _ => ⟨State.rf_commitState .., ?_, ?_⟩⟩
        · have hlast := s.taken.rg64_commitApply
          rw [State.rg64] at hlast ⊢
          rw [State.rg_commitState _ _ _ (by decide), State.rg_commitState _ _ _ (by decide), hlast]
          rfl
        · intro off hstatus hlo hhi
          exact (State.rg_commitState _ _ _ hstatus).trans (s.taken.rg_commitApply hlo hhi)
    · have ht : t = _ := State.commitSolstice_invalid hreq hgo hnow hor
      rw [ht]
      refine ⟨rfl, rfl, fun o' os' ho ho20 => ?_, fun ho => (nomatch ho), fun ho => (nomatch ho)⟩
      obtain ⟨rfl, -⟩ := List.cons.inj ho
      refine ⟨?_, ?_, fun off hoff => ?_⟩
      · rw [State.rf_setRf_apart _ _ _ (by decide) (by decide) (by decide) (by decide)]
        exact s.taken.rf_commitState 4 r.viaSeq
      · rw [State.rf_setRf_same _ _ _ (by decide) (by decide)]
        exact Nat.mod_eq_of_lt ho20
      · rw [State.rg_setRf_other _ _ _ _ (Ne.symm hoff)]
        exact hothers 4 off hoff

/-! ## Requests -/

/-- The register whose bit was set, a field apart from that bit. -/
theorem State.rf_setBit_apart (s : State) (off : Nat) {i hi lo : Nat} (hi32 : i < 32) (h : lo ≤ hi) (hd : hi < i ∨ i < lo) :
    (s.setBit off i).rf off hi lo = s.rf off hi lo := s.rf_setRf_apart off 1 hi32 (Nat.le_refl i) h hd

/-- The status of a request that was accepted (R38). -/
def State.requested (s : State) (target : Option Nat) (viaSeq : Bool) (flag : Option Nat) : State :=
  { s.commitState 1 viaSeq with commit := some { target := target, viaSeq := viaSeq, at_ := s.now, flag := flag } }

@[simp] theorem State.requested_keeps (s : State) (target : Option Nat) (viaSeq : Bool) (flag : Option Nat) :
    (s.requested target viaSeq flag).commit = some { target := target, viaSeq := viaSeq, at_ := s.now, flag := flag } ∧
    (s.requested target viaSeq flag).shadow = s.shadow ∧ (s.requested target viaSeq flag).seq = s.seq ∧
    (s.requested target viaSeq flag).mods = s.mods := by simp [State.requested]

/-- The status of a request whose tick has passed (R39). -/
def State.refusedLate (s : State) (viaSeq : Bool) : State :=
  { s.commitState 3 viaSeq with cc := { s.cc with late := s.cc.late || viaSeq } }

@[simp] theorem State.refusedLate_keeps (s : State) (viaSeq : Bool) : (s.refusedLate viaSeq).commit = s.commit ∧
    (s.refusedLate viaSeq).shadow = s.shadow := by simp [State.refusedLate]

section
variable {s : State} {target : Option Nat} {viaSeq : Bool} {flag : Option Nat}

theorem State.commitReq_busy (h : s.commit ≠ none) : s.commitReq target viaSeq flag = (false, s.setBit 0x1010 4) :=
  if_pos (Option.isSome_iff_ne_none.2 h)

theorem State.commitReq_accepted (h : s.commit = none) (ht : ∀ t, target = some t → future t s.curTick = true) :
    s.commitReq target viaSeq flag = (true, s.requested target viaSeq flag) := by
  have hahead : (target.map fun t => !future t s.curTick).getD false = false := by
    cases target with
    | none => rfl
    | some t => rw [Option.map_some, Option.getD_some, ht t rfl, Bool.not_true]
  unfold State.commitReq
  rw [if_neg (by simp [h]), if_neg (Bool.eq_false_iff.1 hahead)]
  rfl

theorem State.commitReq_late (h : s.commit = none) {t : Nat} (ht : future t s.curTick = false) :
    s.commitReq (some t) viaSeq flag = (false, s.refusedLate viaSeq) := by
  have hpast : ((some t).map fun t => !future t s.curTick).getD false = true := by rw [Option.map_some, Option.getD_some, ht, Bool.not_false]
  unfold State.commitReq
  rw [if_neg (by simp [h]), if_pos hpast]
  rfl

/-- A request leaves the sequencer as it is. -/
theorem State.commitReq_seq (s : State) (target : Option Nat) (viaSeq : Bool) (flag : Option Nat) :
    (s.commitReq target viaSeq flag).2.seq = s.seq := by
  unfold State.commitReq
  split
  · rfl
  · split <;> rfl

end

/-- The target of a port request: the next Solstice, or the tick in CFG_COMMIT_TICK. -/
def State.portTarget (s : State) (next : Bool) : Option Nat := if next then none else some ((s.rg64 0x1008).toNat % tickMod)

section
variable {s : State} {next : Bool}

theorem State.portCommit_none (h : s.commit = none) : s.portCommit next =
    if (s.commitReq (s.portTarget next) false none).1 then (s.commitReq (s.portTarget next) false none).2.when s.cc.late (·.setBit 0x1010 4)
    else (s.commitReq (s.portTarget next) false none).2.when s.cc.late (·.commitState 3 true) := by
  unfold State.portCommit
  simp only [h]
  rfl

/-- A port request while one of another cc, or one of the port, is pending. -/
theorem State.portCommit_busy {r : CommitReq} (h : s.commit = some r) (hr : r.viaSeq = false ∨ r.at_ ≠ s.now) :
    s.portCommit next = s.setBit 0x1010 4 := by
  have hno : (r.viaSeq && decide (r.at_ = s.now)) = false := by
    rcases hr with hr | hr
    · rw [hr, Bool.false_and]
    · rw [decide_eq_false hr, Bool.and_false]
  unfold State.portCommit
  simp only [h, hno, Bool.false_eq_true, if_false]
  rw [State.commitReq_busy (by rw [h]; exact Option.some_ne_none r)]

/-- A port request for the next Solstice takes the place of a COMMIT of its cc (R214). -/
theorem State.portCommit_overSeq {r : CommitReq} (h : s.commit = some r) (hseq : r.viaSeq = true) (hat : r.at_ = s.now) :
    s.portCommit true = match r.flag with
      | some p => ((s.taken.requested none false none).setBit 0x1010 4).setFlag p false
      | none => (s.taken.requested none false none).setBit 0x1010 4 := by
  have hyes : (r.viaSeq && decide (r.at_ = s.now)) = true := by rw [hseq, decide_eq_true hat]; rfl
  have hacc : s.taken.commitReq none false none = (true, s.taken.requested none false none) :=
    State.commitReq_accepted rfl (fun _ ht => nomatch ht)
  rw [State.taken] at hacc
  unfold State.portCommit
  simp only [h, hyes, if_true, hacc]
  rfl

end

/-- s with a write of CFG_COMMIT's NEXT stored. -/
def State.nextStored (s : State) (next : Bool) : State := s.accessed.setRf 0x1000 1 1 (b2n next)

/-- A write of CFG_COMMIT with REQ, as the port takes it. -/
theorem execCfgCommitReq_eq {s : State} (h : s.cfgReady = true) (next : Bool) : execCfgCommitReq next s =
    .next (((s.nextStored next).portCommit next).cfgAnswer 32 0) := portCmd_ready h _

@[simp] theorem State.nextStored_keeps (s : State) (next : Bool) : (s.nextStored next).commit = s.commit ∧
    (s.nextStored next).shadow = s.shadow ∧ (s.nextStored next).seq = s.seq ∧ (s.nextStored next).mods = s.mods ∧
    (s.nextStored next).now = s.now := by simp [State.nextStored, State.now]

theorem State.portTarget_nextStored (s : State) : (s.nextStored false).portTarget false = some ((s.rg64 0x1008).toNat % tickMod) := by
  have hlo : (s.nextStored false).rg 0x1008 = s.rg 0x1008 := State.rg_setRf_other _ _ _ _ (by decide)
  have hhi : (s.nextStored false).rg (0x1008 + 4) = s.rg (0x1008 + 4) := State.rg_setRf_other _ _ _ _ (by decide)
  rw [State.portTarget, if_neg Bool.false_ne_true, State.rg64, hlo, hhi]
  rfl

/-- The current tick rests on TICK_CTRL, the tick and the cc. -/
theorem State.curTick_congr {s t : State} (hctrl : t.rg 0x2000 = s.rg 0x2000) (htick : t.tick = s.tick) (hnow : t.now = s.now) :
    t.curTick = s.curTick := by
  simp only [State.curTick, State.solNow, State.tickOn, State.byPulse, State.sounds, State.nextTick, State.tickPlus, State.rf, hctrl, htick,
    hnow]
  rfl

theorem State.curTick_nextStored (s : State) (next : Bool) : (s.nextStored next).curTick = s.curTick :=
  State.curTick_congr (State.rg_setRf_other _ _ _ _ (by decide)) rfl rfl

/-- What an accepted request leaves in CFG_COMMIT_STATUS and in CFG_COMMIT. -/
theorem State.rf_requested (s : State) (target : Option Nat) (viaSeq : Bool) (flag : Option Nat) :
    (s.requested target viaSeq flag).rf 0x1010 2 0 = 1 := s.rf_commitState 1 viaSeq

theorem State.rf_refusedLate (s : State) (viaSeq : Bool) : (s.refusedLate viaSeq).rf 0x1010 2 0 = 3 := s.rf_commitState 3 viaSeq

theorem State.rf_requested_next (s : State) : ((s.nextStored true).requested none false none).rf 0x1000 1 1 = 1 := by
  have hreg : ((s.nextStored true).requested none false none).rg 0x1000 = (s.nextStored true).rg 0x1000 :=
    (s.nextStored true).rg_commitState 1 false (by decide)
  rw [State.rf, hreg]
  exact State.rf_setRf_same _ _ _ (by decide) (by decide)

theorem State.bit_setBit_same (s : State) (off : Nat) {i : Nat} (hi : i < 32) : bit ((s.setBit off i).rg off) i = true := by
  rw [s.bit_setBit off hi, decide_eq_true rfl, Bool.true_or]

/-- s as a revert takes it before the copy: no shadow field is one that software wrote, and CFG_DIGEST_PEND becomes valid anew (R43, R44). -/
def State.reverting (s : State) : State :=
  { s with pendOld := if (match s.pendAt with | some t => decide (t + 64 ≤ s.now) | none => true) then s.digestOf true else s.pendOld,
           pendAt := some s.now, calDirty := [], cc := { s.cc with hold := [] } }

section
variable {s : State} {w : W64}

/-- COMMIT with its reserved bits zero. -/
theorem execCommit_eq (h : s.Issues 0x80 w) (hpc : s.seq.pc < 16383)
    (hpd : (if bit w 39 then pdBad w else zeros w 55 51) = []) (hra : bit w 40 = true → zeros w 50 46 = [])
    (hmid : zeros w 45 41 = []) (hlow : zeros w 38 0 = []) {r : Bool × State}
    (hr : r = s.commitReq (if bit w 40 then none else some (fld (s.greg (fRa w)) 47 0)) true (if bit w 39 then some (fRd w) else none)) :
    execCommit s = .next ((r.2.when (bit w 39) (·.setFlag (fRd w) r.1)).goTo (s.seq.pc + 1) 4) := by
  have hoff : ((if bit w 39 then pdBad w else zeros w 55 51) ++ (if bit w 40 then zeros w 50 46 else []) ++ zeros w 45 41 ++
      zeros w 38 0) = [] := by
    rw [hpd, hmid, hlow]
    split
    · next h40 => rw [hra h40]; rfl
    · rfl
  have hseq : (r.2.when (bit w 39) (·.setFlag (fRd w) r.1)).seq.pc = s.seq.pc := by
    have hr2 : r.2.seq = s.seq := by rw [hr]; exact s.commitReq_seq ..
    unfold State.when
    split
    · exact (congrArg Seq.pc hr2 :)
    · exact congrArg Seq.pc hr2
  unfold execCommit
  rw [h.live_act hpc (offend := fun w => (if bit w 39 then pdBad w else zeros w 55 51) ++ (if bit w 40 then zeros w 50 46 else []) ++
    zeros w 45 41 ++ zeros w 38 0) hoff]
  simp only [← hr]
  rw [State.advance_from hseq hpc]

end

/-- s with a write of CFG_COMMIT with REQ answered. -/
def State.portReq (s : State) (next : Bool) : State := ((s.nextStored next).portCommit next).cfgAnswer 32 0

section
variable {s : State}

/-- With no COMMIT of the cc refused LATE, the request is what the port's write makes. -/
theorem State.portReq_none (hnone : s.commit = none) (hlate : s.cc.late = false) (next : Bool) {r : Bool × State}
    (hr : (s.nextStored next).commitReq ((s.nextStored next).portTarget next) false none = r) : s.portReq next = r.2.cfgAnswer 32 0 := by
  have hcc : (s.nextStored next).cc.late = false := hlate
  rw [State.portReq, State.portCommit_none (s := s.nextStored next) hnone, hcc, hr]
  exact congrArg (fun t : State => t.cfgAnswer 32 0) (ite_self _)

theorem State.portReq_next (hnone : s.commit = none) (hlate : s.cc.late = false) :
    s.portReq true = ((s.nextStored true).requested none false none).cfgAnswer 32 0 :=
  State.portReq_none hnone hlate true (State.commitReq_accepted (s := s.nextStored true) (target := none) hnone fun _ ht => nomatch ht)

theorem State.portReq_tick (hnone : s.commit = none) (hlate : s.cc.late = false) {target : Nat}
    (htarget : target = (s.rg64 0x1008).toNat % tickMod) (hahead : future target s.curTick = true) :
    s.portReq false = ((s.nextStored false).requested (some target) false none).cfgAnswer 32 0 := by
  refine State.portReq_none hnone hlate false (r := (true, _)) ?_
  rw [s.portTarget_nextStored, ← htarget]
  refine State.commitReq_accepted (s := s.nextStored false) hnone fun t ht => ?_
  rw [← Option.some.inj ht, s.curTick_nextStored, hahead]

theorem State.portReq_passed (hnone : s.commit = none) (hlate : s.cc.late = false) {target : Nat}
    (htarget : target = (s.rg64 0x1008).toNat % tickMod) (hpast : future target s.curTick = false) :
    s.portReq false = ((s.nextStored false).refusedLate false).cfgAnswer 32 0 := by
  refine State.portReq_none hnone hlate false (r := (false, _)) ?_
  rw [s.portTarget_nextStored, ← htarget]
  exact State.commitReq_late (s := s.nextStored false) hnone (by rw [s.curTick_nextStored, hpast])

/-- A port request for the next Solstice after a COMMIT of its cc that was refused LATE: that one counts as refused under R38 (R214). -/
theorem State.portReq_afterLate (hnone : s.commit = none) (hlate : s.cc.late = true) :
    s.portReq true = (((s.nextStored true).requested none false none).setBit 0x1010 4).cfgAnswer 32 0 := by
  have hcc : (s.nextStored true).cc.late = true := hlate
  have htarget : (s.nextStored true).portTarget true = none := rfl
  rw [State.portReq, State.portCommit_none (s := s.nextStored true) hnone, hcc, htarget,
    State.commitReq_accepted (s := s.nextStored true) (target := none) hnone (fun _ ht => nomatch ht), if_pos rfl, State.when_true]

theorem State.commitCancel_pending {r : CommitReq} (hr : s.commit = some r) :
    s.commitCancel = { s.commitState 6 r.viaSeq with commit := none } := by
  unfold State.commitCancel
  simp only [hr]

theorem State.commitCancel_none (hnone : s.commit = none) : s.commitCancel = s := by
  unfold State.commitCancel
  simp only [hnone]

theorem State.commitRevert_pending (hsome : s.commit ≠ none) : s.commitRevert = s := if_pos (Option.isSome_iff_ne_none.2 hsome)

theorem State.commitRevert_none (hnone : s.commit = none) : s.commitRevert = s.reverting.activeToShadow := if_neg (by simp [hnone])

end

/-- Settles O21: a request is accepted, refused or takes the place of another, and COMMIT makes one. -/
theorem commitRequests : Obligations.CommitRequests := by
  unfold Obligations.CommitRequests
  refine ⟨fun s hready hlate => ?port, fun s hready hlate hnone => ?late, fun s w h hpc hmid hlow => ?seq⟩
  case seq =>
    intro r
    refine ⟨fun h39 hpd hra => ?_, fun h39 hrd hra => ?_⟩
    · have he := execCommit_eq h hpc (by simp [h39, hpd]) hra hmid hlow (r := r) rfl
      rw [h39] at he
      exact he
    · have he := execCommit_eq h hpc (by simp [h39, pdBad, hrd]) hra hmid hlow (r := r) rfl
      rw [h39] at he
      exact he
  case late =>
    refine ⟨_, (execCfgCommitReq_eq hready true).trans (congrArg _ (State.portReq_afterLate hnone hlate)), rfl, ?_, ?_⟩
    · rw [State.rf_cfgAnswer, State.rf_setBit_apart _ _ (by decide) (by decide) (by decide), State.rf_requested]
    · rw [State.rg_cfgAnswer, State.bit_setBit_same _ _ (by decide)]
  case port =>
    intro target
    have htarget : target = (s.rg64 0x1008).toNat % tickMod := rfl
    clear_value target
    refine ⟨fun hnone => ⟨_, (execCfgCommitReq_eq hready true).trans (congrArg _ (State.portReq_next hnone hlate)), ?_⟩,
      fun hnone hahead => ⟨_, (execCfgCommitReq_eq hready false).trans (congrArg _ (State.portReq_tick hnone hlate htarget hahead)), ?_⟩,
      fun hnone hpast => ⟨_, (execCfgCommitReq_eq hready false).trans (congrArg _ (State.portReq_passed hnone hlate htarget hpast)), ?_⟩,
      fun next r hr hbusy => ⟨_, (execCfgCommitReq_eq hready next).trans (congrArg (fun t : State => Host.Outcome.next (t.cfgAnswer 32 0))
        (State.portCommit_busy (s := s.nextStored next) hr hbusy)), ?_⟩,
      fun r hr hseq hat => ⟨_, (execCfgCommitReq_eq hready true).trans (congrArg (fun t : State => Host.Outcome.next (t.cfgAnswer 32 0))
        (State.portCommit_overSeq (s := s.nextStored true) hr hseq hat)), ?_⟩,
      fun hsome => ?cancel, fun hnone => ?_, fun hsome => ?_, fun hnone => ?revert⟩
    · simp [State.rf_requested, State.rf_requested_next]
    · simp [State.rf_requested]
    · simp [State.rf_refusedLate, hnone]
    · simp [State.bit_setBit_same]
    · cases r.flag <;> simp [State.bit_setBit_same]
    case cancel =>
      obtain ⟨r, hr⟩ := Option.ne_none_iff_exists'.1 hsome
      refine ⟨_, portCmd_eq hready (State.commitCancel_pending (s := s.accessed) hr), rfl, ?_, rfl, rfl⟩
      rw [State.rf_cfgAnswer]
      exact State.rf_commitState _ 6 _
    · exact portCmd_eq hready (State.commitCancel_none (s := s.accessed) hnone)
    · exact portCmd_eq hready (State.commitRevert_pending (s := s.accessed) hsome)
    case revert =>
      obtain ⟨shadow, hshadow⟩ := State.activeToShadow_shadow s.accessed.reverting
      refine ⟨_, portCmd_eq hready (State.commitRevert_none (s := s.accessed) hnone), ?_, ?_, ?_,
        fun off => s.accessed.reverting.sh_activeToShadow off⟩ <;> rw [hshadow]
      · rfl
      · exact hnone
      · rfl

end Sys2Proof.Machine
end

section
/-! Reset, the fuse read and the end of the clear sweep (chapter 13, R16, R513, R600). -/
namespace Sys2Proof.Machine

/-! ## Maps -/

/-- A map of which the kept keys stay. -/
theorem spFind_filter {α : Type} (keep : Nat → Bool) (m : Sp α) (i : Nat) :
    spFind (m.filter fun e => keep e.1) i = if keep i then spFind m i else none := by
  induction m with
  | nil => simp [spFind]
  | cons e m ih =>
    rw [List.filter_cons]
    by_cases hi : e.1 = i
    · subst hi
      cases hk : keep e.1 with
      | false => simpa [hk] using ih
      | true => simp [spFind]
    · cases hk : keep e.1 with
      | false => simp only [Bool.false_eq_true, if_false, ih, spFind, if_neg hi]
      | true => simp only [if_true, ih, spFind, if_neg hi]

/-! ## The modules after the fuse read -/

/-- What the fuse words of module m say of it. -/
def Env.fuseMod (e : Env) (m : Nat) : Mod :=
  let tx := spGet 0 e.fuseLanes (1 + 2 * m)
  let rx := spGet 0 e.fuseLanes (2 + 2 * m)
  { fuseTx := fuseWordLanes tx, fuseRx := fuseWordLanes rx,
    spTx := if tx = 0 then [] else fuseMap e.member tx, spRx := if rx = 0 then [] else fuseMap e.member rx }

theorem each_fuseMod (xs : List Nat) (s : State) : ∃ r, s.each xs (fun t m => t.setMod m (t.env.fuseMod m)) = { s with mods := r } ∧
    ∀ k, spGet {} r k = if k ∈ xs then s.env.fuseMod k else s.mod k := by
  induction xs generalizing s with
  | nil => exact ⟨s.mods, rfl, fun k => rfl⟩
  | cons m xs ih =>
    obtain ⟨r, hr, hget⟩ := ih (s.setMod m (s.env.fuseMod m))
    refine ⟨r, hr, fun k => (hget k).trans ?_⟩
    have henv : (s.setMod m (s.env.fuseMod m)).env = s.env := rfl
    by_cases hk : m = k
    · subst hk
      simp [henv]
    · simp only [henv, State.mod_setMod_other _ _ hk, List.mem_cons, Ne.symm hk, false_or]

/-- The end of the fuse read makes each module anew from its fuse words, and changes nothing else. -/
theorem State.fuseModules_mods (s : State) : ∃ r, s.fuseModules = { s with mods := r } ∧
    ∀ k, spGet {} r k = if k < modules s.member then s.env.fuseMod k else s.mod k := by
  obtain ⟨r, hr, hget⟩ := each_fuseMod s.allMods s
  refine ⟨r, hr, fun k => (hget k).trans ?_⟩
  simp only [State.allMods, List.mem_range]

theorem State.mod_fuseModules (s : State) (k : Nat) : s.fuseModules.mod k = if k < modules s.member then s.env.fuseMod k else s.mod k := by
  obtain ⟨r, hr, hget⟩ := s.fuseModules_mods
  rw [hr, ← hget k]
  rfl

/-! ## The resets -/

/-- With no access of the wrapper waiting, none is done. -/
theorem State.wrapWaiting_none {s : State} (h : s.bist.wait = none) : s.wrapWaiting = s := by
  unfold State.wrapWaiting
  rw [h]

theorem execColdReset_eq {s : State} (h : s.bist.wait = none) (autoTrain openMode : Bool) :
    execColdReset autoTrain openMode s = .next (s.coldReset autoTrain openMode) :=
  congrArg Host.Outcome.next (State.wrapWaiting_none (s := s.coldReset autoTrain openMode) h)

/-- The block that a warm reset with the fuse words read leaves, before they make its modules. -/
def State.warmBase (s : State) : State :=
  { s.outside with env := { s.env with inReset := false, cold := false, sweepDone := false },
                   regs := s.regs.filter fun e => warmKeeps e.1, bist := s.bistReset,
                   hm := { s.hm with stepReq := none },
                   ecc := { ways := s.ecc.ways, spStage := s.ecc.spStage, spRx := s.ecc.spRx, retire := s.ecc.retire, pend := s.ecc.pend },
                   trn := { goWait := s.strapTrain } }

theorem State.warmReset_eq {s : State} (h : s.fuseAddr = none) : s.warmReset = s.warmBase.fuseModules :=
  if_pos (by rw [Option.isNone_iff_eq_none]; exact h)

theorem execWarmReset_eq {s : State} (hwait : s.bist.wait = none) (hfuse : s.fuseAddr = none) :
    execWarmReset s = .next s.warmBase.fuseModules := by
  obtain ⟨r, hr, -⟩ := s.warmBase.fuseModules_mods
  rw [execWarmReset, State.warmReset_eq hfuse, hr]
  exact congrArg Host.Outcome.next (State.wrapWaiting_none hwait)

/-- A warm reset keeps the registers of the health block's log and gives the others their reset value. -/
theorem State.rg_warmBase (s : State) (off : Nat) : s.warmBase.rg off = if warmKeeps off then s.rg off else regReset s.member s.strapOpen off := by
  have hfind : spFind s.warmBase.regs off = if warmKeeps off then spFind s.regs off else none := spFind_filter _ _ _
  have hreset : s.warmBase.rg off = (spFind s.warmBase.regs off).getD (regReset s.member s.strapOpen off) := rfl
  rw [hreset, hfind]
  split
  · rfl
  · rfl

theorem State.warmBase_modsDown (s : State) (m : Nat) : (s.warmBase.fuseModules.mod m).st = .down := by
  rw [State.mod_fuseModules]
  split
  · rfl
  · rfl

/-- Settles O8: each field of the block after a reset is read off the reset's definition. -/
theorem resetResults : Obligations.ResetResults := by
  unfold Obligations.ResetResults
  refine ⟨fun s autoTrain openMode hwait => ⟨_, execColdReset_eq hwait autoTrain openMode, ?_⟩,
    fun s hwait hfuse => ⟨_, execWarmReset_eq hwait hfuse, ?_⟩, fun s cold => ⟨_, rfl, ?_⟩⟩
  · exact ⟨rfl, rfl, rfl, rfl, fun _ => rfl, rfl, fun _ => rfl, fun n => ite_self _, fun _ _ => rfl, fun _ => rfl, fun _ => rfl, rfl, rfl, rfl,
      rfl, fun _ => rfl, fun _ => rfl, rfl, rfl, rfl, rfl, rfl⟩
  · have hdown := s.warmBase_modsDown
    have hrg := s.rg_warmBase
    obtain ⟨r, hr, -⟩ := s.warmBase.fuseModules_mods
    rw [hr] at hdown ⊢
    exact ⟨rfl, rfl, fun _ => rfl, fun n => ite_self _, fun _ _ => rfl, fun _ => rfl, fun _ => rfl, rfl, rfl, rfl, rfl, rfl, fun _ => hrg, hdown,
      fun _ => rfl, rfl, rfl, rfl, rfl, rfl⟩
  · exact ⟨rfl, rfl, rfl, rfl, rfl, rfl, rfl, rfl, rfl⟩

/-! ## The fuse read -/

/-- No training waits for the end of the reset. -/
theorem State.trainIfReady_idle {s : State} (h : s.trn.goWait = false) : s.trainIfReady = s := by
  rw [State.trainIfReady, h, Bool.and_false, State.when_false]

/-- What EN at 0 leaves of a sequencer and a tick that were on (log entry 56: it drops and counts a waiting program). -/
def State.tickOff (s : State) : State :=
  let t := (s.setRf 0x2000 2 2 0).when s.seq.defer.isSome (·.skip)
  { t with seq := { t.seq with ovrAt := none, defer := none },
           tick := { t.tick with lock := 0, nextSol := none, cand := none, markerDue := false, mute := none } }

theorem State.tickEnWrite_false_on {s : State} (h : s.tickOn = true) : s.tickEnWrite false = s.tickOff := by
  unfold State.tickEnWrite
  rw [if_neg (by simp [h])]
  rfl

theorem State.tickEnWrite_false_off {s : State} (h : s.tickOn = false) : s.tickEnWrite false = s := by
  unfold State.tickEnWrite
  rw [if_pos (by simp [h])]

theorem State.rg_when_skip (s : State) (c : Bool) {off : Nat} (h : 0x2014 ≠ off) : (s.when c (·.skip)).rg off = s.rg off := by
  cases c with
  | false => rfl
  | true => exact State.rg_count_other _ _ _ _ h

theorem State.tickOn_tickOff (s : State) : s.tickOff.tickOn = false := by
  have hrg : s.tickOff.rg 0x2000 = setFld (s.rg 0x2000) 2 2 0 :=
    ((s.setRf 0x2000 2 2 0).rg_when_skip s.seq.defer.isSome (by decide)).trans (State.rg_setRf_same ..)
  rw [State.tickOn, hrg, bit_setFld _ _ _ (by decide) (by decide)]
  rfl

/-- EN written as 0 leaves the tick off. -/
theorem State.tickOn_tickEnWrite_false (s : State) : (s.tickEnWrite false).tickOn = false := by
  cases hon : s.tickOn with
  | false => rw [State.tickEnWrite_false_off hon, hon]
  | true => rw [State.tickEnWrite_false_on hon, State.tickOn_tickOff]

/-- EN written as 0 leaves the surroundings and the outputs. -/
theorem State.tickEnWrite_false_keeps (s : State) : (s.tickEnWrite false).env = s.env ∧ (s.tickEnWrite false).out = s.out := by
  cases hon : s.tickOn with
  | false => rw [State.tickEnWrite_false_off hon]; exact ⟨rfl, rfl⟩
  | true =>
    rw [State.tickEnWrite_false_on hon, State.tickOff]
    cases s.seq.defer.isSome with
    | false => exact ⟨rfl, rfl⟩
    | true => exact ⟨rfl, rfl⟩

/-- The fuse words with word a taken. -/
def Env.fuseTaken (e : Env) (a : Nat) (word : W32) : Env :=
  if a = 0 then { e with fuseId := word } else { e with fuseLanes := spPut 0 e.fuseLanes a word }

def State.fuseWord (s : State) (a : Nat) (word : W32) : State := s.updEnv fun e => e.fuseTaken a word

/-- The block with word a taken, and the tick off where the identity permits no program. -/
def State.fuseTaken (s : State) (a : Nat) (word : W32) : State :=
  (s.fuseWord a word).when (a == 0 && !(s.fuseWord a word).fuseOk) (·.tickEnWrite false)

theorem State.fuseTaken_keeps (s : State) (a : Nat) (word : W32) :
    (s.fuseTaken a word).env = s.env.fuseTaken a word ∧ (s.fuseTaken a word).out = s.out := by
  unfold State.fuseTaken
  cases a == 0 && !(s.fuseWord a word).fuseOk with
  | false => exact ⟨rfl, rfl⟩
  | true => exact State.tickEnWrite_false_keeps _

theorem Env.fuseTaken_zero (e : Env) (word : W32) : e.fuseTaken 0 word = { e with fuseId := word } := rfl

theorem Env.fuseTaken_lanes (e : Env) {a : Nat} (h : a ≠ 0) (word : W32) :
    e.fuseTaken a word = { e with fuseLanes := spPut 0 e.fuseLanes a word } := if_neg h

theorem Env.fuseTaken_member (e : Env) (a : Nat) (word : W32) : (e.fuseTaken a word).member = e.member := by
  unfold Env.fuseTaken
  split
  · rfl
  · rfl

theorem State.fuseTaken_later {a : Nat} (s : State) (h : a ≠ 0) (word : W32) : s.fuseTaken a word = s.fuseWord a word := by
  rw [State.fuseTaken, beq_eq_false_iff_ne.2 h, Bool.false_and, State.when_false]

theorem State.tickOn_fuseTaken (s : State) (word : W32) (h : (s.updEnv fun e => { e with fuseId := word }).fuseOk = false) :
    (s.fuseTaken 0 word).tickOn = false := by
  have hok : (s.fuseWord 0 word).fuseOk = false := h
  rw [State.fuseTaken, hok, Bool.not_false, Bool.and_true, beq_self_eq_true, State.when_true, State.tickOn_tickEnWrite_false]

theorem State.fuseTaken_modules (s : State) (a : Nat) (word : W32) : modules (s.fuseTaken a word).member = modules s.member := by
  rw [State.member, (s.fuseTaken_keeps a word).1, Env.fuseTaken_member]

/-- A word before the last one has the next one asked for. -/
theorem execFuseAck_next {s : State} {a : Nat} (hlive : s.inReset = false) (ha : s.fuseAddr = some a) (hlt : a < 2 * modules s.member) (w : W32) :
    execFuseAck w s = .next (((s.fuseTaken a w).updEnv fun e => { e with fuseAddr := some (a + 1) }).emit (.fuseReq (a + 1))) := by
  rw [execFuseAck, live_eq hlive]
  simp only [ha]
  rw [← s.fuseTaken_modules a w] at hlt
  exact congrArg Host.Outcome.next (if_pos hlt)

/-- The last word ends the read, and makes the modules. -/
theorem execFuseAck_last {s : State} {a : Nat} (hlive : s.inReset = false) (ha : s.fuseAddr = some a) (hlast : a = 2 * modules s.member)
    (hzero : a ≠ 0) (hgo : s.trn.goWait = false) (w : W32) :
    execFuseAck w s = .next ((s.fuseWord a w).updEnv fun e => { e with fuseAddr := none }).fuseModules := by
  rw [execFuseAck, live_eq hlive]
  simp only [ha]
  have hge : ¬a < 2 * modules (s.fuseTaken a w).member := by
    rw [s.fuseTaken_modules]
    omega
  refine congrArg Host.Outcome.next ((if_neg hge).trans ?_)
  have hword : s.fuseTaken a w = s.fuseWord a w := s.fuseTaken_later hzero w
  obtain ⟨r, hr, -⟩ := ((s.fuseWord a w).updEnv fun e => { e with fuseAddr := none }).fuseModules_mods
  refine (State.trainIfReady_idle ?_).trans (congrArg (fun x : State => (x.updEnv fun e => { e with fuseAddr := none }).fuseModules) hword)
  refine (congrArg (fun x : State => (x.updEnv fun e => { e with fuseAddr := none }).fuseModules.trn.goWait) hword).trans ?_
  rw [hr]
  exact hgo

theorem execResetClearSweepDone_eq {s : State} (hlive : s.inReset = false) (hsweep : s.sweepDone = false) (hgo : s.trn.goWait = false) :
    execResetClearSweepDone s = .next (s.updEnv fun e => { e with sweepDone := true }) := by
  rw [execResetClearSweepDone, live_eq hlive]
  exact congrArg Host.Outcome.next ((if_neg (Bool.eq_false_iff.1 hsweep)).trans (State.trainIfReady_idle hgo))

theorem modules_pos (m : Member) : 0 < modules m := by
  cases m <;> decide

/-- Settles O9: each word by itself, the last one with the modules that it makes, and the sweep. -/
theorem fuseRead : Obligations.FuseRead := by
  unfold Obligations.FuseRead
  intro s w a hlive ha
  refine ⟨fun hlt => ⟨_, execFuseAck_next hlive ha hlt w, rfl, fun hzero => ?_, fun hzero hbad => ?_, fun hzero => ?_, ?_⟩, fun hlast hgo => ?_,
    execResetClearSweepDone_eq hlive⟩
  · subst hzero
    exact (congrArg Env.fuseId (s.fuseTaken_keeps 0 w).1 :)
  · subst hzero
    exact s.tickOn_fuseTaken w hbad
  · have henv := (s.fuseTaken_keeps a w).1.trans (s.env.fuseTaken_lanes hzero w)
    exact ⟨(congrArg (fun e : Env => spGet 0 e.fuseLanes a) henv).trans (spGet_spPut_same ..), (congrArg Env.fuseId henv :)⟩
  · exact (congrArg (· ++ [Out.fuseReq (a + 1)]) (s.fuseTaken_keeps a w).2 :)
  · have hzero : a ≠ 0 := by
      have := modules_pos s.member
      omega
    refine ⟨_, execFuseAck_last hlive ha hlast hzero hgo w, ?_⟩
    let t := (s.fuseWord a w).updEnv fun e => { e with fuseAddr := none }
    have htaken : spGet 0 (s.env.fuseTaken a w).fuseLanes a = w := by
      rw [s.env.fuseTaken_lanes hzero]
      exact spGet_spPut_same ..
    have hmember : modules t.member = modules s.member := congrArg modules (s.env.fuseTaken_member a w)
    have hmod : ∀ k, t.fuseModules.mod k = if k < modules t.member then t.env.fuseMod k else t.mod k := t.mod_fuseModules
    obtain ⟨r, hr, -⟩ := t.fuseModules_mods
    have henv : t.fuseModules.env = t.env := (congrArg State.env hr :)
    refine ⟨congrArg Env.fuseAddr henv, (congrArg (fun e : Env => spGet 0 e.fuseLanes a) henv).trans htaken, fun m hm => ?_⟩
    have hmade := (hmod m).trans (if_pos (hmember ▸ hm))
    have hlanes : t.fuseModules.fuseLanes = t.env.fuseLanes := congrArg Env.fuseLanes henv
    exact ⟨(congrArg Mod.fuseTx hmade).trans (congrArg (fun l => fuseWordLanes (spGet 0 l (1 + 2 * m))) hlanes.symm),
      (congrArg Mod.fuseRx hmade).trans (congrArg (fun l => fuseWordLanes (spGet 0 l (2 + 2 * m))) hlanes.symm)⟩

end Sys2Proof.Machine
end

section
/-! The training of the modules (chapter 13, R514 to R531). -/
namespace Sys2Proof.Machine

section
variable {s : State} {x : SbMsg} {code len k m : Nat}

/-- A sideband message that the block hears acts on the module that it names. -/
theorem State.Hears.rxSb (h : s.Hears x code len k) (act : Nat → State → State) : s.rxSb x code len act = act k s := by
  have hc : (s.sbLive && sbOk code len x && decide (sbModule x < modules s.member)) = true := by
    rw [h.swept, h.sound, h.about, decide_eq_true h.here]
    rfl
  rw [State.rxSb, if_pos hc, h.about]

theorem State.Hears.liveWf (h : s.Hears x code len k) (hm : m < 16) (act : Nat → State → State) :
    liveWf (decide (m < 16)) s (·.rxSb x code len act) = .next (act k s) := by
  rw [liveWf_eq (decide_eq_true hm) h.live, h.rxSb]

end

/-! ## The start -/

/-- PRESENT goes out for each trainee. -/
theorem each_sendSb (code : Nat) (ws : List W64) (ms : List Nat) (s : State) : s.each ms (fun s m => s.sendSb m code ws) =
    { s with out := s.out ++ ms.map fun m => .sideband m (sbMake code m ws) } := by
  induction ms generalizing s with
  | nil => simp [State.each]
  | cons m ms ih =>
    refine (ih (s.sendSb m code ws)).trans ?_
    simp [State.sendSb, State.emit]

theorem State.trainGo_ready {s : State} (hrun : s.trainRuns = false) (hover : s.resetOver = true) :
    s.trainGo = (s.updTrn fun t => { t with goWait := true }).beginTraining := by
  rw [State.trainGo, if_neg (Bool.eq_false_iff.1 hrun), State.trainIfReady]
  have hgo : ((s.updTrn fun t => { t with goWait := true }).resetOver && (s.updTrn fun t => { t with goWait := true }).trn.goWait) = true :=
    (Bool.and_true _).trans hover
  rw [hgo, State.when_true]

theorem State.trainGo_waits {s : State} (hrun : s.trainRuns = false) (hover : s.resetOver = false) :
    s.trainGo = s.updTrn fun t => { t with goWait := true } := by
  rw [State.trainGo, if_neg (Bool.eq_false_iff.1 hrun), State.trainIfReady]
  have hgo : ((s.updTrn fun t => { t with goWait := true }).resetOver && (s.updTrn fun t => { t with goWait := true }).trn.goWait) = false :=
    (Bool.and_true _).trans hover
  rw [hgo, State.when_false]

theorem execTrnCtrlGo_ready {s : State} (hrun : s.trainRuns = false) (hover : s.resetOver = true) (h : s.cfgReady = true) :
    execTrnCtrlGo s = .next (((s.accessed.updTrn fun t => { t with goWait := true }).beginTraining).cfgAnswer 32 0) :=
  portCmd_eq h (State.trainGo_ready (s := s.accessed) hrun hover)

theorem execTrnCtrlGo_waits {s : State} (hrun : s.trainRuns = false) (hover : s.resetOver = false) (h : s.cfgReady = true) :
    execTrnCtrlGo s = .next (s.ported.updTrn fun t => { t with goWait := true }) :=
  portCmd_eq h (State.trainGo_waits (s := s.accessed) hrun hover)

section
variable {s : State} {x : SbMsg} {m : Nat}

theorem execPresent_first (h : s.Hears x 0x10 0 m) (hm : m < 16) (hopen : s.trn.open_ = false) (hst : s.trn.st = 1) :
    execPresent m x s = .next ((s.sendSb m 0x10 []).updTrn fun t => { t with st := 2, via := m, nopeer := false }).sendCaprec := by
  rw [execPresent, h.liveWf hm, if_neg (Bool.eq_false_iff.1 hopen), if_pos hst]

theorem execPresent_again (h : s.Hears x 0x10 0 m) (hm : m < 16) (hopen : s.trn.open_ = false) (hst : s.trn.st = 2) (hpeer : s.trn.peer = []) :
    execPresent m x s = .next ((s.sendSb m 0x10 []).updTrn fun t => { t with via := min t.via m }) := by
  rw [execPresent, h.liveWf hm, if_neg (Bool.eq_false_iff.1 hopen), if_neg (by omega), if_pos (by simp [hst, hpeer])]

theorem execPresentResend_due (hlive : s.inReset = false) (hst : s.trn.st = 1) (hdue : s.trn.nextSend ≤ s.now) :
    execPresentResend s = .next s.sendPresent := by
  rw [execPresentResend, live_eq hlive, show (s.trn.st == 1 && decide (s.trn.nextSend ≤ s.now)) = true by simp [hst, hdue], State.when_true]

theorem execNopeer_due (hlive : s.inReset = false) (hst : s.trn.st = 1) (hdue : s.trn.since + s.dur 2400000 ≤ s.now) :
    execNopeer s = .next (s.updTrn fun t => { t with nopeer := true }) := by
  rw [execNopeer, live_eq hlive, show (s.trn.st == 1 && decide (s.trn.since + s.dur 2400000 ≤ s.now)) = true by simp [hst, hdue],
    State.when_true]

theorem State.sendPresent_eq (s : State) : s.sendPresent = { s with
    out := s.out ++ s.trainees.map (fun m => .sideband m (sbMake 0x10 m [])), trn := { s.trn with nextSend := s.now + s.dur 2400 } } := by
  rw [State.sendPresent, each_sendSb]
  rfl

end

/-- Settles O12: the start, PRESENT in either phase, its repetition, and the absence of a peer. -/
theorem trainingStart : Obligations.TrainingStart := by
  unfold Obligations.TrainingStart
  intro s hlive
  refine ⟨execTrnCtrlGo_ready, execTrnCtrlGo_waits, fun m x hm h hopen hst => ⟨_, execPresent_first h hm hopen hst, ?_⟩,
    fun m x hm h hopen hst hpeer => ⟨_, execPresent_again h hm hopen hst hpeer, rfl, rfl, rfl, rfl⟩,
    fun hst hdue => ⟨_, (execPresentResend_due hlive hst hdue).trans (congrArg Host.Outcome.next s.sendPresent_eq), rfl, rfl, rfl, rfl⟩,
    execNopeer_due hlive⟩
  exact ⟨List.append_assoc .., rfl, rfl, rfl⟩

/-! ## The capability exchange -/

section
variable {s : State} {x : SbMsg} {m : Nat}

/-- CAPACK for a record. -/
def State.ackRecord (s : State) (m : Nat) (x : SbMsg) : State := s.sendSb m 0x12 [bf 64 31 0 (fld (x.words.getD 7 0) 31 0)]

theorem State.phase2Check_unacked (h : s.trn.acked = false) : s.phase2Check = s := by
  rw [State.phase2Check, h, Bool.and_false, Bool.false_and, State.when_false]

theorem State.phase2Check_alone (h : s.trn.peer = []) : s.phase2Check = s := by
  rw [State.phase2Check, h, List.isEmpty_nil, Bool.not_true, Bool.and_false, State.when_false]

theorem State.phase2Check_both (hst : s.trn.st = 2) (hack : s.trn.acked = true) (hpeer : s.trn.peer ≠ []) : s.phase2Check = s.phase2End true := by
  rw [State.phase2Check, hst, hack, List.isEmpty_eq_false_iff.2 hpeer]
  rfl

theorem execCaprec_first (h : s.Hears x 0x11 8 m) (hm : m < 16) (hopen : s.trn.open_ = false) (hst : s.trn.st = 2)
    (hvalid : recordValid x.words = true) (hack : s.trn.acked = false) (hpeer : s.trn.peer = []) :
    execCaprec m x s = .next ((s.ackRecord m x).updTrn fun t => { t with peer := x.words }) := by
  have hheld : ((s.ackRecord m x).updTrn fun t => { t with peer := if t.peer.isEmpty then x.words else t.peer }) =
      (s.ackRecord m x).updTrn fun t => { t with peer := x.words } := by
    unfold State.updTrn
    simp only [State.ackRecord, State.sendSb, State.emit_fields, hpeer, List.isEmpty_nil, if_true]
  rw [execCaprec, h.liveWf hm, if_neg (by simp [hopen, hvalid])]
  dsimp only
  rw [if_pos hst]
  exact congrArg Host.Outcome.next ((congrArg State.phase2Check hheld).trans (State.phase2Check_unacked hack))

theorem execCaprec_refused (h : s.Hears x 0x11 8 m) (hm : m < 16) (hbad : recordValid x.words = false) : execCaprec m x s = .next s := by
  rw [execCaprec, h.liveWf hm, if_pos (by simp [hbad])]

/-- The acknowledgement names the own record's check word. -/
theorem execCapack_own (h : s.Hears x 0x12 1 m) (hm : m < 16) (hopen : s.trn.open_ = false) (hst : s.trn.st = 2)
    (hown : fld (sbWord x 0) 31 0 = fld (s.capRecord.getD 7 0) 31 0) :
    execCapack m x s = .next (s.updTrn fun t => { t with acked := true }).phase2Check := by
  rw [execCapack, h.liveWf hm, if_pos]
  simp only [hst, hopen, hown, decide_true, Bool.not_false, Bool.and_true, beq_self_eq_true]

end

/-- Settles O13: a valid and an invalid record, and the acknowledgement with and without the peer's record. -/
theorem capabilityExchange : Obligations.CapabilityExchange := by
  unfold Obligations.CapabilityExchange
  intro s m x hm hopen hst
  refine ⟨fun h hvalid hack hpeer => ⟨_, execCaprec_first h hm hopen hst hvalid hack hpeer, rfl, rfl, rfl, rfl⟩,
    fun h hbad => execCaprec_refused h hm hbad, fun h hown hpeer => ?_, fun h hown hpeer => ?_⟩
  · exact (execCapack_own h hm hopen hst hown).trans (congrArg Host.Outcome.next (State.phase2Check_alone hpeer))
  · exact (execCapack_own h hm hopen hst hown).trans (congrArg Host.Outcome.next (State.phase2Check_both hst rfl hpeer))

/-! ## Messages about a module -/

section
variable {s : State} {x : SbMsg} {m : Nat}

/-- Both ends' flags of a message about a module: not both set. -/
theorem not_both {got sent : Bool} (h : got = false ∨ sent = false) : (got && sent) = false := by
  cases h with
  | inl h => rw [h, Bool.false_and]
  | inr h => rw [h, Bool.and_false]

theorem execLanemap_new (h : s.Hears x 0x13 2 m) (hm : m < 16) (htr : (s.mod m).st = .training)
    (hnew : (s.mod m).laneGot = false ∨ (s.mod m).laneSent = false) :
    execLanemap m x s = .next (s.updMod m fun y =>
      { y with failTx := lanesOf (bf 68 63 0 (sbWord x 0).toNat ||| bf 68 67 64 (fld (sbWord x 1) 3 0)), laneGot := true }) := by
  rw [execLanemap, h.liveWf hm, if_neg (by simp [htr])]
  dsimp only
  rw [not_both hnew, State.when_false]

theorem execPalat_new (h : s.Hears x 0x14 1 m) (hm : m < 16) (htr : (s.mod m).st = .training)
    (hnew : (s.mod m).palGot = false ∨ (s.mod m).palSent = false) :
    execPalat m x s = .next (s.updMod m fun y => { y with peerLat8 := fld (sbWord x 0) 15 0, palGot := true }) := by
  rw [execPalat, h.liveWf hm, if_neg (by simp [htr])]
  dsimp only
  rw [not_both hnew, State.when_false]

/-- The result of the peer for the rate under test. -/
theorem execPhase_result (h : s.Hears x 0x15 1 m) (hm : m < 16) (hcode : fld (sbWord x 0) 3 0 = 5) (hopen : s.trn.open_ = false)
    (hst : s.trn.st = 3) (hrate : fld (sbWord x 0) 7 4 = s.trn.rate)
    (hmine : s.trn.passMine = some true → ∀ k ∈ s.inTraining, (s.mod k).tphase ≤ 5 ∨ 8 ≤ (s.mod k).tphase) :
    execPhase m x s = .next (s.updTrn fun t => { t with passPeer := some (bit (sbWord x 0) 8) }).verdict := by
  have hruns : s.trainRuns = true := by simp [State.trainRuns, hst]
  have hnone : ¬(s.trn.passMine == some true && (s.inTraining.any fun m => decide ((s.mod m).tphase = 6 ∨ (s.mod m).tphase = 7))) = true := by
    rw [Bool.and_eq_true, List.any_eq_true, beq_iff_eq]
    rintro ⟨hpass, k, hk, hphase⟩
    have := hmine hpass k hk
    have := of_decide_eq_true hphase
    omega
  rw [execPhase, h.liveWf hm]
  dsimp only
  rw [if_neg (by simp [hcode]), if_neg (by simp [hcode, hopen, hruns]), if_pos (by simp [hst, hrate]), if_neg hnone]

theorem State.verdict_unknown (h : s.trn.passMine = none) : s.verdict = s := by
  unfold State.verdict
  rw [h]

theorem State.verdict_lower {a : Bool} (hmine : s.trn.passMine = some a) (hpeer : s.trn.passPeer = some false) (hst : s.trn.st = 3)
    (hrate : s.trn.rate ≠ 0) : s.verdict = (s.updTrn fun t => { t with steps := t.steps + 1 }).toLock (s.trn.rate - 1) := by
  unfold State.verdict
  rw [hmine, hpeer]
  dsimp only
  rw [if_neg (by simp [hst]), if_neg (by simp), if_neg hrate]

end

/-- Settles O14: LANEMAP, PALAT, and the result of a rate before and after the own one. -/
theorem trainingMessages : Obligations.TrainingMessages := by
  unfold Obligations.TrainingMessages
  intro s m x hm
  refine ⟨fun h => execLanemap_new h hm, fun h => execPalat_new h hm, fun h hcode hopen hst hrate hmine => ?_,
    fun h hcode hopen hst hrate hmine hbit hphase hzero => ?_⟩
  · refine (execPhase_result h hm hcode hopen hst hrate fun hsome => ?_).trans (congrArg Host.Outcome.next (State.verdict_unknown hmine))
    rw [hmine] at hsome
    cases hsome
  · refine (execPhase_result h hm hcode hopen hst hrate fun _ => hphase).trans (congrArg Host.Outcome.next ?_)
    rw [hbit]
    exact State.verdict_lower (s := s.updTrn fun t => { t with passPeer := some false }) hmine rfl hst hzero

/-! ## The phases of a module -/

section
variable {s : State} {m : Nat} {r : PhyReport}

theorem execTrainingPhaseComplete_eq (hlive : s.inReset = false) (hm : m < 16) (hhere : m < modules s.member) (hopen : s.trn.open_ = false)
    (htr : (s.mod m).st = .training) : execTrainingPhaseComplete m r s = .next (s.phaseDone m r) := by
  rw [execTrainingPhaseComplete, liveWf_eq (decide_eq_true hm) hlive, if_neg (Nat.not_le.2 hhere), if_neg (Bool.eq_false_iff.1 hopen), htr]
  rfl

theorem State.phaseDone_lock (h : (s.mod m).tphase = 3) : s.phaseDone m r = s.updMod m fun x =>
    { x with tphase := 4, clkP := r.lockP, frmP := r.lockP, clkA := r.lockA && altSet s.member, frmA := r.lockA && altSet s.member,
             altSel := !r.lockP && altSet s.member } := by
  unfold State.phaseDone
  simp only [h]

theorem State.phaseDone_lanes (h : (s.mod m).tphase = 4) : s.phaseDone m r = (s.updMod m fun x =>
    { x with tphase := 5, failRx := lanesOf (bf 68 63 0 r.failData.toNat ||| bf 68 67 64 r.failSpare.toNat), laneSent := true }).sendLanemap m := by
  unfold State.phaseDone
  simp only [h]

/-- The module with the latency of its own receive direction. -/
def State.latencyTaken (s : State) (m : Nat) (r : PhyReport) : State :=
  s.updMod m fun x => { x with tphase := 7, lat8 := r.lat8.toNat, marker8 := r.marker8.toNat, palSent := true }

theorem State.phaseDone_latency (h : (s.mod m).tphase = 6) (hre : (s.mod m).retrain ≠ none) :
    s.phaseDone m r = (s.latencyTaken m r).sendPalat m := by
  have hsome : (s.mod m).retrain.isNone = false := Option.isNone_eq_false_iff.2 (Option.isSome_iff_ne_none.2 hre)
  unfold State.phaseDone
  simp only [h, hsome, Bool.false_and, State.when_false]
  rfl

theorem State.phaseDone_link (h : (s.mod m).tphase = 7) (hgot : (s.mod m).palGot = true) : s.phaseDone m r = s.phaseLink m := by
  unfold State.phaseDone
  simp only [h, hgot, if_true]

/-- A module with the hold of a NAK that its latencies give. -/
def Mod.holding (x : Mod) : Mod := { x with nakHold := nakHoldOf x.lat8 x.peerLat8 }

/-- A module in a retrain that has reached the last phase. -/
def Mod.linked (now period : Nat) (k : Retrain) (x : Mod) : Mod := { x.cutLate now period with retrain := some { k with phase7 := true } }

theorem Mod.nakHold_linked (now period : Nat) (k : Retrain) (x : Mod) : (x.linked now period k).nakHold = x.nakHold := by
  unfold Mod.linked Mod.cutLate
  split
  · rfl
  · rfl

/-- In a retrain the last phase sets the hold of a NAK, and marks the phase as reached. -/
theorem State.phaseLink_retrain {k : Retrain} (h : (s.mod m).retrain = some k) :
    s.phaseLink m = (s.updMod m Mod.holding).updMod m (Mod.linked s.now s.period k) := by
  have hre : ((s.updMod m Mod.holding).mod m).retrain = some k := by
    rw [State.mod_updMod_same]
    exact h
  unfold State.phaseLink
  change (match ((s.updMod m Mod.holding).mod m).retrain with | some _ => _ | none => _) = _
  rw [hre]
  rfl

theorem execUcieLinkDown_carrying (hlive : s.inReset = false) (hm : m < 16) (hopen : s.trn.open_ = true) (hc : (s.mod m).carries = true) :
    execUcieLinkDown m s = .next (s.modDown m) := by
  rw [execUcieLinkDown, liveWf_eq (decide_eq_true hm) hlive, State.openMode, hopen, hc]
  rfl

theorem execVendorCapabilityMessage_taken (hlive : s.inReset = false) (hopen : s.trn.open_ = true) (hst : s.trn.st = 2) (idx : BitVec 3) (w : W64) :
    execVendorCapabilityMessage idx Config.vendorId w s =
      .next (s.updTrn fun t => { t with openWords := t.openWords.filter (·.1 != idx.toNat) ++ [(idx.toNat, w)] }) := by
  rw [execVendorCapabilityMessage, live_eq hlive, if_pos (by simp [hopen, hst])]

/-- Only the capability record is due while no module trains. -/
theorem execTrainingMessageResend_record (hlive : s.inReset = false) (hopen : s.trn.open_ = false) (hdue : s.trn.nextSend ≤ s.now)
    (hst : s.trn.st = 2) (hack : s.trn.acked = false) (hmine : s.trn.passMine = none) (hnone : ∀ k < modules s.member, (s.mod k).st ≠ .training) :
    execTrainingMessageResend s = .next s.sendCaprec := by
  have hfilter : ((s.sendCaprec.allMods).filter fun m => (s.sendCaprec.mod m).st == .training && decide ((s.sendCaprec.mod m).sbNext ≤ s.sendCaprec.now)) = [] :=
    List.filter_eq_nil_iff.2 fun k hk hc => hnone k (List.mem_range.1 hk) (beq_iff_eq.1 (Bool.and_eq_true_iff.1 hc).1)
  have hfirst : (decide (s.trn.nextSend ≤ s.now) && s.trn.st == 2 && !s.trn.acked) = true := by simp [hdue, hst, hack]
  rw [execTrainingMessageResend, live_eq hlive, if_neg (Bool.eq_false_iff.1 hopen)]
  dsimp only
  rw [hfirst, State.when_true]
  have hpass : s.sendCaprec.trn.passMine = none := hmine
  simp only [hfilter, State.each, List.foldl_nil, hpass]

end

/-- Settles O15: phases 3, 4, 6 and 7 of a module, the end of an Open-mode link, the vendor's words, and the repetition. -/
theorem trainingPhases : Obligations.TrainingPhases := by
  unfold Obligations.TrainingPhases
  intro s m r hlive hm hhere
  refine ⟨fun hopen htr => ?_, execUcieLinkDown_carrying hlive hm,
    fun hopen hst idx w => ⟨_, execVendorCapabilityMessage_taken hlive hopen hst idx w, rfl, rfl, rfl⟩,
    fun hopen hdue hst hack hmine hnone =>
      ⟨_, execTrainingMessageResend_record hlive hopen hdue hst hack hmine hnone, rfl, rfl, rfl, rfl⟩⟩
  have hexec := execTrainingPhaseComplete_eq (r := r) hlive hm hhere hopen htr
  refine ⟨fun h => hexec.trans (congrArg Host.Outcome.next (State.phaseDone_lock h)),
    fun h => hexec.trans (congrArg Host.Outcome.next (State.phaseDone_lanes h)),
    fun h hre => hexec.trans (congrArg Host.Outcome.next (State.phaseDone_latency h hre)), fun k h hgot hk => ?_⟩
  refine ⟨_, hexec.trans (congrArg Host.Outcome.next ((State.phaseDone_link h hgot).trans (State.phaseLink_retrain hk))), ?_, ?_, fun j hj => ?_, rfl⟩
  · rw [State.mod_updMod_same, Mod.nakHold_linked, State.mod_updMod_same]
    rfl
  · rw [State.mod_updMod_same]
    rfl
  · rw [State.mod_updMod_other _ _ (Ne.symm hj), State.mod_updMod_other _ _ (Ne.symm hj)]

end Sys2Proof.Machine
end

section
/-! The Solstice and its slot lookup (R21, R22, R32 to R36). -/
namespace Sys2Proof.Machine

/-! ## The turn -/

section
variable {s : State}

/-- The record of the late flits of a tick. -/
def State.slipLog (s : State) : State :=
  let t := s.setRg64 0x20048 (BitVec.ofNat 64 s.tick.num)
  let t := (t.setRg 0x20050 (bf 32 31 16 (min s.slipN 65535) ||| bf 32 15 0 (min s.slipMax 65535))).count32 0x20054 s.slipN
  (t.setBit 0x20058 0).when (bit (s.rg 0x2005C) 0) (·.irq 2)

theorem State.slipFlush_eq (s : State) :
    s.slipFlush = if s.slipN = 0 then { s with slipMax := 0 } else { s.slipLog with slipN := 0, slipMax := 0 } := rfl

theorem State.rg_when_irq (s : State) (c : Bool) (n : Nat) {off : Nat} (h : 0x30 ≠ off) : (s.when c (·.irq n)).rg off = s.rg off := by
  cases c with
  | false => rfl
  | true => exact State.rg_irq_other _ _ h

theorem State.slipLog_keeps (s : State) : s.slipLog.tick = s.tick ∧ s.slipLog.rg 0x2004 = s.rg 0x2004 := by
  refine ⟨?_, ?_⟩
  · unfold State.slipLog
    cases bit (s.rg 0x2005C) 0 with
    | false => simp [State.count32]
    | true => simp [State.count32]
  · rw [State.slipLog, State.rg_when_irq _ _ _ (by decide), State.rg_setBit_other _ _ (by decide), State.count32,
      State.rg_count_other _ _ _ _ (by decide), State.rg_setRg_other _ _ (by decide), State.rg_setRg64_other _ _ (by decide) (by decide)]

theorem State.slipFlush_keeps (s : State) : s.slipFlush.tick = s.tick ∧ s.slipFlush.rg 0x2004 = s.rg 0x2004 := by
  rw [State.slipFlush_eq]
  split
  · exact ⟨rfl, rfl⟩
  · exact s.slipLog_keeps

theorem State.turn_sounds (h : s.sounds = true) (t : Nat) : s.turn t = (s.slipFlush.turnPhase.solsticeActs t).nextPhase := by
  unfold State.turn
  simp only [h, State.when_true]

theorem State.turn_mute (h : s.sounds = false) (t : Nat) : s.turn t = s.turnPhase.nextPhase := by
  unfold State.turn
  simp only [h, State.when_false]

theorem State.turnPhase_tick (s : State) : s.turnPhase.tick.num = (if s.tick.first then 0 else (s.tick.num + 1) % 2 ^ 48) ∧
    s.turnPhase.tick.phase8 = s.tick.phase8 + 8 * s.period :=
  ⟨rfl, rfl⟩

theorem execSolstice_due {t : Nat} (hlive : s.inReset = false) (hstop : s.seq.stopReq = none) (hon : s.tickOn = true) (hpulse : s.byPulse = false)
    (hnext : s.tick.nextSol = some t) (hdue : t ≤ s.now) : execSolstice s = .next (s.turn t) := by
  rw [execSolstice, live_eq hlive]
  dsimp only
  rw [State.settle_none hstop]
  simp only [hnext, hon, hpulse, Bool.not_false, Bool.and_true, decide_eq_true hdue, State.when_true]

/-! ## The slot lookup -/

/-- A counter reads its sum, or its largest value. -/
theorem State.rf_count_same (s : State) (off n : Nat) {hi lo top : Nat} (hi32 : hi < 32) (h : lo ≤ hi) (htop : 2 ^ (hi - lo + 1) = top + 1) :
    (s.count off hi lo n).rf off hi lo = min (s.rf off hi lo + n) top := by
  rw [State.rf, State.rg_count_same, fld_setFld_same _ _ hi32 h, htop, Nat.add_sub_cancel]
  exact Nat.mod_eq_of_lt (Nat.lt_succ_of_le (Nat.min_le_right ..))

theorem State.seq_skip (s : State) : s.skip.seq = s.seq ∧ s.skip.g = s.g := by
  simp [State.skip]

/-- A skipped program is counted, up to 65535. -/
theorem State.skips_skip (s : State) : fld (s.skip.rg 0x2014) 31 16 = min (fld (s.rg 0x2014) 31 16 + 1) 65535 := by
  have h := s.rf_count_same 0x2014 1 (hi := 31) (lo := 16) (top := 65535) (by decide) (by decide) (by decide)
  unfold State.rf at h
  exact h

theorem State.slotEntry_clean {i : Nat} (h : s.upsetAt 3 (128 + i / 2) = 0) :
    s.slotEntry i = (if bit (s.rg (0x2400 + 4 * i)) 31 then some (s.rg (0x2400 + 4 * i)) else none, s) := by
  unfold State.slotEntry
  rw [State.eccRead_clean h]
  dsimp only
  rw [if_neg Bool.false_ne_true]
  split
  · rfl
  · rfl

/-- A test of what is held, if anything is. -/
theorem holds_iff {α : Type} (o : Option α) (f : α → Bool) : (o.map f).getD false = true ↔ ∃ q, o = some q ∧ f q = true := by
  cases o with
  | none => simp
  | some q => simp

/-- A program that runs has its deadline ahead (R34). -/
def State.beforeDeadline (s : State) (n : Nat) : Prop :=
  (s.seq.st = .running ∨ s.seq.st = .waiting) ∧ ∃ q, s.seq.prog = some q ∧ future q.deadline n = true

theorem State.beforeDeadline_iff (s : State) (n : Nat) : s.beforeDeadline n ↔
    ((s.seq.st == .running || s.seq.st == .waiting) && (s.seq.prog.map fun p => future p.deadline n).getD false) = true := by
  rw [State.beforeDeadline, Bool.and_eq_true, Bool.or_eq_true, beq_iff_eq, beq_iff_eq]
  exact and_congr_right fun _ => (holds_iff s.seq.prog fun p => future p.deadline n).symm

theorem State.slotLookup_early {n t policy : Nat} {wasLate : Bool} (h : s.beforeDeadline n) : s.slotLookup n t policy wasLate = s := by
  unfold State.slotLookup
  exact if_pos ((s.beforeDeadline_iff n).1 h)

/-- What the entry of a slot that is valid does, by the state of the sequencer. -/
def State.slotStart (s : State) (p : Prog) (t policy : Nat) (wasLate : Bool) : State :=
  match s.seq.st with
  | .stopped => s
  | .halted | .trapped => s.skip
  | .idle =>
    if s.seq.defer.isSome then s.deferProg p
    else if wasLate && policy != 0 then s.skip
    else if (s.seq.startAt.map fun u => decide (u < t)).getD true then s.startProg p (s.now + 4)
    else s
  | .running | .waiting => if policy = 0 then s.deferProg p else s.skip

/-- The slot of a tick. -/
def State.slotOf (s : State) (n : Nat) : Nat := n % max 1 (s.rf 0x201C 8 0)

theorem State.slotLookup_entry {n t policy : Nat} {wasLate : Bool} (h : ¬s.beforeDeadline n) (hclean : s.upsetAt 3 (128 + s.slotOf n / 2) = 0) :
    s.slotLookup n t policy wasLate = if bit (s.rg (0x2400 + 4 * s.slotOf n)) 31
      then s.slotStart (s.progOf n (s.slotOf n) (s.rg (0x2400 + 4 * s.slotOf n))) t policy wasLate else s := by
  unfold State.slotOf at *
  unfold State.slotLookup
  dsimp only
  rw [if_neg (fun hc => h ((s.beforeDeadline_iff n).2 hc)), State.slotEntry_clean hclean]
  cases bit (s.rg (0x2400 + 4 * (n % max 1 (s.rf 0x201C 8 0)))) 31 with
  | false => rfl
  | true => rfl

variable {p : Prog} {t policy : Nat} {wasLate : Bool}

theorem State.slotStart_stopped (h : s.seq.st = .stopped) : s.slotStart p t policy wasLate = s := by
  simp only [State.slotStart, h]

theorem State.slotStart_ended (h : s.seq.st = .halted ∨ s.seq.st = .trapped) : s.slotStart p t policy wasLate = s.skip := by
  cases h with
  | inl h => simp only [State.slotStart, h]
  | inr h => simp only [State.slotStart, h]

theorem State.slotStart_behind (h : s.seq.st = .idle) (hdefer : s.seq.defer ≠ none) : s.slotStart p t policy wasLate = s.deferProg p := by
  simp only [State.slotStart, h, Option.isSome_iff_ne_none.2 hdefer, if_true]

theorem State.slotStart_late (h : s.seq.st = .idle) (hdefer : s.seq.defer = none) (hlate : wasLate = true) (hpol : policy ≠ 0) :
    s.slotStart p t policy wasLate = s.skip := by
  simp [State.slotStart, h, hdefer, hlate, hpol]

theorem State.slotStart_starts (h : s.seq.st = .idle) (hdefer : s.seq.defer = none) (hpol : wasLate = false ∨ policy = 0)
    (hstart : ∀ u, s.seq.startAt = some u → u < t) : s.slotStart p t policy wasLate = s.startProg p (s.now + 4) := by
  have hskip : (wasLate && policy != 0) = false := by
    cases hpol with
    | inl h => rw [h, Bool.false_and]
    | inr h => simp [h]
  have hearlier : (s.seq.startAt.map fun u => decide (u < t)).getD true = true := by
    cases hs : s.seq.startAt with
    | none => rfl
    | some u => exact decide_eq_true (hstart u hs)
  simp [State.slotStart, h, hdefer, hskip, hearlier]

theorem State.slotStart_running (h : s.seq.st = .running ∨ s.seq.st = .waiting) :
    s.slotStart p t policy wasLate = if policy = 0 then s.deferProg p else s.skip := by
  cases h with
  | inl h => simp only [State.slotStart, h]
  | inr h => simp only [State.slotStart, h]

theorem State.seq_deferProg (s : State) (p : Prog) : (s.deferProg p).seq = { s.seq with defer := some p, deferAt := s.now + 4 } := by
  unfold State.deferProg
  cases s.seq.defer.isSome with
  | false => rfl
  | true => rfl

theorem State.skips_deferProg (hdefer : s.seq.defer ≠ none) :
    fld ((s.deferProg p).rg 0x2014) 31 16 = min (fld (s.rg 0x2014) 31 16 + 1) 65535 := by
  rw [← s.skips_skip, State.deferProg, Option.isSome_iff_ne_none.2 hdefer]
  rfl

/-- The start of a program: its registers, PC and call stack, and what stays. -/
theorem State.startProg_effect (s : State) (p : Prog) (at_ : Nat) : (s.startProg p at_).seq.st = .running ∧ (s.startProg p at_).seq.prog = some p ∧
    (s.startProg p at_).seq.pc = p.entry % 16384 ∧ (s.startProg p at_).seq.nextAt = at_ ∧ (s.startProg p at_).seq.stack = [] ∧
    (s.startProg p at_).seq.defer = none ∧ (s.startProg p at_).seq.p = s.seq.p ∧ (s.startProg p at_).scratch = s.scratch ∧
    (s.startProg p at_).ev = s.ev ∧ (s.startProg p at_).td = s.td := by
  simp [State.startProg]

theorem State.greg_startProg (s : State) (p : Prog) (at_ : Nat) :
    (s.startProg p at_).greg 30 = BitVec.ofNat 64 p.tick ∧ (s.startProg p at_).greg 31 = BitVec.ofNat 64 p.slot ∧
    ∀ n, n ≠ 30 → n ≠ 31 → (s.startProg p at_).greg n = s.greg n := by
  have hg : ∀ n, (s.startProg p at_).greg n = ((s.setGreg 30 (BitVec.ofNat 64 p.tick)).setGreg 31 (BitVec.ofNat 64 p.slot)).greg n := fun n => rfl
  refine ⟨?_, ?_, fun n h30 h31 => ?_⟩
  · rw [hg, State.greg_setGreg_other _ _ (by decide), State.greg_setGreg_same, if_neg (by decide)]
  · rw [hg, State.greg_setGreg_same, if_neg (by decide)]
  · rw [hg, State.greg_setGreg_other _ _ (Ne.symm h31), State.greg_setGreg_other _ _ (Ne.symm h30)]

theorem State.rg64_startProg (s : State) (p : Prog) (at_ : Nat) :
    (s.startProg p at_).rg64 0x30018 = (bf 64 63 16 p.tick ||| bf 64 13 0 p.entry) :=
  State.rg64_setRg64_same ..

end

/-- Settles O16: the turn with and without its actions, and the slot lookup by the state of the sequencer. -/
theorem solsticeResult : Obligations.SolsticeResult := by
  unfold Obligations.SolsticeResult
  refine ⟨fun s t hlive hstop hon hpulse hnext hdue => ?_, fun s n t policy wasLate => ?_⟩
  · have hexec := execSolstice_due hlive hstop hon hpulse hnext hdue
    refine ⟨fun hloud => ⟨hexec.trans (congrArg Host.Outcome.next (State.turn_sounds hloud t)), ?_⟩, fun hmute =>
      ⟨_, hexec.trans (congrArg Host.Outcome.next (State.turn_mute hmute t)), rfl, rfl, ?_, rfl, rfl, rfl, rfl⟩⟩
    · obtain ⟨htick, hrg⟩ := s.slipFlush_keeps
      obtain ⟨hnum, hphase⟩ := s.slipFlush.turnPhase_tick
      rw [htick] at hnum hphase
      refine ⟨hnum, hphase.trans ?_⟩
      rw [State.period, State.rf, hrg]
      rfl
    · have hnext : s.turnPhase.nextPhase.tick.nextSol = some ((s.tick.phase8 + 8 * s.period + 8 * s.period) / 8) := rfl
      rw [hnext, State.period]
      congr 2
      omega
  · intro i w p v early skipped
    refine ⟨fun h => State.slotLookup_early h, fun hlate hclean => ?_⟩
    have hv : v = if bit w 31 then s.slotStart p t policy wasLate else s := State.slotLookup_entry hlate hclean
    have hskip : v = s.skip → skipped := fun hv => by
      obtain ⟨hseq, hg⟩ := s.seq_skip
      exact ⟨(congrArg (fun x : State => fld (x.rg 0x2014) 31 16) hv).trans s.skips_skip, (congrArg State.seq hv).trans hseq,
        (congrArg State.g hv).trans hg⟩
    have hdefers : v = s.deferProg p → v.seq = { s.seq with defer := some p, deferAt := s.now + 4 } ∧ (s.seq.defer ≠ none →
        fld (v.rg 0x2014) 31 16 = min (fld (s.rg 0x2014) 31 16 + 1) 65535) := fun hv =>
      ⟨(congrArg State.seq hv).trans (s.seq_deferProg p),
        fun hd => (congrArg (fun x : State => fld (x.rg 0x2014) 31 16) hv).trans (State.skips_deferProg hd)⟩
    refine ⟨fun hbit => hv.trans (if_neg (Bool.eq_false_iff.1 hbit)), fun hbit => ?_⟩
    replace hv : v = s.slotStart p t policy wasLate := hv.trans (if_pos hbit)
    refine ⟨fun h => hv.trans (State.slotStart_stopped h), fun h => hskip (hv.trans (State.slotStart_ended h)), fun hidle hnone => ⟨fun hwas hpol =>
      hskip (hv.trans (State.slotStart_late hidle hnone hwas hpol)), fun hpol hstart => ?_⟩, fun hidle hsome => ?_, fun hrun =>
      ⟨fun hpol => hdefers ?_, fun hpol => hskip ?_⟩⟩
    · replace hv := hv.trans (State.slotStart_starts hidle hnone hpol hstart)
      clear_value v
      obtain ⟨hst, hprog, hpc, hat, hstack, -, hflags, hscr, -, -⟩ := s.startProg_effect p (s.now + 4)
      obtain ⟨hg30, hg31, -⟩ := s.greg_startProg p (s.now + 4)
      subst hv
      have hentry : p.entry % 16384 = fld w 13 0 := Nat.mod_eq_of_lt (fld_lt w 13 0)
      exact ⟨hst, hprog, hpc.trans hentry, hat, hstack, hg30, hg31, hflags, hscr⟩
    · obtain ⟨hseq, hcount⟩ := hdefers (hv.trans (State.slotStart_behind hidle hsome))
      exact ⟨hseq, hcount hsome⟩
    · exact hv.trans ((State.slotStart_running hrun).trans (if_pos hpol))
    · exact hv.trans ((State.slotStart_running hrun).trans (if_neg hpol))

end Sys2Proof.Machine
end

section
/-! Overruns, and the program that one deferred (R35, R36, R168). -/
namespace Sys2Proof.Machine

section
variable {s : State} {n : Nat}

/-! ## The stop at a boundary -/

/-- The request to halt at the next instruction boundary. -/
def StopReq.ofHalt : StopReq := { halt := true, clr := false, start := none }

/-- The sequencer ends its program, or keeps standing, with no stop asked for. -/
def State.haltNow (s : State) : State :=
  ({ s with seq := { s.seq with stopReq := none } } : State).when (s.seq.st == .running || s.seq.st == .waiting || s.seq.st == .idle) (·.endProg .halted)

/-- A halt acts at a boundary, and waits for one elsewhere. -/
theorem State.askStop_halt (h : s.seq.stopReq = none) : s.askStop true false none =
    if s.atBoundary then s.haltNow else { s with seq := { s.seq with stopReq := some .ofHalt } } := by
  unfold State.askStop
  rw [h]
  unfold State.settle
  change (if !s.atBoundary then _ else _) = _
  cases s.atBoundary with
  | false => rfl
  | true => rfl

/-- Another field of the register whose field counts. -/
theorem State.rf_count_apart (s : State) (off k : Nat) {hi lo hi' lo' : Nat} (hi32 : hi < 32) (h : lo ≤ hi) (h' : lo' ≤ hi')
    (hd : hi' < lo ∨ hi < lo') : (s.count off hi lo k).rf off hi' lo' = s.rf off hi' lo' :=
  s.rf_setRf_apart off _ hi32 h h' hd

theorem State.rf_endProg_ovr (s : State) (st : SeqSt) : (s.endProg st).rf 0x2014 15 0 = s.rf 0x2014 15 0 := by
  unfold State.endProg
  cases s.seq.defer.isSome && st != .idle with
  | false => rfl
  | true => exact s.rf_count_apart 0x2014 1 (by decide) (by decide) (by decide) (by decide)

/-- What a halt leaves as it was. -/
structure State.HaltKeeps (s t : State) : Prop where
  tick : t.tick = s.tick
  ovrAt : t.seq.ovrAt = s.seq.ovrAt
  ops : t.ops = s.ops
  g : t.g = s.g
  mods : t.mods = s.mods
  rg : ∀ off, off ≠ 0x2014 → t.rg off = s.rg off
  ovr : t.rf 0x2014 15 0 = s.rf 0x2014 15 0

theorem State.endProg_haltKeeps (s : State) : s.HaltKeeps (s.endProg .halted) := by
  obtain ⟨hg, -, -, -, -, hops⟩ := s.endProg_memories .halted
  have hseq := s.seq_endProg .halted
  have hrest : (s.endProg .halted).tick = s.tick ∧ (s.endProg .halted).mods = s.mods := by
    unfold State.endProg
    cases s.seq.defer.isSome && SeqSt.halted != .idle with
    | false => exact ⟨rfl, rfl⟩
    | true => exact ⟨rfl, rfl⟩
  exact ⟨hrest.1, (congrArg Seq.ovrAt hseq :), hops, hg, hrest.2, fun off h => s.rg_endProg .halted h, s.rf_endProg_ovr .halted⟩

theorem State.haltNow_keeps (s : State) : s.HaltKeeps s.haltNow := by
  unfold State.haltNow
  cases s.seq.st == .running || s.seq.st == .waiting || s.seq.st == .idle with
  | false => exact ⟨rfl, rfl, rfl, rfl, rfl, fun _ _ => rfl, rfl⟩
  | true =>
    obtain ⟨htick, hat, hops, hg, hmods, hrg, hovr⟩ := State.endProg_haltKeeps { s with seq := { s.seq with stopReq := none } }
    exact ⟨htick, hat, hops, hg, hmods, hrg, hovr⟩

theorem State.askStop_keeps (h : s.seq.stopReq = none) : s.HaltKeeps (s.askStop true false none) := by
  rw [State.askStop_halt h]
  split
  · exact s.haltNow_keeps
  · exact ⟨rfl, rfl, rfl, rfl, rfl, fun _ _ => rfl, rfl⟩

/-- A sequencer that is idle, or whose program stands at a boundary, halts at once. -/
theorem State.haltNow_st (h : s.seq.st = .running ∨ s.seq.st = .waiting ∨ s.seq.st = .idle) :
    s.haltNow.seq.st = .halted ∧ s.haltNow.seq.stopReq = none := by
  have hst : (s.seq.st == .running || s.seq.st == .waiting || s.seq.st == .idle) = true := by
    simpa only [Bool.or_eq_true, beq_iff_eq, or_assoc] using h
  rw [State.haltNow, hst, State.when_true, State.seq_endProg]
  exact ⟨rfl, rfl⟩

theorem State.atBoundary_of (h : s.seq.st = .idle ∨ s.seq.st = .waiting ∨ (s.seq.st = .running ∧ s.seq.stall = none ∧ s.seq.nextAt ≤ s.now)) :
    s.atBoundary = true := by
  unfold State.atBoundary
  rcases h with h | h | ⟨h, hstall, hat⟩
  · simp [h]
  · simp [h]
  · simp [h, hstall, hat]

theorem State.not_atBoundary (h : s.seq.st = .running) (hbusy : s.seq.stall ≠ none ∨ s.now < s.seq.nextAt) : s.atBoundary = false := by
  unfold State.atBoundary
  rcases hbusy with hstall | hat
  · simp [h, hstall]
  · simp [h, hat]

/-! ## The overrun -/

/-- The registers after an overrun. -/
def State.overrunRegs (s : State) (n : Nat) : State :=
  ((s.setBit 0x2010 5).count 0x2014 15 0 ((s.dueProgs n).filter fun p => s.unended p || s.workLeft p).length).irq 2

/-- An overrun as it is recorded, before a halt. -/
def State.overrunRecord (s : State) (n : Nat) : State :=
  { s.overrunRegs n with
    tick := { (s.overrunRegs n).tick with ovrProg := s.progLate n, ovrWork := s.workLate n },
    seq := { (s.overrunRegs n).seq with ovrAt := some n, past := (s.overrunRegs n).seq.past.map (·.judge n),
                                        prog := (s.overrunRegs n).seq.prog.map (·.judge n),
                                        defer := (s.overrunRegs n).seq.defer.map (·.judge n) } }

theorem State.overrunRegs_keeps (s : State) (n : Nat) : (s.overrunRegs n).seq = s.seq ∧ (s.overrunRegs n).tick = s.tick ∧
    (s.overrunRegs n).ops = s.ops ∧ (s.overrunRegs n).g = s.g ∧ (s.overrunRegs n).mods = s.mods ∧ (s.overrunRegs n).now = s.now := by
  simp [State.overrunRegs, State.now]

/-- What the record of an overrun makes of the sequencer and the tick, and what stays. -/
theorem State.overrunRecord_effect (s : State) (n : Nat) :
    (s.overrunRecord n).seq = { s.seq with ovrAt := some n, past := s.seq.past.map (·.judge n), prog := s.seq.prog.map (·.judge n),
                                           defer := s.seq.defer.map (·.judge n) } ∧
    (s.overrunRecord n).tick = { s.tick with ovrProg := s.progLate n, ovrWork := s.workLate n } ∧
    (s.overrunRecord n).ops = s.ops ∧ (s.overrunRecord n).g = s.g ∧ (s.overrunRecord n).mods = s.mods ∧ (s.overrunRecord n).now = s.now := by
  obtain ⟨hseq, htick, hops, hg, hmods, hnow⟩ := s.overrunRegs_keeps n
  refine ⟨?_, ?_, hops, hg, hmods, hnow⟩
  · rw [← hseq]
    rfl
  · rw [← htick]
    rfl

theorem State.overrun_recorded (hnew : s.seq.ovrAt ≠ some n) (hlate : s.late n = true) :
    s.overrun n = (s.overrunRecord n).when ((s.overrunRecord n).rf 0x2000 5 4 = 2) (·.askStop true false none) := by
  unfold State.overrun
  rw [if_neg (by simp [hnew, hlate])]
  rfl

theorem State.overrun_none (hlate : s.late n = false) : s.overrun n = s := by
  unfold State.overrun
  rw [if_pos (by simp [hlate])]

theorem State.rg_overrunRecord (s : State) (n : Nat) {off : Nat} (h5 : 0x2010 ≠ off) (h1 : 0x2014 ≠ off) (h2 : 0x30 ≠ off) :
    (s.overrunRecord n).rg off = s.rg off :=
  (State.rg_irq_other _ _ h2).trans ((State.rg_count_other _ _ _ _ h1).trans (State.rg_setBit_other _ _ h5))

theorem State.policy_overrunRecord (s : State) (n : Nat) : (s.overrunRecord n).rf 0x2000 5 4 = s.rf 0x2000 5 4 := by
  rw [State.rf, s.rg_overrunRecord n (by decide) (by decide) (by decide)]
  rfl

theorem State.bit_overrunRecord (s : State) (n : Nat) : bit ((s.overrunRecord n).rg 0x2010) 5 = true := by
  have hrg : (s.overrunRecord n).rg 0x2010 = (s.overrunRegs n).rg 0x2010 := rfl
  rw [hrg, State.overrunRegs, State.rg_irq_other _ _ (by decide), State.rg_count_other _ _ _ _ (by decide), State.bit_setBit_same _ _ (by decide)]

theorem State.irq_overrunRecord (s : State) (n : Nat) : bit ((s.overrunRecord n).rg 0x30) 2 = true := State.bit_irq _ (by decide)

theorem State.ovr_overrunRecord (s : State) (n : Nat) : (s.overrunRecord n).rf 0x2014 15 0 =
    min (s.rf 0x2014 15 0 + ((s.dueProgs n).filter fun p => s.unended p || s.workLeft p).length) 65535 := by
  let t := s.setBit 0x2010 5
  have hkeep : t.rf 0x2014 15 0 = s.rf 0x2014 15 0 := by
    rw [State.rf, s.rg_setBit_other 5 (by decide)]
    rfl
  have hcount := t.rf_count_same 0x2014 ((s.dueProgs n).filter fun p => s.unended p || s.workLeft p).length (hi := 15) (lo := 0) (top := 65535)
    (by decide) (by decide) (by decide)
  rw [hkeep] at hcount
  exact (congrArg (fun w => fld w 15 0) (State.rg_irq_other _ _ (by decide))).trans hcount

theorem execOverrun_eq (hlive : s.inReset = false) (hstop : s.seq.stopReq = none) :
    execOverrun s = .next (s.when s.solNow (·.overrun s.nextTick)) := by
  rw [execOverrun, live_eq hlive]
  dsimp only
  rw [State.settle_none hstop]

/-! ## The deferred program -/

theorem execDeferredProgramStart_waits {p : Prog} (hlive : s.inReset = false) (hstop : s.seq.stopReq = none) (hdefer : s.seq.defer = some p)
    (h : s.tickOn = false ∨ s.seq.st ≠ .idle ∨ s.now < s.seq.endAt + 4 ∨ s.now < s.seq.deferAt) : execDeferredProgramStart s = .next s := by
  have hcond : ¬(s.tickOn && s.seq.st = .idle && decide (s.seq.endAt + 4 ≤ s.now) && decide (s.seq.deferAt ≤ s.now)) = true := by
    simp only [Bool.and_eq_true, decide_eq_true_iff, not_and]
    rintro ⟨⟨hon, hidle⟩, hend⟩ hat
    rcases h with h | h | h | h
    · exact Bool.false_ne_true (h.symm.trans hon)
    · exact h hidle
    · omega
    · omega
  rw [execDeferredProgramStart, live_eq hlive]
  dsimp only
  rw [State.settle_none hstop]
  simp only [hdefer]
  rw [if_neg hcond]

theorem execDeferredProgramStart_starts {p : Prog} (hlive : s.inReset = false) (hstop : s.seq.stopReq = none) (hdefer : s.seq.defer = some p)
    (hon : s.tickOn = true) (hidle : s.seq.st = .idle) (hend : s.seq.endAt + 4 ≤ s.now) (hat : s.seq.deferAt ≤ s.now) :
    execDeferredProgramStart s = .next (s.startProg { p with serial := s.seq.serial + 1 } s.now) := by
  rw [execDeferredProgramStart, live_eq hlive]
  dsimp only
  rw [State.settle_none hstop]
  simp only [hdefer]
  rw [if_pos (by simp [hon, hidle, hend, hat])]

end

/-- A halt keeps the record of the overrun. -/
theorem State.overrun_keeps (s : State) (n : Nat) (hstop : s.seq.stopReq = none) (hlate : s.late n = true) (hnew : s.seq.ovrAt ≠ some n) :
    (s.overrunRecord n).HaltKeeps (s.overrun n) := by
  obtain ⟨hseq, -⟩ := s.overrunRecord_effect n
  rw [State.overrun_recorded hnew hlate]
  unfold State.when
  split
  · exact State.askStop_keeps ((congrArg Seq.stopReq hseq).trans hstop)
  · exact ⟨rfl, rfl, rfl, rfl, rfl, fun _ _ => rfl, rfl⟩

/-- The halt after an overrun, by the state of the sequencer. -/
theorem State.overrun_halts (s : State) (n : Nat) (hstop : s.seq.stopReq = none) (hlate : s.late n = true) (hnew : s.seq.ovrAt ≠ some n)
    (hpol : s.rf 0x2000 5 4 = 2) :
    (s.seq.st = .running → s.seq.stall ≠ none ∨ s.now < s.seq.nextAt → (s.overrun n).seq.st = .running ∧
      (s.overrun n).seq.stopReq = some { halt := true, clr := false, start := none }) ∧
    (s.seq.st = .idle ∨ s.seq.st = .waiting ∨ (s.seq.st = .running ∧ s.seq.stall = none ∧ s.seq.nextAt ≤ s.now) →
      (s.overrun n).seq.st = .halted ∧ (s.overrun n).seq.stopReq = none) := by
  obtain ⟨hseq, -, -, -, -, hnow⟩ := s.overrunRecord_effect n
  have heq := State.overrun_recorded hnew hlate
  rw [State.policy_overrunRecord, decide_eq_true hpol, State.when_true,
    State.askStop_halt ((congrArg Seq.stopReq hseq).trans hstop)] at heq
  have hst : (s.overrunRecord n).seq.st = s.seq.st := (congrArg Seq.st hseq :)
  have hstall : (s.overrunRecord n).seq.stall = s.seq.stall := (congrArg Seq.stall hseq :)
  have hat : (s.overrunRecord n).seq.nextAt = s.seq.nextAt := (congrArg Seq.nextAt hseq :)
  refine ⟨fun hrun hbusy => ?_, fun hb => ?_⟩
  · rw [heq, State.not_atBoundary (hst.trans hrun) (by rwa [hstall, hat, hnow])]
    exact ⟨hst.trans hrun, rfl⟩
  · rw [heq, State.atBoundary_of (by rwa [hst, hstall, hat, hnow])]
    refine State.haltNow_st ?_
    rw [hst]
    rcases hb with h | h | ⟨h, -, -⟩
    · exact .inr (.inr h)
    · exact .inr (.inl h)
    · exact .inl h

/-- Settles O17: the record of an overrun, the halt by the state of the sequencer, and the deferred start. -/
theorem overrunAndDefer : Obligations.OverrunAndDefer := by
  unfold Obligations.OverrunAndDefer
  refine ⟨fun s hlive hstop hsol => ?_, fun s hlive hstop hsol => ?_, fun s p hlive hstop hdefer =>
    ⟨execDeferredProgramStart_waits hlive hstop hdefer, fun hon hidle hend hat =>
      ⟨_, execDeferredProgramStart_starts hlive hstop hdefer hon hidle hend hat, ?_⟩⟩⟩
  · intro n
    have hexec : execOverrun s = .next (s.overrun n) := by rw [execOverrun_eq hlive hstop, hsol, State.when_true]
    clear_value n
    refine ⟨fun h => hexec.trans (congrArg Host.Outcome.next (State.overrun_none h)), fun hlate hnew => ⟨_, hexec, ?_⟩⟩
    obtain ⟨htick, hat, hops, hg, hmods, hrg, hovr⟩ := s.overrun_keeps n hstop hlate hnew
    obtain ⟨hseq', htick', hops', hg', hmods', -⟩ := s.overrunRecord_effect n
    have hat' : (s.overrunRecord n).seq.ovrAt = some n := (congrArg Seq.ovrAt hseq' :)
    refine ⟨?_, hovr.trans (s.ovr_overrunRecord n), ?_, htick.trans htick', hat.trans hat', hops.trans hops', hg.trans hg', hmods.trans hmods',
      fun hpol => ?_, s.overrun_halts n hstop hlate hnew⟩
    · rw [hrg _ (by decide)]
      exact s.bit_overrunRecord n
    · rw [hrg _ (by decide)]
      exact s.irq_overrunRecord n
    · rw [State.overrun_recorded hnew hlate, State.policy_overrunRecord, decide_eq_false hpol, State.when_false, hseq']
  · exact (execOverrun_eq hlive hstop).trans (by rw [hsol, State.when_false])
  · obtain ⟨hst, -, hpc, hat, hstack, hdef, hflags, hscr, hev, htd⟩ := s.startProg_effect { p with serial := s.seq.serial + 1 } s.now
    obtain ⟨hg30, hg31, hgs⟩ := s.greg_startProg { p with serial := s.seq.serial + 1 } s.now
    exact ⟨hst, hpc, hstack, hdef, hflags, hat, hg30, hg31, hgs, hscr, hev, htd, s.rg64_startProg _ _⟩

end Sys2Proof.Machine
end

section
/-! TICK_CTRL, the tick timers and the restart of core_clk (Tables 1-3 and 1-4, R16, R23, R25, R29). -/
namespace Sys2Proof.Machine

/-! ## EN and ROLE -/

section
variable {s : State}

theorem execTickEn_ignored (h : s.cfgReady = true) {en : Bool} (hsame : en = s.tickOn ∨ (en = true ∧ s.blank = true)) :
    execTickEn en s = .next s.ported := by
  refine portCmd_eq h (if_pos ?_)
  rcases hsame with hon | ⟨hen, hblank⟩
  · have hon : (en == s.accessed.tickOn) = true := beq_iff_eq.2 hon
    rw [hon, Bool.true_or]
  · have hblank : s.accessed.blank = true := hblank
    rw [hen, hblank, Bool.true_and, Bool.or_true]

/-- What EN at 1 makes of the tick. -/
def Tick.acquiring (t : Tick) (role now period : Nat) : Tick :=
  { t with lock := 1, cand := none, miss := 0, got := false, mute := none, first := decide (role = 2), phase8 := 8 * now,
           nextSol := if role = 2 then some (now + period) else none }

/-- The registers and the sequencer after a write of EN. -/
def State.enSet (s : State) (en : Bool) : State :=
  let t := (s.setRf 0x2000 2 2 (b2n en)).when s.seq.defer.isSome (·.skip)
  { t with seq := { t.seq with ovrAt := none, defer := none } }

theorem State.enSet_keeps (s : State) (en : Bool) : (s.enSet en).tick = s.tick ∧ (s.enSet en).mods = s.mods ∧ (s.enSet en).now = s.now ∧
    (s.enSet en).seq = { s.seq with ovrAt := none, defer := none } := by
  unfold State.enSet
  cases s.seq.defer.isSome with
  | false => exact ⟨rfl, rfl, rfl, rfl⟩
  | true => exact ⟨rfl, rfl, rfl, rfl⟩

theorem State.rg_enSet (s : State) (en : Bool) {off : Nat} (h0 : 0x2000 ≠ off) (h1 : 0x2014 ≠ off) : (s.enSet en).rg off = s.rg off :=
  (State.rg_when_skip _ _ h1).trans (State.rg_setRf_other _ _ _ _ h0)

theorem State.rg_enSet_ctrl (s : State) (en : Bool) : (s.enSet en).rg 0x2000 = setFld (s.rg 0x2000) 2 2 (b2n en) :=
  (State.rg_when_skip _ _ (by decide)).trans (State.rg_setRf_same ..)

theorem State.tickOn_enSet (s : State) (en : Bool) : (s.enSet en).tickOn = en := by
  rw [State.tickOn, State.rg_enSet_ctrl, bit_setFld _ _ _ (by decide) (by decide), if_pos (by decide)]
  cases en with
  | false => rfl
  | true => rfl

theorem State.tickRole_enSet (s : State) (en : Bool) : (s.enSet en).tickRole = s.tickRole := by
  rw [State.tickRole, State.rf, State.rg_enSet_ctrl, fld_setFld_other _ _ (by decide) (by decide) (by decide) (by decide)]
  rfl

theorem State.period_enSet (s : State) (en : Bool) : (s.enSet en).period = s.period := by
  rw [State.period, State.rf, State.rg_enSet _ _ (by decide) (by decide)]
  rfl

theorem State.tickEnWrite_on (hon : s.tickOn = false) (hblank : s.blank = false) : s.tickEnWrite true =
    { s.enSet true with
      tick := s.tick.acquiring s.tickRole s.now s.period
      twin := { (s.enSet true).twin with enAt := some (s.enSet true).now } } := by
  have hwrite : s.tickEnWrite true = { s.enSet true with
      tick := (s.enSet true).tick.acquiring (s.enSet true).tickRole (s.enSet true).now (s.enSet true).period
      twin := { (s.enSet true).twin with enAt := some (s.enSet true).now } } := by
    unfold State.tickEnWrite
    rw [if_neg (by simp [hon, hblank])]
    rfl
  obtain ⟨htick, -, hnow, -⟩ := s.enSet_keeps true
  rw [hwrite, htick, s.tickRole_enSet, s.period_enSet, hnow]

theorem State.tickOff_eq (s : State) : s.tickOff = { s.enSet false with
    tick := { (s.enSet false).tick with lock := 0, nextSol := none, cand := none, markerDue := false, mute := none } } := rfl

/-- EN at 1 begins to acquire; a root's first Solstice is TICK_PERIOD later. -/
theorem execTickEn_on (h : s.cfgReady = true) (hon : s.tickOn = false) (hblank : s.blank = false) : ∃ u, execTickEn true s = .next u ∧
    u.tick = s.tick.acquiring s.tickRole s.now s.period ∧ u.tickOn = true ∧ u.seq = { s.seq with ovrAt := none, defer := none } ∧
    u.mods = s.mods := by
  obtain ⟨-, hmods, -, hseq⟩ := s.accessed.enSet_keeps true
  exact ⟨_, portCmd_eq h (State.tickEnWrite_on (s := s.accessed) hon hblank), rfl, s.accessed.tickOn_enSet true, hseq, hmods⟩

theorem execTickEn_off (h : s.cfgReady = true) (hon : s.tickOn = true) : ∃ u, execTickEn false s = .next u ∧
    u.tick = { s.tick with lock := 0, nextSol := none, cand := none, markerDue := false, mute := none } ∧ u.tickOn = false ∧
    u.seq = { s.seq with ovrAt := none, defer := none } ∧ u.mods = s.mods := by
  obtain ⟨htick, hmods, -, hseq⟩ := s.accessed.enSet_keeps false
  refine ⟨_, portCmd_eq h ((State.tickEnWrite_false_on (s := s.accessed) hon).trans s.accessed.tickOff_eq), ?_, s.accessed.tickOn_enSet false, hseq,
    hmods⟩
  exact congrArg (fun t : Tick => { t with lock := 0, nextSol := none, cand := none, markerDue := false, mute := none }) htick

theorem State.tickRoleSet_ignored {role : Nat} (h : s.tickOn = true ∨ role = 3) : s.tickRoleSet role = s :=
  if_pos (by simpa only [Bool.or_eq_true, decide_eq_true_iff] using h)

theorem State.tickRoleSet_refused (hon : s.tickOn = false) (hdie : s.die ≠ 0) : s.tickRoleSet 2 = s.setBit 0x2010 4 := by
  unfold State.tickRoleSet
  rw [if_neg (by simp [hon]), if_pos (by simp [hdie])]

theorem State.tickRoleSet_blank (hon : s.tickOn = false) (hdie : s.die = 0) (hblank : s.blank = true) : s.tickRoleSet 2 = s := by
  unfold State.tickRoleSet
  rw [if_neg (by simp [hon]), if_neg (by simp [hdie]), if_pos (by simp [hblank])]

theorem State.tickRoleSet_taken {role : Nat} (hon : s.tickOn = false) (h3 : role ≠ 3) (h2 : role ≠ 2 ∨ (s.die = 0 ∧ s.blank = false)) :
    s.tickRoleSet role = s.setRf 0x2000 1 0 role := by
  unfold State.tickRoleSet
  rw [if_neg (by simp [hon, h3])]
  rcases h2 with hne | ⟨hdie, hblank⟩
  · simp [hne]
  · simp [hdie, hblank]

theorem execTickRoleWrite_taken (h : s.cfgReady = true) {role : BitVec 2} (hon : s.tickOn = false) (h3 : role ≠ 3)
    (h2 : role ≠ 2 ∨ (s.die = 0 ∧ s.blank = false)) : execTickRoleWrite role s = .next (s.ported.setRf 0x2000 1 0 role.toNat) := by
  have hne : ∀ k : BitVec 2, role ≠ k → role.toNat ≠ k.toNat := fun k hk he => hk (BitVec.eq_of_toNat_eq he)
  have htaken := State.tickRoleSet_taken (s := s.accessed) hon (hne 3 h3) (h2.imp_left (hne 2))
  exact portCmd_eq (f := (·.tickRoleSet role.toNat)) h htaken

theorem execTickRoleWrite_refused (h : s.cfgReady = true) (hon : s.tickOn = false) (hdie : s.die ≠ 0) : ∃ u, execTickRoleWrite 2 s = .next u ∧
    bit (u.rg 0x2010) 4 = true ∧ u.rf 0x2000 1 0 = s.rf 0x2000 1 0 ∧ u.tick = s.tick := by
  have hrefused := State.tickRoleSet_refused (s := s.accessed) hon hdie
  refine ⟨_, portCmd_eq h hrefused, s.accessed.bit_setBit_same 0x2010 (by decide), ?_, rfl⟩
  rw [State.rf_cfgAnswer, State.rf, State.rg_setBit_other _ _ (by decide)]
  rfl

/-! ## REACQ -/

theorem State.flywheel_relay (h : s.byPulse = false) : s.flywheel = s := if_pos (by rw [h]; rfl)

theorem State.flywheel_keeps (s : State) : s.flywheel.tick.num = s.tick.num ∧ s.flywheel.seq = s.seq ∧ s.flywheel.regs = s.regs := by
  unfold State.flywheel
  split
  · exact ⟨rfl, rfl, rfl⟩
  · exact ⟨rfl, rfl, rfl⟩

/-- Before the next phase point the flywheel of a follower has its next Solstice there. -/
theorem State.flywheel_ahead (h : s.byPulse = true) (hahead : 8 * s.now < s.tick.phase8 + 8 * s.period) (hwhole : s.tick.phase8 % 8 = 0)
    (hpos : 0 < s.period) : s.flywheel.tick.phase8 = s.tick.phase8 ∧ s.flywheel.tick.nextSol = some (s.tick.phase8 / 8 + s.period) := by
  have hk : (s.now - 1 - s.tick.phase8 / 8) / s.period = 0 := Nat.div_eq_of_lt (by omega)
  have hfly : s.flywheel = s.updTick fun t =>
      { t with phase8 := t.phase8 + 8 * s.period * ((s.now - 1 - t.phase8 / 8) / s.period),
               nextSol := some (nextSolOf (t.phase8 + 8 * s.period * ((s.now - 1 - t.phase8 / 8) / s.period)) s.period) } :=
    if_neg (by rw [h]; decide)
  rw [hfly]
  simp only [State.updTick, hk, Nat.mul_zero, Nat.add_zero, nextSolOf, true_and, Option.some.injEq]
  omega

theorem State.reacquire_eq (hon : s.tickOn = true) (hrole : s.tickRole ≠ 2) :
    s.reacquire = s.flywheel.updTick fun t => { t with lock := 1, cand := none } :=
  if_pos (by simp [hon, hrole])

theorem execTickReacq_root (h : s.cfgReady = true) (hrole : s.tickRole = 2) : execTickReacq s = .next s.ported := by
  have hrole : s.accessed.tickRole = 2 := hrole
  exact portCmd_eq h (if_neg (by simp [hrole]))

theorem execTickReacq_relay (h : s.cfgReady = true) (hon : s.tickOn = true) (hrole : s.tickRole ≠ 2) (hpulse : s.byPulse = false) :
    execTickReacq s = .next { s.ported with tick := { s.tick with lock := 1, cand := none } } := by
  have hreacq := State.reacquire_eq (s := s.accessed) hon hrole
  rw [State.flywheel_relay (s := s.accessed) hpulse] at hreacq
  exact portCmd_eq h hreacq

theorem execTickReacq_follower (h : s.cfgReady = true) (hon : s.tickOn = true) (hpulse : s.byPulse = true) : ∃ u, execTickReacq s = .next u ∧
    u.tick.lock = 1 ∧ u.tick.num = s.tick.num ∧ u.seq = s.seq ∧ u.regs = s.regs ∧
    (8 * s.now < s.tick.phase8 + 8 * s.period → s.tick.phase8 % 8 = 0 → 0 < s.period → u.tick.phase8 = s.tick.phase8 ∧
      u.tick.nextSol = some (s.tick.phase8 / 8 + s.period)) := by
  have hrole : s.tickRole ≠ 2 := by
    have hzero : s.tickRole = 0 := beq_iff_eq.1 (Bool.and_eq_true_iff.1 hpulse).1
    omega
  obtain ⟨hnum, hseq, hregs⟩ := s.accessed.flywheel_keeps
  exact ⟨_, portCmd_eq h (State.reacquire_eq (s := s.accessed) hon hrole), rfl, hnum, hseq, hregs,
    State.flywheel_ahead (s := s.accessed) hpulse⟩

/-! ## core_clk, DIGEST, held contributions, NOMARK -/

theorem execCoreClkRestart_eq (hlive : s.inReset = false) (hpwr : s.pwr.st = 3 ∨ s.pwr.st = 4) (hon : s.tickOn = true) :
    execCoreClkRestart s = .next (s.updTick fun t =>
      { t with lock := 1, cand := none, miss := 0, got := false, phase8 := if s.tickRole = 2 then 8 * s.now else t.phase8,
               nextSol := if s.tickRole = 2 then some (s.now + s.period) else none }) := by
  rw [execCoreClkRestart, live_eq hlive, if_pos ⟨hpwr, hon⟩]

theorem execDigestFreeTimer_eq (hlive : s.inReset = false) : execDigestFreeTimer s =
    .next (s.when (s.tick.lock == 0 && decide (s.digestAt + 4800 ≤ s.now)) fun s => s.sendDigest s.now) := live_eq hlive _

theorem execHvHoldExpiry_one (hlive : s.inReset = false) {r : Rel} (h : s.rel.filter s.heldOver = [r]) : execHvHoldExpiry s = .next
    (if r.msg.mtype = 0x12 then s.dropStale r (bit r.msg.arg 36) (expertOrig r.msg) 0xC
     else s.dropStale r (bit r.msg.arg 26) (contribOrig r.msg) (if r.msg.mtype = 0x10 then 9 else 0xC)) := by
  rw [execHvHoldExpiry, live_eq hlive, State.holdExpiry, h]
  rfl

theorem execHvHoldExpiry_none (hlive : s.inReset = false) (h : ∀ r ∈ s.rel, s.heldOver r = false) : execHvHoldExpiry s = .next s := by
  have hnil : s.rel.filter s.heldOver = [] := List.filter_eq_nil_iff.2 fun r hr => Bool.eq_false_iff.1 (h r hr)
  rw [execHvHoldExpiry, live_eq hlive, State.holdExpiry, hnil]
  rfl

/-- The expected time of a marker that passed in a clock that runs. -/
theorem State.missed_eq (s : State) : b2n (s.markMissed && s.pwr.st != 3 && s.pwr.st != 4) =
    if s.markMissed = true ∧ s.pwr.st ≠ 3 ∧ s.pwr.st ≠ 4 then 1 else 0 := by
  unfold b2n
  simp only [Bool.and_eq_true, bne_iff_ne, and_assoc]

theorem execNomark_missed (hlive : s.inReset = false) (hon : s.tickOn = true) (hrole : s.tickRole = 1)
    (hmiss : 16 ≤ s.tick.miss + if s.markMissed = true ∧ s.pwr.st ≠ 3 ∧ s.pwr.st ≠ 4 then 1 else 0) :
    execNomark s = .next (s.updTick fun t => { t with lock := 1, nomark := true, cand := none, miss := 0, got := true }) := by
  rw [← s.missed_eq] at hmiss
  rw [execNomark, live_eq hlive, if_pos (by simp [hon, hrole, hmiss])]

theorem execNomark_heard (hlive : s.inReset = false)
    (hmiss : s.tick.miss + (if s.markMissed = true ∧ s.pwr.st ≠ 3 ∧ s.pwr.st ≠ 4 then 1 else 0) < 16) : execNomark s = .next s := by
  rw [← s.missed_eq] at hmiss
  rw [execNomark, live_eq hlive, if_neg]
  rw [Bool.and_eq_true, decide_eq_true_iff]
  exact fun hc => absurd hc.2 (Nat.not_le.2 hmiss)

end

/-- Settles O18: EN, ROLE and REACQ in each of their forms, and each timer. -/
theorem tickControl : Obligations.TickControl := by
  unfold Obligations.TickControl
  refine ⟨fun s h => ?_, fun s hlive => ?_⟩
  · refine ⟨fun _ hblank => execTickEn_ignored h (.inr ⟨rfl, hblank⟩), fun en hen => execTickEn_ignored h (.inl hen), execTickEn_on h, execTickEn_off h,
      fun role hrole => portCmd_eq (f := (·.tickRoleSet role.toNat)) h ?_, fun role => execTickRoleWrite_taken h, execTickRoleWrite_refused h, fun hon hdie hblank => portCmd_eq (f := (·.tickRoleSet 2)) h ?_,
      execTickReacq_relay h, execTickReacq_follower h, fun _ => execTickReacq_root h⟩
    · exact State.tickRoleSet_ignored (s := s.accessed) (hrole.imp_right (congrArg BitVec.toNat))
    · exact State.tickRoleSet_blank (s := s.accessed) hon hdie hblank
  · refine ⟨fun hpwr hon hrole => ?_, fun hpwr hon hrole => ?_, fun hfree hdue => ?_, fun hearly => ?_, fun r hr => ?_, execHvHoldExpiry_none hlive,
      execNomark_missed hlive, execNomark_heard hlive⟩
    · refine (execCoreClkRestart_eq hlive hpwr hon).trans ?_
      simp only [hrole, if_false]
      rfl
    · refine (execCoreClkRestart_eq hlive hpwr hon).trans ?_
      simp only [hrole, if_true]
      rfl
    · rw [exec, execDigestFreeTimer_eq hlive, hfree, decide_eq_true hdue]
      rfl
    · rw [exec, execDigestFreeTimer_eq hlive, decide_eq_false (Nat.not_le.2 hearly), Bool.and_false, State.when_false]
    · have hexec := execHvHoldExpiry_one hlive hr
      refine ⟨fun ht => hexec.trans ?_, fun ht => hexec.trans ?_, fun ht => hexec.trans ?_⟩
      · rw [if_neg (by rw [ht]; decide), if_pos ht]
      · rw [if_neg (by rw [ht]; decide), if_neg (by rw [ht]; decide)]
      · rw [if_pos ht]

end Sys2Proof.Machine
end

section
/-! The tick pulse and the tick marker (R25 to R31, R597, R624, Table 1-3). -/
namespace Sys2Proof.Machine

section
variable {s : State}

/-! ## A skew fault -/

theorem State.skew_keeps (s : State) : s.skew.tick = s.tick ∧ s.skew.seq = s.seq ∧ s.skew.mods = s.mods ∧ s.skew.now = s.now := by
  simp [State.skew, State.now]

theorem State.rg_skew (s : State) {off : Nat} (h0 : 0x2010 ≠ off) (h8 : 0x2018 ≠ off) (hirq : 0x30 ≠ off) : s.skew.rg off = s.rg off :=
  (State.rg_irq_other _ _ hirq).trans ((State.rg_count_other _ _ _ _ h8).trans (State.rg_setBit_other _ _ h0))

/-- A skew fault shows in SKEW, in the count, and as irq[1]. -/
def Skews (before after : State) : Prop :=
  bit (after.rg 0x2010) 2 = true ∧ bit (after.rg 0x30) 1 = true ∧
    fld (after.rg 0x2018) 15 0 = min (fld (before.rg 0x2018) 15 0 + 1) 65535

theorem State.skews_skew (s : State) : Skews s s.skew := by
  refine ⟨?_, State.bit_irq _ (by decide), ?_⟩
  · rw [State.skew, State.rg_irq_other _ _ (by decide), State.rg_count_other _ _ _ _ (by decide), State.bit_setBit_same _ _ (by decide)]
  · have hcount := (s.setBit 0x2010 2).rf_count_same 0x2018 1 (hi := 15) (lo := 0) (top := 65535) (by decide) (by decide) (by decide)
    unfold State.rf at hcount
    rw [State.rg_setBit_other _ _ (by decide)] at hcount
    rw [State.skew, State.rg_irq_other _ _ (by decide), hcount]

theorem Skews.congr {before after after' : State} (h : Skews before after) (hregs : ∀ off, after'.rg off = after.rg off) : Skews before after' := by
  obtain ⟨hbit, hirq, hcount⟩ := h
  rw [Skews, hregs, hregs, hregs]
  exact ⟨hbit, hirq, hcount⟩

theorem State.rg_flywheel (s : State) (off : Nat) : s.flywheel.rg off = s.rg off := by
  unfold State.flywheel
  split
  · rfl
  · rfl

theorem State.mods_flywheel (s : State) : s.flywheel.mods = s.mods := by
  unfold State.flywheel
  split
  · rfl
  · rfl

/-! ## Acquisition -/

/-- A measurement opens a run. -/
def State.opened (s : State) (n : Nat) (ph8 : Int) : State := s.updTick fun t => { t with cand := some { num := n, phase8 := ph8.toNat, run := 1 } }

theorem State.acquire_first (h : s.tick.cand = none) (n : Nat) (ph8 : Int) : s.acquire n ph8 = s.opened n ph8 := by
  unfold State.acquire
  simp only [h]
  rfl

/-- A measurement after an earlier one of a run. -/
theorem State.acquire_next {c : Cand} (h : s.tick.cand = some c) (n : Nat) (ph8 : Int) : s.acquire n ph8 =
    let e := ph8 - ((c.phase8 + 8 * s.period : Nat) : Int)
    let t := s.updTick fun t => { t with phaseErr := phaseSat e }
    if n = (c.num + 1) % tickMod && decide (-1 ≤ e) && decide (e ≤ 1) then
      if 4 ≤ c.run + 1 then t.adopt n (c.phase8 + 8 * s.period)
      else t.updTick fun t => { t with cand := some { num := n, phase8 := c.phase8 + 8 * s.period, run := c.run + 1 } }
    else t.opened n ph8 := by
  unfold State.acquire
  simp only [h]
  rfl

theorem State.overrun_frame (s : State) (n : Nat) (hstop : s.seq.stopReq = none) :
    (s.overrun n).g = s.g ∧ (s.overrun n).mods = s.mods ∧ (s.overrun n).period = s.period := by
  by_cases hnew : s.seq.ovrAt = some n
  · have hsame : s.overrun n = s := if_pos (by simp [hnew])
    rw [hsame]
    exact ⟨rfl, rfl, rfl⟩
  · cases hlate : s.late n with
    | false =>
      rw [State.overrun_none hlate]
      exact ⟨rfl, rfl, rfl⟩
    | true =>
      obtain ⟨-, -, -, hg, hmods, hrg, -⟩ := s.overrun_keeps n hstop hlate hnew
      obtain ⟨-, -, -, hg', hmods', -⟩ := s.overrunRecord_effect n
      refine ⟨hg.trans hg', hmods.trans hmods', ?_⟩
      rw [State.period, State.rf, hrg _ (by decide), s.rg_overrunRecord n (by decide) (by decide) (by decide)]
      rfl

/-- The deadlines and the slots that an adoption passes over. -/
def State.passOver (s : State) (a : Nat) : State :=
  s.when (future a s.lastTick) fun t => (t.overrun a).count 0x2014 31 16 (t.slotsPassed s.lastTick a)

theorem State.passOver_frame (s : State) (a : Nat) (hstop : s.seq.stopReq = none) :
    (s.passOver a).g = s.g ∧ (s.passOver a).mods = s.mods ∧ (s.passOver a).period = s.period := by
  unfold State.passOver
  cases future a s.lastTick with
  | false => exact ⟨rfl, rfl, rfl⟩
  | true =>
    obtain ⟨hg, hmods, hperiod⟩ := s.overrun_frame a hstop
    refine ⟨hg, hmods, Eq.trans ?_ hperiod⟩
    rw [State.when_true, State.period, State.rf, State.rg_count_other _ _ _ _ (by decide)]
    rfl

/-- What an adoption makes of the tick. -/
def Tick.adopted (t : Tick) (a phase8 next : Nat) (mute : Option Nat) : Tick :=
  { t with lock := 2, num := a, phase8 := phase8, nextSol := some next, cand := none, miss := 0, nomark := false, mute := mute }

/-- The tick that an adoption waits for in silence, if it goes back. -/
def State.muteFor (s : State) (a : Nat) : Option Nat :=
  if future a s.lastTick || a == s.lastTick then none else some ((s.lastTick + 1) % tickMod)

theorem State.adopt_eq (s : State) (a phase8 : Nat) : s.adopt a phase8 =
    (s.passOver a).updTick fun t => t.adopted a phase8 (nextSolOf phase8 (s.passOver a).period) (s.muteFor a) := by
  unfold State.adopt State.passOver State.muteFor Tick.adopted
  dsimp only

theorem State.adopted_effect (s : State) (a phase8 next : Nat) (mute : Option Nat) :
    (s.updTick fun t => t.adopted a phase8 next mute).tick = s.tick.adopted a phase8 next mute ∧
    (s.updTick fun t => t.adopted a phase8 next mute).g = s.g ∧ (s.updTick fun t => t.adopted a phase8 next mute).mods = s.mods :=
  ⟨rfl, rfl, rfl⟩

/-- An adopted candidate gives the tick its number and phase, and LOCKED with it. -/
theorem State.adopt_effect (s : State) (a phase8 : Nat) (hstop : s.seq.stopReq = none) :
    (∃ t m, (s.adopt a phase8).tick = Tick.adopted t a phase8 (nextSolOf phase8 s.period) m) ∧
    (s.adopt a phase8).g = s.g ∧ (s.adopt a phase8).mods = s.mods := by
  obtain ⟨hg, hmods, hperiod⟩ := s.passOver_frame a hstop
  obtain ⟨htick, hg', hmods'⟩ := (s.passOver a).adopted_effect a phase8 (nextSolOf phase8 (s.passOver a).period) (s.muteFor a)
  rw [s.adopt_eq, htick, hg', hmods', hperiod]
  exact ⟨⟨_, _, rfl⟩, hg, hmods⟩

/-! ## The pulse -/

theorem execTickPulse_eq (hlive : s.inReset = false) (hstop : s.seq.stopReq = none) (num : BitVec 48) :
    execTickPulse num s = .next (s.pulse num.toNat) := by
  rw [execTickPulse, live_eq hlive, State.settle_none hstop]

theorem State.pulse_ignored (h : s.tickOn = false ∨ s.tickRole ≠ 0) (num : Nat) : s.pulse num = s := by
  refine if_pos ?_
  rcases h with hoff | hrole
  · rw [hoff, Bool.not_false, Bool.true_or]
  · rw [bne_iff_ne.2 hrole, Bool.or_true]

theorem State.pulse_taken (hon : s.tickOn = true) (hrole : s.tickRole = 0) (num : Nat) : s.pulse num =
    if s.tick.lock = 2 then s.lockedPulse num
    else if s.tick.lock = 3 then (s.updTick fun t => { t with lock := 1, cand := none }).acquire num (8 * s.now : Nat)
    else s.acquire num (8 * s.now : Nat) :=
  if_neg (by simp [hon, hrole])

/-- The distance of this cc from the next phase point, in 1/8 cc. -/
def State.pulseErr (s : State) : Int := ((8 * s.now : Nat) : Int) - ((s.tick.phase8 + 8 * s.period : Nat) : Int)

theorem State.lockedPulse_solstice {num : Nat} (hnum : num = s.nextTick) (herr : s.pulseErr = 0) :
    s.lockedPulse num = ({ s with tick := { s.tick with phaseErr := 0 } } : State).turn s.now :=
  if_pos (by simpa [State.pulseErr, hnum] using herr)

theorem State.lockedPulse_same {num : Nat} (hnum : num = s.tick.num) (hnow : 8 * s.now = s.tick.phase8) (hne : num ≠ s.nextTick) :
    s.lockedPulse num = { s with tick := { s.tick with phaseErr := 0 } } :=
  (if_neg (by simp [hne])).trans (if_pos (by simp [hnum, hnow]))

theorem State.lockedPulse_skew {num : Nat} (hnext : num ≠ s.nextTick ∨ s.pulseErr ≠ 0) (hsame : num ≠ s.tick.num ∨ 8 * s.now ≠ s.tick.phase8) :
    s.lockedPulse num = s.skew.flywheel.updTick fun t => { t with phaseErr := phaseSat s.pulseErr, lock := 3, cand := none } := by
  refine (if_neg ?_).trans (if_neg ?_)
  · rw [Bool.and_eq_true, decide_eq_true_iff, decide_eq_true_iff]
    exact Classical.not_and_iff_not_or_not.2 hnext
  · rw [Bool.and_eq_true, decide_eq_true_iff, decide_eq_true_iff]
    exact Classical.not_and_iff_not_or_not.2 hsame

theorem tickPulse_locked (hlive : s.inReset = false) (hstop : s.seq.stopReq = none) (hon : s.tickOn = true) (hrole : s.tickRole = 0)
    (hlock : s.tick.lock = 2) (num : BitVec 48) : execTickPulse num s = .next (s.lockedPulse num.toNat) := by
  rw [execTickPulse_eq hlive hstop, State.pulse_taken hon hrole, if_pos hlock]

/-- A skew fault at a follower. -/
theorem State.skewed_effect (s : State) (e : Int) :
    let u := s.skew.flywheel.updTick fun t => { t with phaseErr := phaseSat e, lock := 3, cand := none }
    Skews s u ∧ u.tick.num = s.tick.num ∧ u.seq = s.seq ∧ u.mods = s.mods := by
  obtain ⟨htick, hseq, hmods, -⟩ := s.skew_keeps
  obtain ⟨hnum, hseq', -⟩ := s.skew.flywheel_keeps
  exact ⟨s.skews_skew.congr s.skew.rg_flywheel, hnum.trans (congrArg Tick.num htick), hseq'.trans hseq, s.skew.mods_flywheel.trans hmods⟩

/-- A run that a measurement lengthens to four is adopted; a shorter one goes on. -/
theorem State.acquire_lengthens {c : Cand} (h : s.tick.cand = some c) {n : Nat} {ph8 : Int} (hn : n = (c.num + 1) % tickMod)
    (hlo : -1 ≤ ph8 - ((c.phase8 + 8 * s.period : Nat) : Int)) (hhi : ph8 - ((c.phase8 + 8 * s.period : Nat) : Int) ≤ 1) : s.acquire n ph8 =
    let t := s.updTick fun t => { t with phaseErr := phaseSat (ph8 - ((c.phase8 + 8 * s.period : Nat) : Int)) }
    if 4 ≤ c.run + 1 then t.adopt n (c.phase8 + 8 * s.period)
    else t.updTick fun t => { t with cand := some { num := n, phase8 := c.phase8 + 8 * s.period, run := c.run + 1 } } := by
  refine (State.acquire_next h n ph8).trans (if_pos ?_)
  rw [Bool.and_eq_true, Bool.and_eq_true, decide_eq_true_iff, decide_eq_true_iff, decide_eq_true_iff]
  exact ⟨⟨hn, hlo⟩, hhi⟩

/-- Any other measurement opens a run of its own. -/
theorem State.acquire_reopens {c : Cand} (h : s.tick.cand = some c) {n : Nat} {ph8 : Int}
    (hoff : n ≠ (c.num + 1) % tickMod ∨ ph8 - ((c.phase8 + 8 * s.period : Nat) : Int) < -1 ∨ 1 < ph8 - ((c.phase8 + 8 * s.period : Nat) : Int)) :
    s.acquire n ph8 =
      (s.updTick fun t => { t with phaseErr := phaseSat (ph8 - ((c.phase8 + 8 * s.period : Nat) : Int)) }).opened n ph8 := by
  refine (State.acquire_next h n ph8).trans (if_neg ?_)
  rw [Bool.and_eq_true, Bool.and_eq_true, decide_eq_true_iff, decide_eq_true_iff, decide_eq_true_iff]
  rintro ⟨⟨hn, hlo⟩, hhi⟩
  rcases hoff with h | h | h
  · exact h hn
  · omega
  · omega

theorem Tick.cand_acquire {t : Tick} (h : t.lock = 1) (c : Option Cand) : { t with cand := c } = ({ t with lock := 1, cand := c } : Tick) := by
  rw [← h]

/-- A pulse that opens a run. -/
theorem State.pulse_opens (hon : s.tickOn = true) (hrole : s.tickRole = 0) (hlock : s.tick.lock = 1 ∨ s.tick.lock = 3)
    (hopen : s.tick.cand = none ∨ s.tick.lock = 3) (num : Nat) :
    s.pulse num = { s with tick := { s.tick with lock := 1, cand := some { num := num, phase8 := 8 * s.now, run := 1 } } } := by
  rw [State.pulse_taken hon hrole]
  by_cases hfault : s.tick.lock = 3
  · rw [if_neg (by rw [hfault]; decide), if_pos hfault, State.acquire_first rfl]
    rfl
  · have hacq : s.tick.lock = 1 := hlock.resolve_right hfault
    rw [if_neg (by rw [hacq]; decide), if_neg hfault, State.acquire_first (hopen.resolve_right hfault), ← Tick.cand_acquire hacq]
    rfl

theorem State.pulse_acquires (hon : s.tickOn = true) (hrole : s.tickRole = 0) (hlock : s.tick.lock = 1) (num : Nat) :
    s.pulse num = s.acquire num (8 * s.now : Nat) := by
  rw [State.pulse_taken hon hrole, if_neg (by rw [hlock]; decide), if_neg (by rw [hlock]; decide)]

theorem nextSolOf_after (a p : Nat) : nextSolOf (a + 8 * p) p = (a + 16 * p) / 8 := by
  unfold nextSolOf
  congr 1
  omega

/-- Settles O19: a pulse at a LOCKED follower, and one in a run. -/
theorem tickPulseResult : Obligations.TickPulseResult := by
  unfold Obligations.TickPulseResult
  intro s num hlive hstop
  have hexec : ∀ {u}, s.pulse num.toNat = u → execTickPulse num s = .next u := fun h =>
    (execTickPulse_eq hlive hstop num).trans (congrArg Host.Outcome.next h)
  refine ⟨fun h => hexec (State.pulse_ignored h _), fun hon hrole => ?_⟩
  intro err
  refine ⟨fun hlock => ?_, fun hlock => ?_⟩
  · have hpulse : s.pulse num.toNat = s.lockedPulse num.toNat := (State.pulse_taken hon hrole _).trans (if_pos hlock)
    refine ⟨fun hnum herr => hexec (hpulse.trans (State.lockedPulse_solstice hnum herr)),
      fun hnum hnow hne => hexec (hpulse.trans (State.lockedPulse_same hnum hnow hne)), fun hnext hsame =>
      ⟨_, hexec (hpulse.trans (State.lockedPulse_skew hnext hsame)), rfl, rfl, rfl, ?_⟩⟩
    obtain ⟨⟨hbit, hirq, hcount⟩, hnum, hseq, hmods⟩ := s.skewed_effect err
    exact ⟨hbit, hcount, hirq, hnum, hseq, hmods⟩
  · intro opens
    refine ⟨fun hopen => hexec (State.pulse_opens hon hrole hlock hopen _), fun c hacq hcand => ?_⟩
    have hpulse := State.pulse_acquires hon hrole hacq num.toNat
    intro e sat
    refine ⟨fun hoff => hexec (hpulse.trans (State.acquire_reopens hcand hoff)), fun hnum hlo hhi => ?_⟩
    have hlonger := hpulse.trans (State.acquire_lengthens hcand hnum hlo hhi)
    refine ⟨fun hrun => hexec (hlonger.trans (if_neg (by omega))), fun hrun => ⟨_, hexec (hlonger.trans (if_pos (by omega))), ?_⟩⟩
    obtain ⟨⟨t, m, htick⟩, hg, hmods⟩ :=
      (s.updTick fun t => { t with phaseErr := sat }).adopt_effect num.toNat (c.phase8 + 8 * s.period) hstop
    exact ⟨(congrArg Tick.lock htick :), (congrArg Tick.num htick :), (congrArg Tick.phase8 htick :),
      (congrArg Tick.nextSol htick).trans (congrArg some (nextSolOf_after c.phase8 s.period)), (congrArg Tick.cand htick :), hg, hmods⟩

/-! ## The marker -/

theorem sgn_whole (n : Nat) : sgn 48 (n + tickMod - n) = 0 := by
  rw [Nat.add_sub_cancel_left]
  rfl

/-- The phase point that a marker shows. -/
def State.markerPoint (s : State) (m a off : Nat) : Int := (a : Int) - ((s.mod m).marker8 : Int) - (off : Int)

theorem State.marker_unused (hon : s.tickOn = true) (hopen : s.openMode = false) (hroot : s.tickRole ≠ 2) {m : Nat}
    (hsrc : s.tickRole ≠ 1 ∨ m ≠ s.rf 0x2000 11 8) (n a off : Nat) : s.marker m n a off = s := by
  refine (if_neg (by simp [hon, hopen])).trans ((if_neg hroot).trans (if_neg ?_))
  rw [Bool.and_eq_true, decide_eq_true_iff, decide_eq_true_iff]
  exact Classical.not_and_iff_not_or_not.2 hsrc

theorem State.marker_root (hon : s.tickOn = true) (hopen : s.openMode = false) (hroot : s.tickRole = 2) (m n a off : Nat) :
    s.marker m n a off = s.when s.locked (·.measure n (s.markerPoint m a off)) :=
  (if_neg (by simp [hon, hopen])).trans (if_pos hroot)

/-- The relay that a marker of SRC_MODULE has reached. -/
def State.reached (s : State) : State := s.updTick fun t => { t with got := true, miss := 0 }

theorem State.marker_relay (hon : s.tickOn = true) (hopen : s.openMode = false) (hrole : s.tickRole = 1) {m : Nat} (hsrc : s.rf 0x2000 11 8 = m)
    (n a off : Nat) : s.marker m n a off =
      if s.tick.lock = 2 then s.reached.measure n (s.markerPoint m a off)
      else if s.tick.lock = 3 then (s.reached.updTick fun t => { t with lock := 1, cand := none }).acquire n (s.markerPoint m a off)
      else s.reached.acquire n (s.markerPoint m a off) :=
  (if_neg (by simp [hon, hopen])).trans ((if_neg (by omega)).trans (if_pos (by simp [hrole, hsrc])))

/-- The error of a measured phase point for tick n. -/
def State.pointErr (s : State) (n : Nat) (ph8 : Int) : Int :=
  ph8 - ((s.tick.phase8 : Int) + sgn 48 (n + tickMod - s.tick.num) * (8 * s.period : Nat))

/-- For the own tick the error is that from the phase point. -/
theorem State.pointErr_own (s : State) (ph8 : Int) : s.pointErr s.tick.num ph8 = ph8 - (s.tick.phase8 : Int) := by
  rw [State.pointErr, sgn_whole]
  omega

/-- The tick with a measured error. -/
def State.measured (s : State) (n : Nat) (ph8 : Int) : State := s.updTick fun t => { t with phaseErr := phaseSat (s.pointErr n ph8) }

/-- A relay corrected by an error. -/
def State.corrected (s : State) (e : Int) : State := s.updTick fun t =>
  { t with phase8 := ((t.phase8 : Int) + e).toNat, nextSol := some (nextSolOf ((t.phase8 : Int) + e).toNat s.period) }

/-- What the measured error of tick n does. -/
def State.judgePoint (s : State) (n : Nat) (e : Int) : State :=
  if n = s.tick.num && decide (-4 ≤ e) && decide (e ≤ 4) then
    if s.tickRole = 2 then s else s.corrected e
  else s.skew.when (s.tickRole != 2) (·.updTick fun t => { t with lock := 3 })

theorem State.measure_eq (s : State) (n : Nat) (ph8 : Int) : s.measure n ph8 = (s.measured n ph8).judgePoint n (s.pointErr n ph8) := by
  unfold State.measure State.judgePoint State.measured State.pointErr State.corrected
  rfl

/-- A marker of the own tick within half a cc corrects a relay, and leaves a root. -/
theorem State.judgePoint_near {n : Nat} {e : Int} (hn : n = s.tick.num) (hlo : -4 ≤ e) (hhi : e ≤ 4) :
    s.judgePoint n e = if s.tickRole = 2 then s else s.corrected e :=
  if_pos (by simp [hn, hlo, hhi])

/-- Any other marker is a skew fault. -/
theorem State.judgePoint_far {n : Nat} {e : Int} (hoff : n ≠ s.tick.num ∨ e < -4 ∨ 4 < e) :
    s.judgePoint n e = s.skew.when (s.tickRole != 2) (·.updTick fun t => { t with lock := 3 }) := by
  refine if_neg ?_
  rw [Bool.and_eq_true, Bool.and_eq_true, decide_eq_true_iff, decide_eq_true_iff, decide_eq_true_iff]
  rintro ⟨⟨hn, hlo⟩, hhi⟩
  rcases hoff with h | h | h
  · exact h hn
  · omega
  · omega

/-- A marker that names another tick than the own one, or is further off than half a cc. -/
def State.farMarker (s : State) (n : Nat) (ph8 : Int) : Prop :=
  n ≠ s.tick.num ∨ ph8 - (s.tick.phase8 : Int) < -4 ∨ 4 < ph8 - (s.tick.phase8 : Int)

theorem State.measure_far {n : Nat} {ph8 : Int} (h : s.farMarker n ph8) :
    s.measure n ph8 = (s.measured n ph8).skew.when (s.tickRole != 2) (·.updTick fun t => { t with lock := 3 }) := by
  rw [s.measure_eq]
  refine State.judgePoint_far ?_
  by_cases hn : n = s.tick.num
  · subst hn
    rw [s.pointErr_own]
    exact h
  · exact .inl hn

theorem State.measure_near {n : Nat} {ph8 : Int} (h : ¬s.farMarker n ph8) :
    s.measure n ph8 = if s.tickRole = 2 then s.measured n ph8 else (s.measured n ph8).corrected (ph8 - (s.tick.phase8 : Int)) := by
  obtain ⟨hn, hdist⟩ := not_or.1 h
  have hn : n = s.tick.num := Decidable.not_not.1 hn
  subst hn
  rw [s.measure_eq, s.pointErr_own]
  exact State.judgePoint_near rfl (by omega) (by omega)

theorem State.skews_measured (s : State) (n : Nat) (ph8 : Int) : Skews s (s.measured n ph8).skew := (s.measured n ph8).skews_skew

theorem State.tick_measured_skew (s : State) (n : Nat) (ph8 : Int) :
    (s.measured n ph8).skew.tick = { s.tick with phaseErr := phaseSat (s.pointErr n ph8) } := (s.measured n ph8).skew_keeps.1

/-- A root measures a marker and keeps its phase, its tick and its lock. -/
theorem State.measure_root (hrole : s.tickRole = 2) (n : Nat) (ph8 : Int) :
    (s.measure n ph8).tick = { s.tick with phaseErr := phaseSat (s.pointErr n ph8) } ∧
    (¬s.farMarker n ph8 → (s.measure n ph8).regs = s.regs) ∧ (s.farMarker n ph8 → Skews s (s.measure n ph8)) := by
  by_cases hfar : s.farMarker n ph8
  · have hm : s.measure n ph8 = (s.measured n ph8).skew := by rw [State.measure_far hfar, hrole, bne_self_eq_false, State.when_false]
    rw [hm]
    exact ⟨s.tick_measured_skew n ph8, absurd hfar, fun _ => s.skews_measured n ph8⟩
  · have hm : s.measure n ph8 = s.measured n ph8 := by rw [State.measure_near hfar, if_pos hrole]
    rw [hm]
    exact ⟨rfl, fun _ => rfl, fun hc => absurd hc hfar⟩

/-- A LOCKED relay is corrected by a near marker, and goes to FAULT at a far one. -/
theorem State.measure_relay (hrole : s.tickRole ≠ 2) (n : Nat) (ph8 : Int) : (s.measure n ph8).tick.num = s.tick.num ∧
    (¬s.farMarker n ph8 → (s.measure n ph8).tick.phase8 = ((s.tick.phase8 : Int) + (ph8 - (s.tick.phase8 : Int))).toNat ∧
      (s.measure n ph8).tick.nextSol = some (((s.measure n ph8).tick.phase8 + 8 * s.period) / 8) ∧ (s.measure n ph8).tick.lock = s.tick.lock ∧
      (s.measure n ph8).regs = s.regs) ∧
    (s.farMarker n ph8 → (s.measure n ph8).tick.lock = 3 ∧ (s.measure n ph8).tick.phase8 = s.tick.phase8 ∧ Skews s (s.measure n ph8)) := by
  by_cases hfar : s.farMarker n ph8
  · have hm : s.measure n ph8 = (s.measured n ph8).skew.updTick fun t => { t with lock := 3 } := by
      rw [State.measure_far hfar, bne_iff_ne.2 hrole, State.when_true]
    have htick := s.tick_measured_skew n ph8
    rw [hm]
    exact ⟨(congrArg Tick.num htick :), absurd hfar, fun _ => ⟨rfl, (congrArg Tick.phase8 htick :), s.skews_measured n ph8⟩⟩
  · have hm : s.measure n ph8 = (s.measured n ph8).corrected (ph8 - (s.tick.phase8 : Int)) := by rw [State.measure_near hfar, if_neg hrole]
    rw [hm]
    exact ⟨rfl, fun _ => ⟨rfl, rfl, rfl, rfl⟩, fun hc => absurd hc hfar⟩

theorem State.Accepts.rxFlit {m : Nat} {f g : List Byte} {fixed : List Nat} {seed : Nat} (h : s.Accepts m f g fixed seed)
    (act : List Byte → List Nat → Nat → State → State) : s.rxFlit m f act = act g fixed seed s := by
  unfold State.rxFlit
  rw [h.good]

/-- A control flit of a subtype acts on the block that has heard it. -/
theorem State.Accepts.rxCtrl {m sub : Nat} {f g : List Byte} {fixed : List Nat} {seed : Nat} (h : s.Accepts m f g fixed seed)
    (htype : flitType g = 3) (hsub : (g.getD 4 0).toNat = sub) (act : List Byte → State → State) :
    liveWf (flitWf m f) s (·.rxCtrl m f sub act) = .next (act g (s.heard m g fixed)) := by
  have hcond : (flitType g = 3 && (g.getD 4 0).toNat = sub) = true := by rw [htype, hsub, decide_eq_true rfl, decide_eq_true rfl, Bool.true_and]
  rw [liveWf_eq h.wire h.live, State.rxCtrl, h.rxFlit, if_pos hcond]
  rfl

/-- A heard flit leaves what surrounds the block. -/
theorem State.env_heard (s : State) (m : Nat) (g : List Byte) (fixed : List Nat) : (s.heard m g fixed).env = s.env :=
  ((s.rxCommon_kept m g fixed).trans ((s.rxCommon m g fixed).takeFlags_kept m g)).env

theorem execTickMarker_eq {m : Nat} {f g : List Byte} {fixed : List Nat} {seed : Nat} {frac : BitVec 3} (h : s.Accepts m f g fixed seed)
    (htype : flitType g = 3) (hsub : (g.getD 4 0).toNat = 1) : execTickMarker m f frac s =
      .next ((s.heard m g fixed).marker m (leAt g 6 6) (8 * s.now + frac.toNat) (leAt g 12 2)) := by
  have hnow : (s.heard m g fixed).now = s.now := congrArg Env.now (s.env_heard m g fixed)
  rw [execTickMarker, h.rxCtrl htype hsub, hnow]

/-- The near markers, in the terms of the statement. -/
theorem State.not_farMarker {n : Nat} {ph8 : Int} (hn : n = s.tick.num) (hlo : -4 ≤ ph8 - (s.tick.phase8 : Int))
    (hhi : ph8 - (s.tick.phase8 : Int) ≤ 4) : ¬s.farMarker n ph8 := by
  rintro (h | h | h)
  · exact h hn
  · omega
  · omega

end

/-- Settles O20: the marker on the link, and by role and lock. -/
theorem markerResult : Obligations.MarkerResult := by
  unfold Obligations.MarkerResult
  intro s m f g fixed seed frac hacc
  refine ⟨execTickMarker_eq hacc, fun u n a off hon hopen => ?_⟩
  intro v ph e skews
  refine ⟨fun hrole => ?_, fun hrole hsrc => ?_, fun hrole hsrc hlock => ?_, fun hrole hsrc hlock hcand => ?_, fun hrole hfree => ?_,
    fun hrole hlocked => ?_⟩
  · exact State.marker_unused hon hopen (by omega) (.inl (by omega)) n a off
  · exact State.marker_unused hon hopen (by omega) (.inr (Ne.symm hsrc)) n a off
  · have hv : v = u.reached.measure n ph := (State.marker_relay hon hopen hrole hsrc n a off).trans (if_pos hlock)
    have hrelay : u.reached.tickRole ≠ 2 := fun hroot => absurd (hrole.symm.trans hroot) (by decide)
    obtain ⟨hnum, hnear, hfar⟩ := u.reached.measure_relay hrelay n ph
    have hskews : Skews u (u.reached.measure n ph) → skews := fun h => (hv ▸ h : Skews u v)
    rw [hv]
    refine ⟨hnum, fun hn hlo hhi => ?_, fun h => ?_⟩
    rotate_left
    · obtain ⟨hlock', hphase, hs⟩ := hfar h
      exact ⟨hlock', hphase, hskews hs⟩
    obtain ⟨hphase, hnext, hlock', hregs⟩ := hnear (State.not_farMarker hn hlo hhi)
    exact ⟨hphase, hnext, hlock'.trans hlock, hregs⟩
  · have hv : v = u.reached.opened n ph := by
      refine (State.marker_relay hon hopen hrole hsrc n a off).trans ?_
      rw [if_neg (by rw [hlock]; decide), if_neg (by rw [hlock]; decide)]
      exact State.acquire_first (s := u.reached) hcand n ph
    rw [hv]
    exact ⟨rfl, rfl⟩
  · exact (State.marker_root hon hopen hrole m n a off).trans (by rw [hfree, State.when_false])
  · have hv : v = u.measure n ph := (State.marker_root hon hopen hrole m n a off).trans (by rw [hlocked, State.when_true]; rfl)
    obtain ⟨htick, hnear, hfar⟩ := State.measure_root hrole n ph
    have hskews : Skews u (u.measure n ph) → skews := fun h => (hv ▸ h : Skews u v)
    rw [hv]
    refine ⟨by rw [htick], fun hn => ?_, fun hn hlo hhi => hnear (State.not_farMarker hn hlo hhi), fun h => hskews (hfar h)⟩
    subst hn
    rw [htick, u.pointErr_own]
    rfl

end Sys2Proof.Machine
end

section
/-! Accesses of the configuration port, and the merge buffer (R502, R503, R594, R608 to R615). -/
namespace Sys2Proof.Machine

section
variable {s : State} {o : Nat} {d : W32} {r q : RegRow}

/-! ## The halves of a word -/

/-- The half of a 64-bit register that a word is; 0 for a 32-bit register. -/
def halfOf (x : Member) (o : Nat) : Nat := ((regRow (modules x) o).map (·.half)).getD 0

theorem halfOf_row (x : Member) (hr : regRow (modules x) o = some r) : halfOf x o = r.half := by
  rw [halfOf, hr]
  rfl

/-- The low half that a write of the high half takes from the write latch. -/
def State.latched (s : State) (o : Nat) : Option W32 := s.portWr.bind fun h => if h.1 + 4 = o then some h.2 else none

/-- A write of a word that is not merged, by its half. -/
def State.writeHalf (s : State) (half o : Nat) (d : W32) : State :=
  match half with
  | 1 => { s.accessed.clearW1c o d with portWr := some (o, d) }
  | 2 => (s.accessed.clearW1c o d).apply64 (o - 4) (s.latched o) d
  | _ => s.accessed.write32 o d

theorem State.writeHalf_word (s : State) (o : Nat) (d : W32) : s.writeHalf 0 o d = s.accessed.write32 o d := rfl

theorem State.writeHalf_low (s : State) (o : Nat) (d : W32) :
    s.writeHalf 1 o d = { s.accessed.clearW1c o d with portWr := some (o, d) } := rfl

theorem State.writeHalf_high (s : State) (o : Nat) (d : W32) :
    s.writeHalf 2 o d = (s.accessed.clearW1c o d).apply64 (o - 4) (s.latched o) d := rfl

theorem State.portWrite_eq (hstop : s.seq.stopReq = none) (hm : merges o = false) : s.portWrite o d = s.writeHalf (halfOf s.member o) o d := by
  unfold State.portWrite
  simp only [State.settle_none hstop, hm, Bool.false_eq_true, if_false]
  rfl

theorem execCfgPortWrite_eq (h : s.cfgReady = true) (hstop : s.seq.stopReq = none) {off : BitVec 20} (ho : wordOff off = o)
    (hm : merges o = false) : execCfgPortWrite off d s = .next ((s.writeHalf (halfOf s.member o) o d).cfgAnswer 32 0) := by
  rw [execCfgPortWrite, portTake_ready h, ho, State.portWrite_eq hstop hm]

/-! ## The fields of a word -/

theorem State.hitBits_none (h : s.hits = []) (o : Nat) : s.hitBits o = 0 := by
  rw [State.hitBits, h]
  rfl

theorem State.reHit_none (h : s.hits = []) (o : Nat) (rw : W32) : s.reHit o rw = s := by
  rw [State.reHit, h]
  rfl

theorem and_not_zero (w : W32) : w &&& ~~~(0 : W32) = w := BitVec.and_allOnes

/-- Of no bits of a word none is cleared. -/
theorem clear_none (w d : W32) : w &&& ~~~(d &&& 0) = w := (congrArg (fun x => w &&& ~~~x) BitVec.and_zero).trans (and_not_zero w)

/-- Of no bits of a word none is replaced. -/
theorem replace_none (w d : W32) : (w &&& ~~~(0 : W32)) ||| (d &&& 0) = w := by
  rw [and_not_zero]
  exact (congrArg (w ||| ·) BitVec.and_zero).trans BitVec.or_zero

/-- A freed entry of the error log is no longer to be rewritten. -/
def State.unlogged (s : State) (o : Nat) (d : W32) : State :=
  match arr 0xC0100 0x20 16 o with
  | some (n, 4) => if bit d 31 then { s with ecc := { s.ecc with pend := s.ecc.pend.filter (· != n) } } else s
  | _ => s

theorem State.unlogged_ecc (s : State) (o : Nat) (d : W32) : ∃ ecc, s.unlogged o d = { s with ecc := ecc } := by
  unfold State.unlogged
  split
  · split
    · exact ⟨_, rfl⟩
    · exact ⟨s.ecc, rfl⟩
  · exact ⟨s.ecc, rfl⟩

/-- A word whose W1C fields are cleared. -/
def State.w1cDone (s : State) (o : Nat) (mask : W32) (d : W32) : State := if mask = 0 then s else s.clrBits o (d &&& mask)

theorem State.w1cDone_effect (s : State) (o : Nat) (mask d : W32) : ∃ regs, s.w1cDone o mask d = { s with regs := regs } ∧
    (mask = 0 → regs = s.regs) ∧ (s.w1cDone o mask d).rg o = s.rg o &&& ~~~(d &&& mask) ∧ ∀ k, k ≠ o → (s.w1cDone o mask d).rg k = s.rg k := by
  unfold State.w1cDone
  split
  · next h =>
    subst h
    exact ⟨s.regs, rfl, fun _ => rfl, (clear_none _ _).symm, fun _ _ => rfl⟩
  · next h => exact ⟨_, rfl, fun hm => absurd hm h, State.rg_setRg_same .., fun k hk => State.rg_setRg_other _ _ (Ne.symm hk)⟩

theorem State.clearW1c_eq (hr : regRow (modules s.member) o = some r) (hoff : o < 0x30400 ∨ 0x30600 ≤ o) (hhits : s.hits = []) :
    s.clearW1c o d = (s.w1cDone o r.w1c d).unlogged o d := by
  have hout : ¬(0x30400 ≤ o ∧ o < 0x30600) := by omega
  unfold State.clearW1c
  simp only [hr, State.hitBits_none hhits, if_neg hout]
  rw [and_not_zero]
  rfl

/-- A write clears the W1C fields of its word where it writes a 1; it may take an entry of the error log off the list to be rewritten. -/
theorem State.clearW1c_effect (hr : regRow (modules s.member) o = some r) (hoff : o < 0x30400 ∨ 0x30600 ≤ o) (hhits : s.hits = []) :
    ∃ regs ecc, s.clearW1c o d = { s with regs := regs, ecc := ecc } ∧ (r.w1c = 0 → regs = s.regs) ∧
      (s.clearW1c o d).rg o = s.rg o &&& ~~~(d &&& r.w1c) ∧ ∀ k, k ≠ o → (s.clearW1c o d).rg k = s.rg k := by
  obtain ⟨regs, hregs, hsame, hrg, hother⟩ := s.w1cDone_effect o r.w1c d
  obtain ⟨ecc, hecc⟩ := (s.w1cDone o r.w1c d).unlogged_ecc o d
  have hkeep : ∀ k, ((s.w1cDone o r.w1c d).unlogged o d).rg k = (s.w1cDone o r.w1c d).rg k := fun k => by rw [hecc]; rfl
  rw [State.clearW1c_eq hr hoff hhits, hkeep]
  exact ⟨regs, ecc, by rw [hecc, hregs], hsame, hrg, fun k hk => (hkeep k).trans (hother k hk)⟩

/-- The RW fields of a word take what is written. -/
theorem State.storeWord_effect (hr : regRow (modules s.member) o = some r) (hrws : r.rws = 0) (hhits : s.hits = []) :
    ∃ regs, s.storeWord o d = { s with regs := regs } ∧ (s.storeWord o d).rg o = ((s.rg o &&& ~~~r.rw) ||| (d &&& r.rw)) ∧
      ∀ k, k ≠ o → (s.storeWord o d).rg k = s.rg k := by
  unfold State.storeWord
  simp only [hr, hrws, if_true]
  split
  · next h0 =>
    exact ⟨s.regs, rfl, by rw [h0, replace_none], fun _ _ => rfl⟩
  · rw [State.reHit_none (s := s.setRg o _) hhits]
    exact ⟨_, rfl, State.rg_setRg_same .., fun k hk => State.rg_setRg_other _ _ (Ne.symm hk)⟩

/-! ## A write of a 32-bit register -/

theorem State.write32_plain (hspec : s.writeSpecial o d = none) (hflow : o ≠ 0x20008) (htwin : o ≠ 0x90000) :
    s.write32 o d = (s.clearW1c o d).storeWord o (limited s.member o d) := by
  unfold State.write32
  rw [hspec]
  dsimp only
  rw [beq_eq_false_iff_ne.2 hflow, beq_eq_false_iff_ne.2 htwin, State.when_false, State.when_false]

/-- A register without shadow fields whose write does no more takes its W1C and RW fields. -/
theorem State.write32_effect (hr : regRow (modules s.member) o = some r) (hspec : s.writeSpecial o d = none)
    (hoff : o < 0x30400 ∨ 0x30600 ≤ o) (hhits : s.hits = []) (hflow : o ≠ 0x20008) (htwin : o ≠ 0x90000) (hrws : r.rws = 0) :
    ∃ regs ecc, s.write32 o d = { s with regs := regs, ecc := ecc } ∧
      (s.write32 o d).rg o = (((s.rg o &&& ~~~(d &&& r.w1c)) &&& ~~~r.rw) ||| (limited s.member o d &&& r.rw)) ∧
      ∀ k, k ≠ o → (s.write32 o d).rg k = s.rg k := by
  obtain ⟨regs, ecc, hclear, -, hrg, hother⟩ := State.clearW1c_effect (d := d) hr hoff hhits
  have hr' : regRow (modules (s.clearW1c o d).member) o = some r := by rw [hclear]; exact hr
  have hhits' : (s.clearW1c o d).hits = [] := by rw [hclear]; exact hhits
  obtain ⟨regs', hstore, hrg', hother'⟩ := State.storeWord_effect (d := limited s.member o d) hr' hrws hhits'
  rw [State.write32_plain hspec hflow htwin]
  exact ⟨regs', ecc, hstore.trans (by rw [hclear]), hrg'.trans (by rw [hrg]), fun k hk => (hother' k hk).trans (hother k hk)⟩

/-- What an access of the port leaves behind: its answer, and empty latches. -/
def State.AnsweredBy (s t : State) : Prop := t.cfgq = s.cfgq ++ [(s.now + 32, 0)] ∧ t.portRd = none ∧ t.portWr = none

/-- A write of a register without shadow fields. -/
theorem portWrite_plain (h : s.cfgReady = true) (hstop : s.seq.stopReq = none) {off : BitVec 20} (ho : wordOff off = o) (hm : merges o = false)
    (hr : regRow (modules s.member) o = some r) (hhalf : r.half = 0) (hspec : s.accessed.writeSpecial o d = none)
    (hoff : o < 0x30400 ∨ 0x30600 ≤ o) (hhits : s.hits = []) (hflow : o ≠ 0x20008) (htwin : o ≠ 0x90000) (hrws : r.rws = 0) :
    ∃ t, execCfgPortWrite off d s = .next t ∧
      t.rg o = (((s.rg o &&& ~~~(d &&& r.w1c)) &&& ~~~r.rw) ||| (limited s.member o d &&& r.rw)) ∧ (∀ k, k ≠ o → t.rg k = s.rg k) ∧
      s.AnsweredBy t ∧ t.seq = s.seq ∧ t.mods = s.mods ∧ t.shadow = s.shadow := by
  have hexec := execCfgPortWrite_eq (d := d) h hstop ho hm
  rw [halfOf_row _ hr, hhalf, State.writeHalf_word] at hexec
  obtain ⟨regs, ecc, hwrite, hrg, hother⟩ := State.write32_effect (s := s.accessed) hr hspec hoff hhits hflow htwin hrws
  rw [hwrite] at hexec hrg
  exact ⟨_, hexec, hrg, fun k hk => (congrArg (·.rg k) hwrite.symm).trans (hother k hk), ⟨rfl, rfl, rfl⟩, rfl, rfl, rfl⟩

/-! ## A write of shadow fields -/

/-- A shadow write of a word of the window sets its shadow fields and nothing else of the two banks. -/
theorem State.shadowWrite_effect (s : State) (o : Nat) (d : W32) :
    (s.shadowWrite o d).sh o = ((s.sh o &&& ~~~rwsMask (modules s.member) o) ||| (d &&& rwsMask (modules s.member) o)) ∧
    (∀ k, k ≠ o → (s.shadowWrite o d).sh k = s.sh k) ∧ (s.shadowWrite o d).regs = s.regs ∧ (s.shadowWrite o d).seq = s.seq ∧
    (s.shadowWrite o d).mods = s.mods ∧ (s.shadowWrite o d).cfgq = s.cfgq ∧ (s.shadowWrite o d).now = s.now ∧
    (s.shadowWrite o d).portRd = s.portRd ∧ (s.shadowWrite o d).portWr = s.portWr := by
  unfold State.shadowWrite
  dsimp only
  split
  · next h0 => exact ⟨by rw [h0, replace_none], fun _ _ => rfl, rfl, rfl, rfl, rfl, rfl, rfl, rfl⟩
  · exact ⟨State.sh_setSh_same .., fun k hk => State.sh_setSh_other _ _ (Ne.symm hk), rfl, rfl, rfl, rfl, rfl, rfl, rfl⟩

theorem State.eccWritten_upset (s : State) (id i : Nat) : ∃ u, s.eccWritten id i = { s with upset := u } := by
  unfold State.eccWritten
  split
  · exact ⟨s.upset, rfl⟩
  · exact ⟨_, rfl⟩

/-- Writes of protected words with fresh check bits change nothing but the upsets. -/
theorem each_eccWritten (ws : List (Nat × Nat)) (s : State) : ∃ u, s.each ws (fun s w => s.eccWritten w.1 w.2) = { s with upset := u } := by
  induction ws generalizing s with
  | nil => exact ⟨s.upset, rfl⟩
  | cons w ws ih =>
    obtain ⟨u, hu⟩ := ih (s.eccWritten w.1 w.2)
    obtain ⟨v, hv⟩ := s.eccWritten_upset w.1 w.2
    exact ⟨u, hu.trans (by rw [hv])⟩

/-- A shadow write that lands in a swept block. -/
theorem State.landShadow_effect (hm : merges o = false) (hswept : s.sweepDone = true) : ∃ u, s.landShadow o d = ({ s with upset := u } : State).shadowWrite o d := by
  have hcal : inCal o = false := (Bool.or_eq_false_iff.1 hm).2
  obtain ⟨u, hu⟩ := each_eccWritten ((memWords o).filter fun w => !s.uncorr w.1 w.2) s
  unfold State.landShadow
  rw [hswept, hcal, Bool.not_true, Bool.false_and, if_neg Bool.false_ne_true, if_neg Bool.false_ne_true]
  exact ⟨u, congrArg (·.shadowWrite o d) hu⟩

/-- A write of a register with shadow fields only. -/
theorem State.write32_shadow (hr : regRow (modules s.member) o = some r) (hspec : s.writeSpecial o d = none)
    (hoff : o < 0x30400 ∨ 0x30600 ≤ o) (hhits : s.hits = []) (hflow : o ≠ 0x20008) (htwin : o ≠ 0x90000) (hrws : r.rws ≠ 0) (hrw : r.rw = 0)
    (hw1c : r.w1c = 0) : ∃ ecc, s.write32 o d = ({ s with ecc := ecc } : State).portShadow o (limited s.member o d) := by
  obtain ⟨regs, ecc, hclear, hsame, -, -⟩ := State.clearW1c_effect (d := d) hr hoff hhits
  rw [hsame hw1c] at hclear
  refine ⟨ecc, ?_⟩
  rw [State.write32_plain hspec hflow htwin, hclear, State.storeWord]
  have hr' : regRow (modules ({ s with ecc := ecc } : State).member) o = some r := hr
  simp only [hr', hrw, if_true, if_neg hrws]

theorem portWrite_shadow (h : s.cfgReady = true) (hstop : s.seq.stopReq = none) {off : BitVec 20} (ho : wordOff off = o) (hm : merges o = false)
    (hr : regRow (modules s.member) o = some r) (hhalf : r.half = 0) (hspec : s.accessed.writeSpecial o d = none)
    (hoff : o < 0x30400 ∨ 0x30600 ≤ o) (hhits : s.hits = []) (hflow : o ≠ 0x20008) (htwin : o ≠ 0x90000) (hrws : r.rws ≠ 0) (hrw : r.rw = 0)
    (hw1c : r.w1c = 0) (hswept : s.sweepDone = true) :
    (s.solNow = false → ∃ t, execCfgPortWrite off d s = .next t ∧ t.sh o = ((s.sh o &&& ~~~r.rws) ||| (limited s.member o d &&& r.rws)) ∧
      (∀ k, k ≠ o → t.sh k = s.sh k) ∧ t.regs = s.regs ∧ s.AnsweredBy t ∧ t.seq = s.seq ∧ t.mods = s.mods) ∧
    (s.solNow = true → ∃ t, execCfgPortWrite off d s = .next t ∧ t.shadow = s.shadow ∧ t.regs = s.regs ∧
      t.cc.hold = s.cc.hold ++ [(o, limited s.member o d)] ∧ s.AnsweredBy t) := by
  have hexec := execCfgPortWrite_eq (d := d) h hstop ho hm
  obtain ⟨ecc, hwrite⟩ := State.write32_shadow (s := s.accessed) hr hspec hoff hhits hflow htwin hrws hrw hw1c
  rw [halfOf_row _ hr, hhalf, State.writeHalf_word, hwrite, State.portShadow] at hexec
  have hmask : rwsMask (modules s.member) o = r.rws := by rw [rwsMask, hr]
  have hsol : ({ s.accessed with ecc := ecc } : State).solNow = s.solNow := rfl
  have hmember : s.accessed.member = s.member := rfl
  rw [hsol, hmember] at hexec
  refine ⟨fun hno => ?_, fun hyes => ?_⟩
  · obtain ⟨u, hland⟩ := State.landShadow_effect (s := { s.accessed with ecc := ecc }) (d := limited s.member o d) hm hswept
    obtain ⟨hsh, hother, hregs, hseq, hmods, hq, hnow, hrd, hwr⟩ :=
      State.shadowWrite_effect { s.accessed with ecc := ecc, upset := u } o (limited s.member o d)
    rw [if_neg (Bool.eq_false_iff.1 hno), hland] at hexec
    exact ⟨_, hexec, hsh.trans (by rw [← hmask]; rfl), hother, hregs, ⟨by rw [State.cfgAnswer, hq, hnow]; rfl, hrd, hwr⟩, hseq, hmods⟩
  · rw [if_pos hyes] at hexec
    exact ⟨_, hexec, rfl, rfl, rfl, rfl, rfl, rfl⟩

/-! ## Writes of 64-bit registers -/

/-- The low half of a 64-bit register waits in the write latch. -/
theorem portWrite_lowHalf (h : s.cfgReady = true) (hstop : s.seq.stopReq = none) {off : BitVec 20} (ho : wordOff off = o) (hm : merges o = false)
    (hr : regRow (modules s.member) o = some r) (hhalf : r.half = 1) (hw1c : r.w1c = 0) (hoff : o < 0x30400 ∨ 0x30600 ≤ o) (hhits : s.hits = []) :
    ∃ t, execCfgPortWrite off d s = .next t ∧ t.portWr = some (o, d) ∧ t.portRd = none ∧ t.regs = s.regs ∧ t.shadow = s.shadow ∧ t.g = s.g := by
  have hexec := execCfgPortWrite_eq (d := d) h hstop ho hm
  obtain ⟨regs, ecc, hclear, hsame, -, -⟩ := State.clearW1c_effect (s := s.accessed) (d := d) hr hoff hhits
  rw [hsame hw1c] at hclear
  rw [halfOf_row _ hr, hhalf, State.writeHalf_low, hclear] at hexec
  exact ⟨_, hexec, rfl, rfl, rfl, rfl, rfl⟩

/-- Rows of high halves hold words at odd multiples of 4. -/
theorem regRows_high : ∀ r ∈ regRows, r.half = 2 → r.off % 8 = 4 ∧ r.st % 8 = 0 ∧ r.st2 % 8 = 0 := by
  simp only [regRows, List.forall_mem_append]
  refine ⟨⟨⟨⟨⟨⟨⟨⟨⟨⟨⟨⟨?_, ?_⟩, ?_⟩, ?_⟩, ?_⟩, ?_⟩, ?_⟩, ?_⟩, ?_⟩, ?_⟩, ?_⟩, ?_⟩, ?_⟩ <;> decide

theorem high_of_row {x : Member} (hr : regRow (modules x) o = some r) (h : r.half = 2) : o % 8 = 4 := by
  obtain ⟨hoff, hst, hst2⟩ := regRows_high r (List.mem_of_find?_eq_some hr) h
  have hhit : r.hit (modules x) o = true := List.find?_some (p := (RegRow.hit · (modules x) o)) hr
  simp only [RegRow.hit, Bool.and_eq_true, decide_eq_true_iff] at hhit
  obtain ⟨hle, ⟨⟨hsum, -⟩, -⟩, -⟩ := hhit
  generalize (if r.st = 0 then 0 else (o - r.off) / r.st) = i at hsum
  generalize (if r.st2 = 0 then 0 else (o - r.off - i * r.st) / r.st2) = j at hsum
  have hi : i * r.st % 8 = 0 := by rw [Nat.mul_mod, hst, Nat.mul_zero]
  have hj : j * r.st2 % 8 = 0 := by rw [Nat.mul_mod, hst2, Nat.mul_zero]
  omega

theorem arr_none {base st n : Nat} (h : o < base ∨ base + st * n ≤ o) (hst : 0 < st) : arr base st n o = none := by
  refine if_neg ?_
  rintro ⟨hle, hlt⟩
  have hdiv := (Nat.div_lt_iff_lt_mul hst).1 hlt
  rw [Nat.mul_comm n st] at hdiv
  omega

/-- The low half that a write of the high half stores. -/
def State.storeLow (s : State) (o : Nat) (lo : Option W32) : State :=
  match lo with
  | some v => s.storeWord o v
  | none => s

theorem State.storeLow_effect (hq : regRow (modules s.member) o = some q) (hrws : q.rws = 0) (hhits : s.hits = []) (lo : Option W32) :
    ∃ regs, s.storeLow o lo = { s with regs := regs } ∧ (∀ v, lo = some v → (s.storeLow o lo).rg o = ((s.rg o &&& ~~~q.rw) ||| (v &&& q.rw))) ∧
      ∀ k, (lo = none ∨ k ≠ o) → (s.storeLow o lo).rg k = s.rg k := by
  cases lo with
  | none => exact ⟨s.regs, rfl, fun v hv => (nomatch hv), fun _ _ => rfl⟩
  | some v =>
    obtain ⟨regs, hstore, hrg, hother⟩ := State.storeWord_effect (d := v) hq hrws hhits
    exact ⟨regs, hstore, fun _ hv => Option.some.inj hv ▸ hrg, fun k hk => hother k (hk.resolve_left (Option.some_ne_none v))⟩

/-- A 64-bit register beside the files of registers, counters and dispatch slots. -/
theorem State.apply64_plain (lo : Option W32) (hi : W32) (hg : o < 0x30100 ∨ 0x30600 ≤ o) (hslot : o < 0x70380 ∨ 0x703C0 ≤ o) (hcarve : o ≠ 0x80008) :
    s.apply64 o lo hi = (s.storeLow o lo).storeWord (o + 4) hi := by
  have hcond : ¬(o = 0x80008 ∧ s.rpcOn) := fun hc => hcarve hc.1
  unfold State.apply64
  simp only [arr_none (o := o) (base := 0x30100) (st := 8) (n := 32) (by omega) (by decide),
    arr_none (o := o) (base := 0x30400) (st := 8) (n := 64) (by omega) (by decide),
    arr_none (o := o) (base := 0x70380) (st := 0x10) (n := 4) (by omega) (by decide), if_neg hcond]
  rfl

/-- The high half of a 64-bit register: its fields, and those of the held low half. -/
theorem State.writeHigh_effect (hr : regRow (modules s.member) o = some r) (hq : regRow (modules s.member) (o - 4) = some q) (hhalf : r.half = 2)
    (hw1c : r.w1c = 0) (hrws : r.rws = 0) (hqrws : q.rws = 0) (h4 : 4 ≤ o) (hg : o < 0x30100 ∨ 0x30600 ≤ o) (hslot : o < 0x70380 ∨ 0x703C0 ≤ o)
    (hcarve : o ≠ 0x8000C) (hhits : s.hits = []) (lo : Option W32) : ∃ regs ecc,
      (s.clearW1c o d).apply64 (o - 4) lo d = { s with regs := regs, ecc := ecc } ∧
      ((s.clearW1c o d).apply64 (o - 4) lo d).rg o = ((s.rg o &&& ~~~r.rw) ||| (d &&& r.rw)) ∧
      (∀ v, lo = some v → ((s.clearW1c o d).apply64 (o - 4) lo d).rg (o - 4) = ((s.rg (o - 4) &&& ~~~q.rw) ||| (v &&& q.rw))) ∧
      ∀ k, k ≠ o → (lo = none ∨ k ≠ o - 4) → ((s.clearW1c o d).apply64 (o - 4) lo d).rg k = s.rg k := by
  have hodd := high_of_row hr hhalf
  have hback : o - 4 + 4 = o := by omega
  obtain ⟨regs, ecc, hclear, hsame, -, -⟩ := State.clearW1c_effect (d := d) hr (by omega) hhits
  rw [hsame hw1c] at hclear
  rw [State.apply64_plain lo d (by omega) (by omega) (by omega), hback, hclear]
  let t : State := { s with ecc := ecc }
  obtain ⟨regs1, hlow, hlowrg, hlowother⟩ := State.storeLow_effect (s := t) hq hqrws hhits lo
  have hr1 : regRow (modules (t.storeLow (o - 4) lo).member) o = some r := by rw [hlow]; exact hr
  have hhits1 : (t.storeLow (o - 4) lo).hits = [] := by rw [hlow]; exact hhits
  obtain ⟨regs2, hhigh, hhighrg, hhighother⟩ := State.storeWord_effect (d := d) hr1 hrws hhits1
  refine ⟨regs2, ecc, hhigh.trans (by rw [hlow]), ?_, fun v hv => ?_, fun k hk hlo => ?_⟩
  · rw [hhighrg, hlowother o (.inr (by omega))]
    rfl
  · rw [hhighother _ (by omega), hlowrg v hv]
    rfl
  · rw [hhighother k hk, hlowother k hlo]
    rfl

theorem portWrite_high (h : s.cfgReady = true) (hstop : s.seq.stopReq = none) {off : BitVec 20} (ho : wordOff off = o) (hm : merges o = false)
    (hr : regRow (modules s.member) o = some r) (hq : regRow (modules s.member) (o - 4) = some q) (hhalf : r.half = 2)
    (hw1c : r.w1c = 0) (hrws : r.rws = 0) (hqrws : q.rws = 0) (h4 : 4 ≤ o) (hg : o < 0x30100 ∨ 0x30600 ≤ o) (hslot : o < 0x70380 ∨ 0x703C0 ≤ o)
    (hcarve : o ≠ 0x8000C) (hhits : s.hits = []) :
    (∀ lo, s.portWr = some (o - 4, lo) → ∃ t, execCfgPortWrite off d s = .next t ∧
      t.rg (o - 4) = ((s.rg (o - 4) &&& ~~~q.rw) ||| (lo &&& q.rw)) ∧ t.rg o = ((s.rg o &&& ~~~r.rw) ||| (d &&& r.rw)) ∧
      (∀ k, k ≠ o → k ≠ o - 4 → t.rg k = s.rg k) ∧ s.AnsweredBy t) ∧
    (s.portWr = none → ∃ t, execCfgPortWrite off d s = .next t ∧ t.rg o = ((s.rg o &&& ~~~r.rw) ||| (d &&& r.rw)) ∧
      (∀ k, k ≠ o → t.rg k = s.rg k) ∧ s.AnsweredBy t) := by
  have hexec := execCfgPortWrite_eq (d := d) h hstop ho hm
  rw [halfOf_row _ hr, hhalf, State.writeHalf_high] at hexec
  obtain ⟨regs, ecc, hwrite, hhigh, hlow, hother⟩ :=
    State.writeHigh_effect (s := s.accessed) (d := d) hr hq hhalf hw1c hrws hqrws h4 hg hslot hcarve hhits (s.latched o)
  have hanswered : s.AnsweredBy (((s.accessed.clearW1c o d).apply64 (o - 4) (s.latched o) d).cfgAnswer 32 0) := by
    rw [hwrite]
    exact ⟨rfl, rfl, rfl⟩
  refine ⟨fun lo hlo => ⟨_, hexec, hlow lo ?_, hhigh, fun k hk hk' => hother k hk (.inr hk'), hanswered⟩, fun hnone =>
    ⟨_, hexec, hhigh, fun k hk => hother k hk (.inl ?_), hanswered⟩⟩
  · rw [State.latched, hlo]
    exact if_pos (by omega)
  · rw [State.latched, hnone]
    rfl

/-! ## The limits of what is stored -/

theorem fld_atLeast (d : W32) {hi lo least : Nat} (hi32 : hi < 32) (h : lo ≤ hi) (hfit : least < 2 ^ (hi - lo + 1)) :
    fld (atLeast d hi lo least) hi lo = max least (fld d hi lo) := by
  rw [atLeast, fld_setFld_same _ _ hi32 h]
  exact Nat.mod_eq_of_lt (Nat.max_lt.2 ⟨hfit, fld_lt d hi lo⟩)

theorem fld_atMost (d : W32) {hi lo : Nat} (most : Nat) (hi32 : hi < 32) (h : lo ≤ hi) :
    fld (atMost d hi lo most) hi lo = min most (fld d hi lo) := by
  rw [atMost, fld_setFld_same _ _ hi32 h]
  exact Nat.mod_eq_of_lt (Nat.lt_of_le_of_lt (Nat.min_le_right ..) (fld_lt d hi lo))

/-! ## Words with a write of their own -/

theorem halfOf_single (x : Member) : halfOf x 0x20008 = 0 ∧ halfOf x 0x90000 = 0 ∧ halfOf x 0x30200 = 0 := by
  cases x <;> decide

theorem modules_le (x : Member) : modules x ≤ 16 := by
  cases x <;> decide

theorem State.writeSpecial_flow : s.writeSpecial 0x20008 d = none := by
  have h := modules_le s.member
  have hpa : arr 0x10000 0x1000 (modules s.member) 0x20008 = none := arr_none (by omega) (by decide)
  unfold State.writeSpecial
  simp only [hpa]
  rfl

theorem State.writeSpecial_twin : s.writeSpecial 0x90000 d = none := by
  have h := modules_le s.member
  have hpa : arr 0x10000 0x1000 (modules s.member) 0x90000 = none := arr_none (by omega) (by decide)
  have hll : arr 0x20100 0x20 (modules s.member) 0x90000 = none := arr_none (by omega) (by decide)
  unfold State.writeSpecial
  simp only [hpa, hll]
  rfl

/-- LL_FLOW_HEAD bears at once on the XOFF states. -/
theorem State.write32_flow : s.write32 0x20008 d = ((s.clearW1c 0x20008 d).storeWord 0x20008 (limited s.member 0x20008 d)).flowAll := by
  unfold State.write32
  rw [State.writeSpecial_flow]
  rfl

/-- TWN_CFG bears at once on the own link's failure. -/
theorem State.write32_twin : s.write32 0x90000 d = ((s.clearW1c 0x90000 d).storeWord 0x90000 (limited s.member 0x90000 d)).twinCheck := by
  unfold State.write32
  rw [State.writeSpecial_twin]
  rfl

theorem State.write32_flags : s.write32 0x30200 d = if s.seqOpen then { s with seq := { s.seq with p := d.setWidth 8 } } else s := rfl

/-- A write of a 32-bit register with a write of its own. -/
theorem portWrite_single (h : s.cfgReady = true) (hstop : s.seq.stopReq = none) {off : BitVec 20} (ho : wordOff off = o) (hm : merges o = false)
    (hhalf : halfOf s.member o = 0) : execCfgPortWrite off d s = .next ((s.accessed.write32 o d).cfgAnswer 32 0) := by
  rw [execCfgPortWrite_eq h hstop ho hm, hhalf, State.writeHalf_word]

/-- The word of g_n's high half. -/
def seqGHigh (n : Nat) : Nat := 0x30104 + 8 * n

theorem regRow_seqGHigh (x : Member) : ∀ n < 32, (regRow (modules x) (seqGHigh n)).map (fun r => (r.half, r.w1c)) = some (2, 0) := by
  cases x <;> decide

theorem arr_at {base st n i : Nat} (hi : i < n) (hst : 0 < st) : arr base st n (base + st * i) = some (i, 0) := by
  unfold arr
  rw [Nat.add_sub_cancel_left, Nat.mul_div_cancel_left _ hst, Nat.mul_mod_right, if_pos ⟨Nat.le_add_right .., hi⟩]

theorem State.apply64_greg {n : Nat} (hn : n < 32) (lo hi : W32) :
    s.apply64 (0x30100 + 8 * n) (some lo) hi = if s.seqOpen then s.setGreg n (hi ++ lo) else s := by
  unfold State.apply64
  rw [arr_at hn (by decide)]
  rfl

theorem State.writeHigh_greg {n : Nat} (hn : n < 32) {lo : W32} (hhits : s.hits = []) (hlatch : s.portWr = some (0x30100 + 8 * n, lo)) :
    s.writeHalf (halfOf s.member (seqGHigh n)) (seqGHigh n) d = if s.seqOpen then s.accessed.setGreg n (d ++ lo) else s.accessed := by
  have hrow := regRow_seqGHigh s.member n hn
  obtain ⟨r, hr, hrest⟩ := Option.map_eq_some_iff.1 hrow
  obtain ⟨hhalf, hw1c⟩ := Prod.mk.inj hrest
  have hclear : s.accessed.clearW1c (seqGHigh n) d = s.accessed := by
    rw [State.clearW1c_eq (s := s.accessed) hr (by unfold seqGHigh; omega) hhits, hw1c, State.unlogged, arr_none (by unfold seqGHigh; omega) (by decide)]
    rfl
  have hlo : s.latched (seqGHigh n) = some lo := by
    rw [State.latched, hlatch]
    exact if_pos (by unfold seqGHigh; omega)
  have hbase : seqGHigh n - 4 = 0x30100 + 8 * n := by unfold seqGHigh; omega
  rw [halfOf_row _ hr, hhalf, State.writeHalf_high, hclear, hlo, hbase]
  exact State.apply64_greg hn lo d
/-! ## Reads -/

theorem State.portRead_latched (hstop : s.seq.stopReq = none) {v : W32} (h : s.portRd = some (o, v)) : s.portRead o = (v, s.accessed) := by
  unfold State.portRead
  simp only [h, Option.bind_some, if_true, State.settle_none hstop]
  rfl

theorem State.readPair_plain (hmem : memWords o = []) : s.readPair o = (s.viewWord o, s.viewWord (o + 4), s.drew o) := by
  unfold State.readPair
  simp only [hmem, List.any_nil, Bool.false_eq_true, if_false, State.each, List.foldl_nil, ite_self]

theorem State.wides_drew (s : State) (o k : Nat) : (s.accessed.drew k).wides o = s.wides o := by
  unfold State.wides State.drew
  rfl

theorem State.lowHalf_drew (s : State) (o : Nat) : (s.accessed.drew o).lowHalf o = s.lowHalf o := by
  rw [State.lowHalf, State.wides_drew]
  rfl

theorem State.portRead_plain (hstop : s.seq.stopReq = none) (hlatch : s.portRd = none) (hm : merges o = false) (hmem : memWords o = []) :
    s.portRead o = (s.accessed.viewWord o,
      if s.lowHalf o then { s.accessed.drew o with portRd := some (o + 4, s.accessed.viewWord (o + 4)) } else s.accessed.drew o) := by
  have hpair := State.readPair_plain (s := s.accessed) hmem
  have hread : s.portRead o = ((s.accessed.readPair o).1, if (s.accessed.readPair o).2.2.lowHalf o then
      { (s.accessed.readPair o).2.2 with portRd := some (o + 4, (s.accessed.readPair o).2.1) } else (s.accessed.readPair o).2.2) := by
    unfold State.portRead
    simp only [hlatch, Option.bind_none, State.settle_none hstop, hm, State.when_false]
    rfl
  rw [hread, hpair]
  dsimp only
  rw [State.lowHalf_drew]

/-! ## The merge buffer -/

/-- A half of a word waits in the buffer. -/
theorem State.mergePut_first (hempty : s.merge = []) : s.mergePut o d = { s with
    merge := [if o % 8 = 0 then { addr := o / 8, lo := some d, hi := none, since := s.now }
              else { addr := o / 8, lo := none, hi := some d, since := s.now }] } := by
  unfold State.mergePut
  simp only [hempty, List.find?_nil, List.nil_append]

theorem mergeMem_pm (hpm : inPm o = true) : mergeMem (o / 8) = (0, (o - 0x40000) / 8) := by
  rw [inPm, Bool.and_eq_true, decide_eq_true_iff, decide_eq_true_iff] at hpm
  have hpm' : inPm (8 * (o / 8)) = true := by
    rw [inPm, Bool.and_eq_true, decide_eq_true_iff, decide_eq_true_iff]
    omega
  rw [mergeMem, hpm', if_pos rfl]
  exact congrArg (Prod.mk 0) (by omega)

theorem State.noteTd_pm {a i : Nat} (h : mergeMem a = (0, i)) (lo hi : Option W32) : s.noteTd a lo hi = s := by
  unfold State.noteTd
  rw [h]
  rfl

theorem State.memWord_pm {a i : Nat} (h : mergeMem a = (0, i)) (w : W64) (at_ : Nat) : s.memWord a w at_ = s.setPmWord i w := by
  unfold State.memWord
  rw [h]
  rfl

theorem State.setPmWord_effect (s : State) (i : Nat) (v : W64) : ∃ u, s.setPmWord i v = { s with
    pm := spPut 0xFFFFFFFFFFFFFFFF s.pm i v, upset := u } := by
  obtain ⟨u, hu⟩ := ({ s with pm := spPut 0xFFFFFFFFFFFFFFFF s.pm i v } : State).eccWritten_upset 0 i
  exact ⟨u, hu⟩

/-- The other half writes the word of program memory in one step. -/
theorem State.mergePut_second {lo : W32} {c : Nat} (hpm : inPm o = true) (hhigh : o % 8 = 4)
    (hheld : s.merge = [{ addr := o / 8, lo := some lo, hi := none, since := c }]) :
    s.mergePut o d = (({ s with merge := [] } : State).eccWritten 0 ((o - 0x40000) / 8)).setPmWord ((o - 0x40000) / 8) (d ++ lo) := by
  unfold State.mergePut
  have hlow : ¬o % 8 = 0 := by omega
  have hgone : [({ addr := o / 8, lo := some lo, hi := none, since := c } : MergeEnt)].filter (fun x => x.addr != o / 8) = [] := by simp
  simp only [hheld, List.find?_cons_of_pos, beq_self_eq_true, hlow, if_false, hgone, mergeMem_pm hpm]
  rw [State.noteTd_pm (mergeMem_pm hpm), State.memWord_pm (mergeMem_pm hpm)]

theorem execMergeBufferFlush_eq (hlive : s.inReset = false) :
    execMergeBufferFlush s = .next (s.each (s.merge.filter fun e => decide (e.since + 64 ≤ s.now)) (·.flushEnt ·)) := live_eq hlive _

theorem merges_pm (hpm : inPm o = true) : merges o = true := by
  rw [merges, hpm, Bool.true_or, Bool.true_or]

theorem execMergeBufferWrite_eq (h : s.cfgReady = true) (hstop : s.seq.stopReq = none) (hswept : s.sweepDone = true) {off : BitVec 20}
    (ho : wordOff off = o) (hm : merges o = true) : execMergeBufferWrite off d s = .next ((s.accessed.mergePut o d).cfgAnswer 32 0) := by
  have hput : s.portWrite o d = s.accessed.mergePut o d := by
    unfold State.portWrite
    simp only [State.settle_none hstop, hm, if_true]
    exact if_pos hswept
  rw [execMergeBufferWrite, portTake_ready h, ho, if_pos hm, hput]

/-- A port that is not ready takes no access. -/
theorem access_busy (h : s.cfgReady = false) (off : BitVec 20) (d : W32) : execCfgPortWrite off d s = .next s ∧
    execCfgPortReadLowHalf off s = .next s ∧ execMergeBufferWrite off d s = .next s :=
  ⟨portTake_busy h _, portTake_busy h _, portTake_busy h _⟩

/-- The limits that the field maps set. -/
theorem limited_fields (x : Member) (o : Nat) (d : W32) : (o = 0x20000 → fld (limited x o d) 23 16 = max 1 (fld d 23 16)) ∧
    (o = 0x10004 → fld (limited x o d) 15 0 = max 240 (fld d 15 0)) ∧
    (o = 0xA0008 → fld (limited x o d) 15 12 = min (maxRate x) (fld d 15 12)) ∧
    (o = 0xA0104 → fld (limited x o d) 20 16 = min (modules x) (max 1 (fld d 20 16))) := by
  refine ⟨fun h => ?_, fun h => ?_, fun h => ?_, fun h => ?_⟩
  · subst h
    exact fld_atLeast d (by decide) (by decide) (by decide)
  · subst h
    exact fld_atLeast d (by decide) (by decide) (by decide)
  · subst h
    exact fld_atMost d _ (by decide) (by decide)
  · subst h
    exact (fld_atMost _ _ (by decide) (by decide)).trans (congrArg (min (modules x)) (fld_atLeast d (by decide) (by decide) (by decide)))

/-- The registers that bear at once on the link and on the pair. -/
theorem portWrite_bears (h : s.cfgReady = true) (hstop : s.seq.stopReq = none) {off : BitVec 20} (ho : wordOff off = o) (u : State)
    (hu : u = (s.accessed.clearW1c o d).storeWord o (limited s.member o d)) :
    (o = 0x20008 → execCfgPortWrite off d s = .next (u.flowAll.cfgAnswer 32 0)) ∧
    (o = 0x90000 → execCfgPortWrite off d s = .next (u.twinCheck.cfgAnswer 32 0)) := by
  subst hu
  refine ⟨fun hflow => ?_, fun htwin => ?_⟩
  · subst hflow
    rw [portWrite_single h hstop ho (by decide) (halfOf_single s.member).1, State.write32_flow]
    rfl
  · subst htwin
    rw [portWrite_single h hstop ho (by decide) (halfOf_single s.member).2.1, State.write32_twin]
    rfl

/-- A write of a register file whose sequencer stands. -/
theorem State.setGreg_accessed (s : State) (n : Nat) (v : W64) : (s.accessed.setGreg n v).cfgAnswer 32 0 = s.ported.setGreg n v := by
  unfold State.setGreg
  split
  · rfl
  · rfl

/-- The registers of the sequencer. -/
theorem portWrite_sequencer (h : s.cfgReady = true) (hstop : s.seq.stopReq = none) {off : BitVec 20} :
    (wordOff off = 0x30200 → (s.seqOpen = true → execCfgPortWrite off d s = .next { s.ported with seq := { s.seq with p := d.setWidth 8 } }) ∧
      (s.seqOpen = false → execCfgPortWrite off d s = .next s.ported)) ∧
    (∀ n lo, n < 32 → wordOff off = seqGHigh n → s.hits = [] → s.portWr = some (wordOff off - 4, lo) →
      (s.seqOpen = true → execCfgPortWrite off d s = .next (s.ported.setGreg n (d ++ lo))) ∧
      (s.seqOpen = false → execCfgPortWrite off d s = .next s.ported)) := by
  refine ⟨fun ho => ?_, fun n lo hn ho hhits hlatch => ?_⟩
  · have hexec := portWrite_single (d := d) h hstop ho (by decide) (halfOf_single _).2.2
    rw [State.write32_flags] at hexec
    refine ⟨fun hopen => hexec.trans ?_, fun hclosed => hexec.trans ?_⟩
    · rw [if_pos (show s.accessed.seqOpen = true from hopen)]
      rfl
    · rw [if_neg (show ¬s.accessed.seqOpen = true from Bool.eq_false_iff.1 hclosed)]
      rfl
  · have hm : merges (seqGHigh n) = false := by
      have hword : seqGHigh n = 0x30104 + 8 * n := rfl
      simp only [merges, inPm, inTd, inCal, Bool.or_eq_false_iff, Bool.and_eq_false_iff, decide_eq_false_iff_not]
      omega
    have hbase : wordOff off - 4 = 0x30100 + 8 * n := by
      rw [ho, seqGHigh]
      omega
    rw [hbase] at hlatch
    have hexec := execCfgPortWrite_eq (d := d) h hstop ho hm
    rw [State.writeHigh_greg hn hhits hlatch] at hexec
    refine ⟨fun hopen => hexec.trans ?_, fun hclosed => hexec.trans ?_⟩
    · rw [if_pos hopen, State.setGreg_accessed]
    · rw [if_neg (Bool.eq_false_iff.1 hclosed)]
      rfl

/-- The reads of the port. -/
theorem portRead_effect (h : s.cfgReady = true) (hstop : s.seq.stopReq = none) {off : BitVec 20} :
    (∀ v, s.portRd = some (wordOff off, v) → ∃ t, execCfgPortReadLowHalf off s = .next t ∧
      t.cfgq = s.cfgq ++ [(s.now + (if merges (wordOff off) = true then 96 else 32), v)] ∧ t.portRd = none ∧ t.portWr = none ∧ t.regs = s.regs ∧
      t.seq = s.seq) ∧
    (s.portRd = none → merges (wordOff off) = false → memWords (wordOff off) = [] → ∃ t, execCfgPortReadLowHalf off s = .next t ∧
      t.cfgq = s.cfgq ++ [(s.now + 32, s.accessed.viewWord (wordOff off))] ∧ t.portWr = none ∧
      t.portRd = (if s.lowHalf (wordOff off) then some (wordOff off + 4, s.accessed.viewWord (wordOff off + 4)) else none) ∧
      t.regs = s.regs ∧ t.seq = s.seq ∧ t.mods = s.mods) := by
  have hexec : execCfgPortReadLowHalf off s =
      .next ((s.portRead (wordOff off)).2.cfgAnswer (if merges (wordOff off) then 96 else 32) (s.portRead (wordOff off)).1) := portTake_ready h _
  refine ⟨fun v hv => ?_, fun hnone hm hmem => ?_⟩
  · rw [State.portRead_latched hstop hv] at hexec
    exact ⟨_, hexec, rfl, rfl, rfl, rfl, rfl⟩
  · rw [State.portRead_plain hstop hnone hm hmem, if_neg (Bool.eq_false_iff.1 hm)] at hexec
    refine ⟨_, hexec, ?_⟩
    dsimp only
    cases s.lowHalf (wordOff off) with
    | false => exact ⟨rfl, rfl, rfl, rfl, rfl, rfl⟩
    | true => exact ⟨rfl, rfl, rfl, rfl, rfl, rfl⟩

/-- The writes of program memory through the merge buffer. -/
theorem mergeWrite_effect (h : s.cfgReady = true) (hstop : s.seq.stopReq = none) (hswept : s.sweepDone = true) {off : BitVec 20}
    (hpm : inPm (wordOff off) = true) :
    (s.merge = [] → ∃ t, execMergeBufferWrite off d s = .next t ∧ t.pm = s.pm ∧ t.cfgq = s.cfgq ++ [(s.now + 32, 0)] ∧
      t.merge = [if wordOff off % 8 = 0 then { addr := wordOff off / 8, lo := some d, hi := none, since := s.now }
                 else { addr := wordOff off / 8, lo := none, hi := some d, since := s.now }]) ∧
    (∀ lo c, wordOff off % 8 = 4 → s.merge = [{ addr := wordOff off / 8, lo := some lo, hi := none, since := c }] → ∃ t,
      execMergeBufferWrite off d s = .next t ∧ t.merge = [] ∧ t.pmWord ((wordOff off - 0x40000) / 8) = d ++ lo ∧
      (∀ k, k ≠ (wordOff off - 0x40000) / 8 → t.pmWord k = s.pmWord k) ∧ t.td = s.td ∧ t.regs = s.regs) := by
  have hexec := execMergeBufferWrite_eq (d := d) h hstop hswept rfl (merges_pm hpm)
  refine ⟨fun hempty => ?_, fun lo c hhigh hheld => ?_⟩
  · rw [State.mergePut_first (s := s.accessed) hempty] at hexec
    exact ⟨_, hexec, rfl, rfl, rfl⟩
  · rw [State.mergePut_second (s := s.accessed) hpm hhigh hheld] at hexec
    obtain ⟨u, hu⟩ := ({ s.accessed with merge := [] } : State).eccWritten_upset 0 ((wordOff off - 0x40000) / 8)
    rw [hu] at hexec
    obtain ⟨v, hv⟩ := ({ s.accessed with merge := [], upset := u } : State).setPmWord_effect ((wordOff off - 0x40000) / 8) (d ++ lo)
    rw [hv] at hexec
    exact ⟨_, hexec, rfl, spGet_spPut_same .., fun k hk => spGet_spPut_other _ _ _ _ (Ne.symm hk), rfl, rfl⟩

end

/-- Settles O23: writes by the half and the fields of the word, the words with a write of their own, reads, and the merge buffer. -/
theorem portResults : Obligations.PortResults := by
  unfold Obligations.PortResults
  refine ⟨fun s off d h hstop => ?_, fun s off d h hstop hswept => ?_, fun s hlive => ⟨fun e he hold => ?_, fun hyoung => ?_⟩, fun s off d _ h =>
    access_busy h off d⟩
  · intro o e dl answered
    obtain ⟨hflags, hgreg⟩ := portWrite_sequencer (d := d) h hstop (off := off)
    obtain ⟨hlatched, hread⟩ := portRead_effect h hstop (off := off)
    obtain ⟨hlat, hpa, hlimit, hpwr⟩ := limited_fields s.member (wordOff off) d
    refine ⟨fun r hr hhalf hm hspec hoff hhits hflow htwin => ⟨fun hrws => portWrite_plain h hstop rfl hm hr hhalf hspec hoff hhits hflow htwin hrws,
      fun hrws hrw hw1c hswept => portWrite_shadow h hstop rfl hm hr hhalf hspec hoff hhits hflow htwin hrws hrw hw1c hswept⟩, hlat, hpa,
      hlimit, hpwr, fun u hu => portWrite_bears h hstop rfl u hu,
      fun r hr hhalf hw1c hoff hm hhits => portWrite_lowHalf h hstop rfl hm hr hhalf hw1c hoff hhits,
      fun r q hr hq hhalf hw1c hrws hqrws h4 hg hslot hcarve hm hhits =>
        portWrite_high h hstop rfl hm hr hq hhalf hw1c hrws hqrws h4 hg hslot hcarve hhits, hflags, hgreg, hlatched, hread⟩
  · exact ⟨fun hpm => (mergeWrite_effect h hstop hswept hpm).1, fun lo c hpm => (mergeWrite_effect h hstop hswept hpm).2 lo c⟩
  · have hone : s.merge.filter (fun e => decide (e.since + 64 ≤ s.now)) = [e] := by
      simp [he, hold]
    exact (execMergeBufferFlush_eq hlive).trans (by rw [hone]; rfl)
  · have hnone : s.merge.filter (fun e => decide (e.since + 64 ≤ s.now)) = [] :=
      List.filter_eq_nil_iff.2 fun e he hc => absurd (of_decide_eq_true hc) (Nat.not_le.2 (hyoung e he))
    exact (execMergeBufferFlush_eq hlive).trans (by rw [hnone]; rfl)

end Sys2Proof.Machine
end

section
/-! TELEM: the sequencer's access to the window, and EMIT (R215 to R219, R613, R614). -/
namespace Sys2Proof.Machine

section
variable {s : State} {w : W64}

/-- A TELEM of its function acts on the state as it stands. -/
theorem State.Issues.telem (h : s.Issues 0x81 w) (hpc : s.seq.pc < 16383) {fn : Nat} (hfn : fld w 39 38 = fn) {offend : W64 → List Nat}
    (hoff : offend w = []) (act : W64 → State → State) : Machine.live s (·.issue (isTelem fn) offend act) = .next (act w s) := by
  have his : isTelem fn w = true := by rw [isTelem, h.is, hfn, beq_self_eq_true, Bool.and_self]
  rw [live_eq h.live, h.act his hoff, State.keepOp_below hpc]

theorem State.lowHalf_drew_self (s : State) (o k : Nat) : (s.drew k).lowHalf o = s.lowHalf o := by
  unfold State.lowHalf State.wides State.drew
  rfl

/-- The two words at an offset that no protected memory holds. -/
theorem State.telPair_plain {o : Nat} (hmem : memWords o = []) (hm : merges o = false) :
    s.telPair o = (s.landHeld.viewWord o, s.landHeld.viewWord (o + 4), s.drew o) := by
  have hpair : s.telPair o = (((s.landHeld.when (merges o) (·.flushAddr (o / 8))).readPair o).1,
      ((s.landHeld.when (merges o) (·.flushAddr (o / 8))).readPair o).2.1, (s.readPair o).2.2) := rfl
  rw [hpair, hm, State.when_false, State.readPair_plain hmem, State.readPair_plain hmem]

theorem execRd32_bad (h : s.Issues 0x81 w) (hpc : s.seq.pc < 16383) (hoff : offTelem false w = []) (hfn : fld w 39 38 = 0)
    (hbad : s.telOff w % 4 ≠ 0) : execRd32 s = .next (s.trap 0x08 (s.telOff w)) := by
  rw [execRd32, h.telem hpc hfn hoff]
  exact congrArg Host.Outcome.next (if_pos (bne_iff_ne.2 hbad))

theorem execRd64_bad (h : s.Issues 0x81 w) (hpc : s.seq.pc < 16383) (hoff : offTelem false w = []) (hfn : fld w 39 38 = 1)
    (hbad : s.telOff w % 8 ≠ 0) : execRd64 s = .next (s.trap 0x08 (s.telOff w)) := by
  rw [execRd64, h.telem hpc hfn hoff]
  exact congrArg Host.Outcome.next (if_pos (bne_iff_ne.2 hbad))

theorem execRd32_reads (h : s.Issues 0x81 w) (hpc : s.seq.pc < 16383) (hoff : offTelem false w = []) (hfn : fld w 39 38 = 0)
    (hok : s.telOff w % 4 = 0) (hmem : memWords (s.telOff w) = []) (hm : merges (s.telOff w) = false) : execRd32 s = .next
      ((((s.drew (s.telOff w)).telLatch (if s.lowHalf (s.telOff w) then some (s.telOff w + 4, s.landHeld.viewWord (s.telOff w + 4)) else none)).setGreg
        (fRd w) ((s.landHeld.viewWord (s.telOff w)).setWidth 64)).goTo (s.seq.pc + 1) 16) := by
  have hok' : ¬(s.telOff w % 4 != 0) = true := by simp [hok]
  rw [execRd32, h.telem hpc hfn hoff]
  dsimp only
  rw [if_neg hok', State.telPair_plain hmem hm]
  dsimp only
  rw [State.lowHalf_drew_self, State.advance_from (s := s) (by rw [State.setGreg_seq]; rfl) hpc]

theorem execRd64_reads (h : s.Issues 0x81 w) (hpc : s.seq.pc < 16383) (hoff : offTelem false w = []) (hfn : fld w 39 38 = 1)
    (hok : s.telOff w % 8 = 0) (hmem : memWords (s.telOff w) = []) (hmem' : memWords (s.telOff w + 4) = []) (hm : merges (s.telOff w) = false) :
    execRd64 s = .next ((((s.drew (s.telOff w)).telLatch none).setGreg (fRd w)
      (s.landHeld.viewWord (s.telOff w + 4) ++ s.landHeld.viewWord (s.telOff w))).goTo (s.seq.pc + 1) 16) := by
  have hok' : ¬(s.telOff w % 8 != 0) = true := by simp [hok]
  rw [execRd64, h.telem hpc hfn hoff]
  dsimp only
  rw [if_neg hok', State.telPair_plain hmem hm]
  dsimp only
  rw [hmem, hmem', beq_self_eq_true, if_pos rfl]
  dsimp only
  rw [State.advance_from (s := s) (by rw [State.setGreg_seq]; rfl) hpc]

/-- The words that a WR32 of a register has waiting, and its write latch after it. -/
def wr32Waits (half o : Nat) (d : W32) (latch : Option (Nat × W32)) : List (Nat × W32) :=
  (if half = 2 then ((latch.bind fun h => if h.1 + 4 = o then some h.2 else none).map fun v => (o - 4, v)).toList else []) ++ [(o, d)]

theorem State.landWr32_none (h : s.seq.wrPend = none) : s.landWr32 = s := by
  unfold State.landWr32
  rw [h]

theorem execWr32_bad (h : s.Issues 0x81 w) (hpc : s.seq.pc < 16383) (hoff : offTelem false w = []) (hfn : fld w 39 38 = 2)
    (hpend : s.seq.wrPend = none) (hbad : s.telOff w % 4 ≠ 0 ∨ wr32Ok (modules s.member) (s.telOff w) = false) :
    execWr32 s = .next (s.trap 0x08 (s.telOff w)) := by
  have hcond : (s.telOff w % 4 != 0 || !wr32Ok (modules s.member) (s.telOff w)) = true := by
    rcases hbad with h | h
    · rw [bne_iff_ne.2 h, Bool.true_or]
    · rw [h, Bool.not_false, Bool.or_true]
  rw [execWr32, h.telem hpc hfn hoff]
  dsimp only
  rw [State.landWr32_none hpend, if_pos hcond]

/-- The sequencer after a WR32 of a word: it waits for the shadow write, or for the high half. -/
def State.wr32Seq (s : State) (half o : Nat) (d : W32) : Seq :=
  if half = 1 ∧ !inCal o then { s.seq with rdLatch := none, wrLatch := some (o, d), pc := s.seq.pc + 1, nextAt := s.now + 8 }
  else { s.seq with rdLatch := none, wrLatch := none, pc := s.seq.pc + 1, nextAt := s.now + 8,
                    wrPend := some (s.now + 8, wr32Waits half o d s.seq.wrLatch) }

theorem execWr32_writes (h : s.Issues 0x81 w) (hpc : s.seq.pc < 16383) (hoff : offTelem false w = []) (hfn : fld w 39 38 = 2)
    (hpend : s.seq.wrPend = none) (hok : s.telOff w % 4 = 0) (hreg : wr32Ok (modules s.member) (s.telOff w) = true) :
    execWr32 s = .next { s with seq := s.wr32Seq (halfOf s.member (s.telOff w)) (s.telOff w) ((s.greg (fRd w)).setWidth 32) } := by
  have hcond : ¬(s.telOff w % 4 != 0 || !wr32Ok (modules s.member) (s.telOff w)) = true := by simp [hok, hreg]
  rw [execWr32, h.telem hpc hfn hoff]
  dsimp only
  rw [State.landWr32_none hpend, if_neg hcond, State.wr32Seq]
  rw [show ((regRow (modules s.member) (s.telOff w)).map (·.half)).getD 0 = halfOf s.member (s.telOff w) from rfl]
  by_cases hlow : halfOf s.member (s.telOff w) = 1 ∧ !inCal (s.telOff w)
  · rw [if_pos hlow, if_pos hlow, State.advance_eq]
    · simp only [State.goTo, State.telLatch]
    · exact hpc
  · rw [if_neg hlow, if_neg hlow, State.advance_eq]
    · simp only [State.goTo, State.telLatch]
      rfl
    · exact hpc

theorem State.seq_tel (s : State) (type : Nat) (payload : W64) : (s.tel type payload).seq = s.seq := by
  unfold State.tel
  split
  · rfl
  · rfl

theorem execEmit_eq (h : s.Issues 0x81 w) (hpc : s.seq.pc < 16383) (hoff : offTelem true w = []) (hfn : fld w 39 38 = 3) :
    execEmit s = .next ((s.tel 2 (s.greg (fRd w))).goTo (s.seq.pc + 1) 2) := by
  rw [execEmit, h.telem hpc hfn hoff, State.advance_from (s := s) (by rw [State.seq_tel]) hpc]

/-- A WR32 of a word without half, and of one of the calibration table. -/
theorem State.wr32Seq_word (s : State) {half o : Nat} (h : half = 0 ∨ (half = 1 ∧ inCal o = true)) (d : W32) : s.wr32Seq half o d =
    { s.seq with wrPend := some (s.now + 8, [(o, d)]), rdLatch := none, wrLatch := none, pc := s.seq.pc + 1, nextAt := s.now + 8 } := by
  rcases h with h | ⟨h, hcal⟩
  · subst h
    rfl
  · subst h
    rw [State.wr32Seq, hcal]
    rfl

theorem State.wr32Seq_low (s : State) {o : Nat} (hcal : inCal o = false) (d : W32) : s.wr32Seq 1 o d =
    { s.seq with rdLatch := none, wrLatch := some (o, d), pc := s.seq.pc + 1, nextAt := s.now + 8 } := by
  rw [State.wr32Seq, hcal]
  rfl

theorem State.wr32Seq_high (s : State) (o : Nat) (d : W32) : s.wr32Seq 2 o d =
    { s.seq with wrPend := some (s.now + 8, wr32Waits 2 o d s.seq.wrLatch), rdLatch := none, wrLatch := none, pc := s.seq.pc + 1,
                 nextAt := s.now + 8 } := rfl

theorem wr32Waits_latched {o : Nat} (h4 : 4 ≤ o) (d lo : W32) : wr32Waits 2 o d (some (o - 4, lo)) = [(o - 4, lo), (o, d)] := by
  rw [wr32Waits, if_pos rfl, Option.bind_some, if_pos (Nat.sub_add_cancel h4)]
  rfl

end

/-- Settles O24: RD32, RD64, WR32 by the half of its word, and EMIT. -/
theorem windowInstructions : Obligations.WindowInstructions := by
  unfold Obligations.WindowInstructions
  intro s w h hpc o fn v d writes
  refine ⟨fun hoff => ⟨fun hbad hfn => execRd32_bad h hpc hoff hfn hbad, fun hbad hfn => execRd64_bad h hpc hoff hfn hbad,
    fun hok hfn hmem hm => execRd32_reads h hpc hoff hfn hok hmem hm, fun hok hfn hmem hmem' hm => execRd64_reads h hpc hoff hfn hok hmem hmem' hm,
    fun hfn hpend => ⟨execWr32_bad h hpc hoff hfn hpend, fun r hok hreg hr => ?_⟩⟩, execEmit_eq h hpc⟩
  have hexec := execWr32_writes h hpc hoff hfn hpend hok hreg
  rw [halfOf_row (o := s.telOff w) _ hr] at hexec
  refine ⟨fun hhalf => ⟨_, hexec, ?_⟩, fun hhalf hcal => ⟨_, hexec, ?_⟩, fun hhalf hcal => ⟨_, hexec, ?_⟩, fun hhalf =>
    ⟨fun lo h4 hlatch => ⟨_, hexec, ?_⟩, fun hlatch => ⟨_, hexec, ?_⟩⟩⟩
  · exact ⟨s.wr32Seq_word (.inl hhalf) d, rfl, rfl, rfl, rfl⟩
  · exact ⟨s.wr32Seq_word (.inr ⟨hhalf, hcal⟩) d, rfl, rfl, rfl, rfl⟩
  · refine ⟨?_, rfl, rfl, rfl, rfl⟩
    rw [hhalf, ← hpend]
    exact s.wr32Seq_low hcal d
  · refine ⟨?_, rfl, rfl, rfl, rfl⟩
    rw [hhalf, ← wr32Waits_latched h4 d lo, ← hlatch]
    exact s.wr32Seq_high o d
  · refine ⟨?_, rfl, rfl, rfl, rfl⟩
    rw [hhalf]
    refine (s.wr32Seq_high o d).trans ?_
    rw [hlatch]
    rfl

end Sys2Proof.Machine
end

section
/-! SEQ_CTRL, the check of program memory and the stall (Table 5-1, R210, R225). -/
namespace Sys2Proof.Machine

section
variable {s : State}

/-! ## SEQ_CTRL -/

/-- The sequencer stands: it is stopped, halted or trapped. -/
def State.Stands (s : State) : Prop := s.seq.st = .stopped ∨ s.seq.st = .halted ∨ s.seq.st = .trapped

theorem State.stands_iff (s : State) : s.Stands ↔ (s.seq.st == .stopped || s.seq.st == .halted || s.seq.st == .trapped) = true := by
  rw [State.Stands, Bool.or_eq_true, Bool.or_eq_true, beq_iff_eq, beq_iff_eq, beq_iff_eq, or_assoc]

theorem State.not_stands (h : s.seq.st = .idle ∨ s.seq.st = .running ∨ s.seq.st = .waiting) :
    (s.seq.st == .stopped || s.seq.st == .halted || s.seq.st == .trapped) = false := by
  rcases h with h | h | h
  · rw [h]
    rfl
  · rw [h]
    rfl
  · rw [h]
    rfl

theorem State.writeSeqCtrl_start (h : s.seq.stopReq = none) : s.writeSeqCtrl 1 = s.startSeq s.now := by
  unfold State.writeSeqCtrl
  rw [State.settle_none h]
  rfl

theorem State.writeSeqCtrl_stop (h : s.seq.stopReq = none) : s.writeSeqCtrl 2 = s.askStop false false none := by
  unfold State.writeSeqCtrl
  rw [State.settle_none h]
  rfl

theorem State.writeSeqCtrl_clr (h : s.seq.stopReq = none) :
    s.writeSeqCtrl 4 = s.when (s.seq.st == .stopped || s.seq.st == .halted || s.seq.st == .trapped) (·.clrSeq) := by
  unfold State.writeSeqCtrl
  rw [State.settle_none h]
  rfl

theorem State.startSeq_stands (hswept : s.sweepDone = true) (hblank : s.blank = false) (h : s.Stands) (at_ : Nat) :
    s.startSeq at_ = { s with seq := { s.seq with st := .idle, startAt := some at_ } } :=
  if_pos (by rw [hswept, hblank, s.stands_iff.1 h]; rfl)

theorem State.startSeq_ignored (h : s.seq.st = .idle ∨ s.seq.st = .running ∨ s.seq.st = .waiting) (at_ : Nat) : s.startSeq at_ = s :=
  if_neg (by rw [State.not_stands h, Bool.and_false]; exact Bool.false_ne_true)

/-- The sequencer ends its program, or keeps standing, with no stop asked for. -/
def State.stopNow (s : State) : State :=
  ({ s with seq := { s.seq with stopReq := none } } : State).when (s.seq.st == .running || s.seq.st == .waiting || s.seq.st == .idle) (·.endProg .stopped)

/-- A stop acts at a boundary, and waits for one elsewhere. -/
theorem State.askStop_stop (h : s.seq.stopReq = none) : s.askStop false false none =
    if s.atBoundary then s.stopNow
    else { s with seq := { s.seq with stopReq := some { halt := false, clr := false, start := none } } } := by
  unfold State.askStop
  rw [h]
  unfold State.settle
  change (if !s.atBoundary then _ else _) = _
  cases s.atBoundary with
  | false => rfl
  | true => rfl

theorem State.stopNow_ends (h : s.seq.stopReq = none) (hst : s.seq.st = .running ∨ s.seq.st = .waiting ∨ s.seq.st = .idle) :
    s.stopNow = s.endProg .stopped := by
  have hst' : (s.seq.st == .running || s.seq.st == .waiting || s.seq.st == .idle) = true := by
    simpa only [Bool.or_eq_true, beq_iff_eq, or_assoc] using hst
  have hseq : ({ s.seq with stopReq := none } : Seq) = s.seq := by rw [← h]
  rw [State.stopNow, hst', State.when_true, hseq]

theorem execSeqCtrlStop_waits (h : s.cfgReady = true) (hstop : s.seq.stopReq = none) (hrun : s.seq.st = .running) (hat : s.now < s.seq.nextAt) :
    execSeqCtrlStop s = .next { s.ported with seq := { s.seq with stopReq := some { halt := false, clr := false, start := none } } } := by
  have hb : s.accessed.atBoundary = false := State.not_atBoundary (s := s.accessed) hrun (.inr hat)
  have hask := State.askStop_stop (s := s.accessed) hstop
  rw [hb, if_neg Bool.false_ne_true] at hask
  exact portCmd_eq (f := (·.writeSeqCtrl 2)) h ((State.writeSeqCtrl_stop (s := s.accessed) hstop).trans hask)

theorem State.endProg_answered (s : State) (st : SeqSt) : (s.accessed.endProg st).cfgAnswer 32 0 = s.ported.endProg st := by
  unfold State.endProg
  cases hd : s.seq.defer.isSome && st != .idle with
  | false =>
    rw [show (s.accessed.seq.defer.isSome && st != .idle) = false from hd, show (s.ported.seq.defer.isSome && st != .idle) = false from hd]
    rfl
  | true =>
    rw [show (s.accessed.seq.defer.isSome && st != .idle) = true from hd, show (s.ported.seq.defer.isSome && st != .idle) = true from hd]
    rfl

theorem execSeqCtrlStop_ends (h : s.cfgReady = true) (hstop : s.seq.stopReq = none)
    (hst : s.seq.st = .idle ∨ s.seq.st = .waiting ∨ (s.seq.st = .running ∧ s.seq.stall = none ∧ s.seq.nextAt ≤ s.now)) :
    execSeqCtrlStop s = .next (s.ported.endProg .stopped) := by
  have hst' : s.seq.st = .running ∨ s.seq.st = .waiting ∨ s.seq.st = .idle := by
    rcases hst with h | h | ⟨h, -, -⟩
    · exact .inr (.inr h)
    · exact .inr (.inl h)
    · exact .inl h
  have hask := State.askStop_stop (s := s.accessed) hstop
  rw [State.atBoundary_of (s := s.accessed) hst, if_pos rfl, State.stopNow_ends (s := s.accessed) hstop hst'] at hask
  exact (portCmd_eq h ((State.writeSeqCtrl_stop (s := s.accessed) hstop).trans hask)).trans (congrArg Host.Outcome.next (s.endProg_answered _))

theorem execSeqCtrlStart_eq (h : s.cfgReady = true) (hstop : s.seq.stopReq = none) {t : State} (ht : s.accessed.startSeq s.now = t) :
    execSeqCtrlStart s = .next (t.cfgAnswer 32 0) :=
  portCmd_eq h ((State.writeSeqCtrl_start (s := s.accessed) hstop).trans ht)

theorem execSeqCtrlClr_eq (h : s.cfgReady = true) (hstop : s.seq.stopReq = none) : execSeqCtrlClr s =
    .next ((s.accessed.when (s.seq.st == .stopped || s.seq.st == .halted || s.seq.st == .trapped) (·.clrSeq)).cfgAnswer 32 0) :=
  portCmd_eq h (State.writeSeqCtrl_clr (s := s.accessed) hstop)

/-! ## The check of program memory -/

/-- The range that a write of SEQ_PM_CHECK names. -/
def State.pmCheckRange (s : State) (d : W32) : State :=
  (s.setRf 0x30020 28 14 (max 1 (min 16384 (fld d 28 14)))).setRf 0x30020 13 0 (fld d 13 0)

/-- A check of that range under way. -/
def State.pmCheckBegun (s : State) (d : W32) : State :=
  { (s.pmCheckRange d).setRf 0x30020 30 30 0 with seq := { s.seq with pmCheck := some (fld d 13 0, max 1 (min 16384 (fld d 28 14))) } }

/-- A check begins over the words that its write names. -/
theorem execSeqPmCheckGo_begins (h : s.cfgReady = true) {d : W32} (hgo : bit d 31 = true) (hidle : s.seq.pmCheck = none) :
    ∃ t, execSeqPmCheckGo d s = .next t ∧
      t.seq = { s.seq with pmCheck := some (fld d 13 0, max 1 (min 16384 (fld d 28 14))) } ∧ bit (t.rg 0x30020) 30 = false ∧
      t.rf 0x30020 13 0 = fld d 13 0 ∧ t.pm = s.pm ∧ ∀ k, k ≠ 0x30020 → t.rg k = s.rg k := by
  have hcond : (bit d 31 && s.accessed.seq.pmCheck.isNone) = true := by
    rw [hgo, show s.accessed.seq.pmCheck = none from hidle]
    rfl
  have hwrite : s.accessed.writePmCheck d = s.accessed.pmCheckBegun d := if_pos hcond
  have hrg : ∀ k, ((s.accessed.pmCheckBegun d).cfgAnswer 32 0).rg k = ((s.pmCheckRange d).setRf 0x30020 30 30 0).rg k := fun _ => rfl
  have hmod : fld d 13 0 % 2 ^ (13 - 0 + 1) = fld d 13 0 := Nat.mod_eq_of_lt (fld_lt d 13 0)
  refine ⟨_, portCmd_eq (f := (·.writePmCheck d)) h hwrite, rfl, ?_, ?_, rfl, fun k hk => ?_⟩
  · rw [hrg, State.rg_setRf_same, bit_setFld _ _ _ (by decide) (by decide), if_pos (by decide)]
    rfl
  · rw [State.rf, hrg, ← State.rf, State.rf_setRf_apart _ _ _ (by decide) (by decide) (by decide) (by decide), State.pmCheckRange,
      State.rf_setRf_same _ _ _ (by decide) (by decide), hmod]
  · rw [hrg, State.rg_setRf_other _ _ _ _ (Ne.symm hk), State.pmCheckRange, State.rg_setRf_other _ _ _ _ (Ne.symm hk),
      State.rg_setRf_other _ _ _ _ (Ne.symm hk)]

theorem execSeqPmCheckDone_ends (hlive : s.inReset = false) {a n : Nat} (hcheck : s.seq.pmCheck = some (a, n)) :
    ∃ t, execSeqPmCheckDone s = .next t ∧ t.rg 0x30024 = crcStd (s.pmBytes a n) ∧
      bit (t.rg 0x30020) 30 = true ∧ t.seq = { s.seq with pmCheck := none } ∧ t.pm = s.pm ∧
      ∀ k, k ≠ 0x30020 → k ≠ 0x30024 → t.rg k = s.rg k := by
  have hexec : execSeqPmCheckDone s = .next { (s.setRg 0x30024 (crcStd (s.pmBytes a n))).setRf 0x30020 30 30 1 with
      seq := { s.seq with pmCheck := none } } := by
    rw [execSeqPmCheckDone, live_eq hlive]
    simp only [hcheck]
  have hrg : ∀ k, State.rg { (s.setRg 0x30024 (crcStd (s.pmBytes a n))).setRf 0x30020 30 30 1 with seq := { s.seq with pmCheck := none } } k =
      ((s.setRg 0x30024 (crcStd (s.pmBytes a n))).setRf 0x30020 30 30 1).rg k := fun _ => rfl
  refine ⟨_, hexec, ?_, ?_, rfl, rfl, fun k h0 h4 => ?_⟩
  · rw [hrg, State.rg_setRf_other _ _ _ _ (by decide), State.rg_setRg_same]
  · rw [hrg, State.rg_setRf_same, bit_setFld _ _ _ (by decide) (by decide), if_pos (by decide)]
    rfl
  · rw [hrg, State.rg_setRf_other _ _ _ _ (Ne.symm h0), State.rg_setRg_other _ _ (Ne.symm h4)]

/-! ## The stall -/

theorem execEngineStallResume_eq (hlive : s.inReset = false) {i : Iss} (hstall : s.seq.stall = some i) (hrun : s.seq.st = .running)
    (hread : s.readingCombine = false) (hwait : s.waitingCombine = none) :
    execEngineStallResume s = .next ((s.freeTag.filter fun _ => canStart s i).elim s fun t => startStalled s t i) := by
  rw [execEngineStallResume, live_eq hlive]
  simp only [hstall, hrun, hread, hwait]
  cases s.freeTag with
  | none => rfl
  | some t =>
    cases hc : canStart s i with
    | false => rfl
    | true => rfl

end

/-- Settles O33: SEQ_CTRL by the state of the sequencer, the check, and the stall. -/
theorem sequencerControl : Obligations.SequencerControl := by
  unfold Obligations.SequencerControl
  refine ⟨fun s hlive hstop => ⟨fun h hswept hblank hst => ?_, fun h hst => ?_, fun h => execSeqCtrlStop_waits h hstop, fun h =>
    execSeqCtrlStop_ends h hstop, fun h hst => ?_, fun h hst => ?_⟩, fun s hlive => ⟨fun d h => execSeqPmCheckGo_begins h, fun a n =>
    execSeqPmCheckDone_ends hlive, fun i tag hstall hrun hread hwait htag hcan => ?_, fun i hstall hrun hread hwait hnot => ?_⟩⟩
  · exact execSeqCtrlStart_eq h hstop (State.startSeq_stands (s := s.accessed) hswept hblank hst s.now)
  · exact execSeqCtrlStart_eq h hstop (State.startSeq_ignored (s := s.accessed) hst s.now)
  · exact (execSeqCtrlClr_eq h hstop).trans (by rw [s.stands_iff.1 hst, State.when_true]; rfl)
  · exact (execSeqCtrlClr_eq h hstop).trans (by rw [State.not_stands hst, State.when_false]; rfl)
  · exact (execEngineStallResume_eq hlive hstall hrun hread hwait).trans (by rw [htag, hcan]; rfl)
  · refine (execEngineStallResume_eq hlive hstall hrun hread hwait).trans ?_
    rcases hnot with hnone | hcan
    · rw [hnone]
      rfl
    · rw [hcan]
      cases s.freeTag with
      | none => rfl
      | some t => rfl

end Sys2Proof.Machine
end

section
/-! The repair handshake, the retrain and the link's timers (R71 to R76, R115, R118, R101, R104). -/
namespace Sys2Proof.Machine

section
variable {s : State} {m : Nat}

/-! ## The repair handshake -/

section
variable {f g : List Byte} {fixed : List Nat} {seed phase : Nat}

/-- A REPAIR flit of a phase acts on the block that has heard it. -/
theorem State.Accepts.rxRepair (h : s.Accepts m f g fixed seed) (htype : flitType g = 3) (hsub : (g.getD 4 0).toNat = 4)
    (hphase : (g.getD 7 0).toNat = phase) (act : Nat → Nat → Nat → List Byte → Nat → State → State) :
    liveWf (flitWf m f) s (·.rxRepair m f phase act) =
      .next (act (g.getD 6 0).toNat (g.getD 8 0).toNat (g.getD 9 0).toNat (slice g 10 4) (leAt g 14 6) (s.heard m g fixed)) :=
  (h.rxCtrl htype hsub _).trans (congrArg Host.Outcome.next (if_pos hphase))

end

/-- What a module's change of record leaves: the other modules and the registers. -/
theorem State.updMod_frame (s : State) (k : Nat) (f : Mod → Mod) :
    (∀ j, j ≠ k → (s.updMod k f).mod j = s.mod j) ∧ (s.updMod k f).regs = s.regs :=
  ⟨fun _ hj => s.mod_updMod_other f (Ne.symm hj), rfl⟩

/-- Settles O43: a REPAIR flit acts by its phase, on the block that has heard it. -/
theorem repairFlits : Obligations.RepairFlits := by
  unfold Obligations.RepairFlits
  intro s m f g fixed seed h htype hsub u k id target
  refine ⟨fun hphase hlock hfut hk hw => ?_, fun hphase hlock => ?_, fun r hphase hrep hid hcancel => ?_, fun r hphase hrep hid hfut => ?_,
    fun r hphase hswap hid hwidth => ?_⟩
  · refine (h.rxRepair htype hsub hphase _).trans (congrArg Host.Outcome.next (if_pos ?_))
    change (u.locked && future target u.tick.num && decide (k < modules u.member) && decide ((g.getD 9 0).toNat < 3)) = true
    rw [hlock, hfut, decide_eq_true hk, decide_eq_true hw]
    rfl
  · refine (h.rxRepair htype hsub hphase _).trans (congrArg Host.Outcome.next (if_neg ?_))
    change ¬ (u.locked && future target u.tick.num && decide (k < modules u.member) && decide ((g.getD 9 0).toNat < 3)) = true
    rw [hlock]
    exact Bool.false_ne_true
  · refine ⟨_, h.rxRepair htype hsub hphase _, ?_, u.updMod_frame k _⟩
    rw [State.mod_updMod_same]
    change (u.mod k).repRx.map _ = _
    rw [hrep]
    exact congrArg some (if_pos (by rw [decide_eq_true hid, hcancel]; rfl))
  · refine ⟨_, h.rxRepair htype hsub hphase _, ?_, u.updMod_frame k _⟩
    rw [State.mod_updMod_same]
    refine if_pos ?_
    change ((u.mod k).repTx.map fun r => r.id == id && future r.target u.tick.num).getD false = true
    rw [hrep, Option.map_some, Option.getD_some, hid, hfut, beq_self_eq_true]
    rfl
  · refine (h.rxRepair htype hsub hphase _).trans (congrArg Host.Outcome.next ?_)
    change (match (u.mod k).swapRx with
      | some r => if r.id = id && (u.mod k).planWidth != some r.width then u.applyRxSwap k r else u
      | none => u) = _
    rw [hswap]
    exact if_pos (by rw [decide_eq_true hid, bne_iff_ne.2 hwidth]; rfl)

/-! ## The own steps of a repair -/

/-- Without lock the request of a repair is answered with result 4. -/
theorem State.writeRepair_unlocked (d : W32) (hgo : bit d 31 = true) (hopen : s.openMode = false) (hlock : s.locked = false) :
    (s.writeRepair m d).rf (0x10010 + 0x1000 * m) 30 28 = 4 := by
  unfold State.writeRepair
  have hbusy : ¬ (!bit d 31 || s.openMode) = true := by
    rw [hgo, hopen]
    exact Bool.false_ne_true
  refine (congrArg (fun t => State.rf t (0x10010 + 0x1000 * m) 30 28) ((if_neg hbusy).trans (if_pos (by
    change (!s.locked) = true
    rw [hlock]
    rfl)))).trans ?_
  exact State.rf_setRf_same _ _ _ (by decide) (by decide)

section
variable {r : Repair}

theorem execRepairResend_sends (hlive : s.inReset = false) (hm : m < 16) (hrep : (s.mod m).repRx = some r)
    (hwants : (r.echoed = false ∧ s.locked = true) ∨ r.cancel = true) (hdue : r.nextSend ≤ s.now) : execRepairResend m s = .next
      ((s.updMod m fun x => { x with repRx := some { r with nextSend := s.now + 64 } }).sendRepair m (if r.cancel then 3 else 1) r) := by
  have hcond : ((!r.echoed || r.cancel) && (r.cancel || s.locked) && decide (r.nextSend ≤ s.now)) = true := by
    rw [decide_eq_true hdue, Bool.and_true]
    rcases hwants with ⟨hecho, hlock⟩ | hcancel
    · rw [hecho, hlock, Bool.or_true]
      rfl
    · rw [hcancel, Bool.or_true]
      rfl
  rw [execRepairResend, liveWf_eq (decide_eq_true hm) hlive]
  simp only [hrep]
  exact congrArg Host.Outcome.next (if_pos hcond)

theorem execRepairNoEcho_cancels (hlive : s.inReset = false) (hm : m < 16) (hrep : (s.mod m).repRx = some r)
    (hecho : r.echoed = false) (hcancel : r.cancel = false) (hdue : future r.target (s.tickPlus 1) = false) : execRepairNoEcho m s = .next
      (((s.updMod m fun x => { x with repRx := some { r with cancel := true, nextSend := s.now + 64 } }).repairEnds m 2).sendRepair m 3 r) := by
  have hcond : (!r.echoed && !r.cancel && !future r.target (s.tickPlus 1)) = true := by
    rw [hecho, hcancel, hdue]
    rfl
  rw [execRepairNoEcho, liveWf_eq (decide_eq_true hm) hlive]
  simp only [hrep]
  exact congrArg Host.Outcome.next (if_pos hcond)

theorem execSwapSwitchSend_switches (hlive : s.inReset = false) (hm : m < 16) {fr : Frost} (hfrost : (s.mod m).frost = some fr)
    (hswap : (s.mod m).swapTx = some r) (hkind : fr.kind = 1) (htx : fr.tx = true) (hnot : fr.switched = false) (hdue : fr.since + 480 ≤ s.now)
    (hopen : s.openMode = false) : execSwapSwitchSend m s = .next ((s.sendCtrl m 4 (repairContent m 4 r)).updMod m fun x =>
        { x with spTx := r.map, swapTx := none, frost := some { fr with switched := true } }) := by
  have hcond : (fr.kind = 1 && fr.tx && !fr.switched && decide (fr.since + 480 ≤ s.now) && !s.openMode) = true := by
    rw [decide_eq_true hkind, htx, hnot, decide_eq_true hdue, hopen]
    rfl
  rw [execSwapSwitchSend, liveWf_eq (decide_eq_true hm) hlive]
  simp only [hfrost, hswap]
  exact congrArg Host.Outcome.next (if_pos hcond)

theorem execSwapSwitchSend_open (hlive : s.inReset = false) (hm : m < 16) (hopen : s.openMode = true) : execSwapSwitchSend m s = .next s := by
  rw [execSwapSwitchSend, liveWf_eq (decide_eq_true hm) hlive]
  split
  next fr r =>
    exact congrArg Host.Outcome.next (if_neg (by rw [hopen, Bool.not_true, Bool.and_false]; exact Bool.false_ne_true))
  next => rfl

theorem execSwapReceiverTimeout_swaps (hlive : s.inReset = false) (hm : m < 16) {b : Nat} (hswap : (s.mod m).swapRx = some r)
    (hwidth : (s.mod m).planWidth ≠ some r.width) (hbegan : r.began = some b) (hdue : b + 600 ≤ s.now) (hopen : s.openMode = false) :
    execSwapReceiverTimeout m s = .next (s.applyRxSwap m r) := by
  rw [execSwapReceiverTimeout, liveWf_eq (decide_eq_true hm) hlive]
  simp only [hswap]
  refine congrArg Host.Outcome.next (if_pos ?_)
  rw [hopen, bne_iff_ne.2 hwidth, hbegan, Option.map_some, Option.getD_some, decide_eq_true hdue]
  rfl

theorem execSwapReceiverTimeout_open (hlive : s.inReset = false) (hm : m < 16) (hopen : s.openMode = true) :
    execSwapReceiverTimeout m s = .next s := by
  rw [execSwapReceiverTimeout, liveWf_eq (decide_eq_true hm) hlive]
  split
  next r => exact congrArg Host.Outcome.next (if_neg (by rw [hopen]; exact Bool.false_ne_true))
  next => rfl

end

/-- A module whose repair's Frost is over. -/
def Mod.swapEnded (x : Mod) : Mod := { x.swapNow with frost := none, st := if x.st = .frost then .active else x.st }

theorem Mod.swapEnded_swap {x : Mod} {r : Repair} (hswap : x.swapTx = some r) (hwidth : r.width = x.width) :
    x.swapEnded.spTx = r.map ∧ x.swapEnded.swapTx = none := by
  unfold Mod.swapEnded Mod.swapNow
  rw [hswap]
  simp only [if_pos hwidth, and_self]

theorem Mod.swapEnded_keeps {x : Mod} (hswap : x.swapTx = none) : x.swapEnded.spTx = x.spTx := by
  unfold Mod.swapEnded Mod.swapNow
  rw [hswap]

theorem execSwapFrostEnd_ends (hlive : s.inReset = false) (hm : m < 16) {fr : Frost} (hfrost : (s.mod m).frost = some fr)
    (hkind : fr.kind = 1) (hdue : fr.since + 720 ≤ s.now) : execSwapFrostEnd m s = .next (s.updMod m (·.swapEnded)) := by
  have hcond : (fr.kind = 1 && decide (fr.since + 720 ≤ s.now)) = true := by
    rw [decide_eq_true hkind, decide_eq_true hdue]
    rfl
  rw [execSwapFrostEnd, liveWf_eq (decide_eq_true hm) hlive]
  simp only [hfrost]
  exact congrArg Host.Outcome.next (if_pos hcond)

/-- In Open mode the Solstice of a repair only drops it. -/
theorem State.repairSolstice_open (hopen : s.openMode = true) :
    (s.repairSolstice m).mod m = { s.mod m with repTx := none, repRx := none, swapTx := none, swapRx := none } := by
  rw [State.repairSolstice, if_pos hopen, State.mod_updMod_same]

/-- Settles O44: each step at its time. -/
theorem repairSteps : Obligations.RepairSteps := by
  unfold Obligations.RepairSteps
  intro s m hlive hm
  refine ⟨fun d hmod hready => ?_, fun d hgo hopen hlock => State.writeRepair_unlocked d hgo hopen hlock, fun r hrep =>
    ⟨fun hwants hdue => execRepairResend_sends hlive hm hrep hwants hdue, fun hecho hcancel hdue =>
      execRepairNoEcho_cancels hlive hm hrep hecho hcancel hdue⟩, fun fr r hfrost hswap hkind htx hnot hdue hopen =>
    execSwapSwitchSend_switches hlive hm hfrost hswap hkind htx hnot hdue hopen, fun r b hswap hwidth hbegan hdue hopen =>
    execSwapReceiverTimeout_swaps hlive hm hswap hwidth hbegan hdue hopen, fun hopen =>
    ⟨State.repairSolstice_open hopen, execSwapSwitchSend_open hlive hm hopen, execSwapReceiverTimeout_open hlive hm hopen⟩,
    fun fr hfrost hkind hdue => ⟨_, execSwapFrostEnd_ends hlive hm hfrost hkind hdue, ?_⟩⟩
  · refine (portCmdWf_ready (decide_eq_true hm) hready _).trans ?_
    rw [decide_eq_true (show m < modules s.accessed.member from hmod), State.when_true]
  · rw [State.mod_updMod_same]
    obtain ⟨hmods, hregs⟩ := s.updMod_frame m (·.swapEnded)
    exact ⟨rfl, rfl, fun r hswap hwidth => Mod.swapEnded_swap hswap hwidth, fun hswap => Mod.swapEnded_keeps hswap, hregs, hmods⟩

/-! ## The retrain handshake -/

theorem State.joinRetrain_joins (hcan : s.canRetrain m = true) (hopen : s.openMode = false) (reason : Nat) :
    s.joinRetrain m reason = (s.enterRetrain m reason false false).sendSb m 0x16 [BitVec.ofNat 64 reason] :=
  if_pos (by rw [hcan, hopen]; rfl)

theorem State.joinRetrain_ignored (hcan : s.canRetrain m = false) (reason : Nat) : s.joinRetrain m reason = s :=
  if_neg (by rw [hcan]; exact Bool.false_ne_true)

theorem State.Hears.retrain_answers {x : SbMsg} {r : Retrain} (h : s.Hears x 0x16 1 m) (hm : m < 16) (hre : (s.mod m).retrain = some r)
    (hmine : r.mine = true) (hans : r.answered = false) : execRetrain m x s = .next
      (s.updMod m fun y => { y with retrain := some { r with answered := true, limitFrom := some s.now } }) := by
  have hsound : ¬ (!(s.sbLive && sbOk 0x16 1 x)) = true := by
    rw [h.swept, h.sound]
    exact Bool.false_ne_true
  rw [execRetrain, liveWf_eq (decide_eq_true hm) h.live, if_neg hsound, h.about]
  simp only [hre]
  exact congrArg Host.Outcome.next (if_pos (by rw [hmine, hans]; rfl))

section
variable {r : Retrain}

theorem execRetrainReqResend_sends (hlive : s.inReset = false) (hm : m < 16) (hre : (s.mod m).retrain = some r) (hmine : r.mine = true)
    (hans : r.answered = false) (hdue : r.nextReq ≤ s.now) : execRetrainReqResend m s = .next
      ((s.sendRetrainReq m r.reason.toNat).updMod m fun y => { y with retrain := some { r with nextReq := s.now + s.retrainGap m } }) := by
  have hcond : (r.mine && !r.answered && decide (r.nextReq ≤ s.now)) = true := by
    rw [hmine, hans, decide_eq_true hdue]
    rfl
  rw [execRetrainReqResend, liveWf_eq (decide_eq_true hm) hlive]
  simp only [hre]
  exact congrArg Host.Outcome.next (if_pos hcond)

theorem execRetrainEnd_eq (hlive : s.inReset = false) (hm : m < 16) (hre : (s.mod m).retrain = some r) : execRetrainEnd m s = .next
    (if r.phase7 && r.gotFlit && s.pwr.st == 4 then s.exitHold m
     else if r.phase7 && r.gotFlit then
       (((((if r.planned then s.thaw m r else s).updMod m fun x => { x.repeatAll with prob := some 65536 }).modUp m).gapThaw).lateFrost m)
     else s) := by
  rw [execRetrainEnd, liveWf_eq (decide_eq_true hm) hlive]
  simp only [hre]
  rfl

theorem execRetrainTimeout_eq (hlive : s.inReset = false) (hm : m < 16) {t : Nat} (hre : (s.mod m).retrain = some r)
    (hlim : r.limitFrom = some t) : execRetrainTimeout m s = .next (if t + s.dur 7200 ≤ s.now then s.modDown m else s) := by
  rw [execRetrainTimeout, liveWf_eq (decide_eq_true hm) hlive, hre, Option.bind_some, hlim]

end

theorem State.wantRetrain_ignored (hcan : s.canRetrain m = false) (reason : Nat) : s.wantRetrain m reason = s :=
  if_pos (by rw [hcan]; rfl)

theorem State.wantRetrain_requests (hcan : s.canRetrain m = true) (hopen : s.openMode = false) (hst : (s.mod m).st ≠ .fallow) (reason : Nat) :
    s.wantRetrain m reason = s.requestRetrain m reason := by
  rw [State.wantRetrain, hcan, hopen, if_neg hst]
  rfl

/-- Settles O45: the peer's request, the own one's answer and repetition, the end and the limit. -/
theorem retrainHandshake : Obligations.RetrainHandshake := by
  unfold Obligations.RetrainHandshake
  intro s m hlive hm
  refine ⟨fun f g fixed q h htype hsub => ?_, fun x r h hre hmine hans => ⟨_, h.retrain_answers hm hre hmine hans, ?_⟩, fun r hre =>
    ⟨fun hmine hans hdue => execRetrainReqResend_sends hlive hm hre hmine hans hdue, fun h7 hgot hst => ?_, fun h7 hgot hst => ?_, fun h => ?_⟩,
    fun r t hre hlim => ⟨fun hdue => ?_, fun hnot => ?_⟩, fun hready hcan => ?_, fun hready hcan hopen hst => ?_⟩
  · intro u k r reason
    exact ⟨fun hcan hopen => (h.rxCtrl htype hsub _).trans (congrArg Host.Outcome.next (State.joinRetrain_joins (s := u) hcan hopen reason)),
      fun hcan => (h.rxCtrl htype hsub _).trans (congrArg Host.Outcome.next (State.joinRetrain_ignored (s := u) hcan reason))⟩
  · obtain ⟨hmods, hregs⟩ := s.updMod_frame m fun y => { y with retrain := some { r with answered := true, limitFrom := some s.now } }
    rw [State.mod_updMod_same]
    exact ⟨rfl, hmods, hregs⟩
  · refine (execRetrainEnd_eq hlive hm hre).trans (congrArg Host.Outcome.next ?_)
    rw [h7, hgot, beq_false_of_ne hst]
    rfl
  · refine (execRetrainEnd_eq hlive hm hre).trans (congrArg Host.Outcome.next ?_)
    rw [h7, hgot, hst]
    rfl
  · have hoff : (r.phase7 && r.gotFlit) = false := by
      rcases h with h | h
      · rw [h, Bool.false_and]
      · rw [h, Bool.and_false]
    refine (execRetrainEnd_eq hlive hm hre).trans (congrArg Host.Outcome.next ?_)
    rw [hoff]
    rfl
  · exact (execRetrainTimeout_eq hlive hm hre hlim).trans (congrArg Host.Outcome.next (if_pos hdue))
  · exact (execRetrainTimeout_eq hlive hm hre hlim).trans (congrArg Host.Outcome.next (if_neg (by omega)))
  · exact (portCmdWf_ready (decide_eq_true hm) hready _).trans (by rw [State.wantRetrain_ignored (s := s.accessed) hcan]; rfl)
  · exact (portCmdWf_ready (decide_eq_true hm) hready _).trans (by rw [State.wantRetrain_requests (s := s.accessed) hcan hopen hst])

/-! ## The link's timers -/

theorem Mod.ackNow_acks (x : Mod) (now : Nat) : (x.ackNow now).a = x.p ∧ (x.ackNow now).ackAt = none := by
  unfold Mod.ackNow Mod.noteHdr
  split
  · exact ⟨rfl, rfl⟩
  · exact ⟨rfl, rfl⟩

theorem execAckTimer_eq (hlive : s.inReset = false) (hm : m < 16) {t : Nat} (hack : (s.mod m).ackAt = some t) :
    execAckTimer m s = .next (if t + s.rf 0x20000 23 16 ≤ s.now then s.updMod m (·.ackNow s.now) else s) := by
  rw [execAckTimer, liveWf_eq (decide_eq_true hm) hlive, hack]

theorem execCreditTimer_eq (hlive : s.inReset = false) : execCreditTimer s = .next
    (if s.onOff || s.linkDownNow || !s.creditOwed then s
     else if s.openMode then { (s.sendMgmt1 2 0 s.creditBytes).creditSent with credLast := s.now }
     else { s with credDue := true, credLast := s.now }) := by
  rw [execCreditTimer, live_eq hlive]

section
variable {u : List Byte}

theorem unitWf_of (hm : m < 16) (hlen : u.length = 244) : unitWf m u = true := by
  rw [unitWf, decide_eq_true hm, hlen]
  rfl

theorem execOpenDataUnit_takes (hlive : s.inReset = false) (hm : m < 16) (hlen : u.length = 244) (hopen : s.openMode = true)
    (hcarry : (s.mod m).carries = true) (htype : flitType u = 1) : execOpenDataUnit m u s = .next
      (s.takeArea m (flitStream u) (flitTc u) ((slice u 4 240).set 7 ((slice u 4 240).getD 7 0 ||| 0x20)) false (s.now + 8)) := by
  have hcond : (s.openMode && (s.mod m).carries && flitType u = 1) = true := by
    rw [hopen, hcarry, decide_eq_true htype]
    rfl
  rw [execOpenDataUnit, liveWf_eq (unitWf_of hm hlen) hlive]
  exact congrArg Host.Outcome.next (if_pos hcond)

theorem execOpenReservedUnit_counts (hlive : s.inReset = false) (hm : m < 16) (hlen : u.length = 244) (hopen : s.openMode = true)
    (hcarry : (s.mod m).carries = true) (htype : 2 ≤ flitType u) : execOpenReservedUnit m u s = .next s.protoErr := by
  rw [execOpenReservedUnit, liveWf_eq (unitWf_of hm hlen) hlive, hopen, hcarry, decide_eq_true htype]
  rfl

end

/-- Settles O42: each timer when its time is over, and not before. -/
theorem linkTimers : Obligations.LinkTimers := by
  unfold Obligations.LinkTimers
  intro s m hlive hm
  refine ⟨fun t hack => ⟨fun hdue => ⟨_, (execAckTimer_eq hlive hm hack).trans (congrArg Host.Outcome.next (if_pos hdue)), ?_⟩, fun hnot =>
      (execAckTimer_eq hlive hm hack).trans (congrArg Host.Outcome.next (if_neg (by omega)))⟩,
    fun hon hdown howed hopen => (execCreditTimer_eq hlive).trans (by rw [hon, hdown, howed, hopen]; rfl),
    fun hon hdown howed hopen => (execCreditTimer_eq hlive).trans (by rw [hon, hdown, howed, hopen]; rfl),
    fun h => (execCreditTimer_eq hlive).trans (congrArg Host.Outcome.next (if_pos ?_)), fun hon hopen hdue => ?_, fun u hlen hopen hcarry =>
    ⟨fun htype => execOpenDataUnit_takes hlive hm hlen hopen hcarry htype, liveWf_eq (unitWf_of hm hlen) hlive _, fun htype =>
      execOpenReservedUnit_counts hlive hm hlen hopen hcarry htype⟩⟩
  · obtain ⟨hmods, hregs⟩ := s.updMod_frame m (·.ackNow s.now)
    rw [State.mod_updMod_same]
    obtain ⟨ha, hat⟩ := (s.mod m).ackNow_acks s.now
    exact ⟨ha, hat, hregs, hmods⟩
  · rcases h with h | h | h
    · rw [h]
      rfl
    · rw [h, Bool.or_true, Bool.true_or]
    · rw [h, Bool.not_false, Bool.or_true]
  · refine (live_eq (s := s) hlive _).trans (congrArg Host.Outcome.next (if_pos ?_))
    rw [hon, hopen, decide_eq_true hdue]
    rfl

end

end Sys2Proof.Machine
end

section
/-! Loss and return of lock, and the planned changes (R112, R113, R121, R130). -/
namespace Sys2Proof.Machine

section
variable {s : State} {m : Nat} {alt clk : Bool}

/-! ## The lock of a set of lanes -/

/-- The forwarded clock of a set is there. -/
def Mod.clkOf (x : Mod) (alt : Bool) : Bool := if alt then x.clkA else x.clkP

/-- The frame of a set is there. -/
def Mod.frmOf (x : Mod) (alt : Bool) : Bool := if alt then x.frmA else x.frmP

/-- The other set than the one named holds lock. -/
def Mod.holdsOther (x : Mod) (alt : Bool) : Bool := if alt then x.clkP && x.frmP else x.clkA && x.frmA

/-- What the change of a set's lock leaves of a module. -/
structure Mod.SameUse (x y : Mod) : Prop where
  altSel : y.altSel = x.altSel
  lostAt : y.lostAt = x.lostAt
  clkLost : y.clkLost = x.clkLost
  st : y.st = x.st
  retrain : y.retrain = x.retrain

/-- A module that has lost a set. -/
def Mod.lost (x : Mod) (alt clk : Bool) : Mod := { x.loseLock alt clk with vldGood := 0, vldBad := 0 }

/-- A module that has a set again. -/
def Mod.regained (x : Mod) (alt : Bool) : Mod :=
  if alt then { x with clkA := x.clkA || true, frmA := true, vldGood := 0, vldBad := 0 }
  else { x with clkP := x.clkP || true, frmP := true, vldGood := 0, vldBad := 0 }

theorem Mod.lost_effect (x : Mod) (alt clk : Bool) :
    (x.lost alt clk).frmOf alt = false ∧ (x.lost alt clk).clkOf alt = (x.clkOf alt && !clk) ∧ x.SameUse (x.lost alt clk) := by
  cases alt with
  | false => exact ⟨rfl, rfl, rfl, rfl, rfl, rfl, rfl⟩
  | true => exact ⟨rfl, rfl, rfl, rfl, rfl, rfl, rfl⟩

theorem Mod.lost_otherLock {x : Mod} (h : x.altSel = alt) : (x.lost alt clk).otherLock = x.holdsOther alt := by
  unfold Mod.otherLock
  rw [(x.lost_effect alt clk).2.2.altSel, h]
  cases alt with
  | false => rfl
  | true => rfl

theorem Mod.regained_effect (x : Mod) (alt : Bool) :
    (x.regained alt).frmOf alt = true ∧ (x.regained alt).clkOf alt = true ∧ x.SameUse (x.regained alt) := by
  cases alt with
  | false => exact ⟨rfl, Bool.or_true _, rfl, rfl, rfl, rfl, rfl⟩
  | true => exact ⟨rfl, Bool.or_true _, rfl, rfl, rfl, rfl, rfl⟩

/-! ## Loss -/

theorem State.lockLoss_absent (h : altSet s.member = false) : s.lockLoss m true clk = s :=
  if_pos (by rw [h]; rfl)

theorem State.lockRegain_absent (h : altSet s.member = false) : s.lockRegain m true clk = s :=
  if_pos (by rw [h]; rfl)

theorem not_absent (h : alt = false ∨ altSet s.member = true) : ¬ (alt && !altSet s.member) = true := by
  rcases h with h | h
  · rw [h]
    exact Bool.false_ne_true
  · rw [h, Bool.not_true, Bool.and_false]
    exact Bool.false_ne_true

/-- A module whose receiver has moved to the other set. -/
def Mod.moved (x : Mod) : Mod := { x with altSel := !x.altSel }

/-- A module with the loss of the set in use recorded. -/
def Mod.lossNoted (now : Nat) (clk : Bool) (x : Mod) : Mod := { x with lostAt := some (x.lostAt.getD now), clkLost := x.clkLost || clk }

/-- The loss shows. -/
def State.lossShown (s : State) (m : Nat) (alt clk : Bool) : State := (s.setMod m ((s.mod m).lost alt clk)).setBit (0x1001C + 0x1000 * m) 0

/-- The receiver's move to the other set shows. -/
def State.lossMoves (s : State) (m : Nat) (alt clk : Bool) : State :=
  ((s.lossShown m alt clk).updMod m (·.moved)).setBit (0x1001C + 0x1000 * m) 2

/-- The loss of the set in use is recorded. -/
def State.lossRecorded (s : State) (m : Nat) (alt clk : Bool) : State := (s.lossShown m alt clk).updMod m (Mod.lossNoted s.now clk)

theorem State.mod_lossShown (s : State) (m : Nat) (alt clk : Bool) :
    (s.lossShown m alt clk).mod m = (s.mod m).lost alt clk ∧ ∀ k, k ≠ m → (s.lossShown m alt clk).mod k = s.mod k :=
  ⟨s.mod_setMod_same m _, fun _ hk => s.mod_setMod_other _ (Ne.symm hk)⟩

theorem State.lockLoss_other (hset : alt = false ∨ altSet s.member = true) (h : (s.mod m).altSel ≠ alt) :
    s.lockLoss m alt clk = s.setMod m ((s.mod m).lost alt clk) := by
  have huse := ((s.mod m).lost_effect alt clk).2.2.altSel
  refine (if_neg (not_absent hset)).trans (if_pos ?_)
  exact bne_iff_ne.2 fun e => h (huse.symm.trans e.symm)

theorem State.lockLoss_used (hset : alt = false ∨ altSet s.member = true) (h : (s.mod m).altSel = alt) : s.lockLoss m alt clk =
    if bit (s.rg (0x10004 + 0x1000 * m)) 16 && (s.mod m).holdsOther alt then s.lossMoves m alt clk else s.lossRecorded m alt clk := by
  have huse := ((s.mod m).lost_effect alt clk).2.2.altSel
  have hrg : ((s.setMod m ((s.mod m).lost alt clk)).setBit (0x1001C + 0x1000 * m) 0).rg (0x10004 + 0x1000 * m) = s.rg (0x10004 + 0x1000 * m) :=
    State.rg_setBit_other _ _ (by omega)
  have hother : ((s.mod m).lost alt clk).otherLock = (s.mod m).holdsOther alt := Mod.lost_otherLock h
  rw [← hother, ← hrg]
  exact (if_neg (not_absent hset)).trans (if_neg fun e => bne_iff_ne.1 e (h.symm.trans huse.symm))

theorem State.mod_setBit (s : State) (off i k : Nat) : (s.setBit off i).mod k = s.mod k := rfl

theorem State.mod_lossMoves (s : State) (m : Nat) (alt clk : Bool) :
    (s.lossMoves m alt clk).mod m = ((s.mod m).lost alt clk).moved ∧ ∀ k, k ≠ m → (s.lossMoves m alt clk).mod k = s.mod k := by
  obtain ⟨hmod, hrest⟩ := s.mod_lossShown m alt clk
  refine ⟨(State.mod_setBit ..).trans ?_, fun k hk => (State.mod_setBit ..).trans ?_⟩
  · exact ((s.lossShown m alt clk).mod_updMod_same m _).trans (congrArg Mod.moved hmod)
  · exact ((s.lossShown m alt clk).mod_updMod_other _ (Ne.symm hk)).trans (hrest k hk)

theorem State.mod_lossRecorded (s : State) (m : Nat) (alt clk : Bool) :
    (s.lossRecorded m alt clk).mod m = Mod.lossNoted s.now clk ((s.mod m).lost alt clk) ∧
      ∀ k, k ≠ m → (s.lossRecorded m alt clk).mod k = s.mod k := by
  obtain ⟨hmod, hrest⟩ := s.mod_lossShown m alt clk
  refine ⟨?_, fun k hk => ?_⟩
  · exact ((s.lossShown m alt clk).mod_updMod_same m _).trans (congrArg (Mod.lossNoted s.now clk) hmod)
  · exact ((s.lossShown m alt clk).mod_updMod_other _ (Ne.symm hk)).trans (hrest k hk)

/-- The events that a loss shows: 0, and 2 for a move. -/
theorem State.lossMoves_shows (s : State) {m : Nat} (alt clk : Bool) :
    bit ((s.lossMoves m alt clk).rg (0x1001C + 0x1000 * m)) 0 = true ∧ bit ((s.lossMoves m alt clk).rg (0x1001C + 0x1000 * m)) 2 = true := by
  refine ⟨(State.bit_setBit _ _ (by decide) 0).trans ?_, State.bit_setBit_same _ _ (by decide)⟩
  exact Bool.or_eq_true_iff.2 (.inr (State.bit_setBit_same (s.setMod m ((s.mod m).lost alt clk)) (0x1001C + 0x1000 * m) (by decide)))

theorem State.lossRecorded_shows (s : State) {m : Nat} (alt clk : Bool) :
    bit ((s.lossRecorded m alt clk).rg (0x1001C + 0x1000 * m)) 0 = true :=
  State.bit_setBit_same (s.setMod m ((s.mod m).lost alt clk)) (0x1001C + 0x1000 * m) (by decide)

/-- What a loss leaves, by the set in use, ALT_AUTO and the other set's lock. -/
theorem State.lockLoss_effect (hset : alt = false ∨ altSet s.member = true) (clk : Bool) :
    let auto := bit (s.rg (0x10004 + 0x1000 * m)) 16
    ∃ t, s.lockLoss m alt clk = t ∧ (t.mod m).frmOf alt = false ∧ (t.mod m).clkOf alt = ((s.mod m).clkOf alt && !clk) ∧
      (∀ k, k ≠ m → t.mod k = s.mod k) ∧
      ((s.mod m).altSel = alt → auto = false ∨ (s.mod m).holdsOther alt = false → (t.mod m).lostAt = some ((s.mod m).lostAt.getD s.now) ∧
        (t.mod m).clkLost = ((s.mod m).clkLost || clk) ∧ (t.mod m).altSel = alt ∧ bit (t.rg (0x1001C + 0x1000 * m)) 0 = true) ∧
      ((s.mod m).altSel = alt → auto = true → (s.mod m).holdsOther alt = true → (t.mod m).altSel = !alt ∧ (t.mod m).lostAt = (s.mod m).lostAt ∧
        bit (t.rg (0x1001C + 0x1000 * m)) 0 = true ∧ bit (t.rg (0x1001C + 0x1000 * m)) 2 = true) ∧
      ((s.mod m).altSel ≠ alt → (t.mod m).altSel = (s.mod m).altSel ∧ (t.mod m).lostAt = (s.mod m).lostAt ∧ t.regs = s.regs) := by
  intro auto
  obtain ⟨hfrm, hclk, huse⟩ := (s.mod m).lost_effect alt clk
  by_cases h : (s.mod m).altSel = alt
  · have hused := State.lockLoss_used (clk := clk) hset h
    cases hcond : auto && (s.mod m).holdsOther alt with
    | true =>
      obtain ⟨hauto, hholds⟩ := Bool.and_eq_true_iff.1 hcond
      obtain ⟨hmod, hrest⟩ := s.mod_lossMoves m alt clk
      refine ⟨_, hused.trans (if_pos hcond), ?_, ?_, hrest, fun _ hnot => ?_, fun _ _ _ => ?_, fun hne => absurd h hne⟩
      · rw [hmod]
        exact hfrm
      · rw [hmod]
        exact hclk
      · exact absurd hnot (by rw [hauto, hholds]; decide)
      · rw [hmod]
        exact ⟨congrArg Bool.not (huse.altSel.trans h), huse.lostAt, s.lossMoves_shows alt clk⟩
    | false =>
      obtain ⟨hmod, hrest⟩ := s.mod_lossRecorded m alt clk
      refine ⟨_, hused.trans (if_neg (Bool.eq_false_iff.1 hcond)), ?_, ?_, hrest, fun _ _ => ?_, fun _ hauto hholds => ?_, fun hne => absurd h hne⟩
      · rw [hmod]
        exact hfrm
      · rw [hmod]
        exact hclk
      · rw [hmod]
        exact ⟨congrArg (fun o : Option Nat => some (o.getD s.now)) huse.lostAt, congrArg (· || clk) huse.clkLost, huse.altSel.trans h,
          s.lossRecorded_shows alt clk⟩
      · rw [hauto, hholds] at hcond
        exact absurd hcond (by decide)
  · have hmod := s.mod_setMod_same m ((s.mod m).lost alt clk)
    refine ⟨_, State.lockLoss_other hset h, ?_, ?_, fun k hk => s.mod_setMod_other _ (Ne.symm hk), fun e => absurd e h, fun e => absurd e h, fun _ => ?_⟩
    · rw [hmod]
      exact hfrm
    · rw [hmod]
      exact hclk
    · rw [hmod]
      exact ⟨huse.altSel, huse.lostAt, rfl⟩

/-! ## Return -/

/-- A module whose loss is over. -/
def Mod.lossEnded (x : Mod) : Mod := { x with lostAt := none, clkLost := false }

/-- A module that uses the set named. -/
def Mod.inUse (alt : Bool) (x : Mod) : Mod := { x with altSel := alt }

/-- The set that returns is taken into use by a move, which shows. -/
def State.moveTo (s : State) (m : Nat) (alt : Bool) : State :=
  (s.updMod m (Mod.inUse alt)).setBit (0x1001C + 0x1000 * m) 2

/-- A set returns, is moved to where it is not in use, and the loss is over. -/
def State.lossOver (s : State) (m : Nat) (alt : Bool) : State :=
  ((s.updMod m (·.regained alt)).when (alt != ((s.updMod m (·.regained alt)).mod m).altSel) (·.moveTo m alt)).updMod m (·.lossEnded)

theorem State.lockRegain_eq (hset : alt = false ∨ altSet s.member = true) : s.lockRegain m alt true =
    let t := s.updMod m (·.regained alt)
    let x := t.mod m
    if x.lostAt.isNone then t
    else if alt != x.altSel && !bit (t.rg (0x10004 + 0x1000 * m)) 16 then t
    else (s.lossOver m alt).when (x.clkLost && x.carries) (·.requestRetrain m 4) :=
  if_neg (not_absent hset)

/-- What a module is found to be once a set has returned. -/
theorem Mod.SameUse.carries {x y : Mod} (h : x.SameUse y) : y.carries = x.carries := by
  rw [Mod.carries, Mod.carries, h.st, h.retrain]

/-- The set returns without an end of the loss. -/
theorem State.lockRegain_lit (hset : alt = false ∨ altSet s.member = true)
    (h : (s.mod m).lostAt = none ∨ (alt ≠ (s.mod m).altSel ∧ bit (s.rg (0x10004 + 0x1000 * m)) 16 = false)) :
    s.lockRegain m alt true = s.updMod m (·.regained alt) := by
  have huse := ((s.mod m).regained_effect alt).2.2
  have hmod : (s.updMod m (·.regained alt)).mod m = (s.mod m).regained alt := s.mod_updMod_same m _
  rw [State.lockRegain_eq hset]
  simp only [hmod, huse.lostAt, huse.altSel]
  rcases h with h | ⟨hne, hauto⟩
  · rw [h]
    rfl
  · have hmove : (alt != (s.mod m).altSel && !bit ((s.updMod m (·.regained alt)).rg (0x10004 + 0x1000 * m)) 16) = true := by
      rw [bne_iff_ne.2 hne, show (s.updMod m (·.regained alt)).rg (0x10004 + 0x1000 * m) = s.rg (0x10004 + 0x1000 * m) from rfl, hauto]
      rfl
    rw [if_pos hmove, ite_self]

/-- The set returns and ends the loss. -/
theorem State.lockRegain_ends (hset : alt = false ∨ altSet s.member = true) (hlost : (s.mod m).lostAt ≠ none)
    (h : alt = (s.mod m).altSel ∨ bit (s.rg (0x10004 + 0x1000 * m)) 16 = true) : s.lockRegain m alt true =
      (s.lossOver m alt).when ((s.mod m).clkLost && (s.mod m).carries) (·.requestRetrain m 4) := by
  have huse := ((s.mod m).regained_effect alt).2.2
  have hmod : (s.updMod m (·.regained alt)).mod m = (s.mod m).regained alt := s.mod_updMod_same m _
  have hrg : (s.updMod m (·.regained alt)).rg (0x10004 + 0x1000 * m) = s.rg (0x10004 + 0x1000 * m) := rfl
  have hstay : (alt != (s.mod m).altSel && !bit (s.rg (0x10004 + 0x1000 * m)) 16) = false := by
    rcases h with h | h
    · rw [h, bne_self_eq_false, Bool.false_and]
    · rw [h, Bool.not_true, Bool.and_false]
  rw [State.lockRegain_eq hset]
  simp only [hmod, hrg, huse.lostAt, huse.altSel, huse.clkLost, huse.carries]
  rw [if_neg (fun e => hlost (Option.isNone_iff_eq_none.1 e)), hstay]
  rfl

theorem State.mod_moveTo (s : State) (m : Nat) (alt : Bool) :
    (s.moveTo m alt).mod m = (s.mod m).inUse alt ∧ ∀ k, k ≠ m → (s.moveTo m alt).mod k = s.mod k :=
  ⟨(State.mod_setBit ..).trans (s.mod_updMod_same m _), fun _ hk => (State.mod_setBit ..).trans (s.mod_updMod_other _ (Ne.symm hk))⟩

theorem State.rg_updMod (s : State) (m : Nat) (f : Mod → Mod) (off : Nat) : (s.updMod m f).rg off = s.rg off := rfl

theorem State.bit_moveTo (s : State) (m : Nat) (alt : Bool) : bit ((s.moveTo m alt).rg (0x1001C + 0x1000 * m)) 2 = true :=
  (s.updMod m (Mod.inUse alt)).bit_setBit_same _ (by decide)

/-- The end of a loss: the set is in use; a move shows, and its absence leaves the registers. -/
theorem State.lossOver_effect (s : State) (m : Nat) (alt : Bool) :
    ((s.lossOver m alt).mod m).frmOf alt = true ∧ ((s.lossOver m alt).mod m).clkOf alt = true ∧
      (∀ k, k ≠ m → (s.lossOver m alt).mod k = s.mod k) ∧ ((s.lossOver m alt).mod m).lostAt = none ∧
      ((s.lossOver m alt).mod m).clkLost = false ∧ ((s.lossOver m alt).mod m).altSel = alt ∧
      (alt = (s.mod m).altSel → (s.lossOver m alt).regs = s.regs) ∧
      (alt ≠ (s.mod m).altSel → bit ((s.lossOver m alt).rg (0x1001C + 0x1000 * m)) 2 = true) := by
  obtain ⟨hfrm, hclk, huse⟩ := (s.mod m).regained_effect alt
  have hmod : (s.updMod m (·.regained alt)).mod m = (s.mod m).regained alt := s.mod_updMod_same m _
  have hrest : ∀ k, k ≠ m → (s.updMod m (·.regained alt)).mod k = s.mod k := fun k hk => s.mod_updMod_other _ (Ne.symm hk)
  unfold State.lossOver
  rw [hmod, huse.altSel]
  rw [State.mod_updMod_same]
  by_cases h : alt = (s.mod m).altSel
  · have hsame : (alt != (s.mod m).altSel) = false := by rw [h, bne_self_eq_false]
    rw [hsame, State.when_false, hmod]
    exact ⟨hfrm, hclk, fun k hk => (State.mod_updMod_other _ _ (Ne.symm hk)).trans (hrest k hk), rfl, rfl, huse.altSel.trans h.symm, fun _ => rfl,
      fun hne => absurd h hne⟩
  · obtain ⟨hto, hothers⟩ := (s.updMod m (·.regained alt)).mod_moveTo m alt
    rw [bne_iff_ne.2 h, State.when_true, hto, hmod]
    refine ⟨hfrm, hclk, fun k hk => (State.mod_updMod_other _ _ (Ne.symm hk)).trans ((hothers k hk).trans (hrest k hk)), rfl, rfl, rfl,
      fun e => absurd e h, fun _ => ?_⟩
    rw [State.rg_updMod]
    exact (s.updMod m (·.regained alt)).bit_moveTo m alt

/-- What a return leaves, by whether it ends the loss. -/
theorem State.lockRegain_effect (hset : alt = false ∨ altSet s.member = true) :
    let auto := bit (s.rg (0x10004 + 0x1000 * m)) 16
    ∃ u, s.lockRegain m alt true = (if (s.mod m).lostAt ≠ none ∧ (alt = (s.mod m).altSel ∨ auto = true) ∧ (s.mod m).clkLost = true ∧
        (s.mod m).carries = true then u.requestRetrain m 4 else u) ∧ (u.mod m).frmOf alt = true ∧ (u.mod m).clkOf alt = true ∧
      (∀ k, k ≠ m → u.mod k = s.mod k) ∧
      ((s.mod m).lostAt = none ∨ (alt ≠ (s.mod m).altSel ∧ auto = false) → (u.mod m).lostAt = (s.mod m).lostAt ∧
        (u.mod m).altSel = (s.mod m).altSel ∧ u.regs = s.regs) ∧
      ((s.mod m).lostAt ≠ none → alt = (s.mod m).altSel ∨ auto = true → (u.mod m).lostAt = none ∧ (u.mod m).clkLost = false ∧
        (u.mod m).altSel = alt ∧ (alt = (s.mod m).altSel → u.regs = s.regs) ∧
        (alt ≠ (s.mod m).altSel → bit (u.rg (0x1001C + 0x1000 * m)) 2 = true)) := by
  intro auto
  by_cases h : (s.mod m).lostAt = none ∨ (alt ≠ (s.mod m).altSel ∧ auto = false)
  · obtain ⟨hfrm, hclk, huse⟩ := (s.mod m).regained_effect alt
    have hnot : ¬ ((s.mod m).lostAt ≠ none ∧ (alt = (s.mod m).altSel ∨ auto = true)) := by
      rintro ⟨hlost, hsel⟩
      rcases h with h | ⟨hne, hauto⟩
      · exact hlost h
      · rcases hsel with hsel | hsel
        · exact hne hsel
        · exact Bool.false_ne_true (hauto.symm.trans hsel)
    refine ⟨s.updMod m (·.regained alt), ?_, ?_⟩
    · exact (State.lockRegain_lit hset h).trans (if_neg fun ⟨hlost, hsel, _, _⟩ => hnot ⟨hlost, hsel⟩).symm
    · rw [State.mod_updMod_same]
      exact ⟨hfrm, hclk, fun k hk => s.mod_updMod_other _ (Ne.symm hk), fun _ => ⟨huse.lostAt, huse.altSel, rfl⟩,
        fun hlost hsel => absurd ⟨hlost, hsel⟩ hnot⟩
  · have hlost : (s.mod m).lostAt ≠ none := fun e => h (.inl e)
    have hsel : alt = (s.mod m).altSel ∨ auto = true := by
      by_cases hsel : alt = (s.mod m).altSel
      · exact .inl hsel
      · exact .inr (Bool.of_not_eq_false fun e => h (.inr ⟨hsel, e⟩))
    obtain ⟨hfrm, hclk, hrest, hends⟩ := s.lossOver_effect m alt
    refine ⟨s.lossOver m alt, (State.lockRegain_ends hset hlost hsel).trans ?_, hfrm, hclk, hrest, fun e => absurd e h, fun _ _ => hends⟩
    have hiff : ((s.mod m).lostAt ≠ none ∧ (alt = (s.mod m).altSel ∨ auto = true) ∧ (s.mod m).clkLost = true ∧ (s.mod m).carries = true) ↔
        ((s.mod m).clkLost && (s.mod m).carries) = true := by
      rw [Bool.and_eq_true]
      exact ⟨fun ⟨_, _, hc⟩ => hc, fun hc => ⟨hlost, hsel, hc⟩⟩
    rw [State.when]
    simp only [hiff]

/-! ## The timeout and the spare lanes' test pattern -/

theorem execLockTimeout_eq (hlive : s.inReset = false) (hm : m < 16) {t : Nat} (hlost : (s.mod m).lostAt = some t) : execLockTimeout m s = .next
    (if t + s.rf (0x10004 + 0x1000 * m) 15 0 < s.now && !(s.mod m).rxLock && (s.mod m).carries then
      ((s.setBit (0x1001C + 0x1000 * m) 1).irq 0).modDown m else s) := by
  rw [execLockTimeout, liveWf_eq (decide_eq_true hm) hlive, hlost]

theorem execLockTimeout_idle (hlive : s.inReset = false) (hm : m < 16) (hlost : (s.mod m).lostAt = none) : execLockTimeout m s = .next s := by
  rw [execLockTimeout, liveWf_eq (decide_eq_true hm) hlive, hlost]

section
variable {lane count : Nat}

/-- The counted errors of a lane. -/
def State.prbsCounted (s : State) (m lane count : Nat) : State :=
  (s.count (0x10300 + 0x1000 * m + 4 * lane) 15 0 count).setBit (0x1001C + 0x1000 * m) 6

theorem State.prbsCounted_effect (s : State) (m : Nat) {lane : Nat} (hlane : lane < 68) (count : Nat) :
    (s.prbsCounted m lane count).rf (0x10300 + 0x1000 * m + 4 * lane) 15 0 = min (s.rf (0x10300 + 0x1000 * m + 4 * lane) 15 0 + count) 65535 ∧
      bit ((s.prbsCounted m lane count).rg (0x1001C + 0x1000 * m)) 6 = true := by
  have hne : 0x1001C + 0x1000 * m ≠ 0x10300 + 0x1000 * m + 4 * lane := by omega
  refine ⟨?_, State.bit_setBit_same _ _ (by decide)⟩
  rw [State.rf, State.prbsCounted, State.rg_setBit_other _ _ hne, ← State.rf]
  exact s.rf_count_same _ count (by decide) (by decide) (by decide)

theorem execSparePrbsError_eq (hlive : s.inReset = false) (hm : m < 16) (hlane : lane < 68) (hmod : m < modules s.member) :
    execSparePrbsError m lane count s = .next (if s.prbsWatched m lane && decide (0 < count) then
      (s.prbsCounted m lane count).updHm fun h => { h with nPrbs := spAdd h.nPrbs (68 * m + lane) count } else s) := by
  rw [execSparePrbsError, liveWf_eq (by rw [decide_eq_true hm, decide_eq_true hlane]; rfl) hlive, decide_eq_true hmod, Bool.and_true]
  rfl

end

/-- Settles O46: a loss by the set in use, a return by whether it ends the loss, the timeout, and the test pattern. -/
theorem lockEvents : Obligations.LockEvents := by
  unfold Obligations.LockEvents
  intro s m hlive hm auto
  have hloss : ∀ alt clk, exec (.lockLoss m alt clk) s = .next (s.lockLoss m alt clk) := fun alt clk => liveWf_eq (decide_eq_true hm) hlive _
  have hregain : ∀ alt, exec (.lockRegain m alt) s = .next (s.lockRegain m alt true) := fun alt => liveWf_eq (decide_eq_true hm) hlive _
  refine ⟨fun hset => ⟨fun clk => (hloss true clk).trans (congrArg Host.Outcome.next (State.lockLoss_absent hset)),
      (hregain true).trans (congrArg Host.Outcome.next (State.lockRegain_absent hset))⟩, fun alt hset => ⟨fun clk => ?_, ?_⟩, fun t hlost =>
    ⟨fun hdue hlock hcarry => ?_, fun hnot => ?_⟩, execLockTimeout_idle hlive hm, fun lane count hlane hmod =>
    ⟨fun hwatch hcount => ⟨_, (execSparePrbsError_eq hlive hm hlane hmod).trans (congrArg Host.Outcome.next (if_pos ?_)), ?_⟩, fun h => ?_⟩⟩
  · obtain ⟨t, ht, heffect⟩ := State.lockLoss_effect (m := m) hset clk
    exact ⟨t, (hloss alt clk).trans (congrArg Host.Outcome.next ht), heffect⟩
  · obtain ⟨u, hu, heffect⟩ := State.lockRegain_effect (m := m) hset
    exact ⟨u, (hregain alt).trans (congrArg Host.Outcome.next hu), heffect⟩
  · refine (execLockTimeout_eq hlive hm hlost).trans (congrArg Host.Outcome.next (if_pos ?_))
    rw [decide_eq_true hdue, hlock, hcarry]
    rfl
  · refine (execLockTimeout_eq hlive hm hlost).trans (congrArg Host.Outcome.next (if_neg ?_))
    rw [decide_eq_false (by omega)]
    exact Bool.false_ne_true
  · rw [hwatch, decide_eq_true hcount]
    rfl
  · obtain ⟨hcounted, hshown⟩ := s.prbsCounted_effect m hlane count
    exact ⟨hcounted, hshown, rfl, rfl⟩
  · refine (execSparePrbsError_eq hlive hm hlane hmod).trans (congrArg Host.Outcome.next (if_neg ?_))
    rcases h with h | h
    · rw [h]
      exact Bool.false_ne_true
    · rw [h, Bool.and_comm]
      exact Bool.false_ne_true

end

end Sys2Proof.Machine
end

section
/-! The planned changes of a module's width and rate (R119 to R124, R152 to R157). -/
namespace Sys2Proof.Machine

section
variable {s : State} {m : Nat}

/-! ## What leaves the modules -/

/-- What each step of a walk keeps, the walk keeps. -/
theorem State.each_same {α β : Type} (p : State → β) {f : State → α → State} (h : ∀ t x, p (f t x) = p t) (xs : List α) (s : State) :
    p (s.each xs f) = p s := by
  induction xs generalizing s with
  | nil => rfl
  | cons x xs ih => exact (ih (f s x)).trans (h s x)

theorem State.when_same {β : Type} (p : State → β) {f : State → State} (s : State) (h : p (f s) = p s) (c : Bool) : p (s.when c f) = p s := by
  cases c with
  | false => rfl
  | true => exact h

theorem State.mods_linkUp (s : State) : s.linkUp.mods = s.mods :=
  State.when_same (·.mods) s (State.each_same (·.mods) (f := fun s c => s.updTc c fun f => { f with xoffRx := true }) (fun _ _ => rfl) _ _) _

theorem State.mods_bistServe (s : State) (m : Nat) : (s.bistServe m).mods = s.mods := by
  unfold State.bistServe
  split
  next month k _ _ =>
    split
    · rfl
    · rfl
  next => rfl

theorem State.mods_flowCheck (s : State) (c : Nat) : (s.flowCheck c).mods = s.mods := by
  exact (apply_ite State.mods _ _ _).trans (ite_self _)

theorem State.mods_flowAll (s : State) : s.flowAll.mods = s.mods := State.each_same (·.mods) State.mods_flowCheck _ _

theorem State.mods_failOwn (s : State) : s.failOwn.mods = s.mods :=
  State.each_same (·.mods) (f := fun s n => s.updStrm n fun x => { x with moving := true, stopped := x.stopped || true }) (fun _ _ => rfl) _ _

theorem State.mods_twinCheck (s : State) : s.twinCheck.mods = s.mods := by
  unfold State.twinCheck
  split
  · exact s.mods_failOwn
  · rfl

theorem State.mods_sendRetrainReq (s : State) (m reason : Nat) : (s.sendRetrainReq m reason).mods = s.mods := by
  unfold State.sendRetrainReq
  split
  · rfl
  · rfl

/-- A module whose retrain has begun. -/
def Mod.retraining (x : Mod) (now gap reason : Nat) (mine planned : Bool) : Mod :=
  let x := x.swapNow.markLate now
  { x with st := .training, tphase := 3, laneGot := false, laneSent := false, palGot := false, palSent := false,
           retrain := some { since := now, limitFrom := if mine then none else some now, mine := mine,
                             reason := BitVec.ofNat 8 reason, answered := !mine, nextReq := now + gap, phase7 := false,
                             gotFlit := false, planned := planned } }

theorem Mod.swapNow_plan (x : Mod) : x.swapNow.planRate = x.planRate ∧ x.swapNow.planWidth = x.planWidth := by
  unfold Mod.swapNow
  split
  next r _ =>
    split
    · exact ⟨rfl, rfl⟩
    · exact ⟨rfl, rfl⟩
  next => exact ⟨rfl, rfl⟩

theorem Mod.retraining_plan (x : Mod) (now gap reason : Nat) (mine planned : Bool) :
    (x.retraining now gap reason mine planned).planRate = x.planRate ∧ (x.retraining now gap reason mine planned).planWidth = x.planWidth :=
  x.swapNow_plan

/-- A link that was down comes up with a retrain. -/
def State.linkRoused (s : State) : State := if s.linkDownNow then { s.linkUp with trn := { s.trn with linkDown := false, fcLast := some s.onOff } } else s

theorem State.mods_linkRoused (s : State) : s.linkRoused.mods = s.mods := by
  unfold State.linkRoused
  split
  · exact s.mods_linkUp
  · rfl

/-- A retrain of the module begins. -/
def State.retrainBegun (s : State) (m gap reason : Nat) (mine planned : Bool) : State :=
  (s.linkRoused.bistServe m).updMod m fun x => x.retraining s.linkRoused.now gap reason mine planned

theorem State.enterRetrain_eq (s : State) (m reason : Nat) (mine planned : Bool) : s.enterRetrain m reason mine planned =
    let t := ((s.retrainBegun m (s.retrainGap m) reason mine planned).flowAll.count (0x20114 + 0x20 * m) 31 16 1).twinCheck
    if planned then t else (t.setBit 0x20034 0).irq 0 := rfl

theorem State.mods_enterRetrain (s : State) (m reason : Nat) (mine planned : Bool) :
    (s.enterRetrain m reason mine planned).mods = (s.retrainBegun m (s.retrainGap m) reason mine planned).mods := by
  have hflow := State.mods_flowAll (s.retrainBegun m (s.retrainGap m) reason mine planned)
  have htwin := State.mods_twinCheck ((s.retrainBegun m (s.retrainGap m) reason mine planned).flowAll.count (0x20114 + 0x20 * m) 31 16 1)
  rw [State.enterRetrain_eq]
  cases planned with
  | false => exact htwin.trans hflow
  | true => exact htwin.trans hflow

theorem State.mod_of_mods {s t : State} (h : t.mods = s.mods) (k : Nat) : t.mod k = s.mod k := by
  rw [State.mod, h]
  rfl

theorem State.mod_enterRetrain (s : State) (m reason : Nat) (mine planned : Bool) : (s.enterRetrain m reason mine planned).mod m =
    (s.mod m).retraining s.linkRoused.now (s.retrainGap m) reason mine planned := by
  rw [State.mod_of_mods (s.mods_enterRetrain m reason mine planned), State.retrainBegun, State.mod_updMod_same,
    State.mod_of_mods ((s.linkRoused.mods_bistServe m).trans s.mods_linkRoused)]

theorem State.plan_enterRetrain (s : State) (m reason : Nat) (mine planned : Bool) :
    ((s.enterRetrain m reason mine planned).mod m).planRate = (s.mod m).planRate ∧
      ((s.enterRetrain m reason mine planned).mod m).planWidth = (s.mod m).planWidth := by
  rw [State.mod_enterRetrain]
  exact (s.mod m).retraining_plan _ _ reason mine planned

/-! ## The end of a Frost's entry -/

/-- A retrain that carries the width and the rate which wait for it. -/
def Mod.markPlan (rate width : Bool) (x : Mod) : Mod :=
  { x with retrain := x.retrain.map fun r => { r with newRate := rate, newWidth := width } }

/-- A module that has taken over the width and the rate which waited. -/
def Mod.planTaken (x : Mod) : Mod := { x with width := x.planWidth.getD x.width, rate := x.planRate.getD x.rate }

/-- A retrain that a Frost's entry begins carries the width and the rate which waited. -/
theorem State.markPlan_enterRetrain {s u : State} {m : Nat} (h : u.mods = (s.updMod m (·.planTaken)).mods) (reason : Nat) (mine : Bool) :
    (u.enterRetrain m reason mine true).updMod m (fun x => x.markPlan x.planRate.isSome x.planWidth.isSome) =
      (u.enterRetrain m reason mine true).updMod m (Mod.markPlan (s.mod m).planRate.isSome (s.mod m).planWidth.isSome) := by
  obtain ⟨hrate, hwidth⟩ := u.plan_enterRetrain m reason mine true
  have hmod : u.mod m = (s.mod m).planTaken := (State.mod_of_mods h m).trans (s.mod_updMod_same m _)
  rw [hmod] at hrate hwidth
  have hmark := congr (congrArg (fun (rate width : Option Nat) => (u.enterRetrain m reason mine true).setMod m
    (((u.enterRetrain m reason mine true).mod m).markPlan rate.isSome width.isSome)) hrate) hwidth
  exact hmark

theorem execFrostEntryComplete_eq (hlive : s.inReset = false) (hm : m < 16) {f : Frost} (hfrost : (s.mod m).frost = some f) :
    execFrostEntryComplete m s = .next
      (if f.kind = 1 || (s.mod m).retrain.isSome || !(s.drained m || decide (f.since + 480 ≤ s.now)) then s
       else if f.kind = 5 then s.updMod m fun x => { x with frost := some { f with switched := true } }
       else if f.kind = 4 then (((s.updMod m (·.planTaken)).sendRetrainReq m 3).enterRetrain m 3 true true).updMod m
         (Mod.markPlan (s.mod m).planRate.isSome (s.mod m).planWidth.isSome)
       else (((s.updMod m (·.planTaken)).enterRetrain m 0 false true).updMod m
           (Mod.markPlan (s.mod m).planRate.isSome (s.mod m).planWidth.isSome)).when
         ((s.updMod m (·.planTaken)).planRun && (s.mod m).planRate.isSome)
         (·.sendRate m ((s.updMod m (·.planTaken)).mod m).rate)) := by
  rw [execFrostEntryComplete, liveWf_eq (decide_eq_true hm) hlive, ← State.markPlan_enterRetrain (s := s) rfl,
    ← State.markPlan_enterRetrain (s := s) ((s.updMod m (·.planTaken)).mods_sendRetrainReq m 3)]
  simp only [hfrost]
  rfl

/-- A Frost's entry is over: nothing retrains, and the module has drained or its time is over. -/
theorem entry_over {f : Frost} (hkind : f.kind ≠ 1) (hre : (s.mod m).retrain = none) (hdue : s.drained m = true ∨ f.since + 480 ≤ s.now) :
    ¬ (f.kind = 1 || (s.mod m).retrain.isSome || !(s.drained m || decide (f.since + 480 ≤ s.now))) = true := by
  have hover : (s.drained m || decide (f.since + 480 ≤ s.now)) = true := by
    rcases hdue with h | h
    · rw [h, Bool.true_or]
    · rw [decide_eq_true h, Bool.or_true]
  rw [decide_eq_false hkind, hre, hover]
  exact Bool.false_ne_true

theorem entry_goes_on {f : Frost} (h : (s.mod m).retrain ≠ none ∨ (s.drained m = false ∧ s.now < f.since + 480)) :
    (f.kind = 1 || (s.mod m).retrain.isSome || !(s.drained m || decide (f.since + 480 ≤ s.now))) = true := by
  rcases h with h | ⟨hdrained, hnow⟩
  · rw [Option.isSome_iff_ne_none.2 h, Bool.or_true, Bool.true_or]
  · rw [hdrained, decide_eq_false (Nat.not_le.2 hnow)]
    exact Bool.or_true _

/-! ## The gap -/

theorem execGapOver_eq (hlive : s.inReset = false) {t : Nat} (hgap : s.gapEnd = some t) : execGapOver s = .next
    (if bit (s.rg 0x20074) 31 && !future t s.tick.num then { s.setBit 0x20058 5 with gapEnd := none } else s) := by
  rw [execGapOver, live_eq hlive, hgap]

/-! ## LL_PLAN -/

/-- A module that is asked to leave Fallow. -/
def Mod.wakeAsked (x : Mod) : Mod := { x with wantWake := x.wantWake || x.st == .fallow }

theorem Mod.wakeAsked_awake {x : Mod} (h : x.st ≠ .fallow) : x.wakeAsked = x := by
  rw [Mod.wakeAsked, beq_false_of_ne h, Bool.or_false]

theorem Mod.wakeAsked_fallow {x : Mod} (h : x.st = .fallow) : x.wakeAsked.wantWake = true := by
  rw [Mod.wakeAsked, h]
  exact Bool.or_true _

/-- The modules named are asked to leave Fallow. -/
def State.wakeMods (s : State) (ms : List Nat) : State := s.each ms fun s m => s.updMod m (·.wakeAsked)

/-- A module that another is asked to leave Fallow, or it itself. -/
theorem State.mod_wakeOne (s : State) (m k : Nat) :
    (s.updMod m (·.wakeAsked)).mod k = s.mod k ∨ (k = m ∧ (s.updMod m (·.wakeAsked)).mod k = (s.mod k).wakeAsked) := by
  by_cases h : m = k
  · rw [h]
    exact .inr ⟨rfl, s.mod_updMod_same k _⟩
  · exact .inl (s.mod_updMod_other _ h)

theorem State.mod_wakeMods_awake {k : Nat} (h : (s.mod k).st ≠ .fallow) (ms : List Nat) : (s.wakeMods ms).mod k = s.mod k := by
  induction ms generalizing s with
  | nil => rfl
  | cons m ms ih =>
    have hsame : (s.updMod m (·.wakeAsked)).mod k = s.mod k := by
      rcases s.mod_wakeOne m k with hk | ⟨-, hk⟩
      · exact hk
      · exact hk.trans (Mod.wakeAsked_awake h)
    exact (ih (s := s.updMod m (·.wakeAsked)) (hsame ▸ h)).trans hsame

theorem State.mod_wakeMods_fallow {k : Nat} (h : (s.mod k).st = .fallow) {ms : List Nat} (hk : k ∈ ms ∨ (s.mod k).wantWake = true) :
    ((s.wakeMods ms).mod k).wantWake = true := by
  induction ms generalizing s with
  | nil => exact hk.resolve_left (List.not_mem_nil)
  | cons m ms ih =>
    rcases s.mod_wakeOne m k with hmod | ⟨-, hmod⟩
    · refine ih (s := s.updMod m (·.wakeAsked)) (by rw [hmod, h]) ?_
      rw [hmod]
      rcases hk with hk | hk
      · rcases List.mem_cons.1 hk with rfl | hk
        · exact .inr (by rw [← hmod, State.mod_updMod_same, Mod.wakeAsked_fallow h])
        · exact .inl hk
      · exact .inr hk
    · exact ih (s := s.updMod m (·.wakeAsked)) (by rw [hmod]; exact h) (.inr (by rw [hmod, Mod.wakeAsked_fallow h]))

theorem State.plan_wakeMods (s : State) (ms : List Nat) : (s.wakeMods ms).plan = s.plan := by
  induction ms generalizing s with
  | nil => rfl
  | cons m ms ih => exact ih (s.updMod m (·.wakeAsked))

/-- The rate and the gap that a write of LL_PLAN names. -/
def State.planRange (s : State) (d : W32) : State :=
  (s.setRf 0x20060 23 20 (min (fld d 23 20) (maxRate s.member))).setRf 0x20060 15 8 (max 1 (fld d 15 8))

theorem State.rg64_planRange (s : State) (d : W32) : (s.planRange d).rg64 0x20068 = s.rg64 0x20068 := by
  unfold State.rg64 State.planRange
  rw [State.rg_setRf_other _ _ _ _ (by decide), State.rg_setRf_other _ _ _ _ (by decide), State.rg_setRf_other _ _ _ _ (by decide),
    State.rg_setRf_other _ _ _ _ (by decide)]

/-- A plan waits for its tick. -/
def State.planSet (s : State) (d : W32) (t : Nat) : State :=
  { ((s.planRange d).wakeMods (s.planRange d).allMods).setRf 0x20060 30 28 0 with
    plan := some (t, min (fld d 23 20) (maxRate s.member), max 1 (fld d 15 8)) }

theorem State.writePlan_eq (s : State) (d : W32) : s.writePlan d =
    let t := (s.rg64 0x20068).toNat % tickMod
    if !bit d 31 || s.openMode then s.planRange d
    else if !s.locked then (s.planRange d).setRf 0x20060 30 28 4
    else if !future t s.tick.num then (s.planRange d).setRf 0x20060 30 28 2
    else s.planSet d t := by
  rw [← s.rg64_planRange d]
  rfl

theorem State.writePlan_open {d : W32} (hopen : s.openMode = true) : s.writePlan d = s.planRange d := by
  rw [State.writePlan_eq, hopen, Bool.or_true]
  rfl

section
variable {d : W32}

theorem State.writePlan_go (hgo : bit d 31 = true) (hopen : s.openMode = false) : s.writePlan d =
    let t := (s.rg64 0x20068).toNat % tickMod
    if !s.locked then (s.planRange d).setRf 0x20060 30 28 4
    else if !future t s.tick.num then (s.planRange d).setRf 0x20060 30 28 2
    else s.planSet d t := by
  rw [State.writePlan_eq]
  exact if_neg (by rw [hgo, hopen]; exact Bool.false_ne_true)

/-- What an accepted plan leaves of the modules. -/
theorem State.mod_planSet (s : State) (d : W32) (t : Nat) :
    (∀ k, (s.mod k).st ≠ .fallow → (s.planSet d t).mod k = s.mod k) ∧
      ∀ k, k < modules s.member → (s.mod k).st = .fallow → ((s.planSet d t).mod k).wantWake = true :=
  ⟨fun _ hst => State.mod_wakeMods_awake (s := s.planRange d) hst _, fun _ hk hst =>
    State.mod_wakeMods_fallow (s := s.planRange d) hst (.inl (List.mem_range.2 hk))⟩

end

end

/-- Settles O47: the end of an entry by the kind of its Frost, the gap, and a plan by the state that its write finds. -/
theorem plannedChanges : Obligations.PlannedChanges := by
  unfold Obligations.PlannedChanges
  intro s m hlive hm
  refine ⟨fun u hu f hfrost hkind => ?_, fun t hgap hopen => ⟨fun hnot => ⟨_, (execGapOver_eq hlive hgap).trans (congrArg Host.Outcome.next (if_pos ?_)), rfl, ?_, rfl⟩,
    fun hfut => (execGapOver_eq hlive hgap).trans (congrArg Host.Outcome.next (if_neg ?_))⟩, fun d hready hgo hopen =>
    ⟨_, portCmd_eq (f := (·.writePlan d)) hready (State.writePlan_open (s := s.accessed) hopen), rfl, rfl⟩, fun d hready hgo hopen => ?_⟩
  · intro mark
    subst hu
    refine ⟨fun hre hdue => ⟨fun h5 => ?_, fun h4 => ?_, fun h4 h5 => ?_⟩, fun h => ?_⟩
    · refine (execFrostEntryComplete_eq hlive hm hfrost).trans (congrArg Host.Outcome.next ?_)
      rw [if_neg (entry_over hkind hre hdue), if_pos h5]
    · refine (execFrostEntryComplete_eq hlive hm hfrost).trans (congrArg Host.Outcome.next ?_)
      rw [if_neg (entry_over hkind hre hdue), if_neg (by omega), if_pos h4]
      rfl
    · refine (execFrostEntryComplete_eq hlive hm hfrost).trans (congrArg Host.Outcome.next ?_)
      rw [if_neg (entry_over hkind hre hdue), if_neg h5, if_neg h4]
      rfl
    · exact (execFrostEntryComplete_eq hlive hm hfrost).trans (congrArg Host.Outcome.next (if_pos (entry_goes_on h)))
  · rw [hopen, hnot]
    rfl
  · exact s.bit_setBit_same 0x20058 (by decide)
  · rw [hfut, Bool.not_true, Bool.and_false]
    exact Bool.false_ne_true
  · intro t
    have hexec : ∀ w, s.accessed.writePlan d = w → exec (.llPlanGo d) s = .next (w.cfgAnswer 32 0) := fun w hw =>
      portCmd_eq (f := (·.writePlan d)) hready hw
    have hgoes := State.writePlan_go (s := s.accessed) hgo hopen
    refine ⟨fun hlock => ⟨_, hexec _ (hgoes.trans (if_pos ?_)), ?_, rfl, rfl⟩, fun hlock hnot =>
      ⟨_, hexec _ (hgoes.trans ((if_neg ?_).trans (if_pos ?_))), ?_, rfl⟩, fun hlock hfut =>
      ⟨_, hexec _ (hgoes.trans ((if_neg ?_).trans (if_neg ?_))), ?_, rfl, s.accessed.mod_planSet d t⟩⟩
    · change (!s.locked) = true
      rw [hlock]
      rfl
    · exact (s.accessed.planRange d).rf_setRf_same 0x20060 4 (by decide) (by decide)
    · change ¬ (!s.locked) = true
      rw [hlock]
      exact Bool.false_ne_true
    · change (!future t s.tick.num) = true
      rw [hnot]
      rfl
    · exact (s.accessed.planRange d).rf_setRf_same 0x20060 2 (by decide) (by decide)
    · change ¬ (!s.locked) = true
      rw [hlock]
      exact Bool.false_ne_true
    · change ¬ (!future t s.tick.num) = true
      rw [hfut]
      exact Bool.false_ne_true
    · exact ((s.accessed.planRange d).wakeMods (s.accessed.planRange d).allMods).rf_setRf_same 0x20060 0 (by decide) (by decide)

end Sys2Proof.Machine
end

section
/-! What the link's receiver does with a flit (R58, R59, R88 to R96). -/
namespace Sys2Proof.Machine

section
variable {s : State} {m : Nat}

/-! ## A flit that verifies -/

section
variable {f g : List Byte} {fixed : List Nat} {seed : Nat}

/-- A flit of the type that a command takes acts on the block that has taken it. -/
theorem State.Accepts.rxWhen (h : s.Accepts m f g fixed seed) {c : List Byte → Prop} [DecidablePred c] {act : List Byte → List Nat → Nat → State → State}
    (hc : c g) : liveWf (flitWf m f) s (·.rxFlit m f fun g fixed q s => if c g then act g fixed q s else s) =
      .next (act g fixed seed s) := by
  rw [liveWf_eq h.wire h.live, h.rxFlit, if_pos hc]

theorem State.Accepts.retx (h : s.Accepts m f g fixed seed) (htype : flitType g = 2) : execRetx m f s = .next
    (match ((s.rxCommon m g fixed).mod m).takeRetx seed (rxFlitOf g (!fixed.isEmpty) (s.grantedBefore m (flitPay g))) s.now with
      | some x => ((s.rxCommon m g fixed).eccWritten 0xB (m * 96 + seed % 96)).seqStep m fun _ => x
      | none => (s.rxCommon m g fixed).count (0x20114 + 0x20 * m) 15 0 1) := by
  have hnow : (s.rxCommon m g fixed).now = s.now := congrArg (·.now) (s.rxCommon_kept m g fixed).env
  rw [← hnow, execRetx, liveWf_eq h.wire h.live, h.rxFlit]
  exact congrArg Host.Outcome.next (if_pos htype)

end

/-- Data in order is taken under its sequence. -/
theorem Mod.takeData_effect (x : Mod) (q now : Nat) (f : RxFlit) : (x.takeData q f now).n = (q + 1) % 4096 ∧ (x.takeData q f now).u = 0 ∧
    (x.takeData q f now).p = x.p ∧ spFind (x.takeData q f now).reord q = some f ∧ (x.takeData q f now).missing = x.missing ++ skipped x.n q :=
  ⟨rfl, rfl, rfl, spFind_spIns_same _ _ _ (spFind_spErase_same _ _), rfl⟩

/-! ## A failed slot -/

/-- The receiver's counts stay. -/
structure Mod.SameSeq (x y : Mod) : Prop where
  u : y.u = x.u
  p : y.p = x.p
  n : y.n = x.n

/-- What the framing of a flit leaves while no lock returns by it. -/
theorem State.vldSeen_quiet (h : (s.mod m).rxLock = true ∨ (s.mod m).vldGood < 3) : (s.mod m).SameSeq ((s.vldSeen m).mod m) ∧
    (∀ k, k ≠ m → (s.vldSeen m).mod k = s.mod k) ∧ ∀ o, (s.vldSeen m).rg o = s.rg o := by
  unfold State.vldSeen
  by_cases hlock : (s.mod m).rxLock = true
  · rw [if_pos hlock, State.mod_updMod_same]
    exact ⟨⟨rfl, rfl, rfl⟩, (s.updMod_frame m _).1, fun _ => rfl⟩
  · rw [if_neg hlock]
    generalize (if (s.mod m).altSel then (s.mod m).clkA else (s.mod m).clkP) = clk
    cases clk with
    | false => exact ⟨⟨rfl, rfl, rfl⟩, fun _ _ => rfl, fun _ => rfl⟩
    | true =>
      rw [Bool.not_true, if_neg Bool.false_ne_true, if_neg (Nat.not_le.2 (h.resolve_left hlock)), State.mod_updMod_same]
      exact ⟨⟨rfl, rfl, rfl⟩, (s.updMod_frame m _).1, fun _ => rfl⟩

theorem Mod.noteHdr_sameSeq (old x : Mod) (now : Nat) : x.SameSeq (Mod.noteHdr old x now) := by
  unfold Mod.noteHdr
  split
  · exact ⟨rfl, rfl, rfl⟩
  · exact ⟨rfl, rfl, rfl⟩

/-- A failed slot's counts. -/
def State.slotCounted (s : State) (m off : Nat) : State :=
  (s.count32 (off + 0x1000 * m) 1).updHm fun h => { h with nCrc := spAdd h.nCrc m 1 }

/-- A failed slot after its framing. -/
theorem State.failSlot_effect (s : State) (m off : Nat) : ((s.failSlot m off).mod m).u = min 8 ((s.mod m).u + 1) ∧
    ((s.failSlot m off).mod m).p = (s.mod m).p ∧ ((s.failSlot m off).mod m).n = (s.mod m).n ∧
    (∀ k, k ≠ m → (s.failSlot m off).mod k = s.mod k) ∧
    (s.failSlot m off).rf (off + 0x1000 * m) 31 0 = min (s.rf (off + 0x1000 * m) 31 0 + 1) 4294967295 ∧
    ∀ o, o ≠ off + 0x1000 * m → (s.failSlot m off).rg o = s.rg o := by
  obtain ⟨hu, hp, hn⟩ := Mod.noteHdr_sameSeq (s.mod m) { s.mod m with u := min 8 ((s.mod m).u + 1) } s.now
  have hmod : (s.failSlot m off).mod m = Mod.noteHdr (s.mod m) { s.mod m with u := min 8 ((s.mod m).u + 1) } s.now :=
    (s.slotCounted m off).mod_updMod_same m _
  have hrest : ∀ k, k ≠ m → (s.failSlot m off).mod k = s.mod k := fun _ hk => (s.slotCounted m off).mod_updMod_other _ (Ne.symm hk)
  have hrg : ∀ o, (s.failSlot m off).rg o = (s.count (off + 0x1000 * m) 31 0 1).rg o := fun _ => rfl
  rw [hmod]
  refine ⟨hu, hp, hn, hrest, ?_, fun o ho => (hrg o).trans (State.rg_count_other _ _ _ _ (Ne.symm ho))⟩
  rw [State.rf, hrg]
  exact s.rf_count_same (off + 0x1000 * m) 1 (by decide) (by decide) (by decide)

/-- A failed slot and its framing. -/
theorem State.seen_failSlot_effect (h : (s.mod m).rxLock = true ∨ (s.mod m).vldGood < 3) (off : Nat) :
    (((s.vldSeen m).failSlot m off).mod m).u = min 8 ((s.mod m).u + 1) ∧
    ((s.vldSeen m).failSlot m off).rf (off + 0x1000 * m) 31 0 = min (s.rf (off + 0x1000 * m) 31 0 + 1) 4294967295 ∧
    (((s.vldSeen m).failSlot m off).mod m).p = (s.mod m).p ∧ (((s.vldSeen m).failSlot m off).mod m).n = (s.mod m).n ∧
    (∀ k, k ≠ m → ((s.vldSeen m).failSlot m off).mod k = s.mod k) ∧
    ∀ o, o ≠ off + 0x1000 * m → ((s.vldSeen m).failSlot m off).rg o = s.rg o := by
  obtain ⟨⟨hu, hp, hn⟩, hmods, hrg⟩ := State.vldSeen_quiet h
  obtain ⟨fu, fp, fn, fmods, fcount, frest⟩ := (s.vldSeen m).failSlot_effect m off
  rw [fu, fcount, fp, fn, hu, hp, hn, State.rf, hrg]
  exact ⟨rfl, rfl, rfl, rfl, fun k hk => (fmods k hk).trans (hmods k hk), fun o ho => (frest o ho).trans (hrg o)⟩

theorem flitWf_of {f : List Byte} (hm : m < 16) (hlen : f.length = 256) : flitWf m f = true := by
  rw [flitWf, decide_eq_true hm, hlen]
  rfl

theorem failedWf_of {f : List Byte} (hm : m < 16) (hlen : f.length = 256) :
    (decide (m < 16) && ((some f).map fun g => g.length == 256).getD true) = true := flitWf_of hm hlen

/-- A slot that fails on a module with lock acts by what its flit shows. -/
theorem execFailedSlot_locked {f : List Byte} (hlive : s.inReset = false) (hm : m < 16) (hlen : f.length = 256) (hopen : s.openMode = false)
    (hcarry : (s.mod m).carries = true) (hlock : (s.mod m).rxLock = true) : execFailedSlot m (some f) s = .next
      (match rxClass f (s.mod m).p (s.mod m).n with
        | .uncorrectable => (s.vldSeen m).failSlot m 0x10020
        | .crcFail _ => (s.vldSeen m).failSlot m 0x10024
        | .good .. => s) := by
  have hslots : ¬ (!((s.mod m).carries || (s.mod m).retrain.isSome) || s.openMode) = true := by
    rw [hcarry, hopen]
    exact Bool.false_ne_true
  have hno : ¬ s.noLock m = true := by
    rw [State.noLock, hlock, Bool.not_true, Bool.and_false]
    exact Bool.false_ne_true
  rw [execFailedSlot, liveWf_eq (failedWf_of hm hlen) hlive]
  exact congrArg Host.Outcome.next ((if_neg hslots).trans (if_neg hno))

section
variable {f : List Byte}

/-- A module that carries flits and holds no lock has no flit accepted. -/
theorem State.lockless_slot (hopen : s.openMode = false) (hcarry : (s.mod m).carries = true) (hlock : (s.mod m).rxLock = false) :
    s.noLock m = true ∧ ∀ f, s.rxGood m f = none := by
  refine ⟨by rw [State.noLock, hcarry, hlock, hopen]; rfl, fun f => if_pos ?_⟩
  rw [Mod.receives, hlock, Bool.and_false]
  rfl

theorem State.rxFlit_lockless (hopen : s.openMode = false) (hcarry : (s.mod m).carries = true) (hlock : (s.mod m).rxLock = false)
    (f : List Byte) (act : List Byte → List Nat → Nat → State → State) : s.rxFlit m f act = s.lockless m := by
  obtain ⟨hno, hgood⟩ := State.lockless_slot hopen hcarry hlock
  unfold State.rxFlit
  rw [hgood, hno, State.when_true]

/-- Without lock whatever flit comes fails its slot. -/
theorem liveWf_rxFlit_lockless (hlive : s.inReset = false) (hm : m < 16) (hlen : f.length = 256) (hopen : s.openMode = false)
    (hcarry : (s.mod m).carries = true) (hlock : (s.mod m).rxLock = false) (act : List Byte → List Nat → Nat → State → State) :
    liveWf (flitWf m f) s (·.rxFlit m f act) = .next (s.lockless m) := by
  rw [liveWf_eq (flitWf_of hm hlen) hlive, State.rxFlit_lockless hopen hcarry hlock]

theorem execFailedSlot_lockless (hlive : s.inReset = false) (hm : m < 16) (hlen : f.length = 256) (hopen : s.openMode = false)
    (hcarry : (s.mod m).carries = true) (hlock : (s.mod m).rxLock = false) : execFailedSlot m (some f) s = .next (s.lockless m) := by
  have hslots : ¬ (!((s.mod m).carries || (s.mod m).retrain.isSome) || s.openMode) = true := by
    rw [hcarry, hopen]
    exact Bool.false_ne_true
  rw [execFailedSlot, liveWf_eq (failedWf_of hm hlen) hlive]
  exact congrArg Host.Outcome.next ((if_neg hslots).trans (if_pos (State.lockless_slot hopen hcarry hlock).1))

end

end

/-- Settles O41: a flit that verifies by its type, a failed slot by what its flit shows, and whatever comes without lock. -/
theorem flitReceipt : Obligations.FlitReceipt := by
  unfold Obligations.FlitReceipt
  refine ⟨fun s m f g fixed q h => ?_, fun x q now f => Mod.takeData_effect x q now f, fun s m f hlive hm hlen hopen hcarry hlock =>
    ⟨fun hclass => ⟨_, (execFailedSlot_locked hlive hm hlen hopen hcarry hlock).trans (by rw [hclass]), ?_⟩, fun b hclass =>
      ⟨_, (execFailedSlot_locked hlive hm hlen hopen hcarry hlock).trans (by rw [hclass]), ?_⟩⟩,
    fun s m f hlive hm hlen hopen hcarry hlock => ?_⟩
  · intro u fl slot sub
    refine ⟨fun htype => h.rxWhen (c := fun g => flitType g = 1) htype, fun htype => ⟨fun x hx => ?_, fun hx => ?_⟩,
      fun htype hsub => h.rxWhen (c := fun g => (flitType g = 0 && (g.getD 4 0).toNat = 0) = true) ?_, fun htype hsub => h.rxCtrl htype hsub _,
      fun htype hsub => h.rxCtrl htype hsub _, fun htype => h.rxWhen (c := fun g => 4 ≤ flitType g) htype, fun hres => ?_⟩
    · exact (h.retx htype).trans (congrArg Host.Outcome.next (by rw [show ((s.rxCommon m g fixed).mod m).takeRetx _ _ _ = _ from hx]))
    · exact (h.retx htype).trans (congrArg Host.Outcome.next (by rw [show ((s.rxCommon m g fixed).mod m).takeRetx _ _ _ = _ from hx]))
    · rw [decide_eq_true htype, decide_eq_true (show (g.getD 4 0).toNat = 0 from hsub)]
      rfl
    · refine h.rxWhen (c := fun g => ((flitType g = 3 && ((g.getD 4 0).toNat == 0 || decide (6 ≤ (g.getD 4 0).toNat))) ||
        (flitType g = 0 && (g.getD 4 0).toNat != 0)) = true) ?_
      simpa only [Bool.or_eq_true, Bool.and_eq_true, decide_eq_true_eq, beq_iff_eq, bne_iff_ne] using hres
  · obtain ⟨hu, hcount, hp, hn, hmods, hrg⟩ := State.seen_failSlot_effect (.inl hlock) 0x10020
    exact ⟨hu, hcount, hp, hn, hmods, hrg⟩
  · obtain ⟨hu, hcount, hp, hn, hmods, hrg⟩ := State.seen_failSlot_effect (.inl hlock) 0x10024
    exact ⟨hu, hcount, hp, hn, hmods, hrg⟩
  · have hslot := fun act => liveWf_rxFlit_lockless hlive hm hlen hopen hcarry hlock act
    refine ⟨execFailedSlot_lockless hlive hm hlen hopen hcarry hlock, hslot _, hslot _, hslot _, hslot _, hslot _, fun hgood => ?_⟩
    obtain ⟨hu, hcount, -, -, -, hrg⟩ := State.seen_failSlot_effect (.inr hgood) 0x10020
    exact ⟨hu, hcount, hrg⟩

end Sys2Proof.Machine
end

section
/-! What a flit slot carries (R102, R108, R109, R127, Table 3-7). -/
namespace Sys2Proof.Machine

section
variable {s : State} {m : Nat}

/-! ## The slot -/

theorem execFlitSlot_eq (hlive : s.inReset = false) (hm : m < 16) (frac : BitVec 3) : execFlitSlot m frac s = .next
    (if s.openMode then s.when (s.mod m).carries (·.openSlot m)
     else s.when ((s.mod m).carries || ((s.mod m).retrain.map (·.phase7)).getD false) (·.flitSlot m frac.toNat)) := by
  rw [execFlitSlot, liveWf_eq (decide_eq_true hm) hlive]

theorem execFlitSlot_slots (hlive : s.inReset = false) (hm : m < 16) (hopen : s.openMode = false)
    (h : (s.mod m).carries = true ∨ ∃ r, (s.mod m).retrain = some r ∧ r.phase7 = true) (frac : BitVec 3) :
    execFlitSlot m frac s = .next (s.flitSlot m frac.toNat) := by
  have hslots : ((s.mod m).carries || ((s.mod m).retrain.map (·.phase7)).getD false) = true := by
    rcases h with h | ⟨r, hre, h7⟩
    · rw [h, Bool.true_or]
    · rw [hre, Option.map_some, Option.getD_some, h7, Bool.or_true]
  rw [execFlitSlot_eq hlive hm, hopen, hslots]
  rfl

theorem execFlitSlot_none (hlive : s.inReset = false) (hm : m < 16) (hopen : s.openMode = false) (hcarry : (s.mod m).carries = false)
    (h : ∀ r, (s.mod m).retrain = some r → r.phase7 = false) (frac : BitVec 3) : execFlitSlot m frac s = .next s := by
  have h7 : ((s.mod m).retrain.map (·.phase7)).getD false = false := by
    cases hre : (s.mod m).retrain with
    | none => rfl
    | some r => exact h r hre
  rw [execFlitSlot_eq hlive hm, hopen, hcarry, h7]
  rfl

theorem State.flitSlot_counts (h : (s.stopBarred m).slotItem m = .marker ∨ (s.stopBarred m).slotItem m = .retx) (frac : Nat) :
    s.flitSlot m frac = (s.stopBarred m).sendItem m frac ((s.stopBarred m).slotItem m) := if_pos h

theorem State.flitSlot_waits (hmark : (s.stopBarred m).slotItem m ≠ .marker) (hretx : (s.stopBarred m).slotItem m ≠ .retx) (frac : Nat) :
    s.flitSlot m frac = ((s.stopBarred m).sendItem m frac ((s.stopBarred m).slotItem m)).updMod m (·.retxWaits) :=
  if_neg fun h => h.elim hmark hretx

/-! ## The item of a slot -/

theorem State.slotItem_retrain {r : Retrain} (h : (s.mod m).retrain = some r) : s.slotItem m = .idle :=
  if_pos (by rw [h]; rfl)

/-- The item of a slot outside a retrain. -/
theorem State.slotItem_eq (h : (s.mod m).retrain = none) : s.slotItem m =
    if s.tick.markerDue && s.active.head? == some m then .marker
    else match s.ctl.find? fun c => c.1 == m with
      | some c => if !(s.mod m).retxUrgent then .ctl c.2 else .retx
      | none =>
        if s.flowDue.contains m && !(s.mod m).retxUrgent then .flow
        else if s.credDue && !(s.mod m).retxUrgent then .credit
        else if (s.mod m).rep.any (·.owed) then .retx
        else if decide (80 ≤ (s.mod m).rep.length) && decide (7 ≤ (s.mod m).sinceReq) then .ackIdle
        else if s.overdue m then .held
        else if (s.pickTc m).isSome then .data
        else .idle :=
  if_neg (by rw [h]; exact Bool.false_ne_true)

theorem State.slotItem_marker (h : (s.mod m).retrain = none) (hdue : s.tick.markerDue = true) (hfirst : s.active.head? = some m) :
    s.slotItem m = .marker := by
  rw [State.slotItem_eq h]
  exact if_pos (by rw [hdue, hfirst, beq_self_eq_true]; rfl)

section
variable (hno : (s.mod m).retrain = none) (hmark : s.tick.markerDue = false ∨ s.active.head? ≠ some m)
include hno hmark

theorem State.slotItem_unmarked : s.slotItem m = match s.ctl.find? fun c => c.1 == m with
    | some c => if !(s.mod m).retxUrgent then .ctl c.2 else .retx
    | none =>
      if s.flowDue.contains m && !(s.mod m).retxUrgent then .flow
      else if s.credDue && !(s.mod m).retxUrgent then .credit
      else if (s.mod m).rep.any (·.owed) then .retx
      else if decide (80 ≤ (s.mod m).rep.length) && decide (7 ≤ (s.mod m).sinceReq) then .ackIdle
      else if s.overdue m then .held
      else if (s.pickTc m).isSome then .data
      else .idle := by
  rw [State.slotItem_eq hno]
  refine if_neg ?_
  rcases hmark with h | h
  · rw [h]
    exact Bool.false_ne_true
  · rw [beq_false_of_ne h, Bool.and_false]
    exact Bool.false_ne_true

theorem State.slotItem_ctl {c : Nat × List Byte} (hown : (s.ctl.find? fun c => c.1 == m) = some c) :
    s.slotItem m = if !(s.mod m).retxUrgent then .ctl c.2 else .retx := by
  rw [State.slotItem_unmarked hno hmark, hown]

variable (hown : (s.ctl.find? fun c => c.1 == m) = none)
include hown

theorem State.slotItem_unowned : s.slotItem m =
    if s.flowDue.contains m && !(s.mod m).retxUrgent then .flow
    else if s.credDue && !(s.mod m).retxUrgent then .credit
    else if (s.mod m).rep.any (·.owed) then .retx
    else if decide (80 ≤ (s.mod m).rep.length) && decide (7 ≤ (s.mod m).sinceReq) then .ackIdle
    else if s.overdue m then .held
    else if (s.pickTc m).isSome then .data
    else .idle := by
  rw [State.slotItem_unmarked hno hmark, hown]

/-- Without a control flit, flow and credit a slot is for repeats, then for what is new. -/
theorem State.slotItem_plain (hctl : (s.mod m).retxUrgent = true ∨ (s.flowDue.contains m = false ∧ s.credDue = false)) : s.slotItem m =
    if (s.mod m).rep.any (·.owed) then .retx
    else if decide (80 ≤ (s.mod m).rep.length) && decide (7 ≤ (s.mod m).sinceReq) then .ackIdle
    else if s.overdue m then .held
    else if (s.pickTc m).isSome then .data
    else .idle := by
  rw [State.slotItem_unowned hno hmark hown]
  rcases hctl with h | ⟨hflow, hcred⟩
  · rw [h, Bool.not_true, Bool.and_false, Bool.and_false, if_neg Bool.false_ne_true, if_neg Bool.false_ne_true]
  · rw [hflow, hcred, Bool.false_and, if_neg Bool.false_ne_true, if_neg Bool.false_ne_true]

end

/-! ## The class of new data -/

theorem fst_ite_one_two {α : Type} {c : Prop} [Decidable c] (a b : α) : (if c then (1, a) else (2, b)).1 = 1 ∨ (if c then (1, a) else (2, b)).1 = 2 := by
  by_cases hc : c
  · exact .inl (congrArg Prod.fst (if_pos hc))
  · exact .inr (congrArg Prod.fst (if_neg hc))

/-- The arbiter chooses a class that may send. -/
theorem pickTc12_open (strict : Bool) (w1 w2 d1 d2 : Nat) {r1 r2 : Bool} (h : r1 = true ∨ r2 = true) :
    ((pickTc12 strict w1 w2 d1 d2 r1 r2).1 = 1 ∧ r1 = true) ∨ ((pickTc12 strict w1 w2 d1 d2 r1 r2).1 = 2 ∧ r2 = true) := by
  cases r1 with
  | false =>
    have h2 : r2 = true := h.resolve_left Bool.false_ne_true
    cases strict with
    | true => exact .inr ⟨rfl, h2⟩
    | false => exact .inr ⟨rfl, h2⟩
  | true =>
    cases strict with
    | true => exact .inl ⟨rfl, rfl⟩
    | false =>
      cases r2 with
      | false =>
        refine .inl ⟨?_, rfl⟩
        simp [pickTc12]
      | true =>
        unfold pickTc12
        rw [if_neg Bool.false_ne_true]
        exact (fst_ite_one_two _ _).imp (⟨·, rfl⟩) (⟨·, rfl⟩)

theorem State.pickTc_first (h : s.mayData m 3 = true) : s.pickTc m = some (3, s) := if_pos h

theorem State.pickTc_second (h3 : s.mayData m 3 = false) (h : s.mayData m 0 = true) : s.pickTc m = some (0, s) :=
  (if_neg (Bool.eq_false_iff.1 h3)).trans (if_pos h)

theorem State.pickTc_weighted (h3 : s.mayData m 3 = false) (h0 : s.mayData m 0 = false) (h : s.mayData m 1 = true ∨ s.mayData m 2 = true) :
    ∃ c d1 d2, s.pickTc m = some (c, { s with d1 := d1, d2 := d2 }) ∧ (c = 1 ∨ c = 2) ∧ s.mayData m c = true := by
  have hany : (s.mayData m 1 || s.mayData m 2) = true := Bool.or_eq_true_iff.2 h
  have hpick := pickTc12_open (bit (s.rg 0x20004) 8) (s.rf 0x20004 3 0) (s.rf 0x20004 7 4) s.d1 s.d2 h
  cases hp : pickTc12 (bit (s.rg 0x20004) 8) (s.rf 0x20004 3 0) (s.rf 0x20004 7 4) s.d1 s.d2 (s.mayData m 1) (s.mayData m 2) with
  | mk c rest =>
    rw [hp] at hpick
    refine ⟨c, rest.1, rest.2, (if_neg (Bool.eq_false_iff.1 h3)).trans ((if_neg (Bool.eq_false_iff.1 h0)).trans ((if_pos hany).trans ?_)),
      hpick.imp (·.1) (·.1), ?_⟩
    · rw [hp]
    · rcases hpick with ⟨hc, hr⟩ | ⟨hc, hr⟩
      · rw [show c = 1 from hc]
        exact hr
      · rw [show c = 2 from hc]
        exact hr

theorem State.pickTc_none (h : ∀ c < 4, s.mayData m c = false) : s.pickTc m = none := by
  rw [State.pickTc, h 3 (by decide), h 0 (by decide), h 1 (by decide), h 2 (by decide)]
  rfl

theorem State.pickTc_some {c : Nat} (hc : c < 4) (h : s.mayData m c = true) : (s.pickTc m).isSome = true := by
  cases h3 : s.mayData m 3 with
  | true => rw [State.pickTc_first h3, Option.isSome_some]
  | false =>
    cases h0 : s.mayData m 0 with
    | true => rw [State.pickTc_second h3 h0, Option.isSome_some]
    | false =>
      have h12 : s.mayData m 1 = true ∨ s.mayData m 2 = true := by
        have hcase : c = 0 ∨ c = 1 ∨ c = 2 ∨ c = 3 := by omega
        rcases hcase with rfl | rfl | rfl | rfl
        · exact absurd (h0.symm.trans h) Bool.false_ne_true
        · exact .inl h
        · exact .inr h
        · exact absurd (h3.symm.trans h) Bool.false_ne_true
      obtain ⟨_, _, _, hpick, -, -⟩ := State.pickTc_weighted h3 h0 h12
      rw [hpick, Option.isSome_some]

/-! ## What an item sends -/

/-- The flit that module m sends now. -/
def State.flitNow (s : State) (m type tc stream : Nat) (pay : List Byte) (seed : Nat) : Out :=
  .flit m (flitMake (flitHeader type tc stream ((s.mod m).header s.now s.free).1 ((s.mod m).header s.now s.free).2) pay seed)

theorem State.out_launch (s : State) (m type tc stream seed : Nat) (pay : List Byte) (ackreq : Bool) :
    (s.launch m type tc stream seed pay ackreq).out = s.out ++ [s.flitNow m type tc stream pay seed] := rfl

/-- The control flit that module m sends now. -/
def State.ctrlNow (s : State) (m sub : Nat) (content : List Byte) : Out :=
  s.flitNow m 3 0 0 (ctlPay sub ((s.mod m).ackReq false) (s.mod m).txFrost content) 0x1FFF

theorem State.out_sendCtrl (s : State) (m sub : Nat) (content : List Byte) :
    (s.sendCtrl m sub content).out = s.out ++ [s.ctrlNow m sub content] := rfl

theorem State.creditSent_keeps (s : State) : s.creditSent.mods = s.mods ∧ s.creditSent.env = s.env ∧ s.creditSent.free = s.free ∧
    s.creditSent.out = s.out := by
  have hstep : ∀ (t : State) (c : Nat), (fun s : State => (s.mods, s.env, s.free, s.out))
      (t.updTc c fun f => { f with sentH := f.graH, sentD := f.graD }) = (t.mods, t.env, t.free, t.out) := fun _ _ => rfl
  have hall := State.each_same (fun s : State => (s.mods, s.env, s.free, s.out)) hstep (List.range 4) s
  obtain ⟨hmods, henv, hfree, hout⟩ : _ ∧ _ ∧ _ ∧ _ := by simpa only [Prod.mk.injEq] using hall
  exact ⟨hmods, henv, hfree, hout⟩

theorem State.out_sendCredit (s : State) (m : Nat) (content : List Byte) :
    (s.creditSent.sendCtrl m 2 content).out = s.out ++ [s.ctrlNow m 2 content] := by
  obtain ⟨hmods, henv, hfree, hout⟩ := s.creditSent_keeps
  have hmod := State.mod_of_mods hmods m
  rw [State.out_sendCtrl, hout, State.ctrlNow, State.flitNow, hmod, hfree, State.now, henv]
  rfl

theorem Mod.ackReq_full {x : Mod} (h : 80 ≤ x.rep.length) (idle : Bool) : x.ackReq idle = true := by
  rw [Mod.ackReq, decide_eq_true h, Bool.true_or]

/-- A repeat that has gone out. -/
def Mod.repeated (e : RepEnt) (at8 : Nat) (x : Mod) : Mod :=
  { x with rep := x.rep.map fun r => if r.seq = e.seq then
      { r with owed := false, sent := at8, retx := if r.rpt then r.retx else r.retx + 1, rpt := false } else r }

theorem State.out_sendRetx {e : RepEnt} (h : (s.mod m).rep.find? (·.owed) = some e) (hclean : s.upsetAt 0xA (m * 96 + e.seq % 96) = 0)
    (frac : Nat) : (s.sendRetx m frac).out = s.out ++ [s.flitNow m 2 e.tc e.stream e.pay e.seq] := by
  have hmod : (s.updMod m fun x => { x.repeated e (8 * s.now + frac) with lastUse := s.now }).mod m =
      { (s.mod m).repeated e (8 * s.now + frac) with lastUse := s.now } := s.mod_updMod_same m _
  have hhdr : State.flitNow (s.updMod m fun x => { x.repeated e (8 * s.now + frac) with lastUse := s.now }) m 2 e.tc e.stream e.pay e.seq =
      s.flitNow m 2 e.tc e.stream e.pay e.seq := by
    rw [State.flitNow, hmod]
    rfl
  unfold State.sendRetx
  rw [h]
  simp only [State.eccRead_clean hclean]
  exact congrArg (s.out ++ [·]) hhdr

theorem State.out_launchData {e : RepEnt} {es : List RepEnt} (h : (s.mod m).grants = e :: es) (at8 : Nat) :
    (s.launchData m at8).out = s.out ++ [s.flitNow m 1 e.tc e.stream e.pay e.seq] := by
  have hout : ∀ (t : State) (i : Nat), (t.eccWritten 0xA i).out = t.out := fun t i => by
    obtain ⟨u, hu⟩ := t.eccWritten_upset 0xA i
    rw [hu]
  unfold State.launchData
  rw [h]
  exact (hout _ _).trans (s.out_launch m 1 e.tc e.stream e.seq e.pay false)

/-! ## The grant of new data -/

/-- The entry of a new flit. -/
def newEntry (seq c stream at8 : Nat) (pay : List Byte) (ids : List Nat) : RepEnt :=
  { seq := seq, tc := c, stream := stream, pay := pay, ids := ids, sent := at8, retx := 0, owed := false, rpt := false }

/-- A module that has been granted a new flit. -/
def Mod.granted (x : Mod) (e : RepEnt) (c now : Nat) : Mod :=
  { x with next := (x.next + 1) % 4096, grants := x.grants ++ [e], lastUse := now, duty := x.duty + b2n (c == 2) }

theorem State.grantData_new {c stream : Nat} {pay : List Byte} {f : Filled} (hstop : s.stoppedFlit m c = none)
    (hfill : s.fillData c = some (stream, pay, f)) (frac : Nat) : s.grantData m c frac =
      ({ s with tx := f.tx } : State).updMod m fun x =>
        x.granted (newEntry (s.mod m).next c stream (8 * s.now + frac + 64) pay f.ids) c s.now := by
  unfold State.grantData
  rw [hstop, hfill]
  rfl

theorem State.sendItem_data {c : Nat} {u : State} (h : s.pickTc m = some (c, u)) (frac : Nat) :
    s.sendItem m frac .data = u.grantData m c frac := by
  unfold State.sendItem
  simp only [h]

end

/-- Settles O40: the slot, its item by the order of Table 3-7, what each item sends, and the grant. -/
theorem flitSlot : Obligations.FlitSlot := by
  unfold Obligations.FlitSlot
  refine ⟨fun s m frac hlive hm => ⟨fun hopen h => ?_, fun hopen hcarry => ?_, fun hopen hcarry h => execFlitSlot_none hlive hm hopen hcarry h frac,
    fun tc htc => liveWf_eq (decide_eq_true htc) hlive _⟩, fun s m => ?_, fun s m frac => ?_⟩
  · intro u
    have hexec := execFlitSlot_slots hlive hm hopen h frac
    exact ⟨fun hi => hexec.trans (congrArg Host.Outcome.next (State.flitSlot_counts hi _)), fun hmark hretx =>
      hexec.trans (congrArg Host.Outcome.next (State.flitSlot_waits hmark hretx _))⟩
  · exact (execFlitSlot_eq hlive hm frac).trans (by rw [hopen, hcarry]; rfl)
  · intro x own
    have hplain : x.retrain = none → (s.tick.markerDue = false ∨ s.active.head? ≠ some m) → own = none → s.flowDue.contains m = false → s.credDue = false →
        (∀ e ∈ x.rep, e.owed = false) → s.slotItem m =
          if decide (80 ≤ (s.mod m).rep.length) && decide (7 ≤ (s.mod m).sinceReq) then .ackIdle
          else if s.overdue m then .held else if (s.pickTc m).isSome then .data else .idle := fun hno hmark hown hflow hcred howed =>
      (State.slotItem_plain hno hmark hown (.inr ⟨hflow, hcred⟩)).trans (if_neg fun h => by
        obtain ⟨e, he, hoe⟩ := List.any_eq_true.1 h
        exact Bool.false_ne_true ((howed e he).symm.trans hoe))
    have hnotAck : (x.rep.length < 80 ∨ x.sinceReq < 7) → (decide (80 ≤ (s.mod m).rep.length) && decide (7 ≤ (s.mod m).sinceReq)) = false := fun h => by
      rcases h with h | h
      · rw [decide_eq_false (Nat.not_le.2 h), Bool.false_and]
      · rw [decide_eq_false (Nat.not_le.2 h), Bool.and_false]
    refine ⟨fun r hre => State.slotItem_retrain hre, fun hno hdue hfirst => State.slotItem_marker hno hdue hfirst, fun hno hmark =>
      ⟨fun hurg => ⟨fun c hown => ?_, fun hown hflow => ?_, fun hown hflow hcred => ?_⟩, fun hctl hany => ?_, fun hown hflow hcred howed =>
        ⟨fun hrep hreq => ?_, fun hless => ⟨fun hover => ?_, fun hover hdata => ?_, fun hover hdata => ?_⟩⟩⟩⟩
    · rw [State.slotItem_ctl hno hmark hown, show (s.mod m).retxUrgent = false from hurg]
      rfl
    · rw [State.slotItem_unowned hno hmark hown, hflow, show (s.mod m).retxUrgent = false from hurg]
      rfl
    · rw [State.slotItem_unowned hno hmark hown, hflow, hcred, show (s.mod m).retxUrgent = false from hurg]
      rfl
    · have howed : ((s.mod m).rep.any (·.owed)) = true := List.any_eq_true.2 hany
      rcases hctl with hurg | ⟨hown, hflow, hcred⟩
      · cases hown : s.ctl.find? fun c => c.1 == m with
        | some c =>
          rw [State.slotItem_ctl hno hmark hown, show (s.mod m).retxUrgent = true from hurg]
          rfl
        | none => rw [State.slotItem_plain hno hmark hown (.inl hurg), if_pos howed]
      · rw [State.slotItem_plain hno hmark hown (.inr ⟨hflow, hcred⟩), if_pos howed]
    · rw [hplain hno hmark hown hflow hcred howed, decide_eq_true hrep, decide_eq_true hreq]
      rfl
    · rw [hplain hno hmark hown hflow hcred howed, hnotAck hless, hover]
      rfl
    · obtain ⟨c, hc, hmay⟩ := hdata
      rw [hplain hno hmark hown hflow hcred howed, hnotAck hless, hover, State.pickTc_some hc hmay]
      rfl
    · rw [hplain hno hmark hown hflow hcred howed, hnotAck hless, hover, State.pickTc_none hdata]
      rfl
  · intro x hdr flit ctrl
    refine ⟨fun i hi => ?_, s.out_sendCtrl m 1 _, rfl, fun sub content => s.out_sendCtrl m sub.toNat content, s.out_sendCtrl m 3 _, ?_,
      s.out_sendCredit m _, rfl, fun h => ⟨Mod.ackReq_full h true, Mod.ackReq_full h false⟩, fun e he hclean => State.out_sendRetx he hclean frac,
      fun e es he => State.out_launchData he _, fun h => State.sendItem_data (State.pickTc_first h) frac, fun h3 h =>
      State.sendItem_data (State.pickTc_second h3 h) frac, fun h3 h0 h => ?_, fun c stream pay f hstop hfill t ht => ?_⟩
    · rcases hi with rfl | rfl
      · rfl
      · rfl
    · exact Bool.eq_false_iff.2 fun h => bne_iff_ne.1 (List.mem_filter.1 (List.contains_iff_mem.1 h)).2 rfl
    · obtain ⟨c, d1, d2, hpick, hc, hmay⟩ := State.pickTc_weighted h3 h0 h
      exact ⟨_, c, hc, hmay, ⟨d1, d2, rfl⟩, State.sendItem_data hpick frac⟩
    · rw [State.grantData_new hstop hfill] at ht
      subst ht
      refine ⟨rfl, ?_, fun k hk => State.mod_updMod_other _ _ (Ne.symm hk), rfl, ?_⟩
      · rw [State.mod_updMod_same]
        rfl
      · rw [State.mod_updMod_same]
        rfl

end Sys2Proof.Machine
end

section
/-! What leaves the reorder buffer and its ports: data, signals and completions (R131, R138, R143, R147, R148). -/
namespace Sys2Proof.Machine

section
variable {s : State} {n : Nat}

/-! ## Fragments -/

theorem Stream.flows_iff (x : Stream) : x.flows = true ↔ x.stopped = false ∨ ∃ e, x.runTo = some e ∧ e ≠ x.e := by
  rw [Stream.flows, Bool.or_eq_true, Bool.not_eq_true']
  cases x.runTo with
  | none => exact or_congr_right ⟨fun h => absurd h Bool.false_ne_true, fun ⟨_, h, _⟩ => nomatch h⟩
  | some e =>
    rw [Option.map_some, Option.getD_some, bne_iff_ne]
    exact or_congr_right ⟨fun h => ⟨e, rfl, h⟩, fun ⟨_, he, hne⟩ => Option.some.inj he ▸ hne⟩

/-- A held message with the fragment given released. -/
def Held.fragOut (h : Held) (f : Frag) : Held :=
  { h with late := h.late || h.resent,
           frags := h.frags.map fun g => if g.moff = f.moff && g.flit = f.flit then { g with released := true } else g }

/-- The fragment of a held message is released. -/
def State.fragOut (u : State) (n : Nat) (h : Held) (f : Frag) : State :=
  ((u.noteFrag h f).updStrm n fun x =>
    { x with held := x.held.map fun g => if g.sseq = h.sseq then h.fragOut f else g }).heldDone n (h.fragOut f)

theorem State.releaseFrag_stands (h : ((s.joinStub n).strm n).flows = false) : s.releaseFrag n = s.joinStub n :=
  if_pos (by rw [h]; rfl)

theorem State.releaseFrag_goes {h : Held} {f : Frag} (hflow : ((s.joinStub n).strm n).flows = true)
    (hheld : ∀ r ∈ (s.joinStub n).rel, r.held = true → r.dom ≠ n)
    (hfind : ((s.joinStub n).strm n).held.find? (fun h => h.sseq == ((s.joinStub n).strm n).e) = some h)
    (hlow : lowFrag (h.frags.filter fun f => if ((s.joinStub n).strm n).stopped then !f.released && decide (f.rdy ≤ (s.joinStub n).now)
      else (s.joinStub n).fragReady h f) = some f) : s.releaseFrag n = (s.joinStub n).fragOut n h f := by
  have hnone : (s.joinStub n).rel.any (fun r => r.held && r.dom == n) = false := by
    refine List.any_eq_false.2 fun r hr hc => ?_
    obtain ⟨hh, hd⟩ := Bool.and_eq_true_iff.1 hc
    exact hheld r hr hh (beq_iff_eq.1 hd)
  have hgo : ¬ (!((s.joinStub n).strm n).flows || (s.joinStub n).rel.any (fun r => r.held && r.dom == n)) = true := by
    rw [hflow, hnone]
    exact Bool.false_ne_true
  unfold State.releaseFrag
  rw [if_neg hgo, hfind]
  simp only [hlow]
  rfl

/-! ## Messages at their ports -/

/-- A response that names no operation the twin waits for leaves the block as it is. -/
theorem State.noteForeign_none {r : Rel} {orig : Nat} (h : s.op? (256 + r.msg.optag.toNat) = none ∨ orig ≠ s.sister.toNat ∨ orig = s.inst.toNat)
    (st : Nat) (psn : Bool) (ecount : Nat) (last : Bool) : s.noteForeign r orig st psn ecount last = s := by
  cases hop : s.op? (256 + r.msg.optag.toNat) with
  | none => simp only [State.noteForeign, hop]
  | some o =>
    simp only [State.noteForeign, hop]
    refine if_pos ?_
    rcases h with h | h | h
    · exact absurd (hop.symm.trans h) (Option.some_ne_none o)
    · rw [bne_iff_ne.2 h]
      rfl
    · rw [decide_eq_true h, Bool.or_true]

theorem State.respForward_own {r : Rel} {orig : Nat} (h : orig = s.inst.toNat) : s.respForward r orig = none := if_pos h

theorem State.respForward_on {r : Rel} {orig : Nat} (h : orig ≠ s.inst.toNat) (hgone : s.sisterGone = false ∨ orig ≠ s.sister.toNat) :
    s.respForward r orig = some ((s.takeRel r).sendXpt (BitVec.ofNat 3 orig) (.msg s.inst r.msg)) := by
  refine (if_neg h).trans (if_neg ?_)
  rcases hgone with hg | hg
  · rw [hg]
    exact Bool.false_ne_true
  · rw [beq_false_of_ne hg, Bool.and_false]
    exact Bool.false_ne_true

theorem State.respForward_lost {r : Rel} {orig : Nat} (h : orig ≠ s.inst.toNat) (hgone : s.sisterGone = true) (hsis : orig = s.sister.toNat) :
    s.respForward r orig = some ((s.takeRel r).count32 0x90028 1) :=
  (if_neg h).trans (if_pos (by rw [hgone, hsis, beq_self_eq_true]; rfl))

section
variable {r : Rel}

theorem execWriteRelease_takes (hlive : s.inReset = false) (hn : n < 64) (hrel : s.nextRel n (·.mtype == 0x01) 0x01 = some r) :
    execWriteRelease n s = .next (((s.takeWritten r).takeWrite r.msg r.dom r.ord).payOwed) := by
  rw [execWriteRelease, liveWf_eq (decide_eq_true hn) hlive, hrel]

theorem execReadReqRelease_eq (hlive : s.inReset = false) (hn : n < 64) (hrel : s.nextRel n (·.mtype == 0x02) 0x02 = some r) :
    execReadReqRelease n s = .next (if s.writesBefore r then s else (s.takeRel r).takeReadReq r.msg) := by
  rw [execReadReqRelease, liveWf_eq (decide_eq_true hn) hlive, hrel]

theorem execSignalRelease_eq (hlive : s.inReset = false) (hn : n < 64) (hrel : s.nextRel n (·.mtype == 0x04) 0x04 = some r) :
    execSignalRelease n s = .next (if s.writesBefore r then s else (s.takeRel r).takeSignal r) := by
  rw [execSignalRelease, liveWf_eq (decide_eq_true hn) hlive, hrel]

theorem execReadDataRelease_eq (hlive : s.inReset = false) (hn : n < 64) (hrel : s.nextRel n (·.mtype == 0x03) 0x03 = some r)
    (h : s.op? (256 + r.msg.optag.toNat) = none ∨ fld r.msg.arg 14 12 ≠ s.sister.toNat ∨ fld r.msg.arg 14 12 = s.inst.toNat) :
    execReadDataRelease n s = .next ((s.respForward r (fld r.msg.arg 14 12)).getD ((s.takeWritten r).takeReadData r.msg r.dom r.ord).payOwed) := by
  rw [execReadDataRelease, liveWf_eq (decide_eq_true hn) hlive]
  simp only [hrel, State.noteForeign_none h]

theorem execCompletionRelease_eq (hlive : s.inReset = false) (hn : n < 64) (hrel : s.nextRel n (·.mtype == 0x05) 0x05 = some r)
    (h : s.op? (256 + r.msg.optag.toNat) = none ∨ (origOf r.msg).toNat ≠ s.sister.toNat ∨ (origOf r.msg).toNat = s.inst.toNat) :
    execCompletionRelease n s = .next ((s.respForward r (origOf r.msg).toNat).getD
      ((s.takeRel r).takeCompletion r.msg.optag.toNat r.msg.src.toNat (fld r.msg.arg 3 0) (bit r.msg.arg 4) (fld r.msg.arg 31 8))) := by
  rw [execCompletionRelease, liveWf_eq (decide_eq_true hn) hlive]
  simp only [hrel, State.noteForeign_none h]

end

/-! ## The credits of written messages -/

theorem State.owed_flowCheck (s : State) (c : Nat) : (s.flowCheck c).owed = s.owed := (apply_ite State.owed _ _ _).trans (ite_self _)

theorem State.owed_grant (s : State) (m : Msg) : (s.grant m).owed = s.owed := State.owed_flowCheck ..

/-- What stays owed has bytes that have not gone out. -/
theorem State.payOwed_left (s : State) : s.payOwed.owed = s.owed.filter fun o => !s.writtenOut o.1 :=
  State.each_same (·.owed) (f := fun s (o : Nat × Msg) => s.grant o.2) (fun t o => t.owed_grant o.2) _ _

/-! ## Signals -/

/-- What a SIGNAL leaves: its counter's increment, and a response. -/
theorem State.takeSignal_effect (s : State) (r : Rel) : ∃ late : State, late.ev = s.ev ∧ late.seq = s.seq ∧ late.g = s.g ∧ late.mods = s.mods ∧
    let t := late.evAdd (fld r.msg.arg 5 0) (fld r.msg.arg 47 16) r.err r.psn
    (s.takeSignal r).ev = t.ev ∧ (s.takeSignal r).seq = t.seq ∧ (s.takeSignal r).g = t.g ∧ (s.takeSignal r).mods = t.mods := by
  cases hlate : (r.due.map fun d => decide (d < s.now)).getD false with
  | false =>
    refine ⟨s, rfl, rfl, rfl, rfl, ?_⟩
    rw [State.takeSignal, hlate]
    exact ⟨rfl, rfl, rfl, rfl⟩
  | true =>
    refine ⟨(s.count32 0x2007C 1).setBit 0x20058 2, rfl, rfl, rfl, rfl, ?_⟩
    rw [State.takeSignal, hlate]
    exact ⟨rfl, rfl, rfl, rfl⟩

theorem State.evAdd_keeps (s : State) (n amount : Nat) (err psn : Bool) : (s.evAdd n amount err psn).seq = s.seq ∧
    (s.evAdd n amount err psn).g = s.g ∧ (s.evAdd n amount err psn).mods = s.mods := by
  unfold State.evAdd
  cases err with
  | false =>
    cases psn with
    | false => exact ⟨rfl, rfl, rfl⟩
    | true => exact ⟨rfl, rfl, rfl⟩
  | true =>
    cases psn with
    | false => exact ⟨rfl, rfl, rfl⟩
    | true => exact ⟨rfl, rfl, rfl⟩

/-! ## The pass-through port -/

theorem unitOk_msg {src : BitVec 3} {msg : Msg} (hs : msg.stream < 64) (htc : msg.tc < 4) (hd : msg.data.length ≤ 4096) :
    unitOk (.msg src msg) = true := by
  rw [unitOk, decide_eq_true hs, decide_eq_true htc, decide_eq_true hd]
  rfl

theorem execPassThroughUnit_takes (hlive : s.inReset = false) {src : BitVec 3} {msg : Msg} (hblank : s.blank = false)
    (hs : msg.stream < 64) (htc : msg.tc < 4) (hd : msg.data.length ≤ 4096) :
    execPassThroughUnit (.msg src msg) s = .next (s.takeUnit (.msg src msg)) := by
  rw [execPassThroughUnit, liveWf_eq (unitOk_msg hs htc hd) hlive, hblank]
  rfl

theorem State.takeUnit_transit {src : BitVec 3} {msg : Msg} (hdst : msg.dst.toNat ≠ s.die) (hcap : msgCap msg = none) :
    s.takeUnit (.msg src msg) = { s with transit := s.transit ++ [{ msg := msg, src := src, since := s.now }] } := by
  refine (if_neg hdst).trans (if_neg ?_)
  rw [hcap]
  exact Bool.false_ne_true

end

/-- Settles O48: a stream's next fragment, and each data message in its turn. -/
theorem releaseData : Obligations.ReleaseData := by
  unfold Obligations.ReleaseData
  intro s n hlive hn
  refine ⟨fun u hu => ?_, fun r hrel => execWriteRelease_takes hlive hn hrel, fun r hrel => ⟨fun hw => ?_, fun hw => ?_⟩, fun r hrel => ?_,
    fun u r hdom => ⟨if_pos hdom, rfl, fun o ho => ?_⟩⟩
  · intro x
    subst hu
    have hexec : exec (.fragmentRelease (some n)) s = .next (s.releaseFrag n) := liveWf_eq (decide_eq_true hn) hlive _
    refine ⟨fun h f hflow hheld hfind hlow => ?_, fun hstop hrun => ?_⟩
    · exact hexec.trans (congrArg Host.Outcome.next (State.releaseFrag_goes ((Stream.flows_iff _).2 hflow) hheld hfind hlow))
    · refine hexec.trans (congrArg Host.Outcome.next (State.releaseFrag_stands (Bool.eq_false_iff.2 fun hf => ?_)))
      rcases (Stream.flows_iff _).1 hf with h | ⟨e, he, hne⟩
      · exact Bool.false_ne_true (h.symm.trans hstop)
      · rcases hrun with h | h
        · exact Option.some_ne_none e (he.symm.trans h)
        · exact hne (Option.some.inj (he.symm.trans h))
  · exact (execReadReqRelease_eq hlive hn hrel).trans (by rw [hw]; rfl)
  · exact (execReadReqRelease_eq hlive hn hrel).trans (by rw [hw]; rfl)
  · intro orig
    refine ⟨fun horig => ?_, fun horig hop => ⟨fun hgone => ?_, fun hgone hsis => ?_⟩⟩
    · exact (execReadDataRelease_eq hlive hn hrel (.inr (.inr horig))).trans (by rw [State.respForward_own horig]; rfl)
    · exact (execReadDataRelease_eq hlive hn hrel (hop.imp_right .inl)).trans (by rw [State.respForward_on horig hgone]; rfl)
    · exact (execReadDataRelease_eq hlive hn hrel (hop.imp_right .inl)).trans (by rw [State.respForward_lost horig hgone hsis]; rfl)
  · rw [State.payOwed_left] at ho
    exact Bool.not_eq_true' _ ▸ (List.mem_filter.1 ho).2

/-- Settles O49: a SIGNAL and a COMPLETION in their turn, a unit by the die that it names, and a counter's increment. -/
theorem releaseSignals : Obligations.ReleaseSignals := by
  unfold Obligations.ReleaseSignals
  refine ⟨fun s n hlive hn => ⟨fun r hrel => ⟨fun hw => ?_, fun hw => ?_⟩, fun r hrel => ⟨fun horig => ?_, fun horig hop hgone => ?_⟩,
    fun src msg hblank hs htc hd => ⟨fun hdst => ⟨_, (execPassThroughUnit_takes hlive hblank hs htc hd).trans
      (congrArg Host.Outcome.next (if_pos hdst)), rfl, rfl, rfl⟩, fun hdst hcap => ?_⟩⟩, fun s r => ?_⟩
  · exact (execSignalRelease_eq hlive hn hrel).trans (by rw [hw]; rfl)
  · exact (execSignalRelease_eq hlive hn hrel).trans (by rw [hw]; rfl)
  · have hnat : (origOf r.msg).toNat = s.inst.toNat := congrArg BitVec.toNat horig
    exact (execCompletionRelease_eq hlive hn hrel (.inr (.inr hnat))).trans (by rw [State.respForward_own hnat]; rfl)
  · have hnat : (origOf r.msg).toNat ≠ s.inst.toNat := fun h => horig (BitVec.eq_of_toNat_eq h)
    have hsis : origOf r.msg ≠ s.sister → (origOf r.msg).toNat ≠ s.sister.toNat := fun h e => h (BitVec.eq_of_toNat_eq e)
    refine (execCompletionRelease_eq hlive hn hrel (hop.imp_right fun h => .inl (hsis h))).trans ?_
    rw [State.respForward_on hnat (hgone.imp_right hsis), BitVec.ofNat_toNat, BitVec.setWidth_eq]
    rfl
  · exact (execPassThroughUnit_takes hlive hblank hs htc hd).trans (congrArg Host.Outcome.next (State.takeUnit_transit hdst hcap))
  · intro n t
    obtain ⟨late, hev, hseq, hg, hmods, tev, tseq, tg, tmods⟩ := s.takeSignal_effect r
    obtain ⟨aseq, ag, amods⟩ := late.evAdd_keeps n (fld r.msg.arg 47 16) r.err r.psn
    have hevc : ∀ k, late.evc k = s.evc k := fun k => congrArg (spGet 0 · k) hev
    have hword : t.evc n = raisedWord (s.evc n) (fld r.msg.arg 47 16) r.err r.psn :=
      (congrArg (spGet 0 · n) tev).trans ((late.evc_evAdd_same n _ _ _).trans (by rw [hevc]))
    refine ⟨by rw [hword, count_raisedWord], by rw [hword, err_raisedWord], by rw [hword, poison_raisedWord], fun k hk => ?_,
      tseq.trans (aseq.trans hseq), tg.trans (ag.trans hg), tmods.trans (amods.trans hmods)⟩
    calc t.evc k = (late.evAdd n (fld r.msg.arg 47 16) r.err r.psn).evc k := congrArg (spGet 0 · k) tev
      _ = (late.setEvc n (raisedWord (late.evc n) (fld r.msg.arg 47 16) r.err r.psn)).evc k := late.evc_evAdd n _ _ _ k
      _ = s.evc k := (late.evc_setEvc_other _ (Ne.symm hk)).trans (hevc k)

end Sys2Proof.Machine
end

section
/-! The messages of the Harvest engines and of the pages at their ports (R302, R310, R346, R371, R408, R427). -/
namespace Sys2Proof.Machine

section
variable {s : State} {n : Nat} {r : Rel}

/-! ## What leaving and waiting at a port keep -/

/-- The slots of the Harvest engines and the operations. -/
def State.slots (s : State) : Sp Red × Sp Mrg × Sp Cmb × List Op := (s.red, s.mrg, s.cmb, s.ops)

theorem State.flowCheck_keeps (s : State) (c : Nat) : (s.flowCheck c).rel = s.rel ∧ (s.flowCheck c).slots = s.slots :=
  ⟨(apply_ite State.rel _ _ _).trans (ite_self _), (apply_ite State.slots _ _ _).trans (ite_self _)⟩

theorem State.grant_keeps (s : State) (m : Msg) : (s.grant m).rel = s.rel ∧ (s.grant m).slots = s.slots := State.flowCheck_keeps ..

theorem State.takeRel_keeps (s : State) (r : Rel) : (s.takeRel r).rel = s.rel.filter (fun y => y.ord != r.ord) ∧ (s.takeRel r).slots = s.slots := by
  unfold State.takeRel
  cases decide (r.dom < 64) with
  | false => exact ⟨rfl, rfl⟩
  | true => exact State.grant_keeps ..

theorem State.holdRel_keeps (s : State) (r : Rel) (count : Bool) :
    (s.holdRel r count).rel = s.rel.map (fun y => if y.ord = r.ord then { y with held := true } else y) ∧ (s.holdRel r count).slots = s.slots := by
  unfold State.holdRel
  cases count && !r.held with
  | false => exact ⟨rfl, rfl⟩
  | true => exact ⟨rfl, rfl⟩

/-- A message waits at its port, and nothing else moves. -/
def State.Waits (s : State) (r : Rel) (t : State) : Prop :=
  t.rel = s.rel.map (fun y => if y.ord = r.ord then { y with held := true } else y) ∧ t.red = s.red ∧ t.mrg = s.mrg ∧ t.cmb = s.cmb ∧ t.ops = s.ops

theorem State.slots_eq {s t : State} (h : t.slots = s.slots) : t.red = s.red ∧ t.mrg = s.mrg ∧ t.cmb = s.cmb ∧ t.ops = s.ops := by
  simpa only [State.slots, Prod.mk.injEq] using h

theorem State.waits_holdRel (s : State) (r : Rel) (count : Bool) : s.Waits r (s.holdRel r count) :=
  ⟨(s.holdRel_keeps r count).1, State.slots_eq (s.holdRel_keeps r count).2⟩

/-! ## Whom a message names -/

theorem State.hvForward_own (h : rinstOf r.msg = s.inst) : s.hvForward r = none := if_pos h

theorem State.hvForward_on (h : rinstOf r.msg ≠ s.inst) (hgone : s.sisterGone = false ∨ rinstOf r.msg ≠ s.sister) :
    s.hvForward r = some ((s.takeRel r).sendXpt (rinstOf r.msg) (.msg s.inst r.msg)) := by
  refine (if_neg h).trans (if_neg ?_)
  rcases hgone with hg | hg
  · rw [hg]
    exact Bool.false_ne_true
  · rw [beq_false_of_ne hg, Bool.and_false]
    exact Bool.false_ne_true

theorem tagOlder_self (a : Nat) : tagOlder a a = false := by
  rw [tagOlder, Nat.add_sub_cancel_left]
  rfl

/-! ## Contributions -/

/-- The release of a contribution: what its message does, and the own fold that an end of the largest exponents lets go on. -/
theorem execHvContrib_eq (hlive : s.inReset = false) (hn : n < 64) (hrel : s.nextHv 0x10 n = some r) (hown : rinstOf r.msg = s.inst) :
    execHvContrib n s = .next
      (if (s.redAt (fld r.msg.arg 19 16)).gfinal || !((s.contribAt r).redAt (fld r.msg.arg 19 16)).gfinal then s.contribAt r
       else match ((s.contribAt r).retryContribs (fld r.msg.arg 19 16)).op?
            (((s.contribAt r).retryContribs (fld r.msg.arg 19 16)).redAt (fld r.msg.arg 19 16)).tag with
          | some o => ((s.contribAt r).retryContribs (fld r.msg.arg 19 16)).foldRedNext o
          | none => (s.contribAt r).retryContribs (fld r.msg.arg 19 16)) := by
  rw [execHvContrib, liveWf_eq (decide_eq_true hn) hlive]
  simp only [hrel, State.hvForward_own hown] <;> rfl

theorem execHvContrib_settled (hlive : s.inReset = false) (hn : n < 64) (hrel : s.nextHv 0x10 n = some r) (hown : rinstOf r.msg = s.inst)
    (h : (s.redAt (fld r.msg.arg 19 16)).gfinal = true ∨ ((s.contribAt r).redAt (fld r.msg.arg 19 16)).gfinal = false) :
    execHvContrib n s = .next (s.contribAt r) := by
  refine (execHvContrib_eq hlive hn hrel hown).trans (congrArg Host.Outcome.next (if_pos ?_))
  rcases h with h | h
  · rw [h, Bool.true_or]
  · rw [h]
    exact Bool.or_true _

theorem State.contribAt_waits (h : (s.redAt (fld r.msg.arg 19 16)).busy = false ∨ tagOlder (s.redAt (fld r.msg.arg 19 16)).rtag (fld r.msg.arg 63 56) = true) :
    s.contribAt r = s.holdRel r true := by
  refine if_pos ?_
  rcases h with h | h
  · rw [h]
    rfl
  · rw [h, Bool.or_true]

theorem not_waits {busy older : Bool} (hbusy : busy = true) (holder : older = false) : ¬ (!busy || older) = true := by
  rw [hbusy, holder]
  exact Bool.false_ne_true

theorem State.contribAt_stale (hbusy : (s.redAt (fld r.msg.arg 19 16)).busy = true)
    (holder : tagOlder (s.redAt (fld r.msg.arg 19 16)).rtag (fld r.msg.arg 63 56) = false)
    (hne : (s.redAt (fld r.msg.arg 19 16)).rtag ≠ fld r.msg.arg 63 56) :
    s.contribAt r = s.dropStale r (bit r.msg.arg 26) (contribOrig r.msg) 9 :=
  (if_neg (not_waits hbusy holder)).trans (if_pos (bne_iff_ne.2 hne))

theorem State.contribAt_takes (hbusy : (s.redAt (fld r.msg.arg 19 16)).busy = true)
    (htag : (s.redAt (fld r.msg.arg 19 16)).rtag = fld r.msg.arg 63 56) : s.contribAt r = s.redTake (fld r.msg.arg 19 16) r :=
  (if_neg (not_waits hbusy (by rw [htag, tagOlder_self]))).trans (if_neg fun h => bne_iff_ne.1 h htag)

/-- A contribution of an index that the reduction has not, or whose LAST it has taken. -/
theorem State.redTake_faults {k : Nat} (h : (s.redAt k).k ≤ fld r.msg.arg 15 0 ∨ fld r.msg.arg 15 0 ∈ (s.redAt k).done) :
    s.redTake k r = s.redFault k r := by
  have hoff : (decide ((s.redAt k).k ≤ fld r.msg.arg 15 0) || (s.redAt k).done.contains (fld r.msg.arg 15 0)) = true := by
    rcases h with h | h
    · rw [decide_eq_true h, Bool.true_or]
    · rw [List.contains_iff_mem.2 h, Bool.or_true]
  simp only [State.redTake, hoff, Bool.true_or, if_true, ite_self]

/-! ## Partial records -/

theorem execHvPartial_eq (hlive : s.inReset = false) (hn : n < 64) (hrel : s.nextHv 0x11 n = some r) (hown : rinstOf r.msg = s.inst) :
    execHvPartial n s = .next (s.partialAt r) := by
  rw [execHvPartial, liveWf_eq (decide_eq_true hn) hlive]
  simp only [hrel, State.hvForward_own hown, Option.getD_none]

theorem State.partialAt_waits (h : (s.mrgAt (fld r.msg.arg 18 16)).busy = false ∨ tagOlder (s.mrgAt (fld r.msg.arg 18 16)).rtag (fld r.msg.arg 63 56) = true) :
    s.partialAt r = s.holdRel r true := by
  refine if_pos ?_
  rcases h with h | h
  · rw [h]
    rfl
  · rw [h, Bool.or_true]

theorem State.partialAt_stale (hbusy : (s.mrgAt (fld r.msg.arg 18 16)).busy = true)
    (holder : tagOlder (s.mrgAt (fld r.msg.arg 18 16)).rtag (fld r.msg.arg 63 56) = false)
    (hne : (s.mrgAt (fld r.msg.arg 18 16)).rtag ≠ fld r.msg.arg 63 56) (hlast : bit r.msg.arg 26 = false) :
    s.partialAt r = (s.takeRel r).count32 0x7002C 1 := by
  refine (if_neg (not_waits hbusy holder)).trans ((if_pos (bne_iff_ne.2 hne)).trans ?_)
  rw [hlast]
  rfl

theorem State.partialAt_takes (hbusy : (s.mrgAt (fld r.msg.arg 18 16)).busy = true)
    (htag : (s.mrgAt (fld r.msg.arg 18 16)).rtag = fld r.msg.arg 63 56) : s.partialAt r = s.mrgTake (fld r.msg.arg 18 16) r :=
  (if_neg (not_waits hbusy (by rw [htag, tagOlder_self]))).trans (if_neg fun h => bne_iff_ne.1 h htag)

/-- The records that a run of staged records leaves do not depend on the rest of the slot. -/
theorem recs_stage (c f roff : Nat) (data : List Byte) (js : List Nat) {x y : Mrg} (h : x.recs = y.recs) :
    (js.foldl (fun x j => x.stage c (partialRec x.d f roff data j)) x).recs =
      (js.foldl (fun y j => y.stage c (partialRec x.d f roff data j)) y).recs := by
  induction js generalizing x y with
  | nil => exact h
  | cons j js ih =>
    have hrecs : (x.stage c (partialRec x.d f roff data j)).recs = (y.stage c (partialRec x.d f roff data j)).recs :=
      congrArg (fun recs : List (Nat × PRec) =>
        recs.filter (fun e => !(e.1 == c && e.2.row == (partialRec x.d f roff data j).row)) ++ [(c, partialRec x.d f roff data j)]) h
    exact ih hrecs

/-- A partial record of the open merge fits: no rule of R348 drops it. -/
structure Mrg.Fits (x : Mrg) (m : Msg) : Prop where
  index : fld m.arg 15 0 < x.k
  far : x.localIdx ≠ some (fld m.arg 15 0)
  open_ : fld m.arg 15 0 ∉ x.last
  uncut : x.cut = false
  elems : fld m.arg 36 29 + 1 = x.d
  group : fld m.arg 40 37 + 1 = x.gsize
  width : ∀ e ∈ x.ofmt, e.1 = fld m.arg 15 0 → e.2 = fld m.arg 28 28
  whole : m.data.length % (8 + x.d * (if fld m.arg 28 28 = 0 then 4 else 2)) = 0
  rows : fld m.arg 55 41 + m.data.length / (8 + x.d * (if fld m.arg 28 28 = 0 then 4 else 2)) ≤ x.rows
  full : bit m.arg 27 = false

/-- The width of a contributor's earlier messages. -/
theorem Mrg.width_eq {x : Mrg} {c f : Nat} (h : ∀ e ∈ x.ofmt, e.1 = c → e.2 = f) : ((x.ofmt.find? fun e => e.1 == c).map (·.2)).getD f = f := by
  cases hfind : x.ofmt.find? fun e => e.1 == c with
  | none => rfl
  | some e => exact h e (List.mem_of_find?_eq_some hfind) (beq_iff_eq.1 (List.find?_some (p := fun e : Nat × Nat => e.1 == c) hfind))

/-- The slot of a merge once a record that fits is staged. -/
def Mrg.staged (x : Mrg) (m : Msg) : Mrg :=
  let c := fld m.arg 15 0
  let f := fld m.arg 28 28
  let k := m.data.length / (8 + x.d * (if f = 0 then 4 else 2))
  let y := (List.range k).foldl (fun y j => y.stage c (partialRec y.d f (fld m.arg 55 41) m.data j)) (x.setCf c ((x.cfOf c).1, (x.cfOf c).2 || m.poison))
  { y with ofmt := y.ofmt ++ [(c, f)], badRows := if m.poison then y.badRows ++ (List.range k).map (fld m.arg 55 41 + ·) else y.badRows }

theorem State.mrgTake_stages {k : Nat} (h : (s.mrgAt k).Fits r.msg) (hlast : bit r.msg.arg 26 = false) :
    s.mrgTake k r = (s.takeRel r).setMrg k ((s.mrgAt k).staged r.msg) := by
  have hfits : ¬ (decide ((s.mrgAt k).k ≤ fld r.msg.arg 15 0) || (s.mrgAt k).localIdx == some (fld r.msg.arg 15 0) ||
      (s.mrgAt k).last.contains (fld r.msg.arg 15 0) || (s.mrgAt k).cut || fld r.msg.arg 36 29 + 1 != (s.mrgAt k).d ||
      fld r.msg.arg 40 37 + 1 != (s.mrgAt k).gsize ||
      fld r.msg.arg 28 28 != (((s.mrgAt k).ofmt.find? fun e => e.1 == fld r.msg.arg 15 0).map (·.2)).getD (fld r.msg.arg 28 28) ||
      decide ((s.mrgAt k).rows < fld r.msg.arg 55 41 + r.msg.data.length / (8 + (s.mrgAt k).d * (if fld r.msg.arg 28 28 = 0 then 4 else 2))) ||
      r.msg.data.length % (8 + (s.mrgAt k).d * (if fld r.msg.arg 28 28 = 0 then 4 else 2)) != 0 ||
      (bit r.msg.arg 27 && (!r.msg.data.isEmpty || (s.mrgAt k).recs.any (·.1 == fld r.msg.arg 15 0)))) = true := by
    rw [decide_eq_false (Nat.not_le.2 h.index), beq_false_of_ne h.far, Bool.eq_false_iff.2 fun hc => h.open_ (List.contains_iff_mem.1 hc), h.uncut,
      h.elems, bne_self_eq_false, h.group, bne_self_eq_false, Mrg.width_eq h.width, bne_self_eq_false, decide_eq_false (Nat.not_lt.2 h.rows), h.whole,
      h.full]
    exact Bool.false_ne_true
  refine (if_neg hfits).trans ((if_neg (Bool.eq_false_iff.1 hlast)).trans ?_)
  rw [h.full]
  rfl

theorem Mrg.recs_staged (x : Mrg) (m : Msg) : (x.staged m).recs =
    ((List.range (m.data.length / (8 + x.d * (if fld m.arg 28 28 = 0 then 4 else 2)))).foldl
      (fun y j => y.stage (fld m.arg 15 0) (partialRec x.d (fld m.arg 28 28) (fld m.arg 55 41) m.data j)) x).recs :=
  recs_stage _ _ _ _ _ (x := x.setCf (fld m.arg 15 0) _) rfl

/-! ## Returns of COMBINE -/

theorem execHvExpert_eq (hlive : s.inReset = false) (hn : n < 64) (hrel : s.nextHv 0x12 n = some r) (hown : rinstOf r.msg = s.inst) :
    execHvExpert n s = .next (s.expertAt r) := by
  rw [execHvExpert, liveWf_eq (decide_eq_true hn) hlive]
  simp only [hrel, State.hvForward_own hown, Option.getD_none]

theorem State.expertAt_waits (h : (s.cmbAt (fld r.msg.arg 29 28)).opened = false ∨ tagOlder (s.cmbAt (fld r.msg.arg 29 28)).rtag (fld r.msg.arg 63 56) = true) :
    s.expertAt r = s.holdRel r true := by
  refine if_pos ?_
  rcases h with h | h
  · rw [h]
    rfl
  · rw [h, Bool.or_true]

theorem State.expertAt_stale (hopen : (s.cmbAt (fld r.msg.arg 29 28)).opened = true)
    (holder : tagOlder (s.cmbAt (fld r.msg.arg 29 28)).rtag (fld r.msg.arg 63 56) = false)
    (h : (s.cmbAt (fld r.msg.arg 29 28)).rtag ≠ fld r.msg.arg 63 56 ∨ (s.cmbAt (fld r.msg.arg 29 28)).cut = true)
    (hlast : bit r.msg.arg 36 = false) : s.expertAt r = (s.takeRel r).count32 0x7002C 1 := by
  have hstale : ((s.cmbAt (fld r.msg.arg 29 28)).rtag != fld r.msg.arg 63 56 || (s.cmbAt (fld r.msg.arg 29 28)).cut) = true := by
    rcases h with h | h
    · rw [bne_iff_ne.2 h, Bool.true_or]
    · rw [h, Bool.or_true]
  refine (if_neg (not_waits hopen holder)).trans ((if_pos hstale).trans ?_)
  rw [hlast]
  rfl

/-- A return of the open slot's tag, before the slot has its list and after it. -/
theorem State.expertAt_current (hopen : (s.cmbAt (fld r.msg.arg 29 28)).opened = true)
    (htag : (s.cmbAt (fld r.msg.arg 29 28)).rtag = fld r.msg.arg 63 56) (hcut : (s.cmbAt (fld r.msg.arg 29 28)).cut = false) :
    s.expertAt r = if !(s.cmbAt (fld r.msg.arg 29 28)).ready then s.holdRel r false else s.cmbTake (fld r.msg.arg 29 28) r := by
  refine (if_neg (not_waits hopen (by rw [htag, tagOlder_self]))).trans (if_neg ?_)
  rw [htag, hcut, bne_self_eq_false]
  exact Bool.false_ne_true

/-! ## Page requests and atomics -/

theorem liveWf_recordPort (hlive : s.inReset = false) (hn : n < 64) {kind : BitVec 8} {is : Msg → Bool} (hrel : s.nextRel n is kind = some r) :
    liveWf (decide (n < 64)) s (·.recordPort n kind is) =
      .next (if s.recBefore (recPid r.msg) r.ord then s else ((s.takeRel r).takeRecord r.msg r.sister r.ord).startChecks) := by
  rw [liveWf_eq (decide_eq_true hn) hlive, State.recordPort, hrel]

/-- A request is handed on to the home block. -/
theorem State.takeRecord_handed {m : Msg} (h : s.home ≠ s.inst) (src : Option (BitVec 3)) (ord : Nat) : s.takeRecord m src ord =
    ({ s with ackWait := s.ackWait + (if m.mtype = 0x22 then 1 else 0) } : State).sendXpt s.home (.msg s.inst m) := by
  have hb : b2n (m.mtype == 0x22) = if m.mtype = 0x22 then 1 else 0 := by
    rw [b2n]
    simp only [beq_iff_eq]
  rw [← hb]
  exact if_pos (bne_iff_ne.2 h)

/-- The home block queues a request for a page that it owns. -/
theorem State.takeRecord_queued {m : Msg} (hhome : s.home = s.inst) (hdie : pidDie (recPid m) = s.die) (hok : s.pageOk (recPid m) = true)
    (src : Option (BitVec 3)) (ord : Nat) : s.takeRecord m src ord =
      ({ s with recOps := s.recOps ++ [{ id := ord, msg := m, started := false, rec_ := none, wr := false, src := src }] } : State).startRecs := by
  refine (if_neg fun h => bne_iff_ne.1 h hhome).trans (if_neg ?_)
  rw [hdie, hok, bne_self_eq_false]
  exact Bool.false_ne_true

/-! ## Chunks and answers -/

theorem execPgData_eq (hlive : s.inReset = false) (hn : n < 64) (hrel : s.nextRel n (·.mtype == 0x21) 0x21 = some r) : execPgData n s =
    .next ((s.respForward r (fld r.msg.arg 50 48)).getD ((s.takeWritten r).pgData r).payOwed.pagePump) := by
  rw [execPgData, liveWf_eq (decide_eq_true hn) hlive, hrel]

theorem execPgAtomicResp_eq (hlive : s.inReset = false) (hn : n < 64) (hrel : s.nextRel n (·.mtype == 0x23) 0x23 = some r) :
    execPgAtomicResp n s = .next ((s.respForward r (fld r.msg.arg 14 12)).getD ((s.takeRel r).takeAtomicResp r.msg).pagePump) := by
  rw [execPgAtomicResp, liveWf_eq (decide_eq_true hn) hlive, hrel]

theorem recCount_ofNat (v : Nat) : recCount (BitVec.ofNat 64 v) = v % 2 ^ 32 := by
  rw [recCount, fld, BitVec.toNat_ofNat, Nat.shiftRight_zero]
  exact Nat.mod_mod_of_dvd v (by decide)

theorem State.takeAtomicResp_entry {m : Msg} (h : fld m.arg 17 15 ≠ 4) : s.takeAtomicResp m =
    s.pageOut m.optag.toNat (fld m.arg 11 0) (fld m.arg 21 18) (leAt m.data 0 8 % 2 ^ 32) := by
  rw [← recCount_ofNat]
  exact if_neg h

theorem State.takeAtomicResp_rdec {m : Msg} (h : fld m.arg 17 15 = 4) (hout : fld m.arg 21 18 = 5) : s.takeAtomicResp m =
    { s with rdecs := dropFirst (fun p => pidDie p == m.src.toNat) s.rdecs } :=
  (if_pos h).trans (if_pos hout)

end

/-- Settles O50: each message in its turn, by the state of the slot, the record or the entry that it is for. -/
theorem releaseEngines : Obligations.ReleaseEngines := by
  unfold Obligations.ReleaseEngines
  refine ⟨fun s n r hlive hn => ?_, fun s n r hlive hn => ?_⟩
  · intro tag holds
    refine ⟨fun hnone => ?_, fun hnone => ?_, fun hnone => ?_, fun hne hgone => ?_, fun hrel hown => ?_, fun hrel hown => ?_, fun hrel hown => ?_⟩
    · rw [show exec (.hvContrib n) s = execHvContrib n s from rfl, execHvContrib, liveWf_eq (decide_eq_true hn) hlive, hnone]
    · rw [show exec (.hvPartial n) s = execHvPartial n s from rfl, execHvPartial, liveWf_eq (decide_eq_true hn) hlive, hnone]
    · rw [show exec (.hvExpert n) s = execHvExpert n s from rfl, execHvExpert, liveWf_eq (decide_eq_true hn) hlive, hnone]
    · have hon := State.hvForward_on hne hgone
      refine ⟨fun hrel => ?_, fun hrel => ?_, fun hrel => ?_⟩
      · rw [show exec (.hvContrib n) s = execHvContrib n s from rfl, execHvContrib, liveWf_eq (decide_eq_true hn) hlive]
        simp only [hrel, hon]
      · rw [show exec (.hvPartial n) s = execHvPartial n s from rfl, execHvPartial, liveWf_eq (decide_eq_true hn) hlive]
        simp only [hrel, hon, Option.getD_some]
      · rw [show exec (.hvExpert n) s = execHvExpert n s from rfl, execHvExpert, liveWf_eq (decide_eq_true hn) hlive]
        simp only [hrel, hon, Option.getD_some]
    · intro k x
      refine ⟨fun h => ⟨s.holdRel r true, ?_, s.waits_holdRel r true⟩, fun hbusy holder hne hfin => ?_, fun hbusy htag => ⟨fun h => ?_, fun h0 h1 => ?_⟩,
        fun hbusy htag hfin hout => ?_⟩
      · have hw := State.contribAt_waits h
        refine (execHvContrib_settled hlive hn hrel hown ?_).trans (congrArg Host.Outcome.next hw)
        have hsame : (s.contribAt r).redAt k = s.redAt k := by
          rw [hw, State.redAt, (State.slots_eq (s.holdRel_keeps r true).2).1]
          rfl
        rw [hsame]
        exact (Bool.eq_false_or_eq_true (s.redAt k).gfinal)
      · exact (execHvContrib_settled hlive hn hrel hown (.inl hfin)).trans (congrArg Host.Outcome.next (State.contribAt_stale hbusy holder hne))
      · have ht := State.contribAt_takes hbusy htag
        exact (execHvContrib_settled hlive hn hrel hown (ht ▸ h)).trans (congrArg Host.Outcome.next ht)
      · have ht := State.contribAt_takes hbusy htag
        refine ⟨_, (execHvContrib_eq hlive hn hrel hown).trans (congrArg Host.Outcome.next (if_neg ?_)), ?_⟩
        · rw [ht, show (s.redAt (fld r.msg.arg 19 16)).gfinal = false from h0, show ((s.redTake (fld r.msg.arg 19 16) r).redAt _).gfinal = true from h1]
          exact Bool.false_ne_true
        · rw [ht] <;> rfl
      · exact (execHvContrib_settled hlive hn hrel hown (.inl hfin)).trans
          (congrArg Host.Outcome.next ((State.contribAt_takes hbusy htag).trans (State.redTake_faults hout)))
    · intro k x c f row
      have hexec := execHvPartial_eq hlive hn hrel hown
      refine ⟨fun h => ⟨s.holdRel r true, hexec.trans (congrArg Host.Outcome.next (State.partialAt_waits h)), s.waits_holdRel r true⟩,
        fun hbusy holder hne hlast => hexec.trans (congrArg Host.Outcome.next (State.partialAt_stale hbusy holder hne hlast)),
        fun hbusy htag => hexec.trans (congrArg Host.Outcome.next (State.partialAt_takes hbusy htag)),
        fun hbusy htag hindex hfar hopen huncut helems hgroup hwidth hwhole hrows hfull hlast => ?_⟩
      have hfits : x.Fits r.msg := ⟨hindex, hfar, hopen, huncut, helems, hgroup, hwidth, hwhole, hrows, hfull⟩
      obtain ⟨hrel', hslots⟩ := s.takeRel_keeps r
      obtain ⟨hred, -, hcmb, hops⟩ := State.slots_eq hslots
      refine ⟨_, hexec.trans (congrArg Host.Outcome.next ((State.partialAt_takes hbusy htag).trans (State.mrgTake_stages hfits hlast))), hrel', ?_, hred, hcmb, hops⟩
      exact (congrArg Mrg.recs (spGet_spPut_same ..)).trans (x.recs_staged r.msg)
    · intro k x
      have hexec := execHvExpert_eq hlive hn hrel hown
      refine ⟨fun h => ⟨s.holdRel r true, hexec.trans (congrArg Host.Outcome.next (State.expertAt_waits h)), s.waits_holdRel r true⟩,
        fun hopen holder h hlast => hexec.trans (congrArg Host.Outcome.next (State.expertAt_stale hopen holder h hlast)),
        fun hopen htag hcut hready => ⟨s.holdRel r false, hexec.trans (congrArg Host.Outcome.next ((State.expertAt_current hopen htag hcut).trans (if_pos ?_))),
          s.waits_holdRel r false⟩, fun hopen htag hcut hready =>
        hexec.trans (congrArg Host.Outcome.next ((State.expertAt_current hopen htag hcut).trans (if_neg ?_)))⟩
      · exact congrArg Bool.not hready
      · exact fun h => Bool.false_ne_true ((congrArg Bool.not hready).symm.trans h)
  · intro u handed queued takes
    have htakes : ∀ (c : Instr) (kind : BitVec 8) (is : Msg → Bool), exec c s = liveWf (decide (n < 64)) s (·.recordPort n kind is) →
        s.nextRel n is kind = some r → takes c := fun c kind is hc hrel => by
      have hexec := hc.trans (liveWf_recordPort hlive hn hrel)
      refine ⟨fun hb => hexec.trans (congrArg Host.Outcome.next (if_pos hb)), fun hb => ?_⟩
      have hgo := hexec.trans (congrArg Host.Outcome.next (if_neg (Bool.eq_false_iff.1 hb)))
      exact ⟨fun hhome => hgo.trans (congrArg (fun t : State => Host.Outcome.next t.startChecks) (State.takeRecord_handed hhome _ _)),
        fun hhome hdie hok => hgo.trans (congrArg (fun t : State => Host.Outcome.next t.startChecks) (State.takeRecord_queued hhome hdie hok _ _)),
        fun _ _ => hgo⟩
    refine ⟨htakes _ _ _ rfl, htakes _ _ _ rfl, htakes _ _ _ rfl, htakes _ _ _ rfl, htakes _ _ _ rfl, htakes _ _ _ rfl, fun hnone => ?_,
      fun hrel => ?_, fun hrel => ?_⟩
    · rw [show exec (.pgReq n) s = execPgReq n s from rfl, execPgReq, liveWf_eq (decide_eq_true hn) hlive, State.recordPort, hnone]
    · intro orig
      refine ⟨fun h => (execPgData_eq hlive hn hrel).trans ?_, fun h hgone => (execPgData_eq hlive hn hrel).trans ?_⟩
      · rw [State.respForward_own h]
        rfl
      · rw [State.respForward_on h hgone]
        rfl
    · intro orig
      refine ⟨fun h hop => (execPgAtomicResp_eq hlive hn hrel).trans ?_, fun h hop hout => (execPgAtomicResp_eq hlive hn hrel).trans ?_,
        fun h hgone => (execPgAtomicResp_eq hlive hn hrel).trans ?_⟩
      · rw [State.respForward_own h, State.takeAtomicResp_entry hop]
        rfl
      · rw [State.respForward_own h, State.takeAtomicResp_rdec hop hout]
        rfl
      · rw [State.respForward_on h hgone]
        rfl

end Sys2Proof.Machine
end

section
/-! The memory port (R585 to R588). -/
namespace Sys2Proof.Machine

section
variable {s : State}

/-! ## Read data and acknowledgements -/

theorem execMemReadData_eq (hlive : s.inReset = false) {b : MemBeat} (hlen : b.data.length = 128) : execMemReadData b s = .next (s.memBeat b) :=
  liveWf_eq (beq_iff_eq.2 hlen) hlive _

theorem State.memBeat_unknown {b : MemBeat} (h : ∀ r ∈ s.rdq, r.took = true → r.wire ≠ some b.tag) : s.memBeat b = s := by
  have hfind : s.rdq.find? (fun r => r.took && r.wire == some b.tag) = none := List.find?_eq_none.2 fun r hr hc => by
    obtain ⟨htook, hwire⟩ := Bool.and_eq_true_iff.1 hc
    exact h r hr htook (beq_iff_eq.1 hwire)
  rw [State.memBeat, hfind]

theorem State.memBeat_joins {b : MemBeat} {r : RdReq} (h : s.rdq.find? (fun r => r.took && r.wire == some b.tag) = some r) : s.memBeat b =
    if b.last then ({ s with rdq := s.rdq.filter fun q => q.id != r.id } : State).readDone r (r.got ++ r.take b)
    else { s with rdq := s.rdq.map fun q => if q.id = r.id then { q with got := r.got ++ r.take b } else q } := by
  unfold State.memBeat
  rw [h]

theorem State.writeAck_unknown {tag : Nat} (h : ∀ w ∈ s.wrq, w.took = true → w.wire ≠ some tag) (err : Bool) : s.writeAck tag err = s := by
  have hfind : s.wrq.find? (fun w => w.took && w.wire == some tag && !s.wd.any fun b => b.wire == tag) = none :=
    List.find?_eq_none.2 fun w hw hc => by
      obtain ⟨hheld, -⟩ := Bool.and_eq_true_iff.1 hc
      obtain ⟨htook, hwire⟩ := Bool.and_eq_true_iff.1 hheld
      exact h w hw htook (beq_iff_eq.1 hwire)
  rw [State.writeAck, hfind]

/-- An acknowledgement of a write whose beats have all gone out. -/
theorem State.writeAck_ends {tag : Nat} {w : WrReq} (h : s.wrq.find? (fun w => w.took && w.wire == some tag) = some w)
    (hout : ∀ b ∈ s.wd, b.wire ≠ tag) (err : Bool) : s.writeAck tag err =
      (({ s with wrq := s.wrq.filter fun v => v.id != w.id } : State).ackOwner w err).issueWrites.pump := by
  have hgone : s.wd.any (fun b => b.wire == tag) = false := List.any_eq_false.2 fun b hb hc => hout b hb (beq_iff_eq.1 hc)
  unfold State.writeAck
  simp only [hgone, Bool.not_false, Bool.and_true, h]

/-! ## Tags -/

theorem freeWire_free {held : List Nat} {c x : Nat} (h : freeWire held c = some x) : x / 1024 = c ∧ x ∉ held := by
  have hfree := List.find?_some h
  obtain ⟨i, hi, hx⟩ := List.mem_map.1 (List.mem_of_find?_eq_some h)
  have hlt : i < 1024 := Nat.lt_of_lt_of_le (List.mem_range.1 hi) (Nat.min_le_left ..)
  refine ⟨by omega, fun hin => ?_⟩
  rw [List.contains_iff_mem.2 hin] at hfree
  exact Bool.false_ne_true hfree

/-! ## Write data -/

section
variable {w : WrReq} {x k : Nat} {b : WdBeat}

theorem WrReq.length_beats (w : WrReq) (x : Nat) : (w.beats x).length = w.windows.2 + 1 - w.windows.1 := by
  rw [WrReq.beats, List.length_map, List.length_range]

/-- The beat of a write's window. -/
theorem WrReq.getElem_beats (h : (w.beats x)[k]? = some b) : k < w.windows.2 + 1 - w.windows.1 ∧ b.wire = x ∧
    b.data = w.window (w.windows.1 + k) ∧ b.last = (w.windows.1 + k == w.windows.2) := by
  have hk : k < w.windows.2 + 1 - w.windows.1 := by
    obtain ⟨hlt, -⟩ := List.getElem?_eq_some_iff.1 h
    rwa [WrReq.length_beats] at hlt
  rw [WrReq.beats, List.getElem?_map, List.getElem?_range hk, Option.map_some] at h
  obtain rfl := Option.some.inj h
  exact ⟨hk, rfl, rfl, rfl⟩

theorem WrReq.length_window (w : WrReq) (k : Nat) : (w.window k).length = 128 := by
  rw [WrReq.window, List.length_map, List.length_range]

/-- A window has the bytes of the write at their places. -/
theorem WrReq.getElem_window (w : WrReq) (k : Nat) {i : Nat} (hi : i < 128) : (w.window k)[i]? =
    some (if w.addr ≤ 128 * k + i ∧ 128 * k + i < w.addr + w.data.length then w.data[128 * k + i - w.addr]? else none) := by
  rw [WrReq.window, List.getElem?_map, List.getElem?_range hi, Option.map_some]
  refine congrArg some ?_
  by_cases hlow : 128 * k + i < w.addr
  · rw [if_pos hlow, if_neg fun h => absurd h.1 (Nat.not_le.2 hlow)]
  · rw [if_neg hlow]
    split
    next => rfl
    next h => exact List.getElem?_eq_none (by omega)

theorem WrReq.beat_spec (hdata : 0 < w.data.length) {i : Nat} (hi : i < 128) (h : (w.beats x)[k]? = some b) :
    b.wire = x ∧ b.data.length = 128 ∧
      b.data[i]? = some (if w.addr ≤ 128 * (w.addr / 128 + k) + i ∧ 128 * (w.addr / 128 + k) + i < w.addr + w.data.length then
        w.data[128 * (w.addr / 128 + k) + i - w.addr]? else none) ∧
      (b.last = true ↔ k + 1 = (w.beats x).length) := by
  obtain ⟨hk, hwire, hd, hlast⟩ := WrReq.getElem_beats h
  rw [hd, hlast, beq_iff_eq, WrReq.length_beats]
  exact ⟨hwire, w.length_window _, w.getElem_window _ hi, by omega⟩

end

/-- The write that a channel offers is taken in a cc in which its ready is 1. -/
theorem State.acceptWrite_offers {c x : Nat} {w : WrReq} (h : s.wrq.find? (·.onCh c) = some w) (hwire : w.wire = some x) :
    s.acceptWrite c = { s with wrq := s.wrq.map (fun q => if q.id = w.id then { q with took := true } else q), wd := s.wd ++ w.beats x,
                               free := s.free + 1, out := s.out ++ [.memWrite c (x % 1024) (w.addr / 64 * 64) w.granules] } ∨
      s.acceptWrite c = { s with free := s.free + 1 } := by
  unfold State.acceptWrite
  rw [h]
  simp only [hwire, Option.getD_some, State.draw]
  cases Config.freeBit s.free with
  | false => exact .inr rfl
  | true => exact .inl rfl

theorem State.acceptWrite_none {c : Nat} (h : s.wrq.find? (·.onCh c) = none) : s.acceptWrite c = s := by
  rw [State.acceptWrite, h]

end

/-- Settles O51: beats and acknowledgements by the tag that they name, free tags, the windows of a write, and its acceptance. -/
theorem memoryPort : Obligations.MemoryPort := by
  unfold Obligations.MemoryPort
  refine ⟨fun s hlive => ⟨fun b hlen => ⟨fun h => ?_, fun r hr => ⟨fun hlast => ?_, fun hlast => ?_⟩⟩, fun tag err => ⟨fun h => ?_, fun w hw hout => ?_⟩⟩,
    fun held c x h => freeWire_free h, fun w x i k hdata hi => ?_, fun s c w x h hwire => ?_, fun s c h => State.acceptWrite_none h⟩
  · exact (execMemReadData_eq hlive hlen).trans (congrArg Host.Outcome.next (State.memBeat_unknown h))
  · exact (execMemReadData_eq hlive hlen).trans (congrArg Host.Outcome.next ((State.memBeat_joins hr).trans (if_neg (Bool.eq_false_iff.1 hlast))))
  · exact (execMemReadData_eq hlive hlen).trans (congrArg Host.Outcome.next ((State.memBeat_joins hr).trans (if_pos hlast)))
  · exact (live_eq hlive (·.writeAck tag err)).trans (congrArg Host.Outcome.next (State.writeAck_unknown h err))
  · exact (live_eq hlive (·.writeAck tag err)).trans (congrArg Host.Outcome.next (State.writeAck_ends hw hout err))
  · intro a b h
    exact WrReq.beat_spec hdata hi h
  · exact State.acceptWrite_offers h hwire

end Sys2Proof.Machine
end

section
/-! Management functions and the retirement of a module (R451, R464 to R467, R480). -/
namespace Sys2Proof.Machine

section
variable {s u : State} {x : MgmtIn} {kind : Msg → Bool}

/-! ## A function that is taken -/

/-- A management function of its kind acts on the block that has taken it. -/
theorem State.Manages.takeMgmt (h : s.Manages kind x u) (act : MgmtIn → State → State) : Machine.live s (·.takeMgmt kind act) = .next (act x u) := by
  obtain ⟨i, hfind, hget, hu⟩ := h.taken
  rw [live_eq h.live, State.takeMgmt, hfind]
  simp only [hget]
  rw [hu]

/-! ## REQUEST and ECHO of a retirement -/

/-- The handshake of an end that is first asked to retire a module. -/
def askedToRetire (u : State) (m : Msg) : Shake := { target := mgmtTick m, mine := false, echoed := true, nextSend := u.now + 256, arg := 0 }

theorem State.Manages.retire_asks (h : s.Manages (mgmtIs 0x42 1) x u) (hm : retireMod x.msg < modules u.member)
    (hst : (u.mod (retireMod x.msg)).st ≠ .retired) (hre : (u.mod (retireMod x.msg)).retire = none) : execRetireRequest s = .next
      (((u.dropRepair (retireMod x.msg)).updMod (retireMod x.msg) fun y =>
        { y with retire := some (askedToRetire u x.msg), retiring := true }).sendRetire 2 (retireMod x.msg) (mgmtTick x.msg)) := by
  refine (h.takeMgmt _).trans (congrArg Host.Outcome.next ((if_neg (Nat.not_le.2 hm)).trans ((if_neg hst).trans ?_)))
  rw [hre]
  rfl

theorem State.Manages.retire_done (h : s.Manages (mgmtIs 0x42 1) x u) (hm : retireMod x.msg < modules u.member)
    (hst : (u.mod (retireMod x.msg)).st = .retired) : execRetireRequest s = .next (u.sendRetire 2 (retireMod x.msg) (mgmtTick x.msg)) :=
  (h.takeMgmt _).trans (congrArg Host.Outcome.next ((if_neg (Nat.not_le.2 hm)).trans (if_pos hst)))

theorem State.Manages.retire_absent (h : s.Manages (mgmtIs 0x42 1) x u) (hm : modules u.member ≤ retireMod x.msg) : execRetireRequest s = .next u :=
  (h.takeMgmt _).trans (congrArg Host.Outcome.next (if_pos hm))

/-! ## LL_RETIRE -/

theorem fld_and_low (d : W32) {mask : W32} (h : mask.toNat % 2 ^ 4 = 2 ^ 4 - 1) : fld (d &&& mask) 3 0 = fld d 3 0 := by
  rw [fld, fld, BitVec.toNat_and, Nat.shiftRight_zero, Nat.shiftRight_zero]
  calc (d.toNat &&& mask.toNat) % 2 ^ 4 = (d.toNat % 2 ^ 4) &&& (mask.toNat % 2 ^ 4) := Nat.and_mod_two_pow
    _ = (d.toNat % 2 ^ 4) % 2 ^ 4 := by rw [h, Nat.and_two_pow_sub_one_eq_mod]
    _ = d.toNat % 2 ^ 4 := Nat.mod_mod _ _

theorem bit_and (a b : W32) (i : Nat) : bit (a &&& b) i = (bit a i && bit b i) := by
  simp only [bit, BitVec.getLsbD_and]

section
variable {d : W32} (hm : fld d 3 0 < modules s.member) (hst : (s.mod (fld d 3 0)).st ≠ .retired)
include hm hst

/-- The module that a write of LL_RETIRE names may be retired. -/
theorem State.retirable : (decide (fld d 3 0 < modules (s.setRf 0x20080 3 0 (fld d 3 0)).member) &&
    ((s.setRf 0x20080 3 0 (fld d 3 0)).mod (fld d 3 0)).st != .retired) = true := by
  rw [show (s.setRf 0x20080 3 0 (fld d 3 0)).mod (fld d 3 0) = s.mod (fld d 3 0) from rfl, bne_iff_ne.2 hst, Bool.and_true]
  exact decide_eq_true hm

/-- A write of GO asks for the retirement, and shows that it does. -/
theorem State.writeRetire_go (hgo : bit d 31 = true) (hforce : bit d 30 = false) : s.writeRetire d =
    ((s.setRf 0x20080 3 0 (fld d 3 0)).startRetire (fld d 3 0) false).setRf 0x20080 31 31 1 := by
  unfold State.writeRetire
  simp only [State.retirable hm hst, hgo, hforce, Bool.and_true, if_true, Bool.false_eq_true, if_false]

/-- A module that retires at the next Solstice. -/
def State.retireForced (s : State) (m : Nat) : State :=
  ((s.setRf 0x20080 3 0 m).dropRepair m).updMod m fun x =>
    { x with retire := some { target := s.tickPlus 1, mine := true, echoed := true, nextSend := s.now, arg := 0 }, retiring := true }

/-- A write of FORCE has the module retire at the next Solstice. -/
theorem State.writeRetire_force (hgo : bit d 31 = false) (hforce : bit d 30 = true) : s.writeRetire d = s.retireForced (fld d 3 0) := by
  unfold State.writeRetire
  simp only [State.retirable hm hst, hgo, hforce, Bool.and_true, if_true, Bool.false_eq_true, if_false]
  rfl

end

theorem State.mod_dropRepair_other (s : State) {m k : Nat} (h : k ≠ m) : (s.dropRepair m).mod k = s.mod k := by
  refine (State.mod_updMod_other _ _ (Ne.symm h)).trans ?_
  exact State.when_same (·.mod k) s (f := fun s => ((s.setRf (0x10010 + 0x1000 * m) 30 28 3).setBit (0x1001C + 0x1000 * m) 4).irq 4) rfl _

theorem State.retireForced_effect (s : State) (m : Nat) : ((s.retireForced m).mod m).retiring = true ∧ ((s.retireForced m).mod m).retire =
    some { target := s.tickPlus 1, mine := true, echoed := true, nextSend := s.now, arg := 0 } ∧
      ∀ k, k ≠ m → (s.retireForced m).mod k = s.mod k := by
  refine ⟨?_, ?_, fun k hk => (State.mod_updMod_other _ _ (Ne.symm hk)).trans (State.mod_dropRepair_other _ hk)⟩
  · rw [State.retireForced, State.mod_updMod_same]
  · rw [State.retireForced, State.mod_updMod_same]

/-! ## Repetition -/

theorem State.each_idle {α : Type} {f : State → α → State} {xs : List α} (h : ∀ x ∈ xs, f s x = s) : s.each xs f = s := by
  induction xs with
  | nil => rfl
  | cons x xs ih =>
    rw [State.each, List.foldl_cons, h x (List.mem_cons_self ..)]
    exact ih fun y hy => h y (List.mem_cons_of_mem _ hy)

/-- A TAKEOVER without its ECHO goes out again. -/
def State.resendTake (s : State) (nx : Nat) : State :=
  match s.twin.take with
  | some k => if k.due s.now then
      (s.updTwin fun x => { x with take := some { k with nextSend := nx } }).sendTwinFn 0x40 1 k.arg s.twin.lost k.target [] else s
  | none => s

/-- A REJOIN without its ECHO goes out again. -/
def State.resendRejoin (s : State) (nx : Nat) : State :=
  match s.twin.rejoin with
  | some k => if k.due s.now then
      (s.updTwin fun x => { x with rejoin := some { k with nextSend := nx } }).sendTwinFn 0x43 1 k.arg false k.target [] else s
  | none => s

/-- A RATE_STEP without its ECHO goes out again while no plan is pending. -/
def State.resendStep (s : State) (nx : Nat) : State :=
  match s.hm.stepReq with
  | some k => if k.due s.now && decide (k.arg < 16) && s.plan.isNone then
      (s.updHm fun h => { h with stepReq := some { k with nextSend := nx } }).sendStep 1 k.arg k.target else s
  | none => s

/-- A RETIRE of a module without its ECHO goes out again. -/
def State.resendRetire (nx : Nat) (s : State) (m : Nat) : State :=
  match (s.mod m).retire with
  | some k => if k.due s.now then
      (s.updMod m fun x => { x with retire := some { k with nextSend := nx } }).sendRetire 1 m k.target else s
  | none => s

theorem execMgmtResend_eq (hlive : s.inReset = false) : execMgmtResend s = .next
    ((((s.resendTake (s.now + 256)).resendRejoin (s.now + 256)).resendStep (s.now + 256)).each
      (((s.resendTake (s.now + 256)).resendRejoin (s.now + 256)).resendStep (s.now + 256)).allMods (State.resendRetire (s.now + 256))) := by
  rw [execMgmtResend, live_eq hlive]
  rfl

theorem State.resendTake_none (h : s.twin.take = none) (nx : Nat) : s.resendTake nx = s := by rw [State.resendTake, h]

theorem State.resendRejoin_none (h : s.twin.rejoin = none) (nx : Nat) : s.resendRejoin nx = s := by rw [State.resendRejoin, h]

theorem State.resendStep_none (h : s.hm.stepReq = none) (nx : Nat) : s.resendStep nx = s := by rw [State.resendStep, h]

theorem State.resendRetires_none (h : ∀ m < modules s.member, (s.mod m).retire = none) (nx : Nat) : s.each s.allMods (State.resendRetire nx) = s :=
  State.each_idle fun m hm => by rw [State.resendRetire, h m (List.mem_range.1 hm)]

/-- What the sending of a function leaves. -/
theorem State.sendTwinFn_keeps (s : State) (fn phase role : Nat) (lost : Bool) (target : Nat) (data : List Byte) :
    (s.sendTwinFn fn phase role lost target data).twin = s.twin ∧ (s.sendTwinFn fn phase role lost target data).hm = s.hm ∧
      (s.sendTwinFn fn phase role lost target data).env = s.env ∧ (s.sendTwinFn fn phase role lost target data).mods = s.mods :=
  ⟨rfl, rfl, rfl, rfl⟩

theorem State.sendStep_keeps (s : State) (phase rate target : Nat) :
    (s.sendStep phase rate target).env = s.env ∧ (s.sendStep phase rate target).mods = s.mods := ⟨rfl, rfl⟩

/-- The modules of a state with the same ones have no retirement either. -/
theorem State.retire_none_of {t : State} (henv : t.env = s.env) (hmods : t.mods = s.mods) (h : ∀ m < modules s.member, (s.mod m).retire = none) :
    ∀ m < modules t.member, (t.mod m).retire = none := by
  intro m hm
  rw [State.member, henv] at hm
  rw [State.mod, hmods]
  exact h m hm

/-- What is sent again, handshake by handshake, while no module retires. -/
theorem execMgmtResend_of (hlive : s.inReset = false) {t u v : State} (htake : s.resendTake (s.now + 256) = t)
    (hrejoin : t.resendRejoin (s.now + 256) = u) (hstep : u.resendStep (s.now + 256) = v)
    (hretire : ∀ m < modules v.member, (v.mod m).retire = none) : execMgmtResend s = .next v := by
  rw [execMgmtResend_eq hlive, htake, hrejoin, hstep, State.resendRetires_none hretire]

theorem Shake.due_of {k : Shake} {now : Nat} (hmine : k.mine = true) (hecho : k.echoed = false) (hdue : k.nextSend ≤ now) : k.due now = true := by
  rw [Shake.due, hmine, hecho, decide_eq_true hdue]
  rfl

section
variable {k : Shake} (hmine : k.mine = true) (hecho : k.echoed = false) (hdue : k.nextSend ≤ s.now)
include hmine hecho hdue

theorem State.resendTake_due (h : s.twin.take = some k) (nx : Nat) : s.resendTake nx =
    (s.updTwin fun x => { x with take := some { k with nextSend := nx } }).sendTwinFn 0x40 1 k.arg s.twin.lost k.target [] := by
  unfold State.resendTake
  rw [h]
  exact if_pos (Shake.due_of hmine hecho hdue)

theorem State.resendRejoin_due (h : s.twin.rejoin = some k) (nx : Nat) : s.resendRejoin nx =
    (s.updTwin fun x => { x with rejoin := some { k with nextSend := nx } }).sendTwinFn 0x43 1 k.arg false k.target [] := by
  unfold State.resendRejoin
  rw [h]
  exact if_pos (Shake.due_of hmine hecho hdue)

theorem State.resendStep_due (h : s.hm.stepReq = some k) (hrate : k.arg < 16) (nx : Nat) : s.resendStep nx =
    if s.plan.isNone then (s.updHm fun h => { h with stepReq := some { k with nextSend := nx } }).sendStep 1 k.arg k.target else s := by
  unfold State.resendStep
  rw [h]
  simp only [Shake.due_of hmine hecho hdue, decide_eq_true hrate, Bool.true_and]

end

end

/-- Settles O52: each function as it is taken, the writes of LL_RETIRE, and what is sent again. -/
theorem management : Obligations.Management := by
  unfold Obligations.Management
  intro s u x
  refine ⟨fun h => h.takeMgmt _, fun h => ⟨fun hopen => ?_, fun hopen => ?_⟩, fun h => ?_, fun k h hk => ?_, fun hready d hm hst =>
    ⟨fun hgo => ?_, fun hforce => ?_⟩, fun hlive hrejoin hstep hretire => ⟨fun k htake hmine hecho hdue => ?_, fun htake => ?_⟩,
    fun hlive htake hstep hretire k hrejoin hmine hecho hdue => ?_, fun hlive htake hrejoin hretire k hstep hmine hecho hrate hdue => ?_⟩
  · exact (h.takeMgmt _).trans (by rw [hopen]; rfl)
  · exact (h.takeMgmt _).trans (by rw [hopen]; rfl)
  · intro m own
    exact ⟨fun hm hst hre => h.retire_asks hm hst hre, fun hm hst => h.retire_done hm hst, fun hm => h.retire_absent hm⟩
  · obtain ⟨hmods, hregs⟩ := u.updMod_frame (retireMod x.msg) fun y => { y with retire := y.retire.map (·.fixedAt (mgmtTick x.msg)) }
    refine ⟨_, h.takeMgmt _, ?_, hmods, hregs⟩
    rw [State.mod_updMod_same, hk]
    rfl
  · have hm3 : fld (d &&& 0x8000000F) 3 0 = fld d 3 0 := fld_and_low d (by decide)
    have hgo' : bit (d &&& 0x8000000F) 31 = true := by
      rw [bit_and, hgo]
      rfl
    have hforce' : bit (d &&& 0x8000000F) 30 = false := by
      rw [bit_and]
      exact Bool.and_false _
    have hwrite := State.writeRetire_go (s := s.accessed) (d := d &&& 0x8000000F) (hm3 ▸ hm) (hm3 ▸ hst) hgo' hforce'
    rw [hm3] at hwrite
    exact portCmd_eq (f := (·.writeRetire (d &&& 0x8000000F))) hready hwrite
  · have hm3 : fld (d &&& 0x4000000F) 3 0 = fld d 3 0 := fld_and_low d (by decide)
    have hgo' : bit (d &&& 0x4000000F) 31 = false := by
      rw [bit_and]
      exact Bool.and_false _
    have hforce' : bit (d &&& 0x4000000F) 30 = true := by
      rw [bit_and, hforce]
      rfl
    have hwrite := State.writeRetire_force (s := s.accessed) (d := d &&& 0x4000000F) (hm3 ▸ hm) (hm3 ▸ hst) hgo' hforce'
    rw [hm3] at hwrite
    exact ⟨_, portCmd_eq (f := (·.writeRetire (d &&& 0x4000000F))) hready hwrite, s.accessed.retireForced_effect (fld d 3 0)⟩
  · obtain ⟨htwin, hhm, henv, hmods⟩ := (s.updTwin fun x => { x with take := some { k with nextSend := s.now + 256 } }).sendTwinFn_keeps
      0x40 1 k.arg s.twin.lost k.target []
    exact execMgmtResend_of hlive (State.resendTake_due hmine hecho hdue htake _)
      (State.resendRejoin_none ((congrArg Twin.rejoin htwin).trans hrejoin) _) (State.resendStep_none ((congrArg Hm.stepReq hhm).trans hstep) _)
      (State.retire_none_of henv hmods hretire)
  · exact execMgmtResend_of hlive (State.resendTake_none htake _) (State.resendRejoin_none hrejoin _) (State.resendStep_none hstep _) hretire
  · obtain ⟨htwin, hhm, henv, hmods⟩ := (s.updTwin fun x => { x with rejoin := some { k with nextSend := s.now + 256 } }).sendTwinFn_keeps
      0x43 1 k.arg false k.target []
    exact execMgmtResend_of hlive (State.resendTake_none htake _) (State.resendRejoin_due hmine hecho hdue hrejoin _)
      (State.resendStep_none ((congrArg Hm.stepReq hhm).trans hstep) _) (State.retire_none_of henv hmods hretire)
  · have hdueStep := State.resendStep_due hmine hecho hdue hstep hrate (s.now + 256)
    refine ⟨fun hplan => ?_, fun hplan => ?_⟩
    · obtain ⟨henv, hmods⟩ := (s.updHm fun h => { h with stepReq := some { k with nextSend := s.now + 256 } }).sendStep_keeps 1 k.arg k.target
      exact execMgmtResend_of hlive (State.resendTake_none htake _) (State.resendRejoin_none hrejoin _)
        (hdueStep.trans (if_pos (Option.isNone_iff_eq_none.2 hplan))) (State.retire_none_of henv hmods hretire)
    · exact execMgmtResend_of hlive (State.resendTake_none htake _) (State.resendRejoin_none hrejoin _)
        (hdueStep.trans (if_neg fun h => hplan (Option.isNone_iff_eq_none.1 h))) hretire

end Sys2Proof.Machine
end

section
/-! The handshakes of a twin pair (R449 to R463). -/
namespace Sys2Proof.Machine

section
variable {s u : State} {x : MgmtIn}

/-! ## TAKEOVER -/

theorem State.hearsTakeover_of {m : Msg} (hpair : u.paired = true) (hrole : twinRole m = u.sisRole)
    (hst : u.twin.st < 3 ∨ ((u.twin.st = 3 ∨ u.twin.st = 5) ∧ twinLost m = true)) (htake : u.twin.take = none) : u.hearsTakeover m = true := by
  have hgoes : (decide (u.twin.st ≤ 2) || ((u.twin.st == 3 || u.twin.st == 5) && twinLost m)) = true := by
    rcases hst with h | ⟨h, hlost⟩
    · rw [decide_eq_true (Nat.lt_succ_iff.1 h), Bool.true_or]
    · rw [hlost, Bool.and_true, Bool.or_eq_true, Bool.or_eq_true, beq_iff_eq, beq_iff_eq]
      exact .inr h
  rw [State.hearsTakeover, hpair, hrole, htake, hgoes, beq_self_eq_true]
  rfl

/-- What an ECHO of TAKEOVER does where it is taken. -/
theorem State.Manages.takeoverEcho_eq {k : Shake} (h : s.Manages (mgmtIs 0x40 2) x u) (hk : u.twin.take = some k) : execTakeoverEcho s = .next
    (if !u.paired || k.arg = u.role || laterTick k.target (mgmtTick x.msg) != mgmtTick x.msg then u
     else (u.updTwin fun y => { y with lost := y.lost || twinLost x.msg, take := some { k with target := mgmtTick x.msg, echoed := true } }).sendHeartbeat) := by
  refine (h.takeMgmt _).trans (congrArg Host.Outcome.next ?_)
  rw [hk]

/-- What a heartbeat's sending leaves. -/
theorem State.sendHeartbeat_keeps (s : State) : s.sendHeartbeat.twin = { s.twin with nextHb := s.now + 64 } ∧ s.sendHeartbeat.streams = s.streams ∧
    s.sendHeartbeat.regs = s.regs ∧ s.sendHeartbeat.mods = s.mods := ⟨rfl, rfl, rfl, rfl⟩

/-! ## STREAM_STATE -/

/-- Streams that go on. -/
def State.freeStreams (s : State) (ns : List Nat) : State := s.each ns fun s n => s.updStrm n fun y => { y with moving := false }

theorem State.strm_updStrm_other (s : State) {n k : Nat} (f : Stream → Stream) (h : n ≠ k) : (s.updStrm n f).strm k = s.strm k :=
  spGet_spPut_other _ _ _ _ h

theorem State.freeStreams_keeps (s : State) (ns : List Nat) : (s.freeStreams ns).twin = s.twin ∧ (s.freeStreams ns).mods = s.mods ∧
    (s.freeStreams ns).regs = s.regs := by
  have hstep : ∀ (t : State) (n : Nat), (fun s : State => (s.twin, s.mods, s.regs)) (t.updStrm n fun y => { y with moving := false }) =
      (t.twin, t.mods, t.regs) := fun _ _ => rfl
  have hall := State.each_same (fun s : State => (s.twin, s.mods, s.regs)) hstep ns s
  rw [Prod.mk.injEq, Prod.mk.injEq] at hall
  exact hall

theorem State.moving_freeStreams {n : Nat} {ns : List Nat} (h : n ∈ ns ∨ (s.strm n).moving = false) : ((s.freeStreams ns).strm n).moving = false := by
  induction ns generalizing s with
  | nil => exact h.resolve_left List.not_mem_nil
  | cons k ks ih =>
    refine ih (s := s.updStrm k fun y => { y with moving := false }) ?_
    by_cases hk : k = n
    · rw [hk, State.strm_updStrm_same]
      exact .inr rfl
    · rw [State.strm_updStrm_other _ _ hk]
      exact h.imp_left fun h => (List.mem_cons.1 h).resolve_left (Ne.symm hk)

/-- A twin that has been told where its adopted streams go on. -/
def Twin.told (t : Twin) (es ns : List Nat) : Twin := { t with peerE := some es, resend := t.resend.filter (fromE es ns) }

theorem State.Manages.streamState_eq (h : s.Manages (fun m => mgmtFn m == 0x41) x u) (hpair : u.paired = true) (hst : u.twin.st = 3)
    (hrole : twinRole x.msg = u.sisRole) : execStreamState s = .next
      ((u.updTwin (·.told ((List.range 32).map fun i => leAt x.msg.data (2 * i) 2) (roleStreams u.sisRole))).freeStreams (roleStreams u.sisRole)) := by
  refine (h.takeMgmt _).trans (congrArg Host.Outcome.next (if_neg ?_))
  rw [hpair, hst, hrole, bne_self_eq_false, bne_self_eq_false]
  exact Bool.false_ne_true

/-! ## REJOIN -/

theorem State.askRejoin_asks (hpair : s.paired = true) (hst : s.twin.st = 3) (hok : s.twin.sisOk = true) (halive : s.twin.alive = true)
    (hrejoin : s.twin.rejoin = none) (hfut : future ((s.rg64 0x90008).toNat % tickMod) s.tick.num = true) : s.askRejoin =
      (s.updTwin fun y => { y with
        rejoin := some { target := (s.rg64 0x90008).toNat % tickMod, mine := true, echoed := false, nextSend := s.now + 256, arg := s.sisRole },
        asked := true }).sendTwinFn 0x43 1 s.sisRole false ((s.rg64 0x90008).toNat % tickMod) [] := by
  refine if_pos ?_
  rw [hpair, hst, hok, halive, hrejoin, hfut]
  rfl

theorem State.askRejoin_late (hfut : future ((s.rg64 0x90008).toNat % tickMod) s.tick.num = false) : s.askRejoin = s := by
  refine if_neg ?_
  rw [hfut, Bool.and_false, Bool.false_and]
  exact Bool.false_ne_true

theorem State.forceFail_fails (hpair : s.paired = true) (hst : s.twin.st = 1) : s.forceFail = s.failOwn.sendHeartbeat :=
  if_pos (by rw [hpair, hst]; rfl)

theorem State.forceFail_ignored (h : s.paired = false ∨ s.twin.st ≠ 1) : s.forceFail = s := by
  refine if_neg ?_
  rcases h with h | h
  · rw [h]
    exact Bool.false_ne_true
  · rw [beq_false_of_ne h, Bool.and_false]
    exact Bool.false_ne_true

end

/-- Settles O53: TAKEOVER and its ECHO, STREAM_STATE, REJOIN and its ECHO, and the writes of TWN_CTRL. -/
theorem twinHandshakes : Obligations.TwinHandshakes := by
  unfold Obligations.TwinHandshakes
  intro s u x
  refine ⟨fun h hpair hrole hst htake => ?_, fun h hnot => ?_, fun k h hk hlate => ?_, fun k h hpair hk harg hlater => ?_, fun h hpair hst hrole => ?_,
    fun h hpair hst hmoving hrejoin => ?_, fun k h hk => ?_, fun hready => ⟨fun hpair hst => ?_, fun hno => ?_⟩,
    fun hready hpair hst hok halive hrejoin => ?_⟩
  · refine (h.takeMgmt _).trans (congrArg Host.Outcome.next ((if_neg ?_).trans ?_))
    · rw [State.hearsTakeover_of hpair hrole hst htake]
      exact Bool.false_ne_true
    · rw [htake]
      rfl
  · exact (h.takeMgmt _).trans (congrArg Host.Outcome.next (if_pos (by rw [hnot]; rfl)))
  · refine (h.takeoverEcho_eq hk).trans (congrArg Host.Outcome.next (if_pos ?_))
    rcases hlate with hl | hl | hl
    · rw [hl]
      rfl
    · rw [decide_eq_true hl, Bool.or_true, Bool.true_or]
    · rw [bne_iff_ne.2 hl, Bool.or_true]
  · refine ⟨_, (h.takeoverEcho_eq hk).trans (congrArg Host.Outcome.next (if_neg ?_)), rfl, rfl, rfl, rfl, rfl⟩
    rw [hpair, decide_eq_false harg, hlater, bne_self_eq_false]
    exact Bool.false_ne_true
  · refine ⟨_, h.streamState_eq hpair hst hrole, ?_⟩
    obtain ⟨htwin, hmods, hregs⟩ := (u.updTwin (·.told ((List.range 32).map fun i => leAt x.msg.data (2 * i) 2) (roleStreams u.sisRole))).freeStreams_keeps
      (roleStreams u.sisRole)
    exact ⟨congrArg Twin.peerE htwin, fun n hn => State.moving_freeStreams (.inl hn), hmods, hregs⟩
  · refine (h.takeMgmt _).trans (congrArg Host.Outcome.next ((if_neg ?_).trans ?_))
    · rw [hpair, hst, hmoving]
      exact Bool.false_ne_true
    · rw [hrejoin]
      rfl
  · refine ⟨_, h.takeMgmt _, ?_, rfl, rfl, rfl⟩
    exact (congrArg (Option.map fun k : Shake => k.fixedAt (mgmtTick x.msg)) hk).trans rfl
  · exact portCmd_eq (f := (·.forceFail)) hready (State.forceFail_fails (s := s.accessed) hpair hst)
  · exact portCmd_eq (f := (·.forceFail)) hready (State.forceFail_ignored (s := s.accessed) hno)
  · intro t
    exact ⟨fun hfut => portCmd_eq (f := (·.askRejoin)) hready (State.askRejoin_asks (s := s.accessed) hpair hst hok halive hrejoin hfut),
      fun hfut => portCmd_eq (f := (·.askRejoin)) hready (State.askRejoin_late (s := s.accessed) hfut)⟩

end Sys2Proof.Machine
end

section
/-! The twin bus (R445 to R448, R453 to R461). -/
namespace Sys2Proof.Machine

section
variable {s : State}

/-! ## Heartbeats -/

theorem execHeartbeatSend_fails (hlive : s.inReset = false) (hpair : s.paired = true) (hst : s.twin.st = 1) (hfailed : s.twin.failed = false)
    (hfails : s.linkFails = true) : execHeartbeatSend s = .next s.failOwn.sendHeartbeat := by
  have hown : (s.twin.st = 1 && !s.twin.failed && s.linkFails) = true := by
    rw [decide_eq_true hst, hfailed, hfails]
    rfl
  have hcheck : s.twinCheck = s.failOwn.sendHeartbeat := if_pos (by rw [hpair, hst, hfailed, hfails]; rfl)
  rw [execHeartbeatSend, live_eq hlive, hpair, ← hcheck]
  exact congrArg Host.Outcome.next (if_pos hown)

theorem execHeartbeatSend_eq (hlive : s.inReset = false) (hpair : s.paired = true) (h : s.twin.st ≠ 1 ∨ s.twin.failed = true ∨ s.linkFails = false) :
    execHeartbeatSend s = .next (s.when (decide (s.twin.nextHb ≤ s.now)) (·.sendHeartbeat)) := by
  have hown : ¬ (s.twin.st = 1 && !s.twin.failed && s.linkFails) = true := by
    rcases h with h | h | h
    · rw [decide_eq_false h]
      exact Bool.false_ne_true
    · rw [h, Bool.not_true, Bool.and_false]
      exact Bool.false_ne_true
    · rw [h, Bool.and_false]
      exact Bool.false_ne_true
  rw [execHeartbeatSend, live_eq hlive, hpair]
  exact congrArg Host.Outcome.next (if_neg hown)

/-- The sister's heartbeat is noted. -/
def State.heardSister (s : State) (ok : Bool) (half : Nat) : State :=
  { s with twin := { s.twin with alive := true, lastHb := some s.now, sisOk := ok, sisHalf := half } }

/-- What the sister tells of itself changes nothing of the own link. -/
theorem State.linkFails_heardSister (s : State) (ok : Bool) (half : Nat) : (s.heardSister ok half).linkFails = s.linkFails := rfl

theorem State.linkOk_heardSister (s : State) (ok : Bool) (half : Nat) : (s.heardSister ok half).linkOk = s.linkOk := rfl

theorem execHeartbeat_eq (hlive : s.inReset = false) (hpair : s.paired = true) (ok : Bool) (half : Nat) (take : Option Pending) :
    execHeartbeat ok half ⟨false, take⟩ s = .next
      (let t := (take.map (s.heardSister ok half).hearTake).getD (s.heardSister ok half)
       if t.twin.st = 0 && ok && t.linkOk then t.updTwin fun x => { x with st := 1 }
       else if t.twin.st = 1 && !ok && !t.linkFails then t.requestTakeover false
       else t) := by
  rw [execHeartbeat, live_eq hlive, State.takeHeartbeat, hpair]
  rfl

/-- The handshake that a heartbeat tells of. -/
def State.toldTake (s : State) (p : Pending) : State :=
  { s with twin := { s.twin with
    st := 2, lost := p.lost, take := some { target := p.target.getD ((s.tick.num + 2) % 2 ^ 48), mine := false, echoed := p.target.isSome,
                                            nextSend := s.now, arg := s.role } } }

theorem State.hearTake_active (h : s.twin.st = 1) (p : Pending) :
    s.hearTake p = ((s.toldTake p).freeze (roleStreams s.role) true).twinEvent 0 := by
  have hmine : (s.twin.st = 1 || (s.twin.st = 2 && (s.twin.take.map fun k => k.arg == s.role).getD false) ||
      (s.twin.st = 4 && p.lost && (p.target.map (future · s.tick.num)).getD true)) = true := by
    rw [decide_eq_true h]
    rfl
  unfold State.hearTake
  exact (if_pos hmine).trans (if_pos h)

theorem State.twin_freeze (s : State) (ns : List Nat) (hold : Bool) : (s.freeze ns hold).twin = s.twin :=
  State.each_same (·.twin) (f := fun s n => s.updStrm n fun x => { x with moving := true, stopped := x.stopped || hold }) (fun _ _ => rfl) _ _

/-! ## Loss and absence of the sister -/

theorem execInstLost_eq (hlive : s.inReset = false) (hpair : s.paired = true) {t : Nat} (h : s.twin.lastHb = some t) :
    execInstLost s = .next (s.when (decide (t + 64 * s.rf 0x90000 15 8 ≤ s.now)) (·.sisterLost)) := by
  rw [execInstLost, live_eq hlive, h, hpair]
  rfl

theorem execNoSister_eq (hlive : s.inReset = false) (hpair : s.paired = true) {t : Nat} (h : s.twin.enAt = some t) (hst : s.twin.st = 0)
    (halive : s.twin.alive = false) : execNoSister s = .next
      (if t + 2400000 ≤ s.now then (s.updTwin fun x => { x with st := 5 }).twinEvent 2 else s) := by
  rw [execNoSister, live_eq hlive, h, hpair, hst, halive]
  simp only [beq_self_eq_true, Bool.not_false, Bool.true_and, decide_eq_true_eq]

theorem State.twinEvent_shows (s : State) {i : Nat} (hi : i < 32) :
    bit ((s.twinEvent i).rg 0x90014) i = true ∧ bit ((s.twinEvent i).rg 0x30) 7 = true := by
  refine ⟨?_, State.bit_irq _ (by decide)⟩
  rw [State.twinEvent, State.rg_irq_other _ _ (by decide), State.bit_setBit_same _ _ hi]

/-! ## Records -/

theorem execOperationRecord_takes (hlive : s.inReset = false) (hpair : s.paired = true) {r : TwinOp} (hr : recordOk r = true) :
    execOperationRecord r s = .next (s.takeRecordOp r) := by
  rw [execOperationRecord, liveWf_eq hr hlive, hpair, State.when_true]

/-- An operation whose handed messages are reported on. -/
def Op.reported (o : Op) (st : BitVec 4) (psn : Bool) : Op :=
  { o with handed := false, psn := o.psn || psn || st == 1, farPsn := o.farPsn || psn,
           await := if st = 5 then [] else o.await, trk := if st = 5 then o.trk.filter (·.2.ans) else o.trk }

theorem execCompletionReport_reports (hlive : s.inReset = false) (hpair : s.paired = true) {tag : Nat} (htag : tag < 256) {o : Op}
    (hop : s.op? tag = some o) (hhanded : o.handed = true) (st : BitVec 4) (psn : Bool) (ecount : Nat) :
    execCompletionReport tag st psn ecount s = .next
      ((s.setOp { (o.reported st psn).fail st.toNat true 0 with ecount := max o.ecount (min ecount 0xFFFFFF) }).opCheck tag) := by
  rw [execCompletionReport, liveWf_eq (decide_eq_true htag) hlive]
  simp only [hop, hpair, hhanded, Bool.and_true, if_true, beq_iff_eq]
  rfl

theorem execTwinStreamState_eq (hlive : s.inReset = false) (hpair : s.paired = true) {x : StreamState} (hx : x.stream < 64) :
    execTwinStreamState x s = .next
      (if s.twin.st = 3 && roleStream s.sisRole x.stream then (if s.twin.lost then s else s.adoptStream x)
       else if s.twin.st = 2 && roleStream s.sisRole x.stream then s.updTwin fun t => { t with early := t.early ++ [x] }
       else if roleStream s.role x.stream then s.regainStream x
       else s) := by
  rw [execTwinStreamState, liveWf_eq (decide_eq_true hx) hlive, hpair]
  rfl

theorem execResponseLogTransfer_adds (hlive : s.inReset = false) (hpair : s.paired = true) {xs : List LogEnt} {hit : Bool} {u : State}
    (hxs : ∀ x ∈ xs, x.stream < 64 ∧ x.msg.tc < 4) (hhit : s.memHit 9 = (hit, u)) : execResponseLogTransfer xs s = .next
      ((u.addResend (xs.map (logAgain · hit))).each xs fun v x => match x.src with
        | some (a, n) => v.reread (logAgain x hit) a n
        | none => v) := by
  have hwf : (xs.all fun x => decide (x.stream < 64) && decide (x.msg.tc < 4)) = true := List.all_eq_true.2 fun x hx => by
    rw [decide_eq_true (hxs x hx).1, decide_eq_true (hxs x hx).2]
    rfl
  rw [execResponseLogTransfer, liveWf_eq hwf hlive, hpair]
  simp only [hhit]
  rfl

theorem execReleaseCommand_none (hlive : s.inReset = false) {n q : Nat} (hn : n < 64) (h : ∀ h ∈ (s.strm n).held, h.sseq ≠ q) :
    execReleaseCommand n q s = .next s := by
  have hfind : (s.strm n).held.find? (fun h => h.sseq == q) = none := List.find?_eq_none.2 fun x hx hc => h x hx (beq_iff_eq.1 hc)
  rw [execReleaseCommand, liveWf_eq (decide_eq_true hn) hlive, hfind]

theorem execReleaseCommand_releases (hlive : s.inReset = false) (hpair : s.paired = true) {n q k : Nat} {h : Held} (hn : n < 64)
    (hfind : (s.strm n).held.find? (fun h => h.sseq == q) = some h) (hlen : heldLen h.frags = some k) : execReleaseCommand n q s = .next
      ((((((s.count32 0x20078 1).setBit 0x20058 1).updStrm n fun x => { x with held := x.held.filter fun g => g.sseq != q }).updTc h.tc fun c =>
        { c with buf := c.buf - ((h.frags.map fun f => f.bytes.length).sum - k) }).releaseMsg n (msgOf n h.tc (fragBytes h.frags k)) none)) := by
  rw [execReleaseCommand, liveWf_eq (decide_eq_true hn) hlive]
  simp only [hfind, hpair, hlen, if_true]

end

/-- Settles O54: the own heartbeat and the sister's, its loss and absence, and the records of the bus. -/
theorem twinBus : Obligations.TwinBus := by
  unfold Obligations.TwinBus
  intro s hlive hpair
  refine ⟨fun h => ⟨fun hdue => ?_, fun hnot => ?_⟩, fun hst hfailed hfails => execHeartbeatSend_fails hlive hpair hst hfailed hfails, fun ok half => ?_,
    fun t hlast => ⟨fun hdue => ?_, fun hnot => ?_⟩, fun t hen hst halive => ⟨fun hdue => ?_, fun hnot => ?_⟩, fun r hr =>
    execOperationRecord_takes hlive hpair hr, fun tag st psn ecount o htag hop hhanded =>
    execCompletionReport_reports hlive hpair htag hop hhanded st psn ecount, fun x hx => ?_, fun xs hit u hxs hhit =>
    execResponseLogTransfer_adds hlive hpair hxs hhit, fun n q hn h => execReleaseCommand_none hlive hn h, fun n q h k hn hfind hlen =>
    execReleaseCommand_releases hlive hpair hn hfind hlen⟩
  · refine ⟨_, (execHeartbeatSend_eq hlive hpair h).trans (congrArg Host.Outcome.next (if_pos (decide_eq_true hdue))), rfl, ⟨_, rfl⟩, rfl, rfl⟩
  · exact (execHeartbeatSend_eq hlive hpair h).trans (congrArg Host.Outcome.next (if_neg (by rw [decide_eq_false (Nat.not_le.2 hnot)]; exact Bool.false_ne_true)))
  · intro u
    have hexec := execHeartbeat_eq hlive hpair ok half
    refine ⟨fun hst hown hok => ?_, fun hst hfails hok => ?_, fun hst h => ?_, fun p hst => ?_⟩
    · refine (hexec none).trans (congrArg Host.Outcome.next (if_pos ?_))
      change (decide (s.twin.st = 0) && ok && (s.heardSister ok half).linkOk) = true
      rw [decide_eq_true hst, hok, s.linkOk_heardSister, hown]
      rfl
    · refine (hexec none).trans (congrArg Host.Outcome.next ((if_neg ?_).trans (if_pos ?_)))
      · change ¬ (decide (s.twin.st = 0) && ok && (s.heardSister ok half).linkOk) = true
        rw [hok, Bool.and_false, Bool.false_and]
        exact Bool.false_ne_true
      · change (decide (s.twin.st = 1) && !ok && !(s.heardSister ok half).linkFails) = true
        rw [decide_eq_true hst, hok, s.linkFails_heardSister, hfails]
        rfl
    · refine (hexec none).trans (congrArg Host.Outcome.next ((if_neg ?_).trans (if_neg ?_)))
      · change ¬ (decide (s.twin.st = 0) && ok && (s.heardSister ok half).linkOk) = true
        rw [hst]
        exact Bool.false_ne_true
      · change ¬ (decide (s.twin.st = 1) && !ok && !(s.heardSister ok half).linkFails) = true
        rw [s.linkFails_heardSister]
        rcases h with h | h
        · rw [h, Bool.not_true, Bool.and_false]
          exact Bool.false_ne_true
        · rw [h, Bool.not_true, Bool.and_false]
          exact Bool.false_ne_true
    · have htold : ((s.heardSister ok half).hearTake p).twin.st = 2 := by
        rw [State.hearTake_active (s := s.heardSister ok half) hst]
        exact congrArg Twin.st (((s.heardSister ok half).toldTake p).twin_freeze _ _)
      refine (hexec (some p)).trans (congrArg Host.Outcome.next ((if_neg ?_).trans ((if_neg ?_).trans
        (State.hearTake_active (s := s.heardSister ok half) hst p))))
      · change ¬ (decide (((s.heardSister ok half).hearTake p).twin.st = 0) && ok && _) = true
        rw [htold]
        exact Bool.false_ne_true
      · change ¬ (decide (((s.heardSister ok half).hearTake p).twin.st = 1) && !ok && _) = true
        rw [htold]
        exact Bool.false_ne_true
  · exact (execInstLost_eq hlive hpair hlast).trans (congrArg Host.Outcome.next (if_pos (decide_eq_true hdue)))
  · exact (execInstLost_eq hlive hpair hlast).trans (congrArg Host.Outcome.next (if_neg (by rw [decide_eq_false (Nat.not_le.2 hnot)]; exact Bool.false_ne_true)))
  · refine ⟨_, (execNoSister_eq hlive hpair hen hst halive).trans (congrArg Host.Outcome.next (if_pos hdue)), rfl, State.twinEvent_shows _ (by decide)⟩
  · exact (execNoSister_eq hlive hpair hen hst halive).trans (congrArg Host.Outcome.next (if_neg (Nat.not_le.2 hnot)))
  · have hexec := execTwinStreamState_eq hlive hpair hx
    refine ⟨fun hst hsis => ?_, fun hst hsis => ?_, fun hsis hown => ?_⟩
    · exact hexec.trans (congrArg Host.Outcome.next (if_pos (by rw [decide_eq_true hst, hsis]; rfl)))
    · exact hexec.trans (congrArg Host.Outcome.next ((if_neg (by rw [hst]; exact Bool.false_ne_true)).trans (if_pos (by rw [decide_eq_true hst, hsis]; rfl))))
    · refine hexec.trans (congrArg Host.Outcome.next ((if_neg ?_).trans ((if_neg ?_).trans (if_pos hown))))
      · rw [hsis, Bool.and_false]
        exact Bool.false_ne_true
      · rw [hsis, Bool.and_false]
        exact Bool.false_ne_true

end Sys2Proof.Machine
end

section
/-! The Health Monitor and the rate step-down (R473 to R483). -/
namespace Sys2Proof.Machine

section
variable {s u : State} {x : MgmtIn}

/-! ## Samples -/

/-- The rate of core_clk that a sample tells the self test. -/
def State.toldClk (s : State) (h : HmInputs) : State := { s with bist := { s.bist with mhz := some h.coreMhz } }

theorem State.hmTake_idle {h : HmInputs} (hcur : s.bist.cur = none) :
    s.hmTake h = (s.toldClk h).when s.sampleDue (·.hmFilter h) := by
  have hcut : ∀ v : State, v.bist.cur = none → v.when (v.bist.cur.isSome && !v.envelope) (·.bistCut) = v := fun v hv => by
    rw [hv]
    rfl
  refine hcut _ ?_
  exact (State.when_same (fun v => v.bist.cur) (f := (·.hmFilter h)) _ rfl _).trans hcur

theorem State.hmSample_early {h : HmInputs} (hcur : s.bist.cur = none) (hdue : s.sampleDue = false) : s.hmSample h = s.toldClk h := by
  rw [State.hmSample, s.hmTake_idle hcur, hdue]
  rfl

theorem State.hmSample_due {h : HmInputs} (hcur : s.bist.cur = none) (hdue : s.sampleDue = true) : s.hmSample h =
    let f := (s.toldClk h).hmFilter h
    ((f.each f.allMods (·.hmModule f.hm.stepReq.isSome ·)).when (!f.hm.stepReq.isSome) (·.hmLink)).hmAlarms := by
  rw [State.hmSample, s.hmTake_idle hcur, hdue]
  rfl

theorem State.sampleDue_iff (s : State) : s.sampleDue = true ↔
    bit (s.rg 0xA0000) 31 = true ∧ s.hm.lastAt * s.env.aon + s.rf 0xA0000 15 0 * s.clk ≤ s.now * s.env.aon := by
  rw [State.sampleDue, Bool.and_eq_true, decide_eq_true_eq]

/-! ## REQUEST of a rate step-down -/

/-- What a REQUEST does, by the limits and the own request. -/
theorem State.Manages.rateRequest_eq (h : s.Manages (stepIs 1) x u) : execRateStepRequest s = .next
    (if !bit (u.rg 0xA0008) 4 || stepRate x.msg < u.rf 0xA0008 15 12 || u.plan.isSome then u.sendStep 3 (stepRate x.msg) (mgmtTick x.msg)
     else
      let own := u.hm.stepReq.filter fun k => decide (k.arg < 16)
      let rate := min (stepRate x.msg) ((own.map (·.arg)).getD (stepRate x.msg))
      (u.updHm fun h => { h with stepReq := some (metBy own (mgmtTick x.msg) u.now rate) }).sendStep 2 rate
        (metBy own (mgmtTick x.msg) u.now rate).target) :=
  h.takeMgmt _

/-- The step-down of both ends: the later target and the lower rate. -/
def Shake.metAt (k : Shake) (target rate now : Nat) : Shake :=
  { target := laterTick k.target target, mine := k.mine, echoed := !k.mine || k.echoed, nextSend := now + 256, arg := min rate k.arg }

theorem getD_map_some {α β : Type} (f : α → β) (a : α) (b : β) : ((some a).map f).getD b = f a := rfl

theorem metBy_some {k : Shake} {target rate now : Nat} : metBy (some k) target now (min rate k.arg) = k.metAt target rate now := by
  rw [metBy, getD_map_some, getD_map_some, getD_map_some, Bool.not_and, Bool.not_not, Shake.metAt]

theorem Shake.metAt_target {k : Shake} {target rate now : Nat} : (k.metAt target rate now).target = laterTick k.target target := rfl

section
variable (hbit : bit (u.rg 0xA0008) 4 = true) (hrate : u.rf 0xA0008 15 12 ≤ stepRate x.msg) (hplan : u.plan = none)
include hbit hrate hplan

theorem not_refused : ¬ (!bit (u.rg 0xA0008) 4 || stepRate x.msg < u.rf 0xA0008 15 12 || u.plan.isSome) = true := by
  rw [hbit, decide_eq_false (Nat.not_lt.2 hrate), hplan]
  exact Bool.false_ne_true

theorem State.Manages.rateRequest_first (h : s.Manages (stepIs 1) x u)
    (hown : u.hm.stepReq = none ∨ (∃ k, u.hm.stepReq = some k ∧ 16 ≤ k.arg)) : execRateStepRequest s = .next ((u.updHm fun h =>
      { h with stepReq := some { target := mgmtTick x.msg, mine := false, echoed := true, nextSend := u.now + 256, arg := stepRate x.msg } }).sendStep
        2 (stepRate x.msg) (mgmtTick x.msg)) := by
  have hnone : (u.hm.stepReq.filter fun k => decide (k.arg < 16)) = none := by
    rcases hown with hown | ⟨k, hk, hlarge⟩
    · rw [hown]
      rfl
    · rw [hk, Option.filter_some, if_neg (by rw [decide_eq_false (Nat.not_lt.2 hlarge)]; exact Bool.false_ne_true)]
  refine h.rateRequest_eq.trans (congrArg Host.Outcome.next ((if_neg (not_refused hbit hrate hplan)).trans ?_))
  rw [hnone]
  simp only [Option.map_none, Option.getD_none, Nat.min_self]
  rfl

theorem State.Manages.rateRequest_met (h : s.Manages (stepIs 1) x u) {k : Shake} (hk : u.hm.stepReq = some k) (hsmall : k.arg < 16) :
    execRateStepRequest s = .next ((u.updHm fun h => { h with stepReq := some (k.metAt (mgmtTick x.msg) (stepRate x.msg) u.now) }).sendStep 2
      (min (stepRate x.msg) k.arg) (laterTick k.target (mgmtTick x.msg))) := by
  have hown : (u.hm.stepReq.filter fun k => decide (k.arg < 16)) = some k := by
    rw [hk, Option.filter_some, if_pos (decide_eq_true hsmall)]
  refine h.rateRequest_eq.trans (congrArg Host.Outcome.next ((if_neg (not_refused hbit hrate hplan)).trans ?_))
  rw [hown]
  dsimp only [Option.map_some, Option.getD_some]
  rw [metBy_some, Shake.metAt_target]

end

theorem State.Manages.rateRequest_refused (h : s.Manages (stepIs 1) x u)
    (href : bit (u.rg 0xA0008) 4 = false ∨ stepRate x.msg < u.rf 0xA0008 15 12 ∨ u.plan ≠ none) :
    execRateStepRequest s = .next (u.sendStep 3 (stepRate x.msg) (mgmtTick x.msg)) := by
  refine h.rateRequest_eq.trans (congrArg Host.Outcome.next (if_pos ?_))
  rcases href with hr | hr | hr
  · rw [hr]
    rfl
  · rw [decide_eq_true hr, Bool.or_true, Bool.true_or]
  · rw [Option.isSome_iff_ne_none.2 hr, Bool.or_true]

/-! ## ECHO, REFUSE and CANCEL -/

/-- A change of the step-down that leaves it as it is. -/
theorem State.updHm_stepReq {f : Option Shake → Option Shake} (h : f u.hm.stepReq = u.hm.stepReq) :
    (u.updHm fun y => { y with stepReq := f y.stepReq }) = u := by
  change ({ u with hm := { u.hm with stepReq := f u.hm.stepReq } } : State) = u
  rw [h]

/-- What an ECHO makes of a step-down. -/
def echoStep (m : Msg) (k : Shake) : Shake :=
  if k.mine && decide (k.arg < 16) && laterTick k.target (mgmtTick m) == mgmtTick m then
    { k.fixedAt (mgmtTick m) with arg := min k.arg (stepRate m) } else k

theorem echoStep_arms {m : Msg} {k : Shake} (hmine : k.mine = true) (hsmall : k.arg < 16) (hlater : laterTick k.target (mgmtTick m) = mgmtTick m) :
    echoStep m k = { k with target := mgmtTick m, echoed := true, arg := min k.arg (stepRate m) } := by
  have hcond : (k.mine && decide (k.arg < 16) && laterTick k.target (mgmtTick m) == mgmtTick m) = true := by
    rw [hmine, decide_eq_true hsmall, hlater, beq_self_eq_true]
    rfl
  rw [echoStep, if_pos hcond, Shake.fixedAt, if_pos hlater]

theorem echoStep_ignored {m : Msg} {k : Shake} (h : k.mine = false ∨ 16 ≤ k.arg ∨ laterTick k.target (mgmtTick m) ≠ mgmtTick m) : echoStep m k = k := by
  refine if_neg ?_
  rcases h with h | h | h
  · rw [h]
    exact Bool.false_ne_true
  · rw [decide_eq_false (Nat.not_lt.2 h), Bool.and_false]
    exact Bool.false_ne_true
  · rw [beq_false_of_ne h, Bool.and_false]
    exact Bool.false_ne_true

theorem State.Manages.rateEcho_eq (h : s.Manages (stepIs 2) x u) :
    execRateStepEcho s = .next (u.updHm fun y => { y with stepReq := y.stepReq.map (echoStep x.msg) }) := h.takeMgmt _

theorem State.Manages.rateEcho_ignored (h : s.Manages (stepIs 2) x u) {k : Shake} (hk : u.hm.stepReq = some k) (hsame : echoStep x.msg k = k) :
    execRateStepEcho s = .next u :=
  h.rateEcho_eq.trans (congrArg Host.Outcome.next (State.updHm_stepReq (f := Option.map (echoStep x.msg)) (by rw [hk, Option.map_some, hsame])))

theorem State.Manages.rateEcho_arms (h : s.Manages (stepIs 2) x u) {k : Shake} (hk : u.hm.stepReq = some k) (hmine : k.mine = true) (hsmall : k.arg < 16)
    (hlater : laterTick k.target (mgmtTick x.msg) = mgmtTick x.msg) : execRateStepEcho s = .next
      { u with hm := { u.hm with stepReq := some { k with target := mgmtTick x.msg, echoed := true, arg := min k.arg (stepRate x.msg) } } } := by
  refine h.rateEcho_eq.trans (congrArg Host.Outcome.next ?_)
  rw [State.updHm, hk, Option.map_some, echoStep_arms hmine hsmall hlater]

/-- What a REFUSE leaves of a step-down. -/
def refuseStep (k : Shake) : Option Shake := if k.mine && !k.echoed then none else some k

theorem State.Manages.rateRefuse_eq (h : s.Manages (stepIs 3) x u) :
    execRateStepRefuse s = .next (u.updHm fun y => { y with stepReq := y.stepReq.bind refuseStep }) := h.takeMgmt _

theorem State.Manages.rateRefuse_ignored (h : s.Manages (stepIs 3) x u) {k : Shake} (hk : u.hm.stepReq = some k)
    (hkept : k.mine = false ∨ k.echoed = true) : execRateStepRefuse s = .next u := by
  have hsame : refuseStep k = some k := by
    refine if_neg ?_
    rcases hkept with hk | hk
    · rw [hk]
      exact Bool.false_ne_true
    · rw [hk, Bool.not_true, Bool.and_false]
      exact Bool.false_ne_true
  exact h.rateRefuse_eq.trans (congrArg Host.Outcome.next (State.updHm_stepReq (f := (Option.bind · refuseStep)) (by rw [hk, Option.bind_some, hsame])))

theorem State.Manages.rateRefuse_ends (h : s.Manages (stepIs 3) x u) {k : Shake} (hk : u.hm.stepReq = some k) (hmine : k.mine = true)
    (hecho : k.echoed = false) : execRateStepRefuse s = .next { u with hm := { u.hm with stepReq := none } } := by
  have hends : refuseStep k = none := if_pos (by rw [hmine, hecho]; rfl)
  refine h.rateRefuse_eq.trans (congrArg Host.Outcome.next ?_)
  rw [State.updHm, hk, Option.bind_some, hends]

/-! ## The step-down without its ECHO, and at its tick -/

theorem execRateStepNoEcho_eq (hlive : s.inReset = false) {k : Shake} (hk : s.hm.stepReq = some k) : execRateStepNoEcho s = .next
    (if k.mine && !k.echoed && !future k.target (s.tickPlus 1) && future k.target s.tick.num && (decide (k.arg < 16) || decide (k.nextSend ≤ s.now)) then
      (s.updHm fun h => { h with stepReq := some { k with arg := k.arg % 16 + 16, nextSend := s.now + 64 } }).sendStep 4 (k.arg % 16) k.target
     else s) := by
  rw [execRateStepNoEcho, live_eq hlive, hk]

/-- A step-down that is cancelled for the first time, or again when its time has come. -/
theorem Shake.repeats_of {k : Shake} {now : Nat} (h : k.arg < 16 ∨ k.nextSend ≤ now) : (decide (k.arg < 16) || decide (k.nextSend ≤ now)) = true := by
  rw [← Bool.decide_or, decide_eq_true_eq]
  exact h

/-- The state without its step-down. -/
def State.stepDropped (s : State) : State := { s with hm := { s.hm with stepReq := none } }

theorem State.stepSolstice_eq {k : Shake} (hk : s.hm.stepReq = some k) (ht : k.target = s.tick.num) : s.stepSolstice =
    if k.echoed then (s.stepDropped.frostAll 3 (some k.arg)).setGap 3 s.stepDropped.gapTicks else s.stepDropped := by
  have hfuture : ¬ future k.target s.tick.num = true := by rw [ht, future_self]; exact Bool.false_ne_true
  have hcond : (k.echoed && decide (k.target = s.stepDropped.tick.num)) = k.echoed := by
    rw [decide_eq_true (show k.target = s.stepDropped.tick.num from ht), Bool.and_true]
  unfold State.stepSolstice
  rw [hk]
  refine (if_neg hfuture).trans ?_
  change (if (k.echoed && decide (k.target = s.stepDropped.tick.num)) = true then _ else s.stepDropped) = _
  rw [hcond]
  rfl

end

/-! ## The settlement -/

theorem execHmSample_reset {h : HmInputs} (hreset : s.inReset = true) : execHmSample h s =
    .next (if s.env.cold then s else s.when s.sampleDue fun s => (s.hmFilter h).supplyAlarm) := by
  rw [execHmSample, hreset]
  rfl

theorem execTrafficWake_eq (hlive : s.inReset = false) (hst : s.pwr.st = 3) (hsent : s.pwr.wakeSent = false) (hwake : bit (s.rg 0xA0104) 30 = true)
    (hon : bit (s.rg 0xA0008) 5 = true) : execTrafficWake s =
    .next (if s.waitedLong false then s.startWake.hmAct 8 8 s.powerMod 0x7F else s) := by
  rw [execTrafficWake, live_eq hlive, hst, hsent, hwake, hon]
  rfl

/-- Settles O55: samples, the handshake of a rate step-down on either side, its tick, and the wake by waiting traffic. -/
theorem healthAndRate : Obligations.HealthAndRate := by
  unfold Obligations.HealthAndRate
  intro s u x
  refine ⟨fun h => ⟨fun hlive => ?_, fun hreset hcold => ?_, fun hreset hcold => ?_, fun hcur => ?_⟩, s.sampleDue_iff, fun h => ?_, fun k hk hmine => ?_,
    fun k hk hmine => ⟨fun h => ?_, fun h => ?_⟩, fun h => h.takeMgmt _, fun k hlive hk => ⟨fun hmine hecho harg hnext hfut => ?_, fun hno => ?_, fun ht => ?_⟩,
    fun hlive hst hsent hwake hon => ⟨fun hlong => ?_, fun hlong => ?_⟩⟩
  · rw [exec, execHmSample, hlive]
    rfl
  · exact (execHmSample_reset hreset).trans (congrArg Host.Outcome.next (if_pos hcold))
  · refine (execHmSample_reset hreset).trans (congrArg Host.Outcome.next ((if_neg (Bool.eq_false_iff.1 hcold)).trans ?_))
    rfl
  · exact ⟨fun hdue => State.hmSample_early hcur hdue, fun hdue => ⟨State.hmSample_due hcur hdue, rfl, rfl, rfl, rfl, rfl, rfl, rfl, rfl, rfl⟩⟩
  · exact ⟨h.rateRequest_refused, fun hbit hrate hplan => ⟨h.rateRequest_first hbit hrate hplan,
      fun k hk hsmall => h.rateRequest_met hbit hrate hplan hk hsmall⟩⟩
  · refine ⟨fun h hsmall hlater => ?_, fun h hno => ?_, fun h hecho => ?_, fun h hecho => ?_⟩
    · exact h.rateEcho_arms hk hmine hsmall hlater
    · exact h.rateEcho_ignored hk (echoStep_ignored (.inr hno))
    · exact h.rateRefuse_ends hk hmine hecho
    · exact h.rateRefuse_ignored hk (.inr hecho)
  · exact h.rateEcho_ignored hk (echoStep_ignored (.inl hmine))
  · exact h.rateRefuse_ignored hk (.inl hmine)
  · refine (execRateStepNoEcho_eq hlive hk).trans (congrArg Host.Outcome.next (if_pos ?_))
    rw [hmine, hecho, hnext, hfut, Shake.repeats_of harg]
    rfl
  · refine (execRateStepNoEcho_eq hlive hk).trans (congrArg Host.Outcome.next (if_neg ?_))
    rcases hno with hn | hn | hn | hn
    · rw [hn]
      exact Bool.false_ne_true
    · rw [hn, Bool.not_true, Bool.and_false]
      exact Bool.false_ne_true
    · rw [hn, Bool.not_true, Bool.and_false]
      exact Bool.false_ne_true
    · rw [hn, Bool.and_false]
      exact Bool.false_ne_true
  · intro v
    exact ⟨fun hecho => (State.stepSolstice_eq hk ht).trans (if_pos hecho),
      fun hecho => (State.stepSolstice_eq hk ht).trans (if_neg (Bool.eq_false_iff.1 hecho))⟩
  · exact (execTrafficWake_eq hlive hst hsent hwake hon).trans (congrArg Host.Outcome.next (if_pos hlong))
  · exact (execTrafficWake_eq hlive hst hsent hwake hon).trans (congrArg Host.Outcome.next (if_neg (Bool.eq_false_iff.1 hlong)))

end Sys2Proof.Machine
end

section
/-! Fallow: the sleep of a single module (R484 to R486). -/
namespace Sys2Proof.Machine

section
variable {s : State} {m : Nat}

/-! ## What the flow control of all classes leaves as it is -/

theorem State.regs_flowCheck (s : State) (c : Nat) : (s.flowCheck c).regs = s.regs := (apply_ite State.regs _ _ _).trans (ite_self _)

theorem State.regs_flowAll (s : State) : s.flowAll.regs = s.regs := State.each_same (·.regs) State.regs_flowCheck _ _

theorem State.out_flowCheck (s : State) (c : Nat) : (s.flowCheck c).out = s.out := (apply_ite State.out _ _ _).trans (ite_self _)

theorem State.out_flowAll (s : State) : s.flowAll.out = s.out := State.each_same (·.out) State.out_flowCheck _ _

/-! ## The idle module -/

theorem State.txIdle_iff (s : State) (m : Nat) : s.txIdle m = true ↔ (s.mod m).st = .active ∧ (s.mod m).quiet = true ∧ s.plan = none ∧
    s.hm.stepReq = none ∧ s.pwr.mwGo = none ∧ (s.mod m).rep = [] ∧ (s.mod m).grants = [] ∧ (s.mod m).stopped = [] ∧
    (s.mod m).lastUse + s.rf 0xA0104 15 0 ≤ s.now := by
  simp only [State.txIdle, State.linkQuiet, Bool.and_eq_true, beq_iff_eq, Option.isNone_iff_eq_none, List.isEmpty_iff, decide_eq_true_eq, and_assoc]

/-! ## The request and its answers -/

/-- The module with its request under way. -/
def Mod.asksFallow (x : Mod) (now : Nat) : Mod := { x with fallowReq := true, fallowAt := now }

theorem execFallowIdle_asks (hlive : s.inReset = false) (hlast : s.activeMods.getLast? = some m) (hon : bit (s.rg 0xA0104) 31 = true)
    (hmin : s.rf 0xA0104 20 16 < s.activeMods.length) (hidle : s.modIdle m = true) (hreq : (s.mod m).fallowReq = false) (hopen : s.openMode = false)
    (hmore : 1 < s.activeMods.length) : execFallowIdle s =
      .next ((s.updMod m (·.asksFallow s.now)).sendSb m 1 []) := by
  rw [execFallowIdle, live_eq hlive]
  simp only [hlast, hon, decide_eq_true hmin, hidle, hreq, hopen, decide_eq_true hmore]
  rfl

theorem State.Hears.fallowReq {x : SbMsg} (h : s.Hears x 1 0 m) : execFallowReq x s = .next
    (if s.txIdle m then (s.sendSb m 2 []).enterFallow m
     else if (s.mod m).st == .fallow && (s.mod m).wakeAt.isNone then s.sendSb m 2 [] else s.sendSb m 3 []) := by
  rw [execFallowReq, live_eq h.live, h.rxSb]

/-- The module has gone to sleep, and nothing else of what can be seen has changed. -/
theorem State.enterFallow_effect (s : State) (m : Nat) : ((s.enterFallow m).mod m).st = .fallow ∧ (s.enterFallow m).out = s.out ∧
    (∀ k, k ≠ m → (s.enterFallow m).mod k = s.mod k) ∧ (s.enterFallow m).regs = s.regs := by
  have hmod : ∀ k, (s.enterFallow m).mod k = (s.updMod m fun x =>
      { x with st := .fallow, outAt := s.now, fallowReq := false, wantWake := false, wakeAt := none }).mod k :=
    fun k => State.mod_of_mods (State.mods_flowAll _) k
  refine ⟨?_, State.out_flowAll _, fun k hk => (hmod k).trans (s.mod_updMod_other _ (Ne.symm hk)), State.regs_flowAll _⟩
  rw [hmod, State.mod_updMod_same]

theorem State.Hears.fallowAck {x : SbMsg} (h : s.Hears x 2 0 m) (hreq : (s.mod m).fallowReq = true) (hst : (s.mod m).st = .active) :
    execFallowAck x s = .next (s.enterFallow m) := by
  rw [execFallowAck, live_eq h.live, h.rxSb, hreq, hst]
  rfl

/-! ## The wake -/

/-- The modules that sleep and that no wake has reached. -/
def State.sleepers (s : State) : List Nat := s.allMods.filter fun m => (s.mod m).st == .fallow && (s.mod m).wakeAt.isNone

theorem State.sleepers_wanted (hm : m < modules s.member) (hst : (s.mod m).st = .fallow) (hwake : (s.mod m).wakeAt = none)
    (hwant : (s.mod m).wantWake = true) (hfirst : ∀ k < m, (s.mod k).st ≠ .fallow) :
    s.sleepers.find? (fun m => (s.mod m).wantWake) = some m := by
  rw [State.sleepers, List.find?_filter, State.allMods, List.find?_range_eq_some]
  refine ⟨?_, List.mem_range.2 hm, fun k hk => ?_⟩
  · rw [hst, hwake, hwant]
    rfl
  · rw [beq_false_of_ne (hfirst k hk)]
    rfl

theorem execFallowWake_wanted (hlive : s.inReset = false) (hm : m < modules s.member) (hst : (s.mod m).st = .fallow) (hwake : (s.mod m).wakeAt = none)
    (hwant : (s.mod m).wantWake = true) (hfirst : ∀ k < m, (s.mod k).st ≠ .fallow) (hmay : s.mayWake = true) :
    execFallowWake s = .next (s.beginWake m) := by
  have hfind := State.sleepers_wanted hm hst hwake hwant hfirst
  rw [State.sleepers] at hfind
  rw [execFallowWake, live_eq hlive]
  simp only [hfind, hmay]
  rfl

theorem execFallowWakeDetect_asleep (hlive : s.inReset = false) (hm : m < 16) (hst : (s.mod m).st = .fallow) (hwake : (s.mod m).wakeAt = none)
    (hcur : s.bist.cur = none) : execFallowWakeDetect m s = .next (s.updMod m fun y => { y with wakeAt := some s.now }) := by
  have hserve : s.bistServe m = s := by rw [State.bistServe, hcur]
  rw [execFallowWakeDetect, liveWf_eq (decide_eq_true hm) hlive, hst, hwake, hserve]
  rfl

/-- A module that has come out of Fallow, before a retrain that waited for it. -/
def State.fallowEnded (s : State) (m : Nat) : State := ((s.updMod m fun y =>
  { y with st := .active, wakeAt := none, wantWake := false, wantRetrain := none, lastUse := s.now, rxUse := s.now }).flowAll).lateFrost m

theorem execFallowWakeDone_eq {t : Nat} (hlive : s.inReset = false) (hm : m < 16) (ht : (s.mod m).wakeAt = some t) (hst : (s.mod m).st = .fallow) :
    execFallowWakeDone m s = .next (if t + s.dur 96 ≤ s.now then
      match (s.mod m).wantRetrain with
      | some r => (s.fallowEnded m).requestRetrain m r
      | none => s.fallowEnded m
     else s) := by
  rw [execFallowWakeDone, liveWf_eq (decide_eq_true hm) hlive, ht, hst]
  by_cases hdue : t + s.dur 96 ≤ s.now
  · rw [if_pos hdue]
    refine congrArg Host.Outcome.next ((if_pos ?_).trans ?_)
    · rw [decide_eq_true hdue, decide_eq_true rfl]
      rfl
    · cases (s.mod m).wantRetrain with
      | none => rfl
      | some r => rfl
  · rw [if_neg hdue]
    refine congrArg Host.Outcome.next (if_neg ?_)
    rw [decide_eq_false hdue, Bool.and_false]
    exact Bool.false_ne_true

/-- A write that names no module wakes none. -/
theorem State.writeFallow_zero (s : State) : s.writeFallow 0 = s :=
  State.each_idle fun m _ => by
    rw [show bit (0 : W32) m = false from BitVec.getLsbD_zero]
    rfl

/-! ## The settlement -/

/-- Settles O56: the request of the idle module and its answers, the wake from either end, and its end after 96 cc. -/
theorem fallowResults : Obligations.FallowResults := by
  unfold Obligations.FallowResults
  intro s m hlive hm
  refine ⟨fun hlast hon hmin hidle hreq hopen hmore => ?_, fun x h => ⟨fun hidle => ?_, fun hbusy hst hwake => ?_, fun hbusy hno => ?_⟩,
    fun x h => h.fallowAck, fun x h => ?_, execFallowWake_wanted hlive, execFallowWakeDetect_asleep hlive hm, fun t ht hst => ⟨fun hdue => ?_, fun hearly => ?_⟩,
    fun hready => ⟨fun d => portCmd_ready hready (·.writeFallow d), portCmd_eq (f := (·.writeFallow 0)) hready s.accessed.writeFallow_zero⟩, s.txIdle_iff m⟩
  · exact ⟨_, execFallowIdle_asks hlive hlast hon hmin hidle hreq hopen hmore, s.mod_updMod_same m (·.asksFallow s.now), rfl,
      fun k hk => s.mod_updMod_other (·.asksFallow s.now) (Ne.symm hk), rfl⟩
  · exact ⟨_, h.fallowReq.trans (congrArg Host.Outcome.next (if_pos hidle)), (s.sendSb m 2 []).enterFallow_effect m⟩
  · refine h.fallowReq.trans (congrArg Host.Outcome.next ((if_neg (Bool.eq_false_iff.1 hbusy)).trans (if_pos ?_)))
    rw [hst, hwake]
    rfl
  · refine h.fallowReq.trans (congrArg Host.Outcome.next ((if_neg (Bool.eq_false_iff.1 hbusy)).trans (if_neg ?_)))
    rw [Bool.and_eq_true, beq_iff_eq, Option.isNone_iff_eq_none]
    exact fun ⟨hst, hwake⟩ => hno.elim (· hst) (· hwake)
  · change execFallowNak x s = _
    rw [execFallowNak, live_eq hlive, h.rxSb]
  · intro u
    exact ⟨fun hwant => by exact (execFallowWakeDone_eq hlive hm ht hst).trans (by rw [if_pos hdue, hwant]; rfl),
      fun r hwant => (execFallowWakeDone_eq hlive hm ht hst).trans (by rw [if_pos hdue, hwant]; rfl)⟩
  · exact (execFallowWakeDone_eq hlive hm ht hst).trans (by rw [if_neg (Nat.not_le.2 hearly)])

end

end Sys2Proof.Machine
end

section
/-! Midwinter: the sleep of the link, its wake, and the caps (R487 to R495). -/
namespace Sys2Proof.Machine

section
variable {s : State} {m k : Nat}

/-! ## A step on each of several modules -/

/-- What a step leaves with every module that it names, whatever it found, holds of each module that the steps have named. -/
theorem State.mod_each_reaches {P : Mod → Prop} {f : State → Nat → State} (hstep : ∀ t x, P ((f t x).mod x))
    (hother : ∀ t x k, k ≠ x → (f t x).mod k = t.mod k) {xs : List Nat} (s : State) (h : k ∈ xs ∨ P (s.mod k)) : P ((s.each xs f).mod k) := by
  induction xs generalizing s with
  | nil => exact h.resolve_left List.not_mem_nil
  | cons x xs ih =>
    refine ih (f s x) ?_
    by_cases hk : k = x
    · exact .inr (hk ▸ hstep s x)
    · rcases h with h | h
      · exact .inl ((List.mem_cons.1 h).resolve_left hk)
      · exact .inr ((hother s x k hk).symm ▸ h)

/-- A change of each of several modules, once each. -/
theorem State.mod_each_updMod (f : Mod → Mod) {xs : List Nat} (hnodup : xs.Nodup) (s : State) :
    (s.each xs fun s m => s.updMod m f).mod k = if k ∈ xs then f (s.mod k) else s.mod k := by
  induction xs generalizing s with
  | nil => rfl
  | cons x xs ih =>
    obtain ⟨hx, hxs⟩ := List.nodup_cons.1 hnodup
    refine (ih hxs (s.updMod x f)).trans ?_
    by_cases hk : k = x
    · rw [hk, if_neg hx, if_pos (List.mem_cons_self ..), State.mod_updMod_same]
    · have hmem : k ∈ x :: xs ↔ k ∈ xs := List.mem_cons.trans (or_iff_right hk)
      rw [s.mod_updMod_other f (Ne.symm hk)]
      simp only [hmem]

theorem State.mod_enterRetrain_other (s : State) (reason : Nat) (mine planned : Bool) (hk : k ≠ m) :
    (s.enterRetrain m reason mine planned).mod k = s.mod k := by
  rw [State.mod_of_mods (s.mods_enterRetrain m reason mine planned), State.retrainBegun, State.mod_updMod_other _ _ (Ne.symm hk),
    State.mod_of_mods ((s.linkRoused.mods_bistServe m).trans s.mods_linkRoused)]

/-! ## A module that comes up -/

theorem State.mods_setLatMin (s : State) : s.setLatMin.mods = s.mods := by
  have hraise : ∀ v : State, (if v.rf 0x20040 11 0 < v.rf 0x20044 11 0 then (v.setBit 0x20058 4).when (bit (v.rg 0x2005C) 1) (·.irq 2) else v).mods = v.mods :=
    fun v => (apply_ite State.mods _ _ _).trans (by rw [State.when_same (·.mods) (f := (·.irq 2)) _ rfl]; exact ite_self _)
  unfold State.setLatMin
  by_cases hnone : s.active.isEmpty = true
  · rw [if_pos hnone]
  · rw [if_neg hnone]
    exact hraise _

theorem State.mods_updTwin (s : State) (f : Twin → Twin) : (s.updTwin f).mods = s.mods := rfl

theorem State.mods_eachUpdStrm (s : State) (f : Stream → Stream) (xs : List Nat) : (s.each xs fun s n => s.updStrm n f).mods = s.mods :=
  State.each_same (·.mods) (f := fun s n => s.updStrm n f) (fun _ _ => rfl) xs s

theorem State.mods_twinRepaired (s : State) : s.twinRepaired.mods = s.mods := by
  unfold State.twinRepaired
  dsimp only
  rw [apply_ite State.mods, State.mods_updTwin, State.mods_eachUpdStrm, ite_self]

/-- A module that carries traffic again. -/
def Mod.up (x : Mod) (now : Nat) (alt : Bool) : Mod :=
  { x with st := .active, retrain := none, frost := none, tphase := 0, lostAt := none, clkLost := false,
           altSel := alt && !(x.clkP && x.frmP), retiring := x.wasRetired, lastUse := now, rxUse := now, vldGood := 0, vldBad := 0 }

theorem State.mods_modUp (s : State) (m : Nat) : (s.modUp m).mods =
    ((s.when s.linkDownNow (·.linkUp)).updMod m (·.up (s.when s.linkDownNow (·.linkUp)).now (altSet (s.when s.linkDownNow (·.linkUp)).member))).mods := by
  unfold State.modUp
  refine (State.mods_twinRepaired _).trans ((State.when_same (·.mods) _ (by rfl) _).trans ((State.mods_flowAll _).trans ((State.mods_setLatMin _).trans rfl)))

theorem State.mods_linkUpWhen (s : State) (c : Bool) : (s.when c (·.linkUp)).mods = s.mods := State.when_same (·.mods) s s.mods_linkUp c

theorem State.st_modUp (s : State) (m : Nat) : ((s.modUp m).mod m).st = .active := by
  rw [State.mod_of_mods (s.mods_modUp m), State.mod_updMod_same]
  rfl

theorem State.mod_modUp_other (s : State) (hk : k ≠ m) : (s.modUp m).mod k = s.mod k := by
  rw [State.mod_of_mods (s.mods_modUp m), State.mod_updMod_other _ _ (Ne.symm hk), State.mod_of_mods (s.mods_linkUpWhen _)]

/-! ## The request by its tick -/

section
variable (hidle : s.pwr.st = 0) (hup : s.linkDownNow = false) (hopen : s.openMode = false)
include hidle hup hopen

theorem State.goMidwinter_eq : s.goMidwinter =
    if !s.locked then s.mwWithdraw
    else if !future ((s.rg64 0xA0108).toNat % tickMod) s.tick.num then s.updPwr fun p => { p with result := 2 }
    else ((s.updPwr fun p => { p with st := 1, mwGo := some ((s.rg64 0xA0108).toNat % tickMod), acked := false, result := 0 }).sendPower 6
      (some ((s.rg64 0xA0108).toNat % tickMod))).mwAgree :=
  if_neg (by rw [hidle, hup, hopen]; exact Bool.false_ne_true)

theorem State.goMidwinter_unlocked (hlock : s.locked = false) : s.goMidwinter =
    ({ s with pwr := { s.pwr with st := 0, mwGo := none, acked := false, result := 4, peerGo := none } } : State).sendPower 6 (some 0) := by
  rw [State.goMidwinter_eq hidle hup hopen, hlock, State.mwWithdraw, hlock]
  rfl

section
variable (hlock : s.locked = true)
include hlock

theorem State.goMidwinter_late (hfut : future ((s.rg64 0xA0108).toNat % tickMod) s.tick.num = false) :
    s.goMidwinter = { s with pwr := { s.pwr with result := 2 } } := by
  rw [State.goMidwinter_eq hidle hup hopen, hlock, hfut]
  rfl

theorem State.goMidwinter_asks (hfut : future ((s.rg64 0xA0108).toNat % tickMod) s.tick.num = true) : s.goMidwinter =
    (({ s with pwr := { s.pwr with st := 1, mwGo := some ((s.rg64 0xA0108).toNat % tickMod), acked := false, result := 0 } } : State).sendPower 6
      (some ((s.rg64 0xA0108).toNat % tickMod))).mwAgree := by
  rw [State.goMidwinter_eq hidle hup hopen, hlock, hfut]
  rfl

end

end

theorem State.goMidwinter_ignored (h : s.pwr.st ≠ 0 ∨ s.linkDownNow = true ∨ s.openMode = true) : s.goMidwinter = s := by
  refine if_pos ?_
  rcases h with h | h | h
  · rw [bne_iff_ne.2 h]
    rfl
  · rw [h, Bool.or_true, Bool.true_or]
  · rw [h, Bool.or_true]

/-! ## The answers of the peer -/

theorem State.Hears.mwReq {x : SbMsg} (h : s.Hears x 6 1 m) : execMwReq x s = .next
    (if fld (sbWord x 0) 47 0 = 0 then ({ s with pwr := { s.pwr with peerGo := none } } : State).when (s.pwr.st == 1) (·.mwRefuse 3)
     else ({ s with pwr := { s.pwr with peerGo := some (fld (sbWord x 0) 47 0) } } : State).mwAgree) := by
  rw [execMwReq, live_eq h.live, h.rxSb]
  rfl

theorem State.Hears.mwAck {x : SbMsg} (h : s.Hears x 7 1 m) (hgo : s.pwr.mwGo = some (fld (sbWord x 0) 47 0)) :
    execMwAck x s = .next { s with pwr := { s.pwr with acked := true } } := by
  have hacked : (s.pwr.acked || s.pwr.mwGo == some (fld (sbWord x 0) 47 0)) = true := by rw [hgo, beq_self_eq_true, Bool.or_true]
  rw [execMwAck, live_eq h.live, h.rxSb, State.updPwr, hacked]

theorem execMwNoAck_ends {t : Nat} (hlive : s.inReset = false) (hgo : s.pwr.mwGo = some t) (hst : s.pwr.st = 1)
    (hfut : future t (s.tickPlus 1) = false) (hlock : s.locked = true) (hack : s.pwr.acked = false) : execMwNoAck s =
      .next (({ s with pwr := { s.pwr with st := 0, mwGo := none, acked := false, result := 3, peerGo := none } } : State).sendPower 6 (some 0)) := by
  rw [execMwNoAck, live_eq hlive]
  simp only [hgo]
  rw [hst, hfut, hack, State.mwWithdraw, hlock]
  rfl

/-! ## Sleep and wake -/

/-- A module once the PHY is off. -/
def Mod.phyOff (x : Mod) : Mod :=
  if x.sleeps then { x with st := .midwinter, frost := none, retrain := none, fallowReq := false, wakeAt := none } else x

theorem Mod.st_phyOff (x : Mod) : x.phyOff.st = if x.sleeps then .midwinter else x.st := apply_ite Mod.st _ _ _

/-- The state with every module's PHY off. -/
def State.physOff (s : State) : State := s.each s.allMods fun s m => s.updMod m Mod.phyOff

theorem State.physOff_keeps (s : State) : s.physOff.pwr = s.pwr ∧ s.physOff.regs = s.regs :=
  ⟨State.each_same (·.pwr) (f := fun s m => s.updMod m Mod.phyOff) (fun _ _ => rfl) _ _,
    State.each_same (·.regs) (f := fun s m => s.updMod m Mod.phyOff) (fun _ _ => rfl) _ _⟩

theorem execPhyOff_due (hlive : s.inReset = false) (hst : s.pwr.st = 2) (hdue : s.pwr.entryAt + s.dur 2400 ≤ s.now) :
    execPhyOff s = .next (s.physOff.updPwr fun p => { p with st := 3, result := 1 }) := by
  rw [execPhyOff, live_eq hlive, hst]
  refine congrArg Host.Outcome.next ((if_pos ?_).trans ?_)
  · rw [decide_eq_true hdue, Bool.or_true, decide_eq_true rfl, Bool.and_true]
  · rfl

theorem State.startWake_asleep (hst : s.pwr.st = 3) (hsent : s.pwr.wakeSent = false) : s.startWake =
    ({ s with pwr := { s.pwr with wakeSent := true, nextSend := s.now + s.dur 2400 } } : State).sendPower 8 none :=
  if_neg (by rw [hst, hsent]; exact Bool.false_ne_true)

theorem State.startWake_awake (hst : s.pwr.st ≠ 3) : s.startWake = s := if_pos (by rw [bne_iff_ne.2 hst]; rfl)

theorem State.pwr_bistServe (s : State) (m : Nat) : (s.bistServe m).pwr = s.pwr := by
  unfold State.bistServe
  split
  · split
    · rfl
    · rfl
  · rfl

theorem State.pwr_beginExit (hst : s.pwr.st = 3) :
    s.beginExit.pwr = { s.pwr with st := 4, wakeSent := false, exitAt := s.now, exitStep := 0 } := by
  rw [State.beginExit, if_pos hst]
  change ({ (s.each s.allMods (·.bistServe ·)).pwr with st := 4, wakeSent := false, exitAt := _, exitStep := 0 } : Pwr) = _
  rw [State.each_same (·.pwr) State.pwr_bistServe]

/-! ## The steps of the exit -/

theorem State.allMods_all (s : State) (p : Nat → Bool) : s.allMods.all p = true ↔ ∀ m < modules s.member, p m = true := by
  rw [State.allMods, List.all_eq_true]
  exact forall_congr' fun m => by rw [List.mem_range]

theorem execMidwinterExitStep_eq {t : Nat} (hlive : s.inReset = false) (hst : s.pwr.st = 4) (ht : exitTimes[s.pwr.exitStep]? = some t) :
    execMidwinterExitStep s = .next (if s.pwr.exitAt + s.dur t ≤ s.now ∧ (s.pwr.exitStep < 3 ∨ ∀ m < modules s.member, (s.mod m).retrain = none) then
      s.exitStep s.pwr.exitStep else s) := by
  have hdone : (s.allMods.all fun m => (s.mod m).retrain.isNone) = true ↔ ∀ m < modules s.member, (s.mod m).retrain = none :=
    (s.allMods_all _).trans (forall₂_congr fun _ _ => Option.isNone_iff_eq_none)
  rw [execMidwinterExitStep, live_eq hlive]
  simp only [ht, hst, decide_true, Bool.true_and, Bool.and_eq_true, Bool.or_eq_true, decide_eq_true_eq, hdone]

theorem State.exitRetrain_retrains (hm : m < modules s.member) (hst : (s.mod m).st = .midwinter) :
    (s.exitRetrain.mod m).st = .training ∧ (s.exitRetrain.mod m).retrain ≠ none := by
  refine State.mod_each_reaches (P := fun x => x.st = .training ∧ x.retrain ≠ none) (fun v n => ?_) (fun v n j hj => ?_) s (.inl ?_)
  · rw [State.mod_enterRetrain]
    exact ⟨rfl, Option.some_ne_none _⟩
  · exact (State.mod_enterRetrain_other _ _ _ _ hj).trans (v.mod_updMod_other _ (Ne.symm hj))
  · exact List.mem_filter.2 ⟨List.mem_range.2 hm, beq_iff_eq.2 hst⟩

theorem State.exitThaw_thaws (hm : m < modules s.member) (hst : (s.mod m).st = .frost) : (s.exitThaw.mod m).st = .active := by
  refine State.mod_each_reaches (P := fun x => x.st = .active) (fun v n => ?_) (fun v n j hj => ?_) s (.inl ?_)
  · exact State.st_modUp _ _
  · exact (State.mod_modUp_other _ hj).trans (v.mod_updMod_other _ (Ne.symm hj))
  · exact List.mem_filter.2 ⟨List.mem_range.2 hm, beq_iff_eq.2 hst⟩

/-! ## Caps -/

/-- The state under a cap. -/
def State.underCap (s : State) (c : Nat × Nat) : State := { s with pwr := { s.pwr with maxmod := c.1, duty := c.2 } }

theorem State.tel_cap (s : State) (type : Nat) (w : W64) :
    (s.tel type w).pwr.maxmod = s.pwr.maxmod ∧ (s.tel type w).pwr.duty = s.pwr.duty ∧ (s.tel type w).pwr.capPend = s.pwr.capPend := by
  unfold State.tel
  split
  · exact ⟨rfl, rfl, rfl⟩
  · exact ⟨rfl, rfl, rfl⟩

theorem State.capSolstice_last {c : Nat × Nat} (h : s.pwr.capPend.getLast? = some c) :
    s.capSolstice.pwr.maxmod = c.1 ∧ s.capSolstice.pwr.duty = c.2 ∧ s.capSolstice.pwr.capPend = [] := by
  obtain ⟨cs, hcs⟩ := List.getLast?_eq_some_iff.1 h
  have hlist : s.capSolstice = ((s.updPwr fun p => { p with capPend := [] }).each s.pwr.capPend fun s c =>
      (s.underCap c).tel 4 (bf 64 4 0 c.1 ||| bf 64 11 8 c.2)) := rfl
  have hpend : ∀ (xs : List (Nat × Nat)) (v : State), (v.each xs fun s c => (s.underCap c).tel 4 (bf 64 4 0 c.1 ||| bf 64 11 8 c.2)).pwr.capPend = v.pwr.capPend :=
    State.each_same (·.pwr.capPend) fun v c => ((v.underCap c).tel_cap _ _).2.2
  refine ⟨?_, ?_, hlist ▸ hpend _ _⟩
  · rw [hlist, hcs, State.each, List.foldl_append]
    exact (State.tel_cap _ _ _).1
  · rw [hlist, hcs, State.each, List.foldl_append]
    exact (State.tel_cap _ _ _).2.1

/-! ## The settlement -/

/-- Settles O57: the request and its agreement, the sleep, the wake and its steps, and the caps. -/
theorem midwinterResults : Obligations.MidwinterResults := by
  unfold Obligations.MidwinterResults
  intro s hlive t
  refine ⟨fun hready hidle hup hopen => ⟨fun hlock => ?_, fun hlock hfut => ?_, fun hlock hfut => ?_⟩, fun hready hno => ?_,
    fun x m h => ⟨fun hne => ?_, fun hzero hst => ?_, fun hzero hst => ?_⟩, fun x m h hgo => h.mwAck hgo, fun t hgo hst hfut hlock hack => ?_,
    fun hst hdue => ?_, fun hready hst hsent => ?_, fun hready hst => ?_, fun x m h => ⟨fun hst => ?_, fun hne hne' => ?_⟩, fun x m h hsent => ?_,
    State.pwr_beginExit, fun hst hsent hnext => ?_, fun t hst ht => ?_, fun m => State.exitRetrain_retrains, fun m => State.exitThaw_thaws, rfl, rfl,
    fun r hon => ⟨fun htype => ?_, fun htype => ?_⟩, fun r hoff => ⟨?_, ?_⟩, fun c => State.capSolstice_last⟩
  · exact portCmd_eq (f := (·.goMidwinter)) hready (State.goMidwinter_unlocked (s := s.accessed) hidle hup hopen hlock)
  · exact portCmd_eq (f := (·.goMidwinter)) hready (State.goMidwinter_late (s := s.accessed) hidle hup hopen hlock hfut)
  · exact portCmd_eq (f := (·.goMidwinter)) hready (State.goMidwinter_asks (s := s.accessed) hidle hup hopen hlock hfut)
  · exact portCmd_eq (f := (·.goMidwinter)) hready (State.goMidwinter_ignored (s := s.accessed) hno)
  · exact h.mwReq.trans (congrArg Host.Outcome.next (if_neg hne))
  · exact h.mwReq.trans (congrArg Host.Outcome.next ((if_pos hzero).trans (by rw [beq_false_of_ne hst]; rfl)))
  · exact h.mwReq.trans (congrArg Host.Outcome.next ((if_pos hzero).trans (by rw [hst]; rfl)))
  · exact execMwNoAck_ends hlive hgo hst hfut hlock hack
  · obtain ⟨hpwr, hregs⟩ := s.physOff_keeps
    refine ⟨_, execPhyOff_due hlive hst hdue, congrArg (fun p : Pwr => { p with st := 3, result := 1 }) hpwr, fun m hm => ?_, hregs⟩
    refine (congrArg Mod.st ((State.mod_each_updMod Mod.phyOff List.nodup_range s).trans (if_pos (List.mem_range.2 hm)))).trans ?_
    exact Mod.st_phyOff _
  · exact portCmd_eq (f := (·.startWake)) hready (State.startWake_asleep (s := s.accessed) hst hsent)
  · exact portCmd_eq (f := (·.startWake)) hready (State.startWake_awake (s := s.accessed) hst)
  · change execMwWake x s = _
    rw [execMwWake, live_eq hlive, h.rxSb, if_pos hst]
  · change execMwWake x s = _
    rw [execMwWake, live_eq hlive, h.rxSb, if_neg (not_or.2 ⟨hne, hne'⟩)]
  · change execMwWakeAck x s = _
    rw [execMwWakeAck, live_eq hlive, h.rxSb, hsent]
    rfl
  · change execMwWakeResend s = _
    rw [execMwWakeResend, live_eq hlive, hst, hsent, decide_eq_true hnext]
    rfl
  · intro done
    have heq := execMidwinterExitStep_eq hlive hst ht
    refine ⟨fun hdue => ⟨fun hstep => ?_, fun hstep => ?_, fun hstep hdone => ?_, fun hstep hdone => ?_⟩, fun hearly => ?_⟩
    · refine heq.trans (congrArg Host.Outcome.next ?_)
      rcases hstep with hstep | ⟨hstep, hdone⟩
      · rw [if_pos ⟨hdue, .inl (by omega)⟩, State.exitStep, if_neg (by omega), beq_false_of_ne (by omega)]
        rfl
      · rw [if_pos ⟨hdue, .inr hdone⟩, State.exitStep, if_neg (by omega), beq_false_of_ne (by omega)]
        rfl
    · rw [hstep] at heq
      exact heq.trans (congrArg Host.Outcome.next (if_pos ⟨hdue, .inl (by decide)⟩))
    · rw [hstep] at heq
      exact heq.trans (congrArg Host.Outcome.next (if_pos ⟨hdue, .inr hdone⟩))
    · exact heq.trans (congrArg Host.Outcome.next (if_neg fun h => h.2.elim (by omega) hdone))
    · exact heq.trans (congrArg Host.Outcome.next (if_neg fun h => by omega))
  · change execCapRecord r s = _
    rw [execCapRecord, live_eq hlive, hon, htype]
    rfl
  · change execWakeRecord r s = _
    rw [execWakeRecord, live_eq hlive, hon, htype]
    rfl
  · change execCapRecord r s = _
    rw [execCapRecord, live_eq hlive, hoff]
    rfl
  · change execWakeRecord r s = _
    rw [execWakeRecord, live_eq hlive, hoff]
    rfl

end

end Sys2Proof.Machine
end

section
/-! The year of self tests and the assembly test (R560 to R573). -/
namespace Sys2Proof.Machine

section
variable {s : State} {d : W32} {r : AitResult}

/-! ## A demanded month -/

/-- BIST_RUN with the month and the gap of a write. -/
def State.monthStored (s : State) (d : W32) : State :=
  ((s.when (bit d 30) (·.clrBits 0xB0028 0x40000000)).setRf 0xB0028 15 8 (fld d 15 8)).setRf 0xB0028 3 0 (fld d 3 0)

/-- The state with a demanded month under way. -/
def State.monthBegun (s : State) (m : Nat) : State :=
  { s with bist := { s.bist with run := some m, runBegan := s.tick.num, runSlices := [], runFail := [] } }

/-- What the stored fields of BIST_RUN leave as it is. -/
theorem State.monthStored_same {β : Type} (p : State → β) (hclr : ∀ v : State, p (v.clrBits 0xB0028 0x40000000) = p v)
    (hset : ∀ (v : State) hi lo n, p (v.setRf 0xB0028 hi lo n) = p v) (s : State) (d : W32) : p (s.monthStored d) = p s :=
  (hset _ _ _ _).trans ((hset _ _ _ _).trans (State.when_same p (f := (·.clrBits 0xB0028 0x40000000)) s (hclr s) _))

theorem State.bist_monthStored (s : State) (d : W32) : (s.monthStored d).bist = s.bist :=
  State.monthStored_same (·.bist) (fun _ => rfl) (fun _ _ _ _ => rfl) s d

theorem State.blank_monthStored (s : State) (d : W32) : (s.monthStored d).blank = s.blank :=
  State.monthStored_same (·.blank) (fun _ => rfl) (fun _ _ _ _ => rfl) s d

theorem State.month_monthStored (s : State) (d : W32) : (s.monthStored d).rf 0xB0028 3 0 = fld d 3 0 :=
  (State.rf_setRf_same _ _ _ (by decide) (by decide)).trans (Nat.mod_eq_of_lt (fld_lt d 3 0))

theorem State.gap_monthStored (s : State) (d : W32) : (s.monthStored d).rf 0xB0028 15 8 = fld d 15 8 := by
  refine (State.rf_setRf_apart _ _ _ (by decide) (by decide) (by decide) (.inr (by decide))).trans ?_
  exact (State.rf_setRf_same _ _ _ (by decide) (by decide)).trans (Nat.mod_eq_of_lt (fld_lt d 15 8))

theorem State.seq_monthStored (s : State) (d : W32) : (s.monthStored d).seq = s.seq :=
  State.monthStored_same (·.seq) (fun _ => rfl) (fun _ _ _ _ => rfl) s d

theorem State.mods_monthStored (s : State) (d : W32) : (s.monthStored d).mods = s.mods :=
  State.monthStored_same (·.mods) (fun _ => rfl) (fun _ _ _ _ => rfl) s d

theorem State.writeBistRun_eq (s : State) (d : W32) : s.writeBistRun d =
    if !bit d 31 || s.blank then s.monthStored d
    else if s.bist.run.isSome || fld d 3 0 = 0 || decide (12 < fld d 3 0) then (s.monthStored d).setBit 0xB0028 30
    else ((s.monthStored d).monthBegun (fld d 3 0)).bistCheck true := by
  rw [← s.blank_monthStored d, ← s.bist_monthStored d]
  rfl

theorem State.bistCheck_begun {m : Nat} (h : 0 < bistSlices s.member m) : (s.monthBegun m).bistCheck true = s.monthBegun m :=
  if_neg (Nat.not_le.2 h)

theorem State.writeBistRun_stored (h : bit d 31 = false) : s.writeBistRun d = s.monthStored d :=
  (s.writeBistRun_eq d).trans (if_pos (by rw [h]; rfl))

section
variable (hgo : bit d 31 = true) (hblank : s.blank = false)
include hgo hblank

theorem State.writeBistRun_starts (hrun : s.bist.run = none) (hlow : 0 < fld d 3 0) (hhigh : fld d 3 0 ≤ 12)
    (hsome : 0 < bistSlices s.member (fld d 3 0)) : s.writeBistRun d = (s.monthStored d).monthBegun (fld d 3 0) := by
  have hmember : (s.monthStored d).member = s.member := State.monthStored_same (·.member) (fun _ => rfl) (fun _ _ _ _ => rfl) s d
  refine (s.writeBistRun_eq d).trans ((if_neg ?_).trans ((if_neg ?_).trans (State.bistCheck_begun (hmember ▸ hsome))))
  · rw [hgo, hblank]
    exact Bool.false_ne_true
  · rw [hrun, decide_eq_false (by omega), decide_eq_false (by omega)]
    exact Bool.false_ne_true

theorem State.writeBistRun_refused (h : s.bist.run ≠ none ∨ fld d 3 0 = 0 ∨ 12 < fld d 3 0) :
    s.writeBistRun d = (s.monthStored d).setBit 0xB0028 30 := by
  refine (s.writeBistRun_eq d).trans ((if_neg ?_).trans (if_pos ?_))
  · rw [hgo, hblank]
    exact Bool.false_ne_true
  · rcases h with h | h | h
    · rw [Option.isSome_iff_ne_none.2 h]
      rfl
    · rw [decide_eq_true h, Bool.or_true, Bool.true_or]
    · rw [decide_eq_true h, Bool.or_true]

end

theorem State.bist_monthBegun (s : State) (d : W32) (m : Nat) : ((s.monthStored d).monthBegun m).bist =
    { s.bist with run := some m, runBegan := s.tick.num, runSlices := [], runFail := [] } := by
  have htick : (s.monthStored d).tick = s.tick := State.monthStored_same (·.tick) (fun _ => rfl) (fun _ _ _ _ => rfl) s d
  change ({ (s.monthStored d).bist with run := some m, runBegan := (s.monthStored d).tick.num, runSlices := [], runFail := [] } : Bist) = _
  rw [s.bist_monthStored d, htick]

/-! ## Slices and months -/

theorem execBistSliceStart_busy (hlive : s.inReset = false) (hcur : s.bist.cur ≠ none) : execBistSliceStart s = .next s := by
  rw [execBistSliceStart, live_eq hlive]
  refine congrArg Host.Outcome.next (if_pos ?_)
  rw [Option.isSome_iff_ne_none.2 hcur]
  rfl

/-- No Solstice comes within the time that a slice may need. -/
theorem State.solsticeFar (h : ∀ t, s.tick.nextSol = some t → s.now + 1040 ≤ t) :
    ((s.tick.nextSol.map fun t => decide (s.now + 1040 ≤ t)).getD true) = true := by
  cases hsol : s.tick.nextSol with
  | none => rfl
  | some t => exact decide_eq_true (h t hsol)

/-- The slice under test. -/
def State.sliceBegun (s : State) (month k : Nat) (demand : Bool) : State :=
  { s with free := s.free + 1, bist := { s.bist with cur := some (month, k, demand) } }

theorem execBistSliceStart_due (hlive : s.inReset = false) (hcur : s.bist.cur = none) (hblank : s.blank = false) (hrun : s.bist.run = none)
    (hon : bit (s.rg 0xB0000) 31 = true) (hgap : s.bist.lastEnd + 64 * s.rf 0xB0000 15 8 ≤ s.now)
    (hsol : ∀ t, s.tick.nextSol = some t → s.now + 1040 ≤ t) (hcands : s.bistNext s.bist.month s.bist.slices ≠ []) : execBistSliceStart s = .next
      (if !s.envelope then ((s.count32 0xB0024 1).setBit 0xB000C 1).irq 5
       else s.sliceBegun s.bist.month ((s.bistNext s.bist.month s.bist.slices).getD
        ((Config.freeWord s.free).toNat % (s.bistNext s.bist.month s.bist.slices).length) 0) false) := by
  rw [execBistSliceStart, live_eq hlive]
  simp only [hcur, hblank, hrun, hon, State.solsticeFar hsol, Option.isSome_none, Option.getD_none, Bool.false_eq_true, if_false, Bool.or_false, Bool.false_or,
    Bool.not_true, decide_eq_false (Nat.not_lt.2 hgap), List.isEmpty_eq_false_iff.2 hcands]
  rfl

theorem execBistMonthTimeout_demanded {m : Nat} (hlive : s.inReset = false) (hrun : s.bist.run = some m) : execBistMonthTimeout s = .next
    (if 4096 * s.rf 0xB0000 23 16 ≤ (s.tick.num + tickMod - s.bist.runBegan) % tickMod then
      s.runEnd (monthResult s.bist.runSlices (bistSlices s.member m)) else s) := by
  rw [execBistMonthTimeout, live_eq hlive]
  simp only [hrun, decide_eq_true_eq]

theorem execBistMonthTimeout_own (hlive : s.inReset = false) (hrun : s.bist.run = none) : execBistMonthTimeout s = .next
    (if bit (s.rg 0xB0000) 31 = true ∧ 4096 * s.rf 0xB0000 23 16 ≤ (s.tick.num + tickMod - s.bist.began) % tickMod then
      State.monthEnd 13 s (monthResult s.bist.slices (bistSlices s.member s.bist.month)) else s) := by
  rw [execBistMonthTimeout, live_eq hlive]
  simp only [hrun, Bool.and_eq_true, decide_eq_true_eq]

/-! ## The assembly test -/

/-- AIT_CTRL with its direction stored. -/
def State.aitStored (s : State) (d : W32) : State := s.setRf 0xB0080 0 0 (fld d 0 0)

/-- The assembly test at its first step, its results cleared. -/
def State.aitBegun (s : State) : State :=
  ({ s with bist := { s.bist with aitStep := 1, aitBad := [], aitScreen := false } } : State).each s.allMods fun s m => s.setRg64 (0xB0100 + 8 * m) 0

/-- What the clearing of the results leaves as it is. -/
theorem State.aitBegun_keeps (s : State) : s.aitBegun.bist = { s.bist with aitStep := 1, aitBad := [], aitScreen := false } ∧
    s.aitBegun.seq = s.seq ∧ s.aitBegun.mods = s.mods :=
  ⟨State.each_same (·.bist) (f := fun s m => s.setRg64 (0xB0100 + 8 * m) 0) (fun _ _ => rfl) _ _,
    State.each_same (·.seq) (f := fun s m => s.setRg64 (0xB0100 + 8 * m) 0) (fun _ _ => rfl) _ _,
    State.each_same (·.mods) (f := fun s m => s.setRg64 (0xB0100 + 8 * m) 0) (fun _ _ => rfl) _ _⟩

theorem State.writeAitCtrl_starts (hgo : bit d 31 = true) (hstep : s.bist.aitStep = 0) (hst : s.inReset = true ∨ s.trn.st = 0 ∨ s.trn.st = 6) :
    s.writeAitCtrl d = (s.aitStored d).aitBegun := by
  have hruns : ¬ (1 ≤ s.bist.aitStep ∧ s.bist.aitStep ≤ 3) := by omega
  have hallowed : (s.inReset || s.trn.st == 0 || s.trn.st == 6) = true := by
    rcases hst with h | h | h
    · rw [h]
      rfl
    · rw [h, beq_self_eq_true, Bool.or_true, Bool.true_or]
    · rw [h, beq_self_eq_true, Bool.or_true]
  refine if_pos ?_
  change (bit d 31 && !decide (1 ≤ s.bist.aitStep ∧ s.bist.aitStep ≤ 3) && (s.inReset || s.trn.st == 0 || s.trn.st == 6)) = true
  rw [hgo, decide_eq_false hruns, hallowed]
  rfl

theorem State.writeAitCtrl_trained (hlive : s.inReset = false) (hidle : s.trn.st ≠ 0) (hfailed : s.trn.st ≠ 6) : s.writeAitCtrl d = s.aitStored d := by
  refine if_neg ?_
  change ¬ (bit d 31 && !decide (1 ≤ s.bist.aitStep ∧ s.bist.aitStep ≤ 3) && (s.inReset || s.trn.st == 0 || s.trn.st == 6)) = true
  rw [hlive, beq_false_of_ne hidle, beq_false_of_ne hfailed, Bool.or_false, Bool.or_false, Bool.and_false]
  exact Bool.false_ne_true

theorem execAitStepComplete_eq (hr : aitWf r = true) : execAitStepComplete r s = .next (s.aitStepped r) := if_pos hr

theorem State.aitFound_early (h : s.bist.aitStep ≠ 3) : s.aitFound r = r.wires := by
  rw [State.aitFound, if_neg h, List.append_nil]

/-- The wires that a step found, with those before. -/
def State.aitNoted (s : State) (bad : List (Nat × Nat)) : State := { s with bist := { s.bist with aitBad := (s.bist.aitBad ++ bad).eraseDups } }

theorem State.aitStepped_early (h : s.bist.aitStep = 1 ∨ s.bist.aitStep = 2) :
    s.aitStepped r = (s.aitNoted r.wires).updBist fun b => { b with aitStep := s.bist.aitStep + 1 } := by
  rw [State.aitStepped, if_neg (by omega), if_neg (by omega), State.aitFound_early (by omega)]
  rfl

theorem State.aitStepped_last (h : s.bist.aitStep = 3) : s.aitStepped r = (s.aitNoted (s.aitFound r)).aitDone := by
  rw [State.aitStepped, if_neg (by omega), if_pos h]
  rfl

/-- The results of the receiver. -/
def State.aitResults (s : State) : State := s.each s.allMods fun s m => s.setRg64 (0xB0100 + 8 * m) (s.aitFailWord m)

theorem State.aitResults_keeps (s : State) : s.aitResults.bist = s.bist ∧ s.aitResults.mods = s.mods :=
  ⟨State.each_same (·.bist) (f := fun s m => s.setRg64 (0xB0100 + 8 * m) (s.aitFailWord m)) (fun _ _ => rfl) _ _,
    State.each_same (·.mods) (f := fun s m => s.setRg64 (0xB0100 + 8 * m) (s.aitFailWord m)) (fun _ _ => rfl) _ _⟩

/-- The judgement of the receiver, where the block receives. -/
def State.aitJudged (s : State) : State :=
  if s.rf 0xB0080 0 0 = 1 then s
  else s.aitResults.updBist fun b => { b with aitScreen := s.aitResults.allMods.any fun m => bit (s.aitResults.rg64 (0xB0100 + 8 * m)) 63 }

theorem State.aitJudged_keeps (s : State) : s.aitJudged.bist.aitBad = s.bist.aitBad ∧ s.aitJudged.mods = s.mods := by
  obtain ⟨hbist, hmods⟩ := s.aitResults_keeps
  unfold State.aitJudged
  by_cases hdir : s.rf 0xB0080 0 0 = 1
  · rw [if_pos hdir]
    exact ⟨rfl, rfl⟩
  · rw [if_neg hdir]
    have hbad := congrArg Bist.aitBad hbist
    exact ⟨hbad, hmods⟩

theorem State.aitDone_eq (s : State) : s.aitDone = (s.aitJudged.updBist fun b => { b with aitStep := 4 }).irq 5 := rfl

theorem State.aitDone_ends (s : State) : s.aitDone.bist.aitStep = 4 ∧ s.aitDone.bist.aitBad = s.bist.aitBad ∧ bit (s.aitDone.rg 0x30) 5 = true ∧
    s.aitDone.mods = s.mods := by
  obtain ⟨hbad, hmods⟩ := s.aitJudged_keeps
  rw [State.aitDone_eq]
  exact ⟨rfl, hbad, State.bit_irq _ (by decide), hmods⟩

/-! ## The settlement -/

/-- Settles O59: a demanded month, the slices and their ends, the time of a month, and the assembly test. -/
theorem selfTest : Obligations.SelfTest := by
  unfold Obligations.SelfTest
  intro s hlive
  refine ⟨fun d hready hgo hblank hrun hlow hhigh hsome => ?_, fun d hready hgo hclr hblank hno => ?_, fun d hready hgo hclr => ?_,
    execBistSliceStart_busy hlive, fun hcur hblank hrun hon hgap hsol hcands => ⟨fun henv => ?_, fun henv => ?_⟩, fun misr count month k demand hcur => ?_,
    fun m hrun => ⟨fun hdue => ?_, fun hearly => ?_⟩, fun hrun => ?_, fun d hready hgo hstep hst => ?_, fun d hready hidle hfailed => ?_,
    fun r hr hstep => ?_, fun r hr hstep => ?_⟩
  · refine ⟨_, portCmd_eq (f := (·.writeBistRun d)) hready (State.writeBistRun_starts (s := s.accessed) hgo hblank hrun hlow hhigh hsome), ?_⟩
    refine ⟨?_, ?_, ?_, ?_, ?_⟩
    · exact s.accessed.bist_monthBegun d _
    · exact s.accessed.month_monthStored d
    · exact s.accessed.gap_monthStored d
    · exact s.accessed.seq_monthStored d
    · exact s.accessed.mods_monthStored d
  · exact ⟨_, portCmd_eq (f := (·.writeBistRun d)) hready (State.writeBistRun_refused (s := s.accessed) hgo hblank hno),
      (s.accessed.monthStored d).bit_setBit_same 0xB0028 (by decide), s.accessed.bist_monthStored d⟩
  · exact ⟨_, portCmd_eq (f := (·.writeBistRun d)) hready (State.writeBistRun_stored (s := s.accessed) hgo), s.accessed.month_monthStored d,
      s.accessed.gap_monthStored d, s.accessed.bist_monthStored d⟩
  · refine ⟨_, _, (execBistSliceStart_due hlive hcur hblank hrun hon hgap hsol hcands).trans (congrArg Host.Outcome.next (if_neg ?_)), rfl, rfl⟩
    rw [henv]
    exact Bool.false_ne_true
  · exact (execBistSliceStart_due hlive hcur hblank hrun hon hgap hsol hcands).trans (by rw [henv]; rfl)
  · change execBistSliceEnd misr count s = _
    rw [execBistSliceEnd, live_eq hlive]
    simp only [hcur]
  · exact (execBistMonthTimeout_demanded hlive hrun).trans (congrArg Host.Outcome.next (if_pos hdue))
  · exact (execBistMonthTimeout_demanded hlive hrun).trans (congrArg Host.Outcome.next (if_neg (Nat.not_le.2 hearly)))
  · intro isDue
    refine ⟨fun hon hdue => ?_, fun hno => ?_⟩
    · exact (execBistMonthTimeout_own hlive hrun).trans (congrArg Host.Outcome.next (if_pos ⟨hon, hdue⟩))
    · refine (execBistMonthTimeout_own hlive hrun).trans (congrArg Host.Outcome.next (if_neg fun ⟨hon, hdue⟩ => ?_))
      exact hno.elim (fun hoff => Bool.false_ne_true (hoff.symm.trans hon)) fun hearly => hearly hdue
  · obtain ⟨hbist, hseq, hmods⟩ := (s.accessed.aitStored d).aitBegun_keeps
    exact ⟨_, portCmd_eq (f := (·.writeAitCtrl d)) hready (State.writeAitCtrl_starts (s := s.accessed) hgo hstep (.inr hst)),
      congrArg Bist.aitStep hbist, congrArg Bist.aitBad hbist, hseq, hmods⟩
  · exact portCmd_eq (f := (·.writeAitCtrl d)) hready (State.writeAitCtrl_trained (s := s.accessed) hlive hidle hfailed)
  · exact ⟨_, (execAitStepComplete_eq hr).trans (congrArg Host.Outcome.next (State.aitStepped_early hstep)), rfl, rfl, rfl, rfl⟩
  · obtain ⟨hend, hbad, hirq, hmods⟩ := (s.aitNoted (s.aitFound r)).aitDone_ends
    exact ⟨_, (execAitStepComplete_eq hr).trans (congrArg Host.Outcome.next (State.aitStepped_last hstep)), hend, hbad, hirq, hmods⟩

end

end Sys2Proof.Machine
end

section
/-! Error memories: rewrite, scrub and spare units (R497 to R507). -/
namespace Sys2Proof.Machine

section
variable {s : State}

/-! ## The log leaves the control of the scrub alone -/

theorem eccLogOff_ge (n k : Nat) : eccLogOff n + k ≠ 0xC0020 := by
  unfold eccLogOff
  omega

theorem eccLogOff_ne (n k : Nat) : eccLogOff n + k + 4 ≠ 0xC0020 := by
  unfold eccLogOff
  omega

theorem State.scrubCtl_eccJudge (s : State) (id n : Nat) (ue : Bool) : (s.eccJudge id n ue).rg 0xC0020 = s.rg 0xC0020 := by
  have hset : ∀ v : Nat, (s.setRf (eccLogOff n + 4) 30 29 v).rg 0xC0020 = s.rg 0xC0020 := fun v => s.rg_setRf_other _ _ v (eccLogOff_ge n 4)
  unfold State.eccJudge
  dsimp only
  split
  · exact hset 3
  · split
    · rw [State.rg_when_irq _ _ _ (by decide), State.rg_setBit_other _ _ (by decide), hset]
    · split
      · rfl
      · rfl

/-- A logged error: its counter and its bit. -/
def State.eccNoted (s : State) (ue : Bool) : State :=
  if ue then ((s.count32 0xC0010 1).setBit 0xC0004 1).when (bit (s.rg 0xC0000) 8) (·.irq 6) else (s.count32 0xC000C 1).setBit 0xC0004 0

theorem State.scrubCtl_eccNoted (s : State) (ue : Bool) : (s.eccNoted ue).rg 0xC0020 = s.rg 0xC0020 := by
  cases ue with
  | false => exact (State.rg_setBit_other _ _ (by decide)).trans (s.rg_count_other _ _ _ (by decide))
  | true => exact (State.rg_when_irq _ _ _ (by decide)).trans ((State.rg_setBit_other _ _ (by decide)).trans (s.rg_count_other _ _ _ (by decide)))

/-- An error counted in the entry that names its word. -/
def State.eccCounted (s : State) (n syn : Nat) : State :=
  ((s.count (eccLogOff n + 4) 15 0 1).setRf (eccLogOff n + 4) 23 16 syn).setRg64 (eccLogOff n + 0x10) (BitVec.ofNat 64 s.tick.num)

theorem State.scrubCtl_eccCounted (s : State) (n syn : Nat) : (s.eccCounted n syn).rg 0xC0020 = s.rg 0xC0020 := by
  rw [State.eccCounted, State.rg_setRg64_other _ _ (eccLogOff_ge n 0x10) (eccLogOff_ne n 0x10), State.rg_setRf_other _ _ _ _ (eccLogOff_ge n 4),
    State.rg_count_other _ _ _ _ (eccLogOff_ge n 4)]

/-- An error entered in a free entry. -/
def State.eccEntered (s : State) (id idx n syn : Nat) : State :=
  ((((s.setRg (eccLogOff n) (bf 32 31 28 id ||| bf 32 23 0 idx)).setRg (eccLogOff n + 4) (bf 32 31 31 1 ||| bf 32 23 16 syn ||| 1)).setRg64
    (eccLogOff n + 8) (BitVec.ofNat 64 s.tick.num)).setRg64 (eccLogOff n + 0x10) (BitVec.ofNat 64 s.tick.num)).hit (eccLogOff n + 4) 31 31 1

theorem State.rg_hit (s : State) (off hi lo n k : Nat) : (s.hit off hi lo n).rg k = s.rg k := rfl

theorem State.scrubCtl_eccEntered (s : State) (id idx n syn : Nat) : (s.eccEntered id idx n syn).rg 0xC0020 = s.rg 0xC0020 := by
  rw [State.eccEntered, State.rg_hit, State.rg_setRg64_other _ _ (eccLogOff_ge n 0x10) (eccLogOff_ne n 0x10),
    State.rg_setRg64_other _ _ (eccLogOff_ge n 8) (eccLogOff_ne n 8), State.rg_setRg_other _ _ (eccLogOff_ge n 4),
    State.rg_setRg_other _ _ (show eccLogOff n ≠ 0xC0020 from eccLogOff_ge n 0)]

/-- An error for which no entry is free. -/
def State.eccMissed (s : State) : State := ((s.count32 0xC0008 1).setBit 0xC0004 3).when (bit (s.rg 0xC0000) 10) (·.irq 6)

theorem State.scrubCtl_eccMissed (s : State) : s.eccMissed.rg 0xC0020 = s.rg 0xC0020 :=
  (State.rg_when_irq _ _ _ (by decide)).trans ((State.rg_setBit_other _ _ (by decide)).trans (s.rg_count_other _ _ _ (by decide)))

theorem State.eccLog_eq (s : State) (id idx syn : Nat) (ue : Bool) : s.eccLog id idx syn ue =
    (match (s.eccNoted ue).eccFind id idx with
    | some n => ((s.eccNoted ue).eccCounted n syn).eccJudge id n ue
    | none =>
      match (s.eccNoted ue).eccFree with
      | some n => ((s.eccNoted ue).eccEntered id idx n syn).eccJudge id n ue
      | none => (s.eccNoted ue).eccMissed) := rfl

theorem State.scrubCtl_eccLog (s : State) (id idx syn : Nat) (ue : Bool) : (s.eccLog id idx syn ue).rg 0xC0020 = s.rg 0xC0020 := by
  rw [s.eccLog_eq, ← s.scrubCtl_eccNoted ue]
  split
  · rw [State.scrubCtl_eccJudge, State.scrubCtl_eccCounted]
  · split
    · rw [State.scrubCtl_eccJudge, State.scrubCtl_eccEntered]
    · rw [State.scrubCtl_eccMissed]

theorem State.scrubCtl_eccRead (s : State) (id idx : Nat) : (s.eccRead id idx).2.rg 0xC0020 = s.rg 0xC0020 := by
  unfold State.eccRead
  dsimp only
  split
  · rfl
  · exact s.scrubCtl_eccLog ..

theorem State.rg_eccWritten (s : State) (id idx off : Nat) : (s.eccWritten id idx).rg off = s.rg off := by
  obtain ⟨u, hu⟩ := s.eccWritten_upset id idx
  rw [hu]
  rfl

/-! ## The rewrite of an entry -/

/-- The word that an entry names, written again. -/
def State.eccFixed (s : State) (n : Nat) : State := (s.eccWritten (s.rf (eccLogOff n) 31 28) (s.rf (eccLogOff n) 23 0)).setBit 0xC0004 4

theorem State.eccFixed_keeps (s : State) (n : Nat) : (s.eccFixed n).mods = s.mods ∧ (s.eccFixed n).pm = s.pm ∧
    (s.eccFixed n).rg 0xC0020 = s.rg 0xC0020 := by
  obtain ⟨u, hu⟩ := s.eccWritten_upset (s.rf (eccLogOff n) 31 28) (s.rf (eccLogOff n) 23 0)
  rw [State.eccFixed, hu]
  exact ⟨rfl, rfl, State.rg_setBit_other _ _ (by decide)⟩

theorem State.eccRewriteEntry_eq (s : State) (n : Nat) : s.eccRewriteEntry n = { (s.eccFixed n).setRf (eccLogOff n + 4) 30 29 1 with
    ecc := { (s.eccFixed n).ecc with pend := (s.eccFixed n).ecc.pend.filter (· != n) } } := rfl

/-- What the rewrite of an entry leaves. -/
theorem State.eccRewriteEntry_keeps (s : State) (n : Nat) : (s.eccRewriteEntry n).mods = s.mods ∧ (s.eccRewriteEntry n).pm = s.pm ∧
    (s.eccRewriteEntry n).rg 0xC0020 = s.rg 0xC0020 := by
  obtain ⟨hmods, hpm, hctl⟩ := s.eccFixed_keeps n
  rw [State.eccRewriteEntry_eq]
  exact ⟨hmods, hpm, ((s.eccFixed n).rg_setRf_other _ _ _ (eccLogOff_ge n 4)).trans hctl⟩

theorem State.eccRewriteEntry_effect (s : State) (n : Nat) : (s.eccRewriteEntry n).rf (eccLogOff n + 4) 30 29 = 1 ∧
    bit ((s.eccRewriteEntry n).rg 0xC0004) 4 = true ∧ (s.eccRewriteEntry n).ecc.pend.contains n = false := by
  have hoff : eccLogOff n + 4 ≠ 0xC0004 := by
    unfold eccLogOff
    omega
  have hbit : bit ((s.eccFixed n).rg 0xC0004) 4 = true := by
    rw [State.eccFixed]
    exact State.bit_setBit_same _ _ (by decide)
  rw [State.eccRewriteEntry_eq]
  refine ⟨(s.eccFixed n).rf_setRf_same _ _ (by decide) (by decide),
    (congrArg (bit · 4) ((s.eccFixed n).rg_setRf_other _ _ _ hoff)).trans hbit, Bool.eq_false_iff.2 fun h => ?_⟩
  have hmem := List.mem_filter.1 (List.contains_iff_mem.1 h)
  exact absurd hmem.2 (by rw [bne_self_eq_false]; exact Bool.false_ne_true)

theorem State.scrubCtl_scrubWord (s : State) (id idx : Nat) : (s.scrubWord id idx).rg 0xC0020 = s.rg 0xC0020 := by
  have hread : ∀ off, 0xC0020 ≠ off → ((s.eccRead id idx).2.count32 off 1).rg 0xC0020 = s.rg 0xC0020 := fun off hoff =>
    (State.rg_count_other _ _ _ _ hoff.symm).trans (s.scrubCtl_eccRead id idx)
  have hfixed : (((s.eccRead id idx).2.count32 0xC0030 1).eccWritten id idx |>.setBit 0xC0004 4).rg 0xC0020 = s.rg 0xC0020 :=
    (State.rg_setBit_other _ _ (by decide)).trans ((State.rg_eccWritten ..).trans (hread 0xC0030 (by decide)))
  unfold State.scrubWord
  dsimp only
  split
  · rfl
  · split
    · exact hread 0xC0034 (by decide)
    · split
      · split
        · exact (State.eccRewriteEntry_keeps _ _).2.2.trans (hread 0xC0030 (by decide))
        · exact hfixed
      · exact hfixed

/-! ## The GO of a scrub -/

/-- A field is the same where its bits are. -/
theorem fld_congr {a b : W32} {hi lo : Nat} (h : ∀ i, lo ≤ i → i ≤ hi → bit a i = bit b i) (hlo : lo ≤ hi) : fld a hi lo = fld b hi lo := by
  refine Nat.eq_of_testBit_eq fun i => ?_
  rw [fld_testBit, fld_testBit]
  by_cases hi' : i < hi - lo + 1
  · rw [show a.getLsbD (lo + i) = b.getLsbD (lo + i) from h (lo + i) (by omega) (by omega)]
  · rw [decide_eq_false hi', Bool.false_and, Bool.false_and]

/-- Clearing REFUSED leaves the state of the scrub. -/
theorem fld_clrRefused (w : W32) : fld (w &&& ~~~0x10000000) 30 29 = fld w 30 29 := by
  refine fld_congr (fun i hlo hhi => ?_) (by decide)
  rw [bit_and]
  obtain rfl | rfl : i = 29 ∨ i = 30 := by omega
  · exact Bool.and_true _
  · exact Bool.and_true _

/-- SCRUB_CTL with the memory and the gap of a write. -/
def State.scrubStored (s : State) (d : W32) : State :=
  ((s.when (bit d 28) (·.clrBits 0xC0020 0x10000000)).setRf 0xC0020 27 24 (fld d 27 24)).setRf 0xC0020 15 8 (max 1 (fld d 15 8))

/-- What the stored fields of SCRUB_CTL leave as it is. -/
theorem State.scrubStored_same {β : Type} (p : State → β) (hclr : p (s.clrBits 0xC0020 0x10000000) = p s)
    (hset : ∀ (v : State) hi lo n, p (v.setRf 0xC0020 hi lo n) = p v) (d : W32) : p (s.scrubStored d) = p s :=
  (hset _ _ _ _).trans ((hset _ _ _ _).trans (State.when_same p (f := (·.clrBits 0xC0020 0x10000000)) s hclr _))

theorem State.ecc_scrubStored (s : State) (d : W32) : (s.scrubStored d).ecc = s.ecc :=
  State.scrubStored_same (·.ecc) rfl (fun _ _ _ _ => rfl) d

theorem State.now_scrubStored (s : State) (d : W32) : (s.scrubStored d).now = s.now :=
  State.scrubStored_same (·.now) rfl (fun _ _ _ _ => rfl) d

theorem State.rg_scrubStored_other (s : State) (d : W32) {off : Nat} (h : off ≠ 0xC0020) : (s.scrubStored d).rg off = s.rg off :=
  State.scrubStored_same (·.rg off) (s.rg_setRg_other _ h.symm) (fun v hi lo n => v.rg_setRf_other hi lo n h.symm) d

theorem State.gap_scrubStored (s : State) (d : W32) : (s.scrubStored d).rf 0xC0020 15 8 = max 1 (fld d 15 8) := by
  have hlt := fld_lt d 15 8
  exact (State.rf_setRf_same _ _ _ (by decide) (by decide)).trans (Nat.mod_eq_of_lt (by omega))

theorem State.state_scrubStored (s : State) (d : W32) : (s.scrubStored d).rf 0xC0020 30 29 = s.rf 0xC0020 30 29 := by
  refine (State.rf_setRf_apart _ _ _ (by decide) (by decide) (by decide) (.inr (by decide))).trans ?_
  refine (State.rf_setRf_apart _ _ _ (by decide) (by decide) (by decide) (.inr (by decide))).trans ?_
  refine State.when_same (·.rf 0xC0020 30 29) (f := (·.clrBits 0xC0020 0x10000000)) s ?_ _
  exact (State.rf_setRg_same _ _ _ _ _).trans (fld_clrRefused _)

/-- The scrub's position at its start, with its counts cleared. -/
def State.scrubPlaced (s : State) : State :=
  ((((s.setRg 0xC002C (bf 32 23 0 (s.rf 0xC0024 23 0))).setRg 0xC0030 0).setRg 0xC0034 0).setRf 0xC0020 30 29 2).setRf 0xC0020 6 0 0

/-- The scrub that has nothing to read is over. -/
def State.scrubOver (s : State) : State := (s.setRf 0xC0020 30 29 1).setRf 0xC0020 6 0 100

/-- The scrub under way. -/
def State.scrubBegun (s : State) (r : Nat × Nat × Nat) : State := { s with ecc := { s.ecc with scrub := some r, nextAt := s.now } }

theorem State.rg_scrubBegun (s : State) (r : Nat × Nat × Nat) (off : Nat) : ((s.scrubBegun r).cfgAnswer 32 0).rg off = s.rg off := rfl

theorem State.writeScrubCtl_go (s : State) {d : W32} (hgo : bit d 31 = true) : s.writeScrubCtl d =
    if (s.scrubStored d).ecc.scrub.isSome || fld d 27 24 = 0xA || fld d 27 24 = 0xB then (s.scrubStored d).setBit 0xC0020 28
    else if (s.scrubStored d).rf 0xC0028 23 0 = 0 then (s.scrubStored d).scrubPlaced.scrubOver
    else (s.scrubStored d).scrubPlaced.scrubBegun (fld d 27 24, (s.scrubStored d).rf 0xC0024 23 0, (s.scrubStored d).rf 0xC0028 23 0) := by
  refine (if_neg ?_).trans rfl
  rw [hgo]
  exact Bool.false_ne_true

theorem State.writeScrubCtl_refused {d : W32} (hgo : bit d 31 = true) (h : s.ecc.scrub ≠ none ∨ fld d 27 24 = 0xA ∨ fld d 27 24 = 0xB) :
    s.writeScrubCtl d = (s.scrubStored d).setBit 0xC0020 28 := by
  refine (s.writeScrubCtl_go hgo).trans (if_pos ?_)
  rw [s.ecc_scrubStored d]
  rcases h with h | h | h
  · rw [Option.isSome_iff_ne_none.2 h]
    rfl
  · rw [decide_eq_true h, Bool.or_true, Bool.true_or]
  · rw [decide_eq_true h, Bool.or_true]

theorem State.writeScrubCtl_taken {d : W32} (hgo : bit d 31 = true) (hidle : s.ecc.scrub = none) (hA : fld d 27 24 ≠ 0xA) (hB : fld d 27 24 ≠ 0xB) :
    s.writeScrubCtl d = if s.rf 0xC0028 23 0 = 0 then (s.scrubStored d).scrubPlaced.scrubOver
      else (s.scrubStored d).scrubPlaced.scrubBegun (fld d 27 24, s.rf 0xC0024 23 0, s.rf 0xC0028 23 0) := by
  have hcount : (s.scrubStored d).rf 0xC0028 23 0 = s.rf 0xC0028 23 0 := congrArg (fld · 23 0) (s.rg_scrubStored_other d (by decide))
  have hstart : (s.scrubStored d).rf 0xC0024 23 0 = s.rf 0xC0024 23 0 := congrArg (fld · 23 0) (s.rg_scrubStored_other d (by decide))
  refine (s.writeScrubCtl_go hgo).trans ((if_neg ?_).trans (by rw [hcount, hstart]))
  rw [s.ecc_scrubStored d, hidle, decide_eq_false hA, decide_eq_false hB]
  exact Bool.false_ne_true

/-- What the placed scrub shows. -/
theorem State.scrubPlaced_effect (s : State) : s.scrubPlaced.rf 0xC0020 15 8 = s.rf 0xC0020 15 8 ∧
    s.scrubPlaced.rf 0xC002C 23 0 = s.rf 0xC0024 23 0 ∧ s.scrubPlaced.rg 0xC0030 = 0 ∧ s.scrubPlaced.rg 0xC0034 = 0 ∧
    s.scrubPlaced.rf 0xC0020 30 29 = 2 ∧ s.scrubPlaced.rf 0xC0020 6 0 = 0 := by
  have hother : ∀ {off : Nat}, 0xC0020 ≠ off → s.scrubPlaced.rg off =
      (((s.setRg 0xC002C (bf 32 23 0 (s.rf 0xC0024 23 0))).setRg 0xC0030 0).setRg 0xC0034 0).rg off := fun h =>
    (State.rg_setRf_other _ _ _ _ h).trans (State.rg_setRf_other _ _ _ _ h)
  have hctl : (((s.setRg 0xC002C (bf 32 23 0 (s.rf 0xC0024 23 0))).setRg 0xC0030 0).setRg 0xC0034 0).rg 0xC0020 = s.rg 0xC0020 :=
    (State.rg_setRg_other _ _ (by decide)).trans ((State.rg_setRg_other _ _ (by decide)).trans (s.rg_setRg_other _ (by decide)))
  refine ⟨?_, ?_, ?_, ?_, ?_, ?_⟩
  · refine (State.rf_setRf_apart _ _ _ (by decide) (by decide) (by decide) (.inr (by decide))).trans ?_
    exact (State.rf_setRf_apart _ _ _ (by decide) (by decide) (by decide) (.inl (by decide))).trans (congrArg (fld · 15 8) hctl)
  · rw [State.rf, hother (by decide), State.rg_setRg_other _ _ (by decide), State.rg_setRg_other _ _ (by decide), State.rg_setRg_same,
      fld_bf_same _ (by decide) (by decide)]
    exact Nat.mod_eq_of_lt (fld_lt _ 23 0)
  · rw [hother (by decide), State.rg_setRg_other _ _ (by decide), State.rg_setRg_same]
  · rw [hother (by decide), State.rg_setRg_same]
  · refine (State.rf_setRf_apart _ _ _ (by decide) (by decide) (by decide) (.inr (by decide))).trans ?_
    exact State.rf_setRf_same _ _ _ (by decide) (by decide)
  · exact State.rf_setRf_same _ _ _ (by decide) (by decide)

/-- What the end of a scrub shows. -/
theorem State.scrubOver_effect (s : State) : s.scrubOver.rf 0xC0020 15 8 = s.rf 0xC0020 15 8 ∧ s.scrubOver.rf 0xC0020 30 29 = 1 ∧
    s.scrubOver.rf 0xC0020 6 0 = 100 ∧ (∀ off, 0xC0020 ≠ off → s.scrubOver.rg off = s.rg off) := by
  refine ⟨?_, ?_, ?_, fun off h => (State.rg_setRf_other _ _ _ _ h).trans (State.rg_setRf_other _ _ _ _ h)⟩
  · refine (State.rf_setRf_apart _ _ _ (by decide) (by decide) (by decide) (.inr (by decide))).trans ?_
    exact State.rf_setRf_apart _ _ _ (by decide) (by decide) (by decide) (.inl (by decide))
  · refine (State.rf_setRf_apart _ _ _ (by decide) (by decide) (by decide) (.inr (by decide))).trans ?_
    exact State.rf_setRf_same _ _ _ (by decide) (by decide)
  · exact State.rf_setRf_same _ _ _ (by decide) (by decide)

/-! ## The reads of a scrub -/

/-- A word of the scrub, and the time of the next. -/
def State.scrubMoved (s : State) (id pos : Nat) : State :=
  let u := (s.scrubWord id (s.physWord id pos)).setRg 0xC002C (bf 32 23 0 (pos + 1))
  { u with ecc := { u.ecc with nextAt := u.now + u.rf 0xC0020 15 8 } }

/-- The progress that the scrub shows. -/
def State.scrubShown (s : State) (pos : Nat) : State :=
  s.setRf 0xC0020 6 0 (min 99 (100 * (pos + 1 - s.rf 0xC0024 23 0) / max 1 (s.rf 0xC0028 23 0)))

theorem execScrubRead_due {id pos left : Nat} (hlive : s.inReset = false) (hs : s.ecc.scrub = some (id, pos, left)) (hdue : s.ecc.nextAt ≤ s.now) :
    execScrubRead s = .next (if left ≤ 1 then { (s.scrubMoved id pos).scrubOver with ecc := { (s.scrubMoved id pos).ecc with scrub := none } }
      else { (s.scrubMoved id pos).scrubShown pos with ecc := { (s.scrubMoved id pos).ecc with scrub := some (id, pos + 1, left - 1) } }) := by
  rw [execScrubRead, live_eq hlive]
  simp only [hs, if_neg (Nat.not_lt.2 hdue)]
  rfl

/-- What a read of the scrub leaves. -/
theorem State.scrubMoved_effect (s : State) (id pos : Nat) : (s.scrubMoved id pos).rg 0xC002C = BitVec.ofNat 32 ((pos + 1) % 2 ^ 24) ∧
    (s.scrubMoved id pos).ecc.nextAt = s.now + s.rf 0xC0020 15 8 ∧ (s.upsetAt id (s.physWord id pos) = 0 →
      (s.scrubMoved id pos).rg 0xC0030 = s.rg 0xC0030 ∧ (s.scrubMoved id pos).rg 0xC0034 = s.rg 0xC0034) := by
  refine ⟨?_, ?_, fun hclean => ?_⟩
  · exact (State.rg_setRg_same _ _ _).trans rfl
  · have hnow : (s.scrubWord id (s.physWord id pos)).now = s.now := congrArg Env.now (s.scrubWord_kept id _).env
    have hctl : ((s.scrubWord id (s.physWord id pos)).setRg 0xC002C (bf 32 23 0 (pos + 1))).rf 0xC0020 15 8 = s.rf 0xC0020 15 8 :=
      congrArg (fld · 15 8) ((State.rg_setRg_other _ _ (by decide)).trans (s.scrubCtl_scrubWord id _))
    exact congr (congrArg (· + ·) hnow) hctl
  · have hword : s.scrubWord id (s.physWord id pos) = s := if_pos hclean
    unfold State.scrubMoved
    rw [hword]
    exact ⟨s.rg_setRg_other _ (by decide), s.rg_setRg_other _ (by decide)⟩

/-! ## Spare units -/

theorem execSpareUnitReplace_named {k : Nat} (hlive : s.inReset = false)
    (h : s.ecc.retire.contains (fld (s.rg (0xC0080 + 4 * k)) 27 24, fld (s.rg (0xC0080 + 4 * k)) 19 0) = true) :
    let u := (fld (s.rg (0xC0080 + 4 * k)) 27 24, fld (s.rg (0xC0080 + 4 * k)) 19 0)
    execSpareUnitReplace k s = .next (
      if u.1 = 7 then { s with ecc := { s.ecc with retire := s.ecc.retire.filter (· != u), spStage := s.ecc.spStage ++ [u.2] } }
      else if !s.trainRuns then s
      else { s with ecc := { s.ecc with retire := s.ecc.retire.filter (· != u), spRx := s.ecc.spRx ++ [u.2] } }) := by
  intro u
  rw [execSpareUnitReplace, live_eq hlive]
  exact congrArg Host.Outcome.next (if_neg (by rw [h]; exact Bool.false_ne_true))

theorem execSpareUnitReplace_unnamed {k : Nat} (hlive : s.inReset = false)
    (h : s.ecc.retire.contains (fld (s.rg (0xC0080 + 4 * k)) 27 24, fld (s.rg (0xC0080 + 4 * k)) 19 0) = false) : execSpareUnitReplace k s = .next s := by
  rw [execSpareUnitReplace, live_eq hlive]
  exact congrArg Host.Outcome.next (if_pos (by rw [h]; rfl))

theorem State.physWord_spared {id unit i j top : Nat} {units : List Nat} (hsp : s.spared id = (units, top)) (hi : i < 512)
    (hj : units.findIdx? (· == unit) = some j) : s.physWord id (512 * unit + i) = (top + j) * 512 + i := by
  have hdiv : (512 * unit + i) / 512 = unit := by omega
  have hmod : (512 * unit + i) % 512 = i := by omega
  unfold State.physWord
  rw [hsp]
  simp only [hdiv, hj, hmod]

/-! ## The settlement -/

/-- Settles O58: the rewrite, the scrub's GO and its reads, and the spare units. -/
theorem errorMemory : Obligations.ErrorMemory := by
  unfold Obligations.ErrorMemory
  intro s hlive
  refine ⟨fun n hpend hvalid => ?_, fun n hpend => ?_, fun n _ => ?_, fun d hready hgo hidle hA hB => ?_, fun d hready hgo hno => ?_, fun hidle => ?_,
    fun id pos left hs => ⟨fun hearly => ?_, fun hdue => ?_⟩, fun k d hk hready hv => ?_, fun k d hk hready hv => ?_,
    fun k u hu => ⟨fun hno => ?_, fun hyes => ⟨fun h7 => ?_, fun h7 htr => ?_, fun h7 htr => ?_⟩⟩,
    fun j unit i hi hj => State.physWord_spared (id := 7) (top := 1024) rfl hi hj, fun j unit i hi hj => State.physWord_spared (id := 8) (top := 896) rfl hi hj⟩
  · change execEccRewrite n s = _
    rw [execEccRewrite, live_eq hlive, hpend, hvalid]
    rfl
  · change execEccRewrite n s = _
    rw [execEccRewrite, live_eq hlive, hpend]
    rfl
  · intro t
    obtain ⟨hstate, hbit, hpend⟩ := s.eccRewriteEntry_effect n
    obtain ⟨hmods, hpm, _⟩ := s.eccRewriteEntry_keeps n
    exact ⟨hstate, hbit, hpend, hmods, hpm⟩
  · have heq := State.writeScrubCtl_taken (s := s.accessed) hgo hidle hA hB
    obtain ⟨hgap, hpos, hce, hue, hst, hprog⟩ := (s.accessed.scrubStored d).scrubPlaced_effect
    have hstart : (s.accessed.scrubStored d).rf 0xC0024 23 0 = s.rf 0xC0024 23 0 := congrArg (fld · 23 0) (s.accessed.rg_scrubStored_other d (by decide))
    by_cases hcount : s.rf 0xC0028 23 0 = 0
    · obtain ⟨hgap', hst', hprog', hother⟩ := (s.accessed.scrubStored d).scrubPlaced.scrubOver_effect
      refine ⟨_, portCmd_eq (f := (·.writeScrubCtl d)) hready (heq.trans (if_pos hcount)), ?_, ?_, ?_, ?_, fun h => absurd hcount h, fun _ => ⟨?_, hst', hprog'⟩⟩
      · exact hgap'.trans (hgap.trans (s.accessed.gap_scrubStored d))
      · exact (congrArg (fld · 23 0) (hother 0xC002C (by decide))).trans (hpos.trans hstart)
      · exact (hother 0xC0030 (by decide)).trans hce
      · exact (hother 0xC0034 (by decide)).trans hue
      · exact (congrArg Ecc.scrub (s.accessed.ecc_scrubStored d)).trans hidle
    · have hshow := (s.accessed.scrubStored d).scrubPlaced.rg_scrubBegun (fld d 27 24, s.rf 0xC0024 23 0, s.rf 0xC0028 23 0)
      refine ⟨_, portCmd_eq (f := (·.writeScrubCtl d)) hready (heq.trans (if_neg hcount)), ?_, ?_, (hshow 0xC0030).trans hce, (hshow 0xC0034).trans hue,
        fun _ => ⟨rfl, s.accessed.now_scrubStored d, ?_, ?_⟩, fun h => absurd h hcount⟩
      · exact (congrArg (fld · 15 8) (hshow 0xC0020)).trans (hgap.trans (s.accessed.gap_scrubStored d))
      · exact (congrArg (fld · 23 0) (hshow 0xC002C)).trans (hpos.trans hstart)
      · exact (congrArg (fld · 30 29) (hshow 0xC0020)).trans hst
      · exact (congrArg (fld · 6 0) (hshow 0xC0020)).trans hprog
  · refine ⟨_, portCmd_eq (f := (·.writeScrubCtl d)) hready (State.writeScrubCtl_refused (s := s.accessed) hgo hno), ?_, s.accessed.ecc_scrubStored d, ?_, ?_⟩
    · exact (s.accessed.scrubStored d).bit_setBit_same 0xC0020 (by decide)
    · exact ((s.accessed.scrubStored d).rf_setBit_apart 0xC0020 (by decide) (by decide) (.inr (by decide))).trans (s.accessed.state_scrubStored d)
    · exact fun o ho => ((s.accessed.scrubStored d).rg_setBit_other _ ho.symm).trans (s.accessed.rg_scrubStored_other d ho)
  · change execScrubRead s = _
    rw [execScrubRead, live_eq hlive]
    simp only [hidle]
  · change execScrubRead s = _
    rw [execScrubRead, live_eq hlive]
    simp only [hs, if_pos hearly]
  · obtain ⟨hpos, hnext, hclean⟩ := s.scrubMoved_effect id pos
    by_cases hleft : left ≤ 1
    · obtain ⟨_, hst, hprog, hother⟩ := (s.scrubMoved id pos).scrubOver_effect
      refine ⟨_, (execScrubRead_due hlive hs hdue).trans (congrArg Host.Outcome.next (if_pos hleft)), (hother _ (by decide)).trans hpos,
        fun _ => ⟨rfl, hst, hprog⟩, fun h => absurd hleft (Nat.not_le.2 h), fun hzero => ⟨?_, ?_⟩⟩
      · exact (hother 0xC0030 (by decide)).trans (hclean hzero).1
      · exact (hother 0xC0034 (by decide)).trans (hclean hzero).2
    · refine ⟨_, (execScrubRead_due hlive hs hdue).trans (congrArg Host.Outcome.next (if_neg hleft)), ?_, fun h => absurd h hleft,
        fun _ => ⟨rfl, hnext⟩, fun hzero => ⟨?_, ?_⟩⟩
      · exact ((s.scrubMoved id pos).rg_setRf_other _ _ _ (by decide)).trans hpos
      · exact ((s.scrubMoved id pos).rg_setRf_other _ _ _ (by decide)).trans (hclean hzero).1
      · exact ((s.scrubMoved id pos).rg_setRf_other _ _ _ (by decide)).trans (hclean hzero).2
  · refine (portCmdWf_ready (decide_eq_true hk) hready _).trans ?_
    rw [State.writeEccRetire, hv]
    rfl
  · refine (portCmdWf_ready (decide_eq_true hk) hready _).trans ?_
    rw [State.writeEccRetire, hv]
    rfl
  · exact execSpareUnitReplace_unnamed hlive (hu ▸ hno)
  · subst hu
    exact (execSpareUnitReplace_named hlive hyes).trans (congrArg Host.Outcome.next (if_pos h7))
  · subst hu
    exact (execSpareUnitReplace_named hlive hyes).trans (congrArg Host.Outcome.next ((if_neg h7).trans (if_pos (by rw [htr]; rfl))))
  · subst hu
    exact (execSpareUnitReplace_named hlive hyes).trans (congrArg Host.Outcome.next ((if_neg h7).trans (if_neg (by rw [htr]; exact Bool.false_ne_true))))

end

end Sys2Proof.Machine
end

section
/-! The test wrapper (R576, R595). -/
namespace Sys2Proof.Machine

section
variable {s : State} {d ctrl cfg : W32} {dr : W64}

/-! ## The data register of an access -/

/-- The answer of an access: its offset and direction, what was read, and done. -/
def accessWord (dr : W64) (v : W32) : W64 := bf 64 20 0 (fld dr 20 0) ||| bf 64 52 21 v.toNat ||| bf 64 63 63 1

theorem accessWord_fields (dr : W64) (v : W32) :
    fld (accessWord dr v) 20 0 = fld dr 20 0 ∧ fld (accessWord dr v) 52 21 = v.toNat ∧ bit (accessWord dr v) 63 = true := by
  refine ⟨?_, ?_, ?_⟩
  · rw [accessWord, fld_or, fld_or, fld_bf_same _ (by decide) (by decide), fld_bf_apart _ (.inl (by decide)) (by decide) (by decide),
      fld_bf_apart _ (.inl (by decide)) (by decide) (by decide), Nat.or_zero, Nat.or_zero]
    exact Nat.mod_eq_of_lt (fld_lt dr 20 0)
  · rw [accessWord, fld_or, fld_or, fld_bf_apart _ (.inr (by decide)) (by decide) (by decide), fld_bf_same _ (by decide) (by decide),
      fld_bf_apart _ (.inl (by decide)) (by decide) (by decide), Nat.zero_or, Nat.or_zero]
    exact Nat.mod_eq_of_lt v.isLt
  · have hdone : bit (bf 64 63 63 1 : W64) 63 = true := by decide
    rw [accessWord]
    exact (BitVec.getLsbD_or ..).trans ((congrArg (Bool.or _) hdone).trans (Bool.or_true _))

/-- The state after an access whose result is known. -/
def State.accessDone (s : State) (w : W64) : State := (s.updBist fun b => { b with dr := w, wait := none }).wrapOut [w]

theorem State.wrapAccess_write (h : bit dr 20 = true) : s.wrapAccess dr =
    (s.portWrite (fld dr 19 0 / 4 * 4) (BitVec.ofNat 32 (fld dr 52 21))).accessDone (accessWord dr 0) := by
  unfold State.wrapAccess
  simp only [if_pos h] <;> rfl

theorem State.wrapAccess_read (h : bit dr 20 = false) : s.wrapAccess dr =
    (s.portRead (fld dr 19 0 / 4 * 4)).2.accessDone (accessWord dr (s.portRead (fld dr 19 0 / 4 * 4)).1) := by
  unfold State.wrapAccess
  simp only [if_neg (Bool.eq_false_iff.1 h)] <;> rfl

/-- What the answer of an access leaves as it is. -/
theorem State.accessDone_keeps (s : State) (w : W64) : (∀ k, (s.accessDone w).rg k = s.rg k) ∧ (s.accessDone w).regs = s.regs ∧
    (s.accessDone w).shadow = s.shadow ∧ (s.accessDone w).seq = s.seq ∧ (s.accessDone w).mods = s.mods ∧ (s.accessDone w).bist.dr = w ∧
    (s.accessDone w).bist.wait = none := ⟨fun _ => rfl, rfl, rfl, rfl, rfl, rfl, rfl⟩

theorem execCfgAccess_live (h : s.inReset = false) : execCfgAccess dr s = .next ((s.setWir 0x08).wrapAccess dr) :=
  congrArg Host.Outcome.next (if_neg (Bool.eq_false_iff.1 h))

theorem execCfgAccess_held (h : s.inReset = true) : execCfgAccess dr s =
    .next ((s.setWir 0x08).updBist fun b => { b with dr := dr &&& 0x7FFFFFFFFFFFFFFF, wait := some dr }) :=
  congrArg Host.Outcome.next (if_pos h)

/-- A read of a word that no memory holds, between the reads of the port. -/
theorem State.portRead_selected (hstop : s.seq.stopReq = none) (hlatch : s.portRd = none) {o : Nat} (hm : merges o = false) (hmem : memWords o = []) :
    ((s.setWir 0x08).portRead o).1 = ({ s with bist := { s.bist with wir := 0x08 }, portWr := none } : State).viewWord o ∧
    ((s.setWir 0x08).portRead o).2.regs = s.regs ∧ ((s.setWir 0x08).portRead o).2.mods = s.mods := by
  have hview : (s.setWir 0x08).accessed = { s with bist := { s.bist with wir := 0x08 }, portWr := none } :=
    congrArg (fun x => ({ s with bist := { s.bist with wir := 0x08 }, portRd := x, portWr := none } : State)) hlatch.symm
  rw [State.portRead_plain (s := s.setWir 0x08) hstop hlatch hm hmem, hview]
  dsimp only
  refine ⟨rfl, ?_⟩
  split
  · exact ⟨rfl, rfl⟩
  · exact ⟨rfl, rfl⟩

/-! ## The assembly test -/

/-- AIT_CFG takes its fields. -/
theorem State.writeAitCfg_fields (s : State) (cfg : W32) :
    (s.writeAitCfg cfg).rf 0xB0084 3 0 = min (fld cfg 3 0) (maxRate s.member) ∧ (s.writeAitCfg cfg).rf 0xB0084 13 8 = fld cfg 13 8 ∧
    (s.writeAitCfg cfg).rf 0xB0084 31 16 = fld cfg 31 16 := by
  have hrate := fld_lt cfg 3 0
  unfold State.writeAitCfg
  refine ⟨?_, ?_, ?_⟩
  · rw [State.rf_setRg_same, fld_or, fld_or, fld_bf_same _ (by decide) (by decide), fld_bf_apart _ (.inl (by decide)) (by decide) (by decide),
      fld_bf_apart _ (.inl (by decide)) (by decide) (by decide), Nat.or_zero, Nat.or_zero]
    exact Nat.mod_eq_of_lt (by omega)
  · rw [State.rf_setRg_same, fld_or, fld_or, fld_bf_apart _ (.inr (by decide)) (by decide) (by decide), fld_bf_same _ (by decide) (by decide),
      fld_bf_apart _ (.inl (by decide)) (by decide) (by decide), Nat.zero_or, Nat.or_zero]
    exact Nat.mod_eq_of_lt (fld_lt cfg 13 8)
  · rw [State.rf_setRg_same, fld_or, fld_or, fld_bf_apart _ (.inr (by decide)) (by decide) (by decide),
      fld_bf_apart _ (.inr (by decide)) (by decide) (by decide), fld_bf_same _ (by decide) (by decide), Nat.zero_or, Nat.zero_or]
    exact Nat.mod_eq_of_lt (fld_lt cfg 31 16)

theorem State.writeAitCtrl_stored (h : bit ctrl 31 = false) : s.writeAitCtrl ctrl = s.aitStored ctrl := by
  refine if_neg ?_
  rw [h]
  exact Bool.false_ne_true

theorem State.rf_aitStored (s : State) (ctrl : W32) : (s.aitStored ctrl).rf 0xB0080 0 0 = fld ctrl 0 0 ∧
    (s.aitStored ctrl).rg 0xB0084 = s.rg 0xB0084 :=
  ⟨(State.rf_setRf_same _ _ _ (by decide) (by decide)).trans (Nat.mod_eq_of_lt (fld_lt ctrl 0 0)), s.rg_setRf_other _ _ _ (by decide)⟩

theorem State.rg_aitBegun (s : State) {off : Nat} (h : off < 0xB0100) : s.aitBegun.rg off = s.rg off :=
  (State.each_same (·.rg off) (f := fun s m => s.setRg64 (0xB0100 + 8 * m) 0) (fun v m => v.rg_setRg64_other _ (by omega) (by omega)) _ _).trans rfl

/-- AIT_CFG and then AIT_CTRL, under the wrapper's instruction. -/
def State.aitConfigured (s : State) (ctrl cfg : W32) : State := ((s.setWir 0x09).writeAitCfg cfg).aitStored ctrl

theorem State.aitConfigured_fields (s : State) (ctrl cfg : W32) :
    (s.aitConfigured ctrl cfg).rf 0xB0084 3 0 = min (fld cfg 3 0) (maxRate s.member) ∧
    (s.aitConfigured ctrl cfg).rf 0xB0084 13 8 = fld cfg 13 8 ∧ (s.aitConfigured ctrl cfg).rf 0xB0084 31 16 = fld cfg 31 16 ∧
    (s.aitConfigured ctrl cfg).rf 0xB0080 0 0 = fld ctrl 0 0 := by
  obtain ⟨hctrl, hcfg⟩ := ((s.setWir 0x09).writeAitCfg cfg).rf_aitStored ctrl
  obtain ⟨hrate, hdwell, hmax⟩ := (s.setWir 0x09).writeAitCfg_fields cfg
  exact ⟨(congrArg (fld · 3 0) hcfg).trans hrate, (congrArg (fld · 13 8) hcfg).trans hdwell, (congrArg (fld · 31 16) hcfg).trans hmax, hctrl⟩

/-- The state with its data register shifted out. -/
theorem State.wrapOut_keeps (s : State) (ws : List W64) : (s.wrapOut ws).bist = { s.bist with wso := (s.wrapOut ws).bist.wso } ∧
    (∀ k, (s.wrapOut ws).rg k = s.rg k) ∧ (s.wrapOut ws).mods = s.mods ∧ (s.wrapOut ws).out = s.out ++ [.wrapper ws] :=
  ⟨rfl, fun _ => rfl, rfl, rfl⟩

/-! ## The self test -/

theorem State.viewWord_bistRun (s : State) : s.viewWord 0xB0028 = s.rg 0xB0028 ||| bf 32 31 31 (b2n s.bist.run.isSome) := by
  unfold State.viewWord
  rw [show sweptOff 0xB0028 = false by decide, Bool.and_false]
  rfl

theorem State.viewWord_wrapOut (s : State) (ws : List W64) : (s.wrapOut ws).viewWord 0xB0028 = s.viewWord 0xB0028 :=
  (s.wrapOut ws).viewWord_bistRun.trans s.viewWord_bistRun.symm

theorem State.out_monthStored (s : State) (d : W32) : (s.monthStored d).out = s.out :=
  State.monthStored_same (·.out) (fun _ => rfl) (fun _ _ _ _ => rfl) s d

/-! ## The settlement -/

/-- Settles O60: the registers that each instruction selects, the access of the window, and the assembly and self tests. -/
theorem wrapperResults : Obligations.WrapperResults := by
  unfold Obligations.WrapperResults
  intro s
  refine ⟨⟨_, _, rfl⟩, ⟨_, _, rfl⟩, ⟨_, _, rfl⟩, fun dr => execCfgAccess_held, fun dr hlive hwrite => ?_, fun dr hlive hread hstop hlatch hm hmem => ?_,
    fun ctrl cfg hgo => ?_, fun ctrl cfg hgo hstep hst => ?_, ⟨_, rfl, rfl, rfl, rfl⟩, fun d hgo => ?_, fun d hgo hblank hrun hlow hhigh hsome => ?_⟩
  · obtain ⟨hrg, _, hshadow, hseq, hmods, hdr, hwait⟩ :=
      ((s.setWir 0x08).portWrite (fld dr 19 0 / 4 * 4) (BitVec.ofNat 32 (fld dr 52 21))).accessDone_keeps (accessWord dr 0)
    obtain ⟨hoff, hdata, hdone⟩ := accessWord_fields dr 0
    refine ⟨_, (execCfgAccess_live hlive).trans (congrArg Host.Outcome.next (State.wrapAccess_write hwrite)), hdr ▸ hoff, hdr ▸ hdata, hdr ▸ hdone, hwait, ?_⟩
    intro o d r hr hhalf hrws hm hstop hhits hspec hcnt hflow htwin
    have hport := State.portWrite_eq (s := s.setWir 0x08) (d := d) hstop hm
    rw [halfOf_row (s.setWir 0x08).member hr, hhalf, State.writeHalf_word] at hport
    obtain ⟨regs, ecc, hw, hword, hother⟩ := State.write32_effect (s := (s.setWir 0x08).accessed) hr hspec hcnt hhits hflow htwin hrws
    have hplain := hport.trans hw
    refine ⟨(hrg o).trans ((congrArg (·.rg o) hport).trans hword), fun k hk => (hrg k).trans ((congrArg (·.rg k) hport).trans (hother k hk)), ?_, ?_, ?_⟩
    · exact hshadow.trans ((congrArg State.shadow hplain).trans rfl)
    · exact hseq.trans ((congrArg State.seq hplain).trans rfl)
    · exact hmods.trans ((congrArg State.mods hplain).trans rfl)
  · obtain ⟨hview, hregs', hmods'⟩ := State.portRead_selected hstop hlatch hm hmem
    obtain ⟨_, hregs, _, _, hmods, hdr, hwait⟩ := ((s.setWir 0x08).portRead (fld dr 19 0 / 4 * 4)).2.accessDone_keeps
      (accessWord dr ((s.setWir 0x08).portRead (fld dr 19 0 / 4 * 4)).1)
    obtain ⟨hoff, hdata, hdone⟩ := accessWord_fields dr ((s.setWir 0x08).portRead (fld dr 19 0 / 4 * 4)).1
    exact ⟨_, (execCfgAccess_live hlive).trans (congrArg Host.Outcome.next (State.wrapAccess_read hread)), hdr ▸ hoff, hdr ▸ hdata.trans (by rw [hview]), hdr ▸ hdone,
      hwait, hregs.trans hregs', hmods.trans hmods'⟩
  · have heq : execAitRun ctrl cfg s = .next ((s.aitConfigured ctrl cfg).wrapOut [(s.aitConfigured ctrl cfg).rg 0xB0084 ++ (s.aitConfigured ctrl cfg).rg 0xB0080]) := by
      rw [execAitRun, State.writeAitCtrl_stored hgo]
      rfl
    obtain ⟨hrate, hdwell, hmax, hdir⟩ := s.aitConfigured_fields ctrl cfg
    exact ⟨_, heq, rfl, hrate, hdwell, hmax, hdir, rfl⟩
  · have heq : execAitRun ctrl cfg s = .next ((s.aitConfigured ctrl cfg).aitBegun.wrapOut
        [(s.aitConfigured ctrl cfg).aitBegun.rg 0xB0084 ++ (s.aitConfigured ctrl cfg).aitBegun.rg 0xB0080]) := by
      rw [execAitRun, State.writeAitCtrl_starts (s := (s.setWir 0x09).writeAitCfg cfg) hgo hstep hst]
      rfl
    obtain ⟨_, _, hmax, hdir⟩ := s.aitConfigured_fields ctrl cfg
    obtain ⟨hbist, _, hmods⟩ := (s.aitConfigured ctrl cfg).aitBegun_keeps
    obtain ⟨hout, hrg, hmods', _⟩ := (s.aitConfigured ctrl cfg).aitBegun.wrapOut_keeps
      [(s.aitConfigured ctrl cfg).aitBegun.rg 0xB0084 ++ (s.aitConfigured ctrl cfg).aitBegun.rg 0xB0080]
    refine ⟨_, heq, ?_, ?_, ?_, ?_, ?_, hmods'.trans hmods⟩
    · exact (congrArg Bist.wir hout).trans (congrArg Bist.wir hbist)
    · exact (congrArg Bist.aitStep hout).trans (congrArg Bist.aitStep hbist)
    · exact (congrArg Bist.aitBad hout).trans (congrArg Bist.aitBad hbist)
    · exact (congrArg (fld · 31 16) ((hrg 0xB0084).trans (State.rg_aitBegun _ (by decide)))).trans hmax
    · exact (congrArg (fld · 0 0) ((hrg 0xB0080).trans (State.rg_aitBegun _ (by decide)))).trans hdir
  · have heq : execBistRun d s = .next (((s.setWir 0x0B).monthStored d).wrapOut [(((s.setWir 0x0B).monthStored d).viewWord 0xB0028).setWidth 64]) := by
      rw [execBistRun, State.writeBistRun_stored hgo]
    obtain ⟨hbist, _, _, hout⟩ := ((s.setWir 0x0B).monthStored d).wrapOut_keeps [(((s.setWir 0x0B).monthStored d).viewWord 0xB0028).setWidth 64]
    refine ⟨_, heq, ?_, ?_⟩
    · exact hbist.trans (by rw [(s.setWir 0x0B).bist_monthStored d]; rfl)
    · rw [State.viewWord_wrapOut]
      exact hout.trans (by rw [(s.setWir 0x0B).out_monthStored d]; rfl)
  · have heq : execBistRun d s = .next ((((s.setWir 0x0B).monthStored d).monthBegun (fld d 3 0)).wrapOut
        [((((s.setWir 0x0B).monthStored d).monthBegun (fld d 3 0)).viewWord 0xB0028).setWidth 64]) := by
      rw [execBistRun, State.writeBistRun_starts (s := s.setWir 0x0B) hgo hblank hrun hlow hhigh hsome]
    obtain ⟨hbist, _, hmods, _⟩ := (((s.setWir 0x0B).monthStored d).monthBegun (fld d 3 0)).wrapOut_keeps
      [((((s.setWir 0x0B).monthStored d).monthBegun (fld d 3 0)).viewWord 0xB0028).setWidth 64]
    refine ⟨_, heq, ?_, hmods.trans ((s.setWir 0x0B).mods_monthStored d)⟩
    exact hbist.trans (by rw [(s.setWir 0x0B).bist_monthBegun d]; rfl)

end

end Sys2Proof.Machine
end

section
/-! The walk, the flush of the cache, RPC_CFG and the abort of a copy (R232, R401 to R408, R423). -/
namespace Sys2Proof.Machine

section
variable {s : State} {d : W32} {o : Op}

/-! ## The walk and the flush -/

theorem execPageWalkRetry_waiting {tag : Nat} {o : Op} (hlive : s.inReset = false) (ho : s.op? tag = some o) (hphase : o.phase = .walkWait) :
    execPageWalkRetry tag s = .next (if o.retryAt ≤ s.now then s.walkHeader tag else s) := by
  rw [execPageWalkRetry, live_eq hlive]
  simp only [ho, hphase, decide_true, Bool.true_and, decide_eq_true_eq]

theorem State.flushGo_starts (h : s.flushSet = none) :
    s.flushGo = ({ s.flushTags (s.tagsIn 2) with flushSet := some (s.tagsIn 1) } : State).setRf 0x80030 30 30 0 := by
  refine if_neg ?_
  rw [h]
  exact Bool.false_ne_true

theorem State.flushGo_runs (h : s.flushSet ≠ none) : s.flushGo = s := if_pos (Option.isSome_iff_ne_none.2 h)

/-- A bit of a register after a write of that bit alone. -/
theorem State.bit_setRf_same (s : State) (off : Nat) {i v : Nat} (hi : i < 32) : bit ((s.setRf off i i v).rg off) i = v.testBit 0 := by
  rw [State.rg_setRf_same, bit_setFld _ _ _ hi (Nat.le_refl i), if_pos ⟨Nat.le_refl i, Nat.le_refl i⟩, Nat.sub_self]

theorem State.bit_setRf_apart (s : State) (off v : Nat) {hi lo i : Nat} (hhi : hi < 32) (hle : lo ≤ hi) (hapart : i < lo ∨ hi < i) :
    bit ((s.setRf off hi lo v).rg off) i = bit (s.rg off) i := by
  rw [State.rg_setRf_same, bit_setFld _ _ _ hhi hle, if_neg (by omega)]

theorem State.flushNow_idle {e : Nat} {es : List Nat} (hset : s.flushSet = some es) (he : e ∈ es) (hidle : (s.tag e).idle = true) :
    s.flushNow e = ({ s with flushSet := some (es.filter (· != e)) } : State).evictTag e := by
  unfold State.flushNow
  simp only [hset]
  rw [List.contains_iff_mem.2 he, hidle]
  rfl

theorem execRpcFlushDone_eq {es : List Nat} (hlive : s.inReset = false) (hset : s.flushSet = some es) : execRpcFlushDone s = .next
    (if es.any fun e => (s.tag e).st == 1 then s else ({ s.flushTags es with flushSet := none } : State).setRf 0x80030 30 30 1) := by
  rw [execRpcFlushDone, live_eq hlive]
  simp only [hset]

/-! ## RPC_CFG -/

/-- The fields of RPC_CFG that a write stores before EN. -/
def State.rpcStored (s : State) (d : W32) : State :=
  (s.setRf 0x80000 27 24 (max 1 (fld d 27 24))).when (!s.rpcOn) (·.setRf 0x80000 12 8 (max 2 (min 16 (fld d 12 8))))

/-- EN as a write of RPC_CFG leaves it. -/
def State.rpcEnabled (s : State) (d : W32) : State :=
  if bit d 0 then (s.rpcStored d).setRf 0x80000 0 0 1
  else if (s.rpcStored d).tags.any fun e => e.2.st != 0 then s.rpcStored d else (s.rpcStored d).setRf 0x80000 0 0 0

theorem State.writeRpcCfg_eq (s : State) (d : W32) : s.writeRpcCfg d =
    if (s.rpcEnabled d).solNow then (s.rpcEnabled d).holdShadow 0x80000 d else (s.rpcEnabled d).shadowWrite 0x80000 d := rfl

/-- What the stored fields of RPC_CFG leave as it is. -/
theorem State.rpcStored_same {β : Type} (p : State → β) (h1 : p (s.setRf 0x80000 27 24 (max 1 (fld d 27 24))) = p s)
    (h2 : ∀ (v : State) n, p (v.setRf 0x80000 12 8 n) = p v) : p (s.rpcStored d) = p s :=
  (State.when_same p (f := (·.setRf 0x80000 12 8 (max 2 (min 16 (fld d 12 8))))) _ (h2 _ _) _).trans h1

theorem State.tags_rpcStored (s : State) (d : W32) : (s.rpcStored d).tags = s.tags := State.rpcStored_same (·.tags) rfl fun _ _ => rfl

theorem State.en_rpcStored (s : State) (d : W32) : bit ((s.rpcStored d).rg 0x80000) 0 = bit (s.rg 0x80000) 0 :=
  State.rpcStored_same (fun v => bit (v.rg 0x80000) 0) (s.bit_setRf_apart _ _ (by decide) (by decide) (.inl (by decide)))
    fun v n => v.bit_setRf_apart _ n (by decide) (by decide) (.inl (by decide))

/-- The shadow half of a write of RPC_CFG changes nothing of the active bank, the tags or the sequencer. -/
theorem State.rpcShadow_keeps (s : State) (d : W32) : (∀ k, (if s.solNow then s.holdShadow 0x80000 d else s.shadowWrite 0x80000 d).rg k = s.rg k) ∧
    (if s.solNow then s.holdShadow 0x80000 d else s.shadowWrite 0x80000 d).tags = s.tags ∧
    (if s.solNow then s.holdShadow 0x80000 d else s.shadowWrite 0x80000 d).seq = s.seq ∧
    (s.solNow = true → (if s.solNow then s.holdShadow 0x80000 d else s.shadowWrite 0x80000 d).shadow = s.shadow) := by
  by_cases hsol : s.solNow = true
  · rw [if_pos hsol]
    exact ⟨fun _ => rfl, rfl, rfl, fun _ => rfl⟩
  · obtain ⟨_, _, hregs, hseq, _⟩ := s.shadowWrite_effect 0x80000 d
    have htags : (s.shadowWrite 0x80000 d).tags = s.tags := (apply_ite State.tags _ _ _).trans (ite_self _)
    rw [if_neg hsol]
    refine ⟨fun k => ?_, htags, hseq, fun h => absurd h hsol⟩
    rw [State.rg, hregs]
    rfl

theorem State.rpcEnabled_same {β : Type} (p : State → β) (h : ∀ (v : State) hi lo n, p (v.setRf 0x80000 hi lo n) = p v) (s : State) (d : W32) :
    p (s.rpcEnabled d) = p s := by
  have hstored : p (s.rpcStored d) = p s := State.rpcStored_same p (h ..) fun _ _ => h ..
  unfold State.rpcEnabled
  split
  · exact (h ..).trans hstored
  · split
    · exact hstored
    · exact (h ..).trans hstored

theorem State.solNow_rpcEnabled (s : State) (d : W32) : (s.rpcEnabled d).solNow = s.solNow :=
  State.rpcEnabled_same (·.solNow) (fun v hi lo n => by
    unfold State.solNow State.tickOn State.byPulse State.rf
    rw [v.rg_setRf_other _ _ _ (by decide)]
    rfl) s d

/-- What a write of RPC_CFG leaves. -/
theorem State.writeRpcCfg_keeps (s : State) (d : W32) : (s.writeRpcCfg d).rg 0x80000 = (s.rpcEnabled d).rg 0x80000 ∧
    (s.writeRpcCfg d).tags = s.tags ∧ (s.writeRpcCfg d).seq = s.seq ∧ (s.solNow = true → (s.writeRpcCfg d).shadow = s.shadow) := by
  obtain ⟨hrg, htags, hseq, hshadow⟩ := (s.rpcEnabled d).rpcShadow_keeps d
  rw [State.writeRpcCfg_eq]
  exact ⟨hrg _, htags.trans (State.rpcEnabled_same (·.tags) (fun _ _ _ _ => rfl) s d), hseq.trans (State.rpcEnabled_same (·.seq) (fun _ _ _ _ => rfl) s d),
    fun hsol => (hshadow ((s.solNow_rpcEnabled d).trans hsol)).trans (State.rpcEnabled_same (·.shadow) (fun _ _ _ _ => rfl) s d)⟩

theorem State.en_rpcEnabled_on (h : bit d 0 = true) : bit ((s.rpcEnabled d).rg 0x80000) 0 = true := by
  unfold State.rpcEnabled
  rw [if_pos h]
  exact (s.rpcStored d).bit_setRf_same 0x80000 (v := 1) (by decide)

theorem State.en_rpcEnabled_busy (h : bit d 0 = false) (hbusy : ∃ e ∈ s.tags, e.2.st ≠ 0) :
    bit ((s.rpcEnabled d).rg 0x80000) 0 = bit (s.rg 0x80000) 0 := by
  have hany : ((s.rpcStored d).tags.any fun e => e.2.st != 0) = true := by
    obtain ⟨e, he, hst⟩ := hbusy
    rw [s.tags_rpcStored d, List.any_eq_true]
    exact ⟨e, he, bne_iff_ne.2 hst⟩
  unfold State.rpcEnabled
  rw [if_neg (Bool.eq_false_iff.1 h), if_pos hany]
  exact s.en_rpcStored d

/-! ## The abort of a copy -/

/-- When a copy that is aborted is over, where the model leaves it open. -/
def State.abortTill (s : State) (o : Op) : Option Nat :=
  if o.thru && !o.msgs.isEmpty then some (s.now + (Config.freeWord s.free).toNat) else o.doneAt

theorem State.abortTill_sure (h : o.thru = false ∨ o.msgs = []) : s.abortTill o = o.doneAt := by
  refine if_neg ?_
  rcases h with h | h
  · rw [h]
    exact Bool.false_ne_true
  · rw [h, List.isEmpty_nil, Bool.not_true, Bool.and_false]
    exact Bool.false_ne_true

theorem State.mtAbort_runs {k : Nat} {o : Op} (ho : s.mtOp k = some o) (habort : o.abort = false) : s.mtAbort k =
    (({ s with free := s.free + 1 } : State).setOp
      { o.fail 6 false 0 with abort := true, msgs := [], pieces := [], sends := false, doneAt := s.abortTill o,
                              await := if o.msgs.isEmpty then o.await else [] }).opCheck o.tag := by
  unfold State.mtAbort
  simp only [ho, if_neg (Bool.eq_false_iff.1 habort)]
  rfl

/-! ## The settlement -/

/-- Settles O39: the retry of a walk, the flush, RPC_CFG and the abort of a copy. -/
theorem pageControl : Obligations.PageControl := by
  unfold Obligations.PageControl
  intro s hlive
  refine ⟨fun tag o ho hphase => ⟨fun hdue => ?_, fun hearly => ?_⟩, fun hready hset => ?_, fun hready hset => ?_, fun e es hset he hidle => ?_,
    fun es hset hover => ?_, fun es e hset he hst => ?_, fun d hready hen => ?_, fun d hready hen hbusy => ?_, fun k o hk hready ho habort => ?_⟩
  · exact (execPageWalkRetry_waiting hlive ho hphase).trans (congrArg Host.Outcome.next (if_pos hdue))
  · exact (execPageWalkRetry_waiting hlive ho hphase).trans (congrArg Host.Outcome.next (if_neg (Nat.not_le.2 hearly)))
  · exact ⟨_, portCmd_eq (f := (·.flushGo)) hready (State.flushGo_starts (s := s.accessed) hset), rfl,
      State.bit_setRf_same { s.accessed.flushTags (s.accessed.tagsIn 2) with flushSet := some (s.accessed.tagsIn 1) } 0x80030 (v := 0) (by decide)⟩
  · exact portCmd_eq (f := (·.flushGo)) hready (State.flushGo_runs (s := s.accessed) hset)
  · exact State.flushNow_idle hset he hidle
  · refine ⟨_, (execRpcFlushDone_eq hlive hset).trans (congrArg Host.Outcome.next (if_neg ?_)), rfl,
      State.bit_setRf_same { s.flushTags es with flushSet := none } 0x80030 (v := 1) (by decide)⟩
    rw [List.any_eq_true]
    exact fun ⟨e, he, hst⟩ => hover e he (beq_iff_eq.1 hst)
  · refine (execRpcFlushDone_eq hlive hset).trans (congrArg Host.Outcome.next (if_pos ?_))
    exact List.any_eq_true.2 ⟨e, he, beq_iff_eq.2 hst⟩
  · obtain ⟨hrg, htags, hseq, hshadow⟩ := s.accessed.writeRpcCfg_keeps d
    exact ⟨_, portCmd_eq (f := (·.writeRpcCfg d)) hready rfl, (congrArg (bit · 0) hrg).trans (State.en_rpcEnabled_on hen), htags, hseq, hshadow⟩
  · obtain ⟨hrg, htags, _, _⟩ := s.accessed.writeRpcCfg_keeps d
    exact ⟨_, portCmd_eq (f := (·.writeRpcCfg d)) hready rfl, (congrArg (bit · 0) hrg).trans (State.en_rpcEnabled_busy (s := s.accessed) hen hbusy), htags⟩
  · exact ⟨s.accessed.abortTill o, fun h => State.abortTill_sure (s := s.accessed) h,
      (portCmdWf_ready (decide_eq_true hk) hready _).trans (congrArg (fun v : State => Host.Outcome.next (v.cfgAnswer 32 0))
        (State.mtAbort_runs (s := s.accessed) ho habort))⟩

end

end Sys2Proof.Machine
end

section
/-! The events of the Harvest slots (R319, R332, R381, R384, R391). -/
namespace Sys2Proof.Machine

section
variable {s : State} {d : W32} {slot k : Nat}

/-! ## Merges and combines -/

theorem execMergeGroupFold_ready {group : Nat} (hlive : s.inReset = false) (hslot : slot < 8) (hbusy : (s.mrgAt slot).busy = true)
    (hgroup : group < (s.mrgAt slot).groups) (hnew : (s.mrgAt slot).written.contains group = false)
    (hrows : ∀ r ∈ (s.mrgAt slot).groupRows group, (s.mrgAt slot).rowReady r = true) :
    execMergeGroupFold slot group s = .next (s.foldGroup slot group) := by
  rw [execMergeGroupFold, liveWf_eq (decide_eq_true hslot) hlive]
  refine congrArg Host.Outcome.next (if_pos ?_)
  rw [hbusy, decide_eq_true hgroup, hnew, List.all_eq_true.2 hrows]
  rfl

theorem execMergeCutoff_eq {t : Nat} {o : Op} (hlive : s.inReset = false) (hslot : slot < 8) (ht : (s.mrgAt slot).cutoffAt = some t)
    (ho : s.op? (s.mrgAt slot).tag = some o) (hbusy : (s.mrgAt slot).busy = true) (hcut : (s.mrgAt slot).cut = false)
    (hlast : (s.mrgAt slot).allLast = false) : execMergeCutoff slot s = .next
      (if t ≤ s.now then (s.setMrg slot { s.mrgAt slot with cut := true, lastAt := t - o.issuedAt }).mrgCheck slot else s) := by
  rw [execMergeCutoff, liveWf_eq (decide_eq_true hslot) hlive]
  simp only [ht, ho, hbusy, hcut, hlast, Bool.not_false, Bool.and_true, Bool.true_and, decide_eq_true_eq]

theorem execCombineCutoff_eq {t : Nat} (hlive : s.inReset = false) (hslot : slot < 4) (ht : (s.cmbAt slot).cutoffAt = some t)
    (hready : (s.cmbAt slot).ready = true) (hcut : (s.cmbAt slot).cut = false) (htaken : (s.cmbAt slot).allTaken = false) :
    execCombineCutoff slot s = .next (if t ≤ s.now then (s.setCmb slot { s.cmbAt slot with cut := true }).cmbFold slot else s) := by
  have hmissing : (s.cmbAt slot).missing = true := by
    rw [Cmb.missing, if_pos hready, htaken]
    rfl
  rw [execCombineCutoff, liveWf_eq (decide_eq_true hslot) hlive]
  simp only [ht, hcut, hmissing, hready, Bool.not_false, Bool.true_and, decide_eq_true_eq, if_true]

/-! ## The flush of a dispatch slot -/

theorem State.flushDslot_busy (h : (s.dslAt k).busy = true) : s.flushDslot k = s.setDsl k { s.dslAt k with flush := true } := if_pos h

theorem State.flushDslot_free (h : (s.dslAt k).busy = false) :
    s.flushDslot k = (s.count32 0x7003C (s.dslAt k).carried.length).setDsl k { s.dslAt k with carried := [] } :=
  if_neg (Bool.eq_false_iff.1 h)

/-! ## The clear of the calibration counters -/

/-- CAL_CLR with its range. -/
def State.calRange (s : State) (d : W32) : State := (s.setRf 0x70008 24 12 (max 1 (fld d 24 12))).setRf 0x70008 11 0 (fld d 11 0)

theorem State.calRange_fields (s : State) (d : W32) :
    (s.calRange d).rf 0x70008 11 0 = fld d 11 0 ∧ (s.calRange d).rf 0x70008 24 12 = max 1 (fld d 24 12) := by
  have hcount := fld_lt d 24 12
  refine ⟨(State.rf_setRf_same _ _ _ (by decide) (by decide)).trans (Nat.mod_eq_of_lt (fld_lt d 11 0)), ?_⟩
  refine (State.rf_setRf_apart _ _ _ (by decide) (by decide) (by decide) (.inr (by decide))).trans ?_
  exact (State.rf_setRf_same _ _ _ (by decide) (by decide)).trans (Nat.mod_eq_of_lt (by omega))

/-- The state with the counters of a range cleared. -/
def State.calCleared (s : State) (first n : Nat) : State := s.each ((List.range n).map (first + ·)) State.calClear1

/-- The state with the clear of a range shown as under way. -/
def State.calMarked (s : State) (first n : Nat) : State := { s.setRf 0x70008 30 30 0 with calClr := some (first, n, s.now) }

theorem State.calMarked_keeps (s : State) (first n : Nat) : ((s.calMarked first n).cfgAnswer 32 0).shadow = s.shadow ∧
    ((s.calMarked first n).cfgAnswer 32 0).seq = s.seq ∧ ((s.calMarked first n).cfgAnswer 32 0).mods = s.mods ∧
    bit (((s.calMarked first n).cfgAnswer 32 0).rg 0x70008) 30 = false ∧ ((s.calMarked first n).cfgAnswer 32 0).calClr = some (first, n, s.now) :=
  ⟨rfl, rfl, rfl, s.bit_setRf_same 0x70008 (v := 0) (by decide), rfl⟩

/-- The state with its clear under way. -/
def State.calBegun (s : State) (first n : Nat) : State := (s.calCleared first n).calMarked first n

theorem State.writeCalClr_go (s : State) (h : bit d 31 = true) :
    s.writeCalClr d = (s.calRange d).calBegun (fld d 11 0) (min (max 1 (fld d 24 12)) (4096 - fld d 11 0)) := by
  obtain ⟨hfirst, hcount⟩ := s.calRange_fields d
  have heq : s.writeCalClr d = (s.calRange d).calBegun ((s.calRange d).rf 0x70008 11 0)
      (min ((s.calRange d).rf 0x70008 24 12) (4096 - (s.calRange d).rf 0x70008 11 0)) := by
    refine (if_neg ?_).trans rfl
    rw [h]
    exact Bool.false_ne_true
  rw [heq, hfirst, hcount]

theorem State.calCleared_keeps (s : State) (first n : Nat) : (s.calCleared first n).shadow = s.shadow ∧ (s.calCleared first n).seq = s.seq ∧
    (s.calCleared first n).mods = s.mods ∧ (s.calCleared first n).now = s.now :=
  ⟨State.each_same (·.shadow) (f := State.calClear1) (fun _ _ => rfl) _ _, State.each_same (·.seq) (f := State.calClear1) (fun _ _ => rfl) _ _,
    State.each_same (·.mods) (f := State.calClear1) (fun _ _ => rfl) _ _, State.each_same (·.now) (f := State.calClear1) (fun _ _ => rfl) _ _⟩

/-! ## The settlement -/

/-- Settles O38: the fold of a group, the cutoffs, the flush of a dispatch slot and the clear of the calibration counters. -/
theorem harvestSlots : Obligations.HarvestSlots := by
  unfold Obligations.HarvestSlots
  intro s hlive
  refine ⟨fun slot group hslot => execMergeGroupFold_ready hlive hslot, fun slot t o hslot ht ho hbusy hcut hlast => ⟨fun hdue => ?_, fun hearly => ?_⟩,
    fun slot t hslot ht hready hcut htaken => ⟨fun hdue => ?_, fun hearly => ?_⟩, fun k hk hready hbusy => ?_, fun k hk hready hfree => ?_,
    fun d hready hgo => ?_, fun hset => ?_⟩
  · exact (execMergeCutoff_eq hlive hslot ht ho hbusy hcut hlast).trans (congrArg Host.Outcome.next (if_pos hdue))
  · exact (execMergeCutoff_eq hlive hslot ht ho hbusy hcut hlast).trans (congrArg Host.Outcome.next (if_neg (Nat.not_le.2 hearly)))
  · exact (execCombineCutoff_eq hlive hslot ht hready hcut htaken).trans (congrArg Host.Outcome.next (if_pos hdue))
  · exact (execCombineCutoff_eq hlive hslot ht hready hcut htaken).trans (congrArg Host.Outcome.next (if_neg (Nat.not_le.2 hearly)))
  · exact (portCmdWf_ready (decide_eq_true hk) hready _).trans
      (congrArg (fun v : State => Host.Outcome.next (v.cfgAnswer 32 0)) (State.flushDslot_busy (s := s.accessed) hbusy))
  · refine ⟨_, (portCmdWf_ready (decide_eq_true hk) hready _).trans
      (congrArg (fun v : State => Host.Outcome.next (v.cfgAnswer 32 0)) (State.flushDslot_free (s := s.accessed) hfree)), ?_, ?_, rfl, rfl, rfl⟩
    · exact congrArg Dsl.carried (spGet_spPut_same _ s.dsl k { s.dslAt k with carried := [] })
    · exact s.accessed.rg_count_same 0x7003C 31 0 (s.dslAt k).carried.length
  · obtain ⟨hshadow, hseq, hmods, hnow⟩ := (s.accessed.calRange d).calCleared_keeps (fld d 11 0) (min (max 1 (fld d 24 12)) (4096 - fld d 11 0))
    obtain ⟨hshadow', hseq', hmods', hdone, hclr⟩ := ((s.accessed.calRange d).calCleared (fld d 11 0)
      (min (max 1 (fld d 24 12)) (4096 - fld d 11 0))).calMarked_keeps (fld d 11 0) (min (max 1 (fld d 24 12)) (4096 - fld d 11 0))
    exact ⟨_, portCmd_eq (f := (·.writeCalClr d)) hready (s.accessed.writeCalClr_go hgo), hdone, hclr.trans (by rw [hnow]; rfl), hshadow'.trans hshadow,
      hseq'.trans hseq, hmods'.trans hmods⟩
  · obtain ⟨c, hc⟩ := Option.ne_none_iff_exists'.1 hset
    have heq : execHvCalClrDone s = .next ({ s.setRf 0x70008 30 30 1 with calClr := none } : State) := by
      rw [execHvCalClrDone, live_eq hlive]
      simp only [hc]
    exact ⟨_, heq, rfl, s.bit_setRf_same 0x70008 (v := 1) (by decide), fun k hk => s.rg_setRf_other _ _ _ hk.symm⟩

end

end Sys2Proof.Machine
end

section
/-! The issue of an engine instruction, and the page instructions (R207 to R212, R401 to R423). -/
namespace Sys2Proof.Machine

section
variable {s : State} {op : Nat} {w : W64}

/-! ## The issue -/

/-- An engine instruction whose start hands the sequencer on issues as EngineIssues says. -/
theorem State.Issues.engine (h : s.Issues op w) (hpc : s.seq.pc < 16383) {c : Instr} {is : W64 → Bool} {offend : W64 → List Nat}
    {spec : State → W64 → EngSpec} {can : State → Iss → Bool} {start : State → Nat → Iss → State} (his : is w = true)
    (hexec : exec c s = Machine.live s (·.engineIssue is offend spec can start))
    (hseq : ∀ u : State, u.seq.pc < 16383 → ∀ tag i,
      (start u tag i).seq = { u.seq with lastTag := tag, stall := none, pc := u.seq.pc + 1, nextAt := u.now + 2 }) :
    s.EngineIssues c offend spec can start w := by
  have hclean : (∀ d ∈ (spec s w).tds, ∀ k < 4, s.upsetAt 1 (4 * d.1 + k) = 0) → s.descEcc ((spec s w).tds.map (·.1)) = (none, s) :=
    fun hd => descEcc_clean fun n hn k hk => by
      obtain ⟨d, hd', rfl⟩ := List.mem_map.1 hn
      exact hd d hd' k hk
  have hact : offend w = [] → ∀ f : W64 → State → State, s.issue is offend f = f w s := fun hoff f => by
    rw [h.act his hoff, State.keepOp_below hpc]
  rw [live_eq h.live] at hexec
  refine ⟨fun hd hoff code info hfail => ?_, fun hd hoff hfail i u hcal tag htag hcan => ⟨?_, ?_⟩, fun hd hoff hfail i u hcal hno => ⟨?_, readCal_seq hcal⟩⟩
  · rw [hexec, State.engineIssue, hact hoff]
    simp only [hclean hd, hfail]
  · rw [hexec, State.engineIssue, hact hoff]
    simp only [hclean hd, hfail, hcal, htag, hcan, if_true]
  · have hu := readCal_seq hcal
    have henv := (s.readCal_kept (spec s w)).env
    rw [hcal] at henv
    have hnow : u.now = s.now := congrArg Env.now henv
    rw [hseq u (hu ▸ hpc), hu, hnow]
  · rw [hexec, State.engineIssue, hact hoff]
    simp only [hclean hd, hfail, hcal]
    rcases hno with hno | hno
    · simp only [hno]
      rfl
    · cases u.freeTag with
      | none => rfl
      | some t => exact congrArg Host.Outcome.next (if_neg (Bool.eq_false_iff.1 hno))

/-! ## PGUNPIN -/

theorem State.unpinEnt_own {tag k : Nat} {x : PgEnt} (h : pidDie x.pid = s.die) : s.unpinEnt tag k x = s.pageOut tag k 4 0 := if_pos h

section
variable {tag k : Nat} {x : PgEnt} (hdie : pidDie x.pid ≠ s.die)
include hdie

theorem State.unpinEnt_bad (hbad : s.pageOk x.pid = false) : s.unpinEnt tag k x = s.pageOut tag k 11 0 :=
  (if_neg hdie).trans (if_pos (by rw [hbad]; rfl))

theorem State.unpinEnt_eq (hok : s.pageOk x.pid = true) : s.unpinEnt tag k x =
    match (s.readSet (rpcSet x.pid)).findTag x.pid x.gen with
    | some e =>
      if ((s.readSet (rpcSet x.pid)).tag e).pin = 0 then (s.readSet (rpcSet x.pid)).pageOut tag k 10 0
      else (((s.readSet (rpcSet x.pid)).setTag e { (s.readSet (rpcSet x.pid)).tag e with pin := ((s.readSet (rpcSet x.pid)).tag e).pin - 1 }).retireWay e).pageOut
        tag k 5 (((s.readSet (rpcSet x.pid)).tag e).pin - 1)
    | none => (s.readSet (rpcSet x.pid)).pageOut tag k 10 0 :=
  (if_neg hdie).trans (if_neg (by rw [hok]; exact Bool.false_ne_true))

end

/-! ## The end of a page operation, and its snapshot -/

/-- The operation with its outcome words on their way. -/
def State.pgWritten (s : State) (o : Op) : State :=
  let u := s.setOp { o with phase := .result }
  if o.iss.res then u.opWrite o.tag o.iss.tdb.addr (o.ents.flatMap fun x => leBytes 8 x.word.toNat) false else u

theorem State.pgNext_run {o : Op} (hphase : o.phase = .run) (hleft : o.rdLeft = 0) (hout : ∀ x ∈ o.ents, x.out ≠ none) :
    s.pgNext o = (s.pgWritten o).opCheck o.tag := by
  have hnone : ¬ (o.ents.any (·.out.isNone)) = true := by
    rw [List.any_eq_true]
    exact fun ⟨x, hx, hn⟩ => hout x hx (Option.isNone_iff_eq_none.1 hn)
  unfold State.pgNext
  simp only [if_neg (show ¬ 0 < o.rdLeft by omega), hphase, if_neg hnone] <;> rfl

theorem State.pgWritten_writes (s : State) (o : Op) : s.Writes (s.pgWritten o)
    (if o.iss.res then putsAt o.iss.tdb.addr (o.ents.flatMap fun x => leBytes 8 x.word.toNat) else []) := by
  unfold State.pgWritten
  dsimp only
  by_cases hres : o.iss.res = true
  · rw [if_pos hres, if_pos hres]
    exact (State.opWrite_writes ..).from_wrq rfl
  · rw [if_neg hres, if_neg hres]
    exact (State.Writes.refl _).from_wrq rfl

/-- The snapshot of a table: the entries that are to be fetched from other dies. -/
def State.snapFar (s : State) (o : Op) : List PgEnt :=
  if o.iss.pgFetch then (o.snap.filter fun e => decide (e.1 < hdrLength o.hdr) && pidDie (fld e.2 39 0) != s.die).map fun e =>
    { pid := fld e.2 39 0, gen := fld e.2 63 40, out := none, val := 0, pend := true } else []

/-- The operation with its snapshot on its way. -/
def State.snapWritten (s : State) (o : Op) : State :=
  (s.setOp { o with phase := .run, ents := s.snapFar o, buf := [] }).opWrite o.tag o.iss.tdb.addr (snapBytes o) o.psn

theorem State.gatherDone_eq (s : State) (o : Op) :
    s.gatherDone o = (s.snapWritten o).each (List.range (s.snapFar o).length) fun s k => s.fetchEnt o.tag k false := rfl

/-! ## Table 10-2 -/

theorem recMake_fields {count gen : Nat} (hcount : count < 2 ^ 32) (hgen : gen < 2 ^ 24) : recCount (recMake count gen) = count ∧ recGen (recMake count gen) = gen := by
  unfold recCount recGen recMake
  constructor
  · rw [fld_or, fld_bf_apart _ (.inl (by decide)) (by decide) (by decide), fld_bf_same _ (by decide) (by decide), Nat.zero_or]
    exact Nat.mod_eq_of_lt hcount
  · rw [fld_or, fld_bf_same _ (by decide) (by decide), fld_bf_apart _ (.inr (by decide)) (by decide) (by decide), Nat.or_zero]
    exact Nat.mod_eq_of_lt hgen

theorem recCount_lt (r : W64) : recCount r < 2 ^ 32 := fld_lt r 31 0

theorem recGen_lt (r : W64) : recGen r < 2 ^ 24 := fld_lt r 55 32

/-- A lowered reference count; the generation grows when it reaches 0. -/
theorem recDown_fields (r : W64) {count : Nat} (hcount : count < 2 ^ 32) :
    recCount (recDown r count) = count ∧ recGen (recDown r count) = if count = 0 then (recGen r + 1) % 2 ^ 24 else recGen r := by
  refine recMake_fields hcount ?_
  split
  · exact Nat.mod_lt _ (by decide)
  · exact recGen_lt r

section
variable {gen cmp new_ : Nat} {r : W64}

/-- The record is the one that is meant, and in use. -/
def recOk (gen : Nat) (r : W64) : Bool := gen == recGen r && decide (0 < recCount r)

theorem recOk_iff : recOk gen r = true ↔ gen = recGen r ∧ 0 < recCount r := by
  rw [recOk, Bool.and_eq_true, beq_iff_eq, decide_eq_true_eq]

theorem recordOp_stale (h : recOk gen r = false) {op : Nat} (hop : op = 1 ∨ op = 2 ∨ op = 3 ∨ op = 4 ∨ op = 5) :
    recordOp op gen cmp new_ r = (7, none) := by
  rw [recOk] at h
  rcases hop with rfl | rfl | rfl | rfl | rfl
  all_goals
    unfold recordOp
    simp only [h]
    rfl

section
variable (h : recOk gen r = true)
include h

theorem recordOp_raise {op : Nat} (hop : op = 1 ∨ op = 5) : recordOp op gen cmp new_ r =
    if recCount r = 0xFFFFFFFF then (8, none) else (5, some (recMake (recCount r + 1) (recGen r))) := by
  rw [recOk] at h
  rcases hop with rfl | rfl
  all_goals
    unfold recordOp
    simp only [h, Bool.not_true, Bool.false_eq_true, if_false]

theorem recordOp_lower {op : Nat} (hop : op = 2 ∨ op = 4) : recordOp op gen cmp new_ r = (5, some (recDown r (recCount r - 1))) := by
  rw [recOk] at h
  rcases hop with rfl | rfl
  all_goals
    unfold recordOp
    simp only [h, if_true]

theorem recordOp_cas : recordOp 3 gen cmp new_ r =
    if recCount r = cmp then (5, if recDown r new_ = r then none else some (recDown r new_)) else (6, none) := by
  rw [recOk] at h
  unfold recordOp
  simp only [h, Bool.not_true, Bool.false_eq_true, if_false]

end

/-- Table 10-2. -/
theorem recordOp_table (hnew : new_ < 2 ^ 32) :
    let ok := gen = recGen r ∧ 0 < recCount r
    recordOp 0 gen cmp new_ r = (5, none) ∧
    (¬ ok → ∀ op, op = 1 ∨ op = 2 ∨ op = 3 ∨ op = 4 ∨ op = 5 → recordOp op gen cmp new_ r = (7, none)) ∧
    (ok → ∀ op, op = 1 ∨ op = 5 → (recCount r = 2 ^ 32 - 1 → recordOp op gen cmp new_ r = (8, none)) ∧
      (recCount r ≠ 2 ^ 32 - 1 → ∃ n, recordOp op gen cmp new_ r = (5, some n) ∧ recCount n = recCount r + 1 ∧ recGen n = recGen r)) ∧
    (ok → ∀ op, op = 2 ∨ op = 4 → ∃ n, recordOp op gen cmp new_ r = (5, some n) ∧ recCount n = recCount r - 1 ∧
      recGen n = if recCount r = 1 then (recGen r + 1) % 2 ^ 24 else recGen r) ∧
    (ok → recCount r ≠ cmp → recordOp 3 gen cmp new_ r = (6, none)) ∧
    (ok → recCount r = cmp → ∃ n, recordOp 3 gen cmp new_ r = (5, if n = r then none else some n) ∧ recCount n = new_ ∧
      recGen n = if new_ = 0 then (recGen r + 1) % 2 ^ 24 else recGen r) := by
  intro ok
  have hlt := recCount_lt r
  refine ⟨rfl, fun hno op => recordOp_stale (Bool.eq_false_iff.2 fun h => hno (recOk_iff.1 h)), fun hok op hop => ⟨fun hfull => ?_, fun hroom => ?_⟩,
    fun hok op hop => ?_, fun hok hne => ?_, fun hok heq => ?_⟩
  · exact (recordOp_raise (recOk_iff.2 hok) hop).trans (if_pos hfull)
  · obtain ⟨hcount, hgen⟩ := recMake_fields (count := recCount r + 1) (by omega) (recGen_lt r)
    exact ⟨_, (recordOp_raise (recOk_iff.2 hok) hop).trans (if_neg hroom), hcount, hgen⟩
  · have hpos := hok.2
    obtain ⟨hcount, hgen⟩ := recDown_fields r (count := recCount r - 1) (by omega)
    have hlast : recCount r - 1 = 0 ↔ recCount r = 1 := by omega
    refine ⟨_, recordOp_lower (recOk_iff.2 hok) hop, hcount, hgen.trans ?_⟩
    simp only [hlast]
  · exact (recordOp_cas (recOk_iff.2 hok)).trans (if_neg hne)
  · obtain ⟨hcount, hgen⟩ := recDown_fields r hnew
    exact ⟨_, (recordOp_cas (recOk_iff.2 hok)).trans (if_pos heq), hcount, hgen⟩

end

/-! ## The settlement -/

/-- Settles O37: the issue of the page instructions, PGUNPIN, the outcome words, the snapshot and Table 10-2. -/
theorem pageIssue : Obligations.PageIssue := by
  unfold Obligations.PageIssue
  refine ⟨fun s op w h hpc => ?_, fun s tag k x => ⟨State.unpinEnt_own, State.unpinEnt_bad, fun hdie hok => ?_⟩,
    fun s o hphase hleft hout => ⟨_, State.pgNext_run hphase hleft hout, s.pgWritten_writes o⟩, fun s o => ?_, fun gen cmp new_ r _ hnew => recordOp_table hnew⟩
  · refine ⟨fun hop => ?_, fun hop => ?_, fun hop => ?_, fun hop => ?_, fun hop => ?_⟩
    all_goals
      subst hop
      exact h.engine hpc h.is rfl fun u hu => startPage_seq hu
  · intro u
    have heq := State.unpinEnt_eq (tag := tag) (k := k) hdie hok
    refine ⟨fun hnone => ?_, fun e he => ⟨fun hpin => ?_, fun hpin => ?_⟩⟩
    · rw [heq, hnone]
    · rw [heq, he]
      exact if_pos hpin
    · rw [heq, he]
      exact if_neg hpin
  · refine ⟨_, _, s.gatherDone_eq o, (State.opWrite_writes ..).from_wrq rfl, fun hfetch => ?_⟩
    rw [State.snapFar, if_neg (Bool.eq_false_iff.1 hfetch)]
    rfl

end

end Sys2Proof.Machine
end

section
/-! What a transfer moves, and its issue (R224 to R241). -/
namespace Sys2Proof.Machine

section
variable {s : State} {o : Op}

/-! ## The segments of a transfer -/

/-- A transfer that skips no blocks between rows that are not paged. -/
structure Op.Plain (o : Op) : Prop where
  zskip : o.iss.zskip = false
  src : o.iss.tda.paged = false
  dst : o.iss.tdb.paged = false

theorem State.rowLoc_plain {d : Desc} (h : d.paged = false) (r : Nat) : s.rowLoc o d r = some (d.die, d.rowAddr r, none) :=
  if_pos (by rw [h]; rfl)

theorem Op.Plain.srcLoc (h : o.Plain) (s : State) (r : Nat) : s.srcLoc o r = some (o.iss.tda.die, o.iss.tda.rowAddr r) := by
  have hdata : o.iss.byData = false := by rw [Iss.byData, h.zskip, Bool.false_and]
  unfold State.srcLoc
  rw [State.rowLoc_plain h.src]
  exact if_pos (by rw [hdata]; rfl)

theorem Op.Plain.rowSegs (h : o.Plain) (s : State) (find : Bool) (mv : Nat × Nat) : s.rowSegs o find mv =
    [seg o.iss.tda.die (o.iss.tda.rowAddr mv.1) o.iss.tdb.die (o.iss.tdb.rowAddr mv.2) o.iss.tda.rowBytes none] := by
  unfold State.rowSegs
  rw [h.srcLoc, State.rowLoc_plain h.dst]
  exact if_pos (by rw [h.zskip]; rfl)

theorem Op.Plain.runsOf (h : o.Plain) (s : State) (find : Bool) (r : Nat) : s.runsOf o find r = [(0, o.iss.tda.rowBlocks)] :=
  if_neg (by rw [h.zskip]; exact Bool.false_ne_true)

/-- The scale bytes of a row of a transfer. -/
def Op.scaleSeg (o : Op) (mv : Nat × Nat) : Piece :=
  seg o.iss.tda.die (o.iss.tda.side + mv.1 * o.iss.tda.rowBlocks) o.iss.tdb.die (o.iss.tdb.side + mv.2 * o.iss.tdb.rowBlocks) o.iss.tda.rowBlocks none

theorem Op.Plain.scaleSegs (h : o.Plain) (s : State) (find : Bool) (mv : Nat × Nat) :
    s.scaleSegs o find mv = if fmtMx o.iss.tda.fmt then [o.scaleSeg mv] else [] := by
  unfold State.scaleSegs
  by_cases hmx : fmtMx o.iss.tda.fmt = true
  · rw [if_pos hmx, h.runsOf]
    exact if_neg (by rw [hmx]; exact Bool.false_ne_true)
  · rw [if_neg hmx]
    exact if_pos (by rw [Bool.eq_false_iff.2 hmx]; rfl)

theorem Op.Plain.mapSegs (h : o.Plain) (s : State) (mv : Nat × Nat) : s.mapSegs o mv = [] :=
  if_pos (by rw [h.zskip]; rfl)

theorem flatMap_nil_of {α β : Type} {f : α → List β} {xs : List α} (h : ∀ x, f x = []) : xs.flatMap f = [] :=
  List.flatMap_eq_nil_iff.2 fun x _ => h x

theorem Op.Plain.segs (h : o.Plain) (s : State) (find : Bool) : s.segs o find =
    (o.moves.map fun mv => seg o.iss.tda.die (o.iss.tda.rowAddr mv.1) o.iss.tdb.die (o.iss.tdb.rowAddr mv.2) o.iss.tda.rowBytes none) ++
      (if fmtMx o.iss.tda.fmt then o.moves.map o.scaleSeg else []) := by
  have hmap : (if find then o.moves.flatMap (s.mapSegs o ·) else []) = [] := by
    rw [flatMap_nil_of (h.mapSegs s), ite_self]
  have hscale : o.moves.flatMap (s.scaleSegs o find ·) = if fmtMx o.iss.tda.fmt then o.moves.map o.scaleSeg else [] := by
    rw [funext (h.scaleSegs s find)]
    cases fmtMx o.iss.tda.fmt with
    | false => exact flatMap_nil_of fun _ => rfl
    | true => exact List.map_eq_flatMap.symm
  rw [State.segs, hmap, hscale, List.append_nil, funext (h.rowSegs s find)]
  congr 1
  exact List.map_eq_flatMap.symm

/-! ## The blocks that are not skipped -/

/-- A run of the list holds the block. -/
def InRuns (rs : List (Nat × Nat)) (k : Nat) : Prop := ∃ r ∈ rs, r.1 ≤ k ∧ k < r.1 + r.2

theorem inRuns_append {rs qs : List (Nat × Nat)} {k : Nat} : InRuns (rs ++ qs) k ↔ InRuns rs k ∨ InRuns qs k := by
  simp only [InRuns, List.mem_append, or_and_right, exists_or]

theorem inRuns_one {a l k : Nat} : InRuns [(a, l)] k ↔ a ≤ k ∧ k < a + l := by
  simp only [InRuns, List.mem_singleton, exists_eq_left]

/-- The runs with one block more. -/
def addBlock (rs : List (Nat × Nat)) (n : Nat) : List (Nat × Nat) :=
  match rs.getLast? with
  | some (a, l) => if a + l = n then rs.dropLast ++ [(a, l + 1)] else rs ++ [(n, 1)]
  | none => rs ++ [(n, 1)]

theorem inRuns_addBlock {rs : List (Nat × Nat)} {n k : Nat} : InRuns (addBlock rs n) k ↔ InRuns rs k ∨ k = n := by
  have hnew : InRuns (rs ++ [(n, 1)]) k ↔ InRuns rs k ∨ k = n := by
    rw [inRuns_append, inRuns_one]
    exact or_congr_right ⟨fun _ => by omega, fun _ => by omega⟩
  unfold addBlock
  split
  next a l hlast =>
    split
    next hend =>
      obtain ⟨ys, rfl⟩ := List.getLast?_eq_some_iff.1 hlast
      rw [List.dropLast_concat, inRuns_append, inRuns_append, inRuns_one, inRuns_one, or_assoc]
      exact or_congr_right ⟨fun _ => by omega, fun _ => by omega⟩
    next => exact hnew
  next => exact hnew

theorem blockRuns_succ (n : Nat) (skip : Nat → Bool) :
    blockRuns (n + 1) skip = if skip n then blockRuns n skip else addBlock (blockRuns n skip) n := by
  unfold blockRuns
  rw [List.range_succ, List.foldl_append]
  rfl

/-- The blocks of the runs are those that are not skipped. -/
theorem inRuns_blockRuns (n : Nat) (skip : Nat → Bool) (k : Nat) : InRuns (blockRuns n skip) k ↔ k < n ∧ skip k = false := by
  induction n with
  | zero => exact ⟨fun ⟨r, hr, _⟩ => absurd hr List.not_mem_nil, fun h => absurd h.1 (Nat.not_lt_zero k)⟩
  | succ n ih =>
    rw [blockRuns_succ]
    by_cases hskip : skip n = true
    · rw [if_pos hskip, ih]
      refine ⟨fun ⟨hlt, hk⟩ => ⟨by omega, hk⟩, fun ⟨hlt, hk⟩ => ⟨?_, hk⟩⟩
      have hne : k ≠ n := fun h => by rw [h, hskip] at hk; exact Bool.noConfusion hk
      omega
    · rw [if_neg hskip, inRuns_addBlock, ih]
      refine ⟨fun h => ?_, fun ⟨hlt, hk⟩ => ?_⟩
      · rcases h with ⟨hlt, hk⟩ | rfl
        · exact ⟨by omega, hk⟩
        · exact ⟨by omega, Bool.eq_false_iff.2 hskip⟩
      · by_cases hn : k = n
        · exact .inr hn
        · exact .inl ⟨by omega, hk⟩

/-! ## The messages of the pieces -/

/-- What marking the last message of a kind does not touch. -/
theorem markLast_map {β : Type} (f : Msg → β) (hf : ∀ m : Msg, f { m with arg := setFld m.arg 51 51 1 } = f m) (ms : List Msg) :
    (markLast ms).map f = ms.map f := by
  induction ms with
  | nil => rfl
  | cons m ms ih =>
    have hm : f { m with arg := if (!ms.any fun k => k.dst == m.dst && k.mtype == m.mtype) then setFld m.arg 51 51 1 else m.arg } = f m := by
      cases (!ms.any fun k => k.dst == m.dst && k.mtype == m.mtype) with
      | false => rfl
      | true => exact hf m
    have hcons := congr (congrArg List.cons hm) ih
    exact hcons

/-- What of a message says where its bytes are and how many. -/
def msgRoute (m : Msg) : BitVec 8 × Nat × Nat × List Byte × Nat :=
  (m.mtype, m.dst.toNat, msgAddr m, m.data, if m.mtype = 0x02 then fld m.arg 63 52 + 1 else m.data.length)

theorem msgRoute_marked (m : Msg) : msgRoute { m with arg := setFld m.arg 51 51 1 } = msgRoute m := by
  have haddr : fld (setFld m.arg 51 51 1) 47 0 = fld m.arg 47 0 := fld_setFld_other _ _ (by decide) (by decide) (by decide) (.inl (by decide))
  have hlen : fld (setFld m.arg 51 51 1) 63 52 = fld m.arg 63 52 := fld_setFld_other _ _ (by decide) (by decide) (by decide) (.inr (by decide))
  unfold msgRoute msgAddr
  dsimp only
  rw [haddr, hlen]

theorem toNat_nibble {n : Nat} (h : n < 16) : (BitVec.ofNat 4 n).toNat = n := (BitVec.toNat_ofNat ..).trans (Nat.mod_eq_of_lt h)

section
variable {p : Piece}

/-- The ARG of a READ_REQ for a piece. -/
def State.readArg (s : State) (p : Piece) : W64 := bf 64 47 0 p.saddr ||| bf 64 50 48 s.inst.toNat ||| bf 64 63 52 (p.len - 1)

theorem State.readArg_fields (hpos : 0 < p.len) (hlen : p.len ≤ 4096) (haddr : p.saddr < 2 ^ 48) :
    fld (s.readArg p) 47 0 = p.saddr ∧ fld (s.readArg p) 63 52 + 1 = p.len := by
  unfold State.readArg
  constructor
  · rw [fld_or, fld_or, fld_bf_same _ (by decide) (by decide), fld_bf_apart _ (.inl (by decide)) (by decide) (by decide),
      fld_bf_apart _ (.inl (by decide)) (by decide) (by decide), Nat.or_zero, Nat.or_zero]
    exact Nat.mod_eq_of_lt haddr
  · rw [fld_or, fld_or, fld_bf_apart _ (.inr (by decide)) (by decide) (by decide), fld_bf_apart _ (.inr (by decide)) (by decide) (by decide),
      fld_bf_same _ (by decide) (by decide), Nat.zero_or, Nat.zero_or, Nat.mod_eq_of_lt (by omega)]
    omega

theorem State.readMsg_route (hpos : 0 < p.len) (hlen : p.len ≤ 4096) (haddr : p.saddr < 2 ^ 48) (hdie : p.sdie < 16) :
    msgRoute (s.readMsg o p) = (0x02, p.sdie, p.saddr, [], p.len) := by
  obtain ⟨hsaddr, hsize⟩ := State.readArg_fields (s := s) hpos hlen haddr
  change ((2#8, (BitVec.ofNat 4 p.sdie).toNat, fld (s.readArg p) 47 0, [], fld (s.readArg p) 63 52 + 1) : BitVec 8 × Nat × Nat × List Byte × Nat) = _
  rw [toNat_nibble hdie, hsaddr, hsize]
  rfl

/-- The ARG of a WRITE of a piece that needs no page check. -/
def State.writeArg (s : State) (p : Piece) : W64 := bf 64 47 0 p.daddr ||| bf 64 50 48 s.inst.toNat ||| bf 64 52 52 (b2n false)

theorem State.writeArg_addr (haddr : p.daddr < 2 ^ 48) : fld (s.writeArg p) 47 0 = p.daddr := by
  unfold State.writeArg
  rw [fld_or, fld_or, fld_bf_same _ (by decide) (by decide), fld_bf_apart _ (.inl (by decide)) (by decide) (by decide),
    fld_bf_apart _ (.inl (by decide)) (by decide) (by decide), Nat.or_zero, Nat.or_zero]
  exact Nat.mod_eq_of_lt haddr

theorem State.writeMsg_route (hchk : o.iss.pgcheck = false) (haddr : p.daddr < 2 ^ 48) (hdie : p.ddie < 16) (bs : List Byte) (psn : Bool) :
    msgRoute (s.writeMsg o p bs psn) = (0x01, p.ddie, p.daddr, bs, bs.length) := by
  unfold State.writeMsg
  rw [hchk]
  change ((1#8, (BitVec.ofNat 4 p.ddie).toNat, fld (s.writeArg p) 47 0, bs, bs.length) : BitVec 8 × Nat × Nat × List Byte × Nat) = _
  rw [toNat_nibble hdie, State.writeArg_addr haddr]
  rfl

end

/-- The kind of message that a piece needs, with what it says. -/
def State.pieceRoute (s : State) (o : Op) (p : Piece) : Option (BitVec 8 × Nat × Nat × List Byte × Nat) :=
  if p.lit.isNone && p.sdie != s.die then some (0x02, p.sdie, p.saddr, [], p.len)
  else if p.ddie != s.die then some (0x01, p.ddie, p.daddr, o.pieceBytes p, (o.pieceBytes p).length)
  else none

/-- The piece can be carried in one message. -/
def Piece.Fits (p : Piece) : Prop := 0 < p.len ∧ p.len ≤ 4096 ∧ p.saddr < 2 ^ 48 ∧ p.daddr < 2 ^ 48 ∧ p.sdie < 16 ∧ p.ddie < 16

theorem filterMap_congr_mem {α β : Type} {f g : α → Option β} {xs : List α} (h : ∀ x ∈ xs, f x = g x) : xs.filterMap f = xs.filterMap g := by
  induction xs with
  | nil => exact rfl
  | cons x xs ih =>
    have hx : f x = g x := h x List.mem_cons_self
    have htail : xs.filterMap f = xs.filterMap g := ih fun y hy => h y (List.mem_cons_of_mem _ hy)
    cases hg : g x with
    | none => exact (List.filterMap_cons_none (hx.trans hg)).trans (htail.trans (List.filterMap_cons_none hg).symm)
    | some b => exact (List.filterMap_cons_some (hx.trans hg)).trans ((congrArg (b :: ·) htail).trans (List.filterMap_cons_some hg).symm)

theorem State.pieceMsgs_route {ps : List Piece} (hchk : o.iss.pgcheck = false) (h : ∀ p ∈ ps, p.Fits) :
    (s.pieceMsgs o ps).map msgRoute = ps.filterMap (s.pieceRoute o) := by
  unfold State.pieceMsgs
  rw [markLast_map msgRoute msgRoute_marked, List.map_filterMap]
  refine filterMap_congr_mem fun p hp => ?_
  obtain ⟨hpos, hlen, hsaddr, hdaddr, hsdie, hddie⟩ := h p hp
  unfold State.pieceRoute
  split
  · exact congrArg some (State.readMsg_route hpos hlen hsaddr hsdie)
  · split
    · exact congrArg some (State.writeMsg_route hchk hdaddr hddie _ _)
    · rfl

/-! ## The operation that sends them -/

/-- The operations of the tag, if any, have these messages. -/
def State.HasMsgs (s : State) (tag : Nat) (ms : List Msg) : Prop := ∀ p, s.op? tag = some p → p.msgs = ms

/-- A change of the operations that keeps their tags. -/
theorem find?_tag_map {f : Op → Op} (hf : ∀ p, (f p).tag = p.tag) (ops : List Op) (tag : Nat) :
    (ops.map f).find? (fun p => p.tag == tag) = (ops.find? fun p => p.tag == tag).map f := by
  rw [List.find?_map]
  refine congrArg (Option.map f) (congrArg (fun q => List.find? q ops) (funext fun p => ?_))
  exact congrArg (· == tag) (hf p)

theorem State.op?_setOp (s : State) (o : Op) : (s.setOp o).op? o.tag = (s.op? o.tag).map fun _ => o := by
  have hmap : (s.ops.map fun p => if p.tag = o.tag then o else p).find? (fun p => p.tag == o.tag) =
      (s.ops.find? fun p => p.tag == o.tag).map fun p => if p.tag = o.tag then o else p := by
    refine find?_tag_map (fun p => ?_) _ _
    by_cases h : p.tag = o.tag
    · rw [if_pos h, h]
    · rw [if_neg h]
  refine hmap.trans ?_
  cases hfind : s.op? o.tag with
  | none => exact congrArg (Option.map _) hfind
  | some p =>
    have htag : p.tag = o.tag := beq_iff_eq.1 (List.find?_some (p := fun q : Op => q.tag == o.tag) hfind)
    exact (congrArg (Option.map _) hfind).trans (congrArg some (if_pos htag))

theorem State.hasMsgs_setOp (s : State) (o : Op) : (s.setOp o).HasMsgs o.tag o.msgs := fun p hp => by
  rw [State.op?_setOp] at hp
  obtain ⟨_, _, rfl⟩ := Option.map_eq_some_iff.1 hp
  rfl

theorem State.ops_writeMem (s : State) (own : WrOwner) (st : Option Nat) (ord addr : Nat) (data : List Byte) (psn : Bool) :
    (s.writeMem own st ord addr data psn).ops = s.ops :=
  State.each_same (·.ops) (f := fun s (a : Nat × Nat) => s.write1 own st ord a.1 (slice data (a.1 - addr) a.2) psn) (fun _ _ => rfl) _ _

theorem State.HasMsgs.opWrite {tag : Nat} {ms : List Msg} (h : s.HasMsgs tag ms) (k addr : Nat) (data : List Byte) (psn : Bool) :
    (s.opWrite k addr data psn).HasMsgs tag ms := by
  intro p hp
  unfold State.opWrite State.updOp State.op? at hp
  dsimp only at hp
  rw [State.ops_writeMem, find?_tag_map (fun p => by by_cases h : p.tag = k
                                                     · rw [if_pos h]
                                                     · rw [if_neg h])] at hp
  obtain ⟨q, hq, rfl⟩ := Option.map_eq_some_iff.1 hp
  refine Eq.trans ?_ (h q hq)
  by_cases hk : q.tag = k
  · rw [if_pos hk]
  · rw [if_neg hk]

theorem State.HasMsgs.each {α : Type} {tag : Nat} {ms : List Msg} {f : State → α → State} (hf : ∀ (v : State) x, v.HasMsgs tag ms → (f v x).HasMsgs tag ms)
    (xs : List α) (h : s.HasMsgs tag ms) : (s.each xs f).HasMsgs tag ms := by
  induction xs generalizing s with
  | nil => exact h
  | cons x xs ih => exact ih (hf s x h)

/-- The pieces that stay on this die. -/
def State.nearPieces (s : State) (ps : List Piece) : List Piece := ps.filter fun p => (p.lit.isSome || p.sdie == s.die) && p.ddie == s.die

/-- The operation whose pieces are on their way. -/
def State.piecesOp (s : State) (o : Op) (ps : List Piece) : Op :=
  { o with msgs := s.pieceMsgs o ps, sends := !(s.pieceMsgs o ps).isEmpty, pieces := ps.filter fun p => p.lit.isNone && p.sdie != s.die,
           await := (((s.pieceMsgs o ps).filter fun m => m.mtype == 0x01).map (·.dst.toNat) ++
             (if o.iss.pgcheck && !(s.nearPieces ps).isEmpty then [s.die] else [])).eraseDups,
           psn := o.psn || ps.any fun p => (p.lit.isSome || p.sdie == s.die) && o.pieceBad p, phase := .result, buf := [],
           total := (ps.map (·.len)).sum, pos := if o.iss.tda.die = s.die then ((s.nearPieces ps).map (·.len)).sum else 0, held := [], since := s.now }

/-- The near pieces written. -/
def State.piecesWritten (s : State) (o : Op) (ps : List Piece) : State :=
  (s.setOp (s.piecesOp o ps)).each (s.nearPieces ps) fun s p => s.opWrite o.tag p.daddr (o.pieceBytes p) (o.pieceBad p)

theorem State.sendPieces_eq {ps : List Piece} (habort : o.abort = false) (hchk : o.iss.pgcheck = false) :
    s.sendPieces o ps = ((s.piecesWritten o ps).each o.held (·.unhold ·)).opCheck o.tag := by
  unfold State.sendPieces
  simp only [if_neg (Bool.eq_false_iff.1 habort), if_neg (Bool.eq_false_iff.1 hchk)] <;> rfl

theorem State.piecesWritten_msgs (s : State) (o : Op) (ps : List Piece) : (s.piecesWritten o ps).HasMsgs o.tag (s.pieceMsgs o ps) := by
  have hset : (s.setOp (s.piecesOp o ps)).HasMsgs o.tag (s.pieceMsgs o ps) := s.hasMsgs_setOp (s.piecesOp o ps)
  have hwrite : ∀ (v : State) (p : Piece), v.HasMsgs o.tag (s.pieceMsgs o ps) →
      (v.opWrite o.tag p.daddr (o.pieceBytes p) (o.pieceBad p)).HasMsgs o.tag (s.pieceMsgs o ps) := fun v p h => h.opWrite _ _ _ _
  rw [State.piecesWritten]
  exact hset.each hwrite _

theorem State.piecesWritten_writes (s : State) (o : Op) (ps : List Piece) :
    s.Writes (s.piecesWritten o ps) ((s.nearPieces ps).flatMap fun p => putsAt p.daddr (o.pieceBytes p)) :=
  (State.each_writes (fun s (p : Piece) => s.opWrite o.tag p.daddr (o.pieceBytes p) (o.pieceBad p)) (fun p => putsAt p.daddr (o.pieceBytes p)) _
    (fun v p _ => v.opWrite_writes ..) (s.setOp (s.piecesOp o ps))).from_wrq rfl

/-! ## WRITE and READ_DATA -/

theorem writePiece_whole {m : Msg} (h : bit m.arg 52 = false) : writePiece m = m.data := if_neg (Bool.eq_false_iff.1 h)

theorem State.farPut_writes (s : State) (m : Msg) (dom ord : Nat) : s.Writes (s.farPut m dom ord) (putsAt (msgAddr m) (writePiece m)) :=
  (State.writeMem_writes ..).from_wrq rfl

/-- A WRITE that needs no page check, before its operation is looked at. -/
theorem State.takeWrite_writes {m : Msg} (h : bit m.arg 52 = false) (dom ord : Nat) :
    ∃ u, s.Writes u (putsAt (msgAddr m) m.data) ∧ s.takeWrite m dom ord = u.farCheck (farKey m) := by
  let v := s.setFar { (s.farOp (farKey m)).fail 1 ord (b2n m.poison) with
    psn := (s.farOp (farKey m)).psn || m.poison, last := (s.farOp (farKey m)).last || bit m.arg 51 }
  refine ⟨v.farPut m dom ord, ?_, ?_⟩
  · rw [← writePiece_whole h]
    exact (v.farPut_writes m dom ord).from_wrq rfl
  · unfold State.takeWrite
    simp only [if_pos (show (!bit m.arg 52) = true by rw [h]; rfl)] <;> rfl

theorem slice_take {bs : List Byte} {n : Nat} (h : n ≤ bs.length) : slice bs 0 n = bs.take n := by
  have hrest : n - (bs.take n).length = 0 := by rw [List.length_take]; omega
  rw [slice, List.drop_zero, hrest]
  exact List.append_nil _

/-- The first tracker without an answer is the first of its die where it is of that die. -/
theorem find?_mine {trk : List (Nat × Piece)} {k : Nat} {p : Piece} {src : Nat} (h : trk.find? (fun t => !t.2.ans) = some (k, p)) (hdie : p.sdie = src) :
    trk.find? (fun t => !t.2.ans && t.2.sdie == src) = some (k, p) := by
  obtain ⟨hp, as, bs, rfl, has⟩ := List.find?_eq_some_iff_append.1 h
  refine List.find?_eq_some_iff_append.2 ⟨?_, as, bs, rfl, fun a ha => ?_⟩
  · rw [Bool.and_eq_true, beq_iff_eq]
    exact ⟨hp, hdie⟩
  · rw [show (!a.2.ans) = false from (Bool.not_eq_true' _).mp (has a ha)]
    rfl

theorem State.takeReadData_writes {m : Msg} {k : Nat} {p : Piece} (ho : s.op? m.optag.toNat = some o)
    (hfind : o.trk.find? (fun t => !t.2.ans) = some (k, p)) (hsrc : p.sdie = m.src.toNat) (hdst : p.ddie ≠ 16) (hlen : p.len ≤ m.data.length)
    (hst : fld m.arg 19 16 ≤ 1) (dom ord : Nat) : s.Writes (s.takeReadData m dom ord) (putsAt p.daddr (m.data.take p.len)) := by
  rw [← slice_take hlen]
  unfold State.takeReadData
  simp only [ho, find?_mine hfind hsrc]
  rw [if_neg (by omega), if_neg hdst]
  exact (State.writeMem_writes ..).from_wrq rfl

/-! ## The settlement -/

/-- Settles O34: the issue of the five transfers, the segments and pieces, the messages, and what WRITE and READ_DATA put where. -/
theorem transferIssue : Obligations.TransferIssue := by
  unfold Obligations.TransferIssue
  refine ⟨fun s op w h hpc => ?_, fun s o find hskip ha hb => (⟨hskip, ha, hb⟩ : o.Plain).segs s find, inRuns_blockRuns,
    fun most ps hmost hlit => cutSegs_path most hmost ps hlit, fun s o ps hchk hfit => State.pieceMsgs_route hchk hfit,
    fun s o ps habort hchk => ⟨_, State.sendPieces_eq habort hchk, s.piecesWritten_msgs o ps, s.piecesWritten_writes o ps⟩,
    fun s m dom ord h => State.takeWrite_writes h dom ord,
    fun s m dom ord k o p ho hfind hsrc hdst hlen hst => State.takeReadData_writes ho hfind hsrc hdst hlen hst dom ord⟩
  refine ⟨fun hop => ?_, fun hop => ?_, fun hop => ?_, fun hop => ?_, fun hop => ?_⟩
  all_goals
    subst hop
    exact h.engine hpc h.is rfl fun u hu => startXfer_seq hu

end

end Sys2Proof.Machine
end

section
/-! COMBINE COLLECT keeps the opcode that its sequencer holds (R270 to R275). -/
namespace Sys2Proof.Machine

/-- A COLLECT that may start takes its tag and begins to read its header, while the sequencer stalls on it. -/
theorem State.Issues.collect_starts {s : State} {op : Nat} {w : W64} (h : s.Issues op w) (hpc : s.seq.pc < 16383) (his : isCombine true w = true)
    (hoff : cmbOff false w = []) (hclean : ∀ d ∈ (cmbSpec false s w).tds, ∀ k < 4, s.upsetAt 1 (4 * d.1 + k) = 0)
    (hfail : (cmbSpec false s w).fail s = none) {tag : Nat} (htag : s.freeTag = some tag) (hcan : canCollect s (cmbSpec false s w).iss = true) :
    exec .combineCollect s = .next (startCollect s tag (cmbSpec false s w).iss) := by
  have hdesc : s.descEcc ((cmbSpec false s w).tds.map (·.1)) = (none, s) := descEcc_clean fun n hn k hk => by
    obtain ⟨d, hd, rfl⟩ := List.mem_map.1 hn
    exact hclean d hd k hk
  have hcal : s.readCal (cmbSpec false s w) = ((cmbSpec false s w).iss, s) := rfl
  have hexec : exec .combineCollect s = Machine.live s (·.engineIssue (isCombine true) (cmbOff false) (cmbSpec false) canCollect startCollect) := rfl
  rw [hexec, live_eq h.live, State.engineIssue, h.act his hoff, State.keepOp_below hpc]
  simp only [hdesc, hfail, hcal, htag, hcan, if_true]

/-- The words of a descriptor of this die: format, address, rows and elements of a row. -/
def descWords (n fmt addr dim1 dim0 : Nat) : List (Nat × W64) :=
  [(4 * n, BitVec.ofNat 64 (2 ^ 63 + fmt * 2 ^ 52 + addr)), (4 * n + 1, BitVec.ofNat 64 (2 ^ 48 + dim1 * 2 ^ 24 + dim0)), (4 * n + 2, 64),
    (4 * n + 3, 0x3F800000)]

/-- A COLLECT from descriptor 0 to descriptor 3, its header at the descriptor that g1 names. -/
def collectWord : W64 := 0x5008800003000004

/-- A running block whose front instruction is that COLLECT, its descriptors valid and Sparse Dispatch active. -/
def collecting : State := { State.reset with
  env := { State.reset.env with now := 3000000, fuseAddr := none, fuseId := 0xC0000000, sweepDone := true }
  pm := [(0, collectWord)], seq := { st := .running }, g := [(1, 2)]
  td := descWords 0 0 0x1000 2 4 ++ descWords 2 0x21 0x4000 1 2048 ++ descWords 3 0 0x9000 2 4
  trn := { st := 5, linkDown := false, act := some 0xFFFFFFFFFFFFFFFF } }

theorem collecting_issues : collecting.Issues 0x50 collectWord := ⟨rfl, rfl, rfl, rfl, rfl, rfl, Nat.zero_le _, rfl, rfl, by decide⟩

theorem collecting_clean : cmbOff false collectWord = [] ∧
    (∀ d ∈ (cmbSpec false collecting collectWord).tds, ∀ k < 4, collecting.upsetAt 1 (4 * d.1 + k) = 0) ∧
    (cmbSpec false collecting collectWord).fail collecting = none := by decide +kernel

theorem collecting_ready : collecting.freeTag = some 0 ∧ canCollect collecting (cmbSpec false collecting collectWord).iss = true := by decide +kernel

/-- Refutes O36: a COLLECT that starts leaves the sequencer's opcode field as it was, here 0, and not its own opcode. -/
theorem not_sparseIssue : ¬ Obligations.SparseIssue := by
  unfold Obligations.SparseIssue
  intro h
  have hpc : collecting.seq.pc < 16383 := by decide
  have his : isCombine true collectWord = true := by decide
  obtain ⟨hoff, hclean, hfail⟩ := collecting_clean
  obtain ⟨htag, hcan⟩ := collecting_ready
  obtain ⟨t, ht, hseq, -⟩ := (((h.1 _ _ _ collecting_issues hpc).2.2 his hoff hclean).2 hfail).1 0 htag hcan
  rw [collecting_issues.collect_starts hpc his hoff hclean hfail htag hcan] at ht
  have hop := congrArg Seq.op hseq
  rw [← Host.Outcome.next.inj ht, startCollect_seq] at hop
  exact absurd hop (by decide)

end Sys2Proof.Machine
end

section
/-! The arithmetic of the Harvest engines, and what they write or send (R242 to R268, R301 to R330). -/
namespace Sys2Proof.Machine

/-! ## Rounding and alignment -/

/-- A quotient rounds to the nearest, ties to even. -/
theorem rhe_nearest {b : Nat} (a : Nat) (hb : 0 < b) : 2 * a ≤ 2 * b * rhe a b + b ∧ 2 * b * rhe a b ≤ 2 * a + b ∧
    (2 * a = 2 * b * rhe a b + b ∨ 2 * b * rhe a b = 2 * a + b → rhe a b % 2 = 0) := by
  have hdiv : b * (a / b) + a % b = a := Nat.div_add_mod a b
  have hlt : a % b < b := Nat.mod_lt a hb
  unfold rhe
  dsimp only
  generalize a / b = q at *
  generalize a % b = r at *
  subst hdiv
  have hdouble : 2 * b * q = 2 * (b * q) := Nat.mul_assoc ..
  split
  · next h =>
    have hsucc : 2 * b * (q + 1) = 2 * (b * q) + 2 * b := by rw [Nat.mul_succ, hdouble]
    rw [hsucc]
    omega
  · next h =>
    rw [hdouble]
    omega

theorem rhe_one (a : Nat) : rhe a 1 = a := by
  unfold rhe
  dsimp only
  rw [if_neg (by omega), Nat.div_one]

theorem inUnits_above {m : Nat} {e g : Int} (h : g ≤ e) : inUnits m e g = (m * 2 ^ (e - g).toNat, 1) := if_pos h

/-- A value that the grid holds is aligned to itself. -/
theorem alignVal_exact {g e : Int} {m : Nat} (neg : Bool) (c : AlignCnt) (hge : g ≤ e) (hmax : m * 2 ^ (e - g).toNat ≤ gridMax) :
    (alignVal g (.num neg m e) c).1 = if neg then -((m * 2 ^ (e - g).toNat : Nat) : Int) else ((m * 2 ^ (e - g).toNat : Nat) : Int) := by
  unfold alignVal
  dsimp only
  by_cases hm : m = 0
  · rw [if_pos hm, hm, Nat.zero_mul]
    cases neg <;> rfl
  · rw [if_neg hm, inUnits_above hge]
    dsimp only
    rw [rhe_one, Nat.min_eq_left hmax]

/-- The aligned value does not depend on what was counted before it. -/
theorem alignVal_count (g : Int) (v : Val) (c c' : AlignCnt) : (alignVal g v c).1 = (alignVal g v c').1 := by
  cases v with
  | nan => rfl
  | inf n m e => rfl
  | num n m e =>
    unfold alignVal
    dsimp only
    by_cases hm : m = 0
    · rw [if_pos hm, if_pos hm]
    · rw [if_neg hm, if_neg hm]

/-! ## The sum of a reduction -/

/-- What a value adds to the sum of its element. -/
def Acc.plus (a : Acc) (g : Int) (v : Val) : Acc :=
  if v = .nan then { a with nan := true } else { a with sum := a.sum + (alignVal g v {}).1 }

theorem Acc.plus_nan (a : Acc) (g : Int) : a.plus g .nan = { a with nan := true } := if_pos rfl

theorem Acc.plus_val (a : Acc) (g : Int) {v : Val} (h : v ≠ .nan) : a.plus g v = { a with sum := a.sum + (alignVal g v {}).1 } := if_neg h

theorem Acc.plus_comm (a : Acc) (g : Int) (v w : Val) : (a.plus g v).plus g w = (a.plus g w).plus g v := by
  by_cases hv : v = .nan <;> by_cases hw : w = .nan
  · rw [hv, hw]
  · rw [hv, Acc.plus_nan, Acc.plus_val _ _ hw, Acc.plus_val _ _ hw, Acc.plus_nan]
  · rw [hw, Acc.plus_nan, Acc.plus_val _ _ hv, Acc.plus_val _ _ hv, Acc.plus_nan]
  · rw [Acc.plus_val _ _ hv, Acc.plus_val _ _ hw, Acc.plus_val _ _ hw, Acc.plus_val _ _ hv]
    dsimp only
    rw [Int.add_right_comm]

theorem Acc.plus_isNan (a : Acc) (g : Int) (v : Val) (h : a.nan = true) : (a.plus g v).nan = true := by
  by_cases hv : v = .nan
  · rw [hv, Acc.plus_nan]
  · rw [Acc.plus_val _ _ hv]
    exact h

section
variable {x : Red}

/-- A sum changes the element of its value alone. -/
theorem Red.add_eq (hop : x.op = 0) (e : Nat) (v : Val) (c : AlignCnt) :
    (x.add e v c).1 = { x with acc := spPut {} x.acc e ((spGet {} x.acc e).plus (x.gAt e) v) } := by
  unfold Red.add
  dsimp only
  by_cases hv : v = .nan
  · rw [if_pos hv, hv, Acc.plus_nan]
  · rw [if_neg hv, if_pos hop, Acc.plus_val _ _ hv, alignVal_count _ _ {} c]

theorem Red.add_op (hop : x.op = 0) (e : Nat) (v : Val) (c : AlignCnt) : (x.add e v c).1.op = 0 := by rw [Red.add_eq hop]; exact hop

theorem Red.gAt_add (hop : x.op = 0) (e k : Nat) (v : Val) (c : AlignCnt) : (x.add e v c).1.gAt k = x.gAt k := by rw [Red.add_eq hop]; rfl

theorem Red.acc_add (hop : x.op = 0) (e k : Nat) (v : Val) (c : AlignCnt) :
    spGet {} (x.add e v c).1.acc k = if k = e then (spGet {} x.acc k).plus (x.gAt k) v else spGet {} x.acc k := by
  rw [Red.add_eq hop]
  by_cases hk : k = e
  · rw [if_pos hk, hk]
    exact spGet_spPut_same ..
  · rw [if_neg hk]
    exact spGet_spPut_other _ _ _ _ (Ne.symm hk)

/-- The order of two values does not matter. -/
theorem Red.acc_add_comm (hop : x.op = 0) (e f k : Nat) (v w : Val) (c c' : AlignCnt) :
    spGet {} ((x.add e v c).1.add f w c').1.acc k = spGet {} ((x.add f w c').1.add e v c).1.acc k := by
  rw [Red.acc_add (Red.add_op hop e v c), Red.acc_add hop, Red.gAt_add hop, Red.acc_add (Red.add_op hop f w c'), Red.acc_add hop, Red.gAt_add hop]
  by_cases he : k = e <;> by_cases hf : k = f
  · rw [if_pos hf, if_pos he, if_pos he, if_pos hf]
    exact Acc.plus_comm ..
  · rw [if_neg hf, if_pos he, if_pos he, if_neg hf]
  · rw [if_pos hf, if_neg he, if_neg he, if_pos hf]
  · rw [if_neg hf, if_neg he, if_neg he, if_neg hf]

theorem Red.result_nan {e : Nat} (h : (spGet {} x.acc e).nan = true) : x.result e = .nan := if_pos h

theorem Red.result_sum (hop : x.op = 0) {e : Nat} (h : (spGet {} x.acc e).nan = false) :
    x.result e = .num (decide ((spGet {} x.acc e).sum < 0)) (spGet {} x.acc e).sum.natAbs (x.gAt e) :=
  (if_neg (Bool.eq_false_iff.1 h)).trans (if_pos hop)

theorem Red.result_add (hop : x.op = 0) {e : Nat} {v : Val} (c : AlignCnt) (hv : v ≠ .nan) (h : (spGet {} x.acc e).nan = false) :
    (x.add e v c).1.result e = .num (decide ((spGet {} x.acc e).sum + (alignVal (x.gAt e) v c).1 < 0))
      ((spGet {} x.acc e).sum + (alignVal (x.gAt e) v c).1).natAbs (x.gAt e) := by
  have hacc : spGet {} (x.add e v c).1.acc e = { spGet {} x.acc e with sum := (spGet {} x.acc e).sum + (alignVal (x.gAt e) v c).1 } := by
    rw [Red.acc_add hop, if_pos rfl, Acc.plus_val _ _ hv, alignVal_count _ _ {} c]
  rw [Red.result_sum (Red.add_op hop e v c) (by rw [hacc]; exact h), hacc, Red.gAt_add hop]

theorem Red.acc_add_nan (hop : x.op = 0) (e : Nat) (c : AlignCnt) : (spGet {} (x.add e .nan c).1.acc e).nan = true := by
  rw [Red.acc_add hop, if_pos rfl, Acc.plus_nan]

/-- A NaN stays whatever comes after it. -/
theorem Red.acc_add_keepsNan (hop : x.op = 0) {e : Nat} (h : (spGet {} x.acc e).nan = true) (f : Nat) (w : Val) (c : AlignCnt) :
    (spGet {} (x.add f w c).1.acc e).nan = true := by
  rw [Red.acc_add hop]
  by_cases hf : e = f
  · rw [if_pos hf]
    exact Acc.plus_isNan _ _ _ h
  · rw [if_neg hf]
    exact h

end

/-! ## The pieces of rows that the engine made -/

theorem litSeg_litOk (die addr : Nat) (bs : List Byte) : LitOk (litSeg die addr bs) := ⟨bs, rfl, rfl⟩

/-- The rows and scale bytes that the engine made, before they are joined and cut. -/
def madeSegs (d : Desc) (rows scales : List (Nat × List Byte)) : List Piece :=
  rows.map (fun x => litSeg d.die (d.rowAddr x.1) x.2) ++ scales.map fun x => litSeg d.die (d.side + x.1 * d.rowBlocks) x.2

section
variable {d : Desc} {rows scales : List (Nat × List Byte)}

theorem madeSegs_litOk : ∀ p ∈ madeSegs d rows scales, LitOk p ∧ p.ddie = d.die := by
  intro p hp
  rcases List.mem_append.1 hp with hp | hp <;>
  · obtain ⟨x, -, rfl⟩ := List.mem_map.1 hp
    exact ⟨litSeg_litOk .., rfl⟩

theorem madeSegs_puts : (madeSegs d rows scales).flatMap Piece.puts = rowPuts d rows scales := by
  rw [madeSegs, List.flatMap_append, List.flatMap_map, List.flatMap_map]
  rfl

theorem madeSegs_cut : (cutSegs 4096 (madeSegs d rows scales)).flatMap Piece.puts = rowPuts d rows scales ∧
    ∀ p ∈ cutSegs 4096 (madeSegs d rows scales), p.ddie = d.die ∧ 0 < p.len ∧ p.len ≤ 4096 ∧ p.daddr % 4096 + p.len ≤ 4096 := by
  obtain ⟨hputs, hfit⟩ := cutSegs_puts 4096 (by omega) (fun _ => true) (fun _ _ _ => rfl) (madeSegs d rows scales) fun p hp => (madeSegs_litOk p hp).1
  rw [List.filter_eq_self.2 fun _ _ => rfl, List.filter_eq_self.2 fun _ _ => rfl, madeSegs_puts] at hputs
  refine ⟨hputs, fun p hp => ?_⟩
  obtain ⟨hpos, hlen, hend, -, seg, hseg, hdie⟩ := hfit p hp
  exact ⟨hdie.trans (madeSegs_litOk seg hseg).2, hpos, hlen, hend⟩

theorem outPieces_eq (bad : List (Nat × Nat)) : outPieces d rows scales bad =
    (cutSegs 4096 (madeSegs d rows scales)).map fun p => { p with ans := touches bad p.daddr p.len } := rfl

theorem outPieces_puts (bad : List (Nat × Nat)) : (outPieces d rows scales bad).flatMap Piece.puts = rowPuts d rows scales := by
  rw [outPieces_eq, List.flatMap_map]
  exact madeSegs_cut.1

theorem outPieces_fit (bad : List (Nat × Nat)) : ∀ p ∈ outPieces d rows scales bad,
    p.ddie = d.die ∧ 0 < p.len ∧ p.len ≤ 4096 ∧ p.daddr % 4096 + p.len ≤ 4096 := by
  intro p hp
  obtain ⟨q, hq, rfl⟩ := List.mem_map.1 hp
  exact madeSegs_cut.2 q hq

end

/-- The pieces of the folded heads of a collector write their rows. -/
theorem mergePieces_puts (x : Mrg) (heads : List (Nat × HeadOut)) (h : x.outp = false) :
    let out := outRows x.tdb { satinf := x.satinf, ftz := x.ftz } (heads.map fun h => (h.1, headVals x.ftz x.d h.2, []))
    (mergePieces x heads).1.flatMap Piece.puts = rowPuts x.tdb out.1 out.2.1 := by
  intro out
  have hps : ∃ bad, (mergePieces x heads).1 = outPieces x.tdb out.1 out.2.1 bad := by
    unfold mergePieces
    simp only [h, Bool.false_and, if_false, Bool.false_eq_true, List.append_nil]
    exact ⟨_, rfl⟩
  obtain ⟨bad, hbad⟩ := hps
  rw [hbad]
  exact outPieces_puts bad

/-! ## Sending what the engine made -/

section
variable {s : State} {o : Op} {ps : List Piece}

/-- The messages that carry the pieces for another die. -/
def State.madeMsgs (s : State) (o : Op) (ps : List Piece) : List Msg :=
  markLast ((ps.filter fun p => p.ddie != s.die).map fun p => s.writeMsg o p (p.lit.getD []) p.ans)

/-- The operation whose result is on its way. -/
def State.madeOp (s : State) (o : Op) (ps : List Piece) : Op :=
  { o with msgs := s.madeMsgs o ps, sends := !(s.madeMsgs o ps).isEmpty, await := ((ps.filter fun p => p.ddie != s.die).map (·.ddie)).eraseDups,
           phase := .result, psn := o.psn || ps.any (·.ans), buf := [], since := s.now }

/-- The pieces of the own die written. -/
def State.madeWritten (s : State) (o : Op) (ps : List Piece) : State :=
  (s.setOp (s.madeOp o ps)).each (ps.filter fun p => p.ddie == s.die) fun s p => s.opWrite o.tag p.daddr (p.lit.getD []) p.ans

theorem State.sendMade_eq (s : State) (o : Op) (ps : List Piece) : s.sendMade o ps = (s.madeWritten o ps).opCheck o.tag := rfl

theorem State.madeWritten_writes (s : State) (o : Op) (ps : List Piece) :
    s.Writes (s.madeWritten o ps) ((ps.filter fun p => p.ddie == s.die).flatMap Piece.puts) :=
  (State.each_writes (fun s (p : Piece) => s.opWrite o.tag p.daddr (p.lit.getD []) p.ans) Piece.puts _
    (fun v p _ => v.opWrite_writes ..) (s.setOp (s.madeOp o ps))).from_wrq rfl

theorem State.madeWritten_msgs (s : State) (o : Op) (ps : List Piece) : (s.madeWritten o ps).HasMsgs o.tag (s.madeMsgs o ps) := by
  have hset : (s.setOp (s.madeOp o ps)).HasMsgs o.tag (s.madeMsgs o ps) := s.hasMsgs_setOp (s.madeOp o ps)
  have hwrite : ∀ (v : State) (p : Piece), v.HasMsgs o.tag (s.madeMsgs o ps) →
      (v.opWrite o.tag p.daddr (p.lit.getD []) p.ans).HasMsgs o.tag (s.madeMsgs o ps) := fun v p h => h.opWrite _ _ _ _
  rw [State.madeWritten]
  exact hset.each hwrite _

theorem State.madeMsgs_fields (s : State) (o : Op) (ps : List Piece) : (s.madeMsgs o ps).map (fun m => (m.dst, m.poison, m.data)) =
    (ps.filter fun p => p.ddie != s.die).map fun p =>
      (BitVec.ofNat 4 p.ddie, p.ans, (if o.iss.pgcheck then leBytes 8 (p.pid.getD 0) else []) ++ p.lit.getD []) := by
  rw [State.madeMsgs, markLast_map _ (fun _ => rfl), List.map_map]
  rfl

theorem State.convNext_ready (hphase : o.phase = .src) (hleft : o.rdLeft = 0) :
    let i := o.iss
    let out := outRows i.tdb i.cvtOpt ((List.range i.count).map (convRow i o.buf))
    let u := s.hvCount o.tag out.2.2
    s.convNext o = u.sendMade ((u.op? o.tag).getD o) (outPieces i.tdb out.1 out.2.1 ((List.range i.count).flatMap (convBad i o.buf))) := by
  intro i out u
  unfold State.convNext
  exact if_neg (by rw [hphase, hleft]; decide)
end

/-! ## The end of a reduction -/

section
variable (s : State)

/-- The operations and the reductions are the same. -/
def State.SameMade (s t : State) : Prop := t.ops = s.ops ∧ t.red = s.red

theorem State.SameMade.trans {s t u : State} (h : s.SameMade t) (k : t.SameMade u) : s.SameMade u := ⟨k.1.trans h.1, k.2.trans h.2⟩

theorem State.sameMade_when_irq (c : Bool) (n : Nat) : s.SameMade (s.when c (·.irq n)) := by cases c <;> exact ⟨rfl, rfl⟩

theorem State.sameMade_setBit (off i : Nat) : s.SameMade (s.setBit off i) := ⟨rfl, rfl⟩

theorem State.sameMade_setRf (off hi lo v : Nat) : s.SameMade (s.setRf off hi lo v) := ⟨rfl, rfl⟩

theorem State.sameMade_setRg (off : Nat) (v : W32) : s.SameMade (s.setRg off v) := ⟨rfl, rfl⟩

theorem State.sameMade_setRg64 (off : Nat) (v : W64) : s.SameMade (s.setRg64 off v) := (s.sameMade_setRg ..).trans (State.sameMade_setRg ..)

theorem State.sameMade_hit (off hi lo n : Nat) : s.SameMade (s.hit off hi lo n) := ⟨rfl, rfl⟩

theorem State.sameMade_count (off hi lo n : Nat) : s.SameMade (s.count off hi lo n) := ⟨rfl, rfl⟩

theorem State.sameMade_count32 (off n : Nat) : s.SameMade (s.count32 off n) := ⟨rfl, rfl⟩

theorem State.sameMade_eccNoted (ue : Bool) : s.SameMade (s.eccNoted ue) := by
  cases ue with
  | true => exact ((s.sameMade_count32 ..).trans (State.sameMade_setBit ..)).trans (State.sameMade_when_irq ..)
  | false => exact (s.sameMade_count32 ..).trans (State.sameMade_setBit ..)

theorem State.sameMade_eccCounted (n syn : Nat) : s.SameMade (s.eccCounted n syn) :=
  ((s.sameMade_count ..).trans (State.sameMade_setRf ..)).trans (State.sameMade_setRg64 ..)

theorem State.sameMade_eccEntered (id idx n syn : Nat) : s.SameMade (s.eccEntered id idx n syn) :=
  ((((s.sameMade_setRg ..).trans (State.sameMade_setRg ..)).trans (State.sameMade_setRg64 ..)).trans (State.sameMade_setRg64 ..)).trans (State.sameMade_hit ..)

theorem State.sameMade_eccMissed : s.SameMade s.eccMissed :=
  ((s.sameMade_count32 ..).trans (State.sameMade_setBit ..)).trans (State.sameMade_when_irq ..)

theorem State.sameMade_eccJudge (id n : Nat) (ue : Bool) : s.SameMade (s.eccJudge id n ue) := by
  unfold State.eccJudge
  dsimp only
  split
  · exact ⟨rfl, rfl⟩
  · split
    · exact ((s.sameMade_setRf ..).trans (State.sameMade_setBit ..)).trans (State.sameMade_when_irq ..)
    · split <;> exact ⟨rfl, rfl⟩

theorem State.sameMade_eccLog (id idx syn : Nat) (ue : Bool) : s.SameMade (s.eccLog id idx syn ue) := by
  rw [s.eccLog_eq]
  refine (s.sameMade_eccNoted ue).trans ?_
  split
  · exact (State.sameMade_eccCounted ..).trans (State.sameMade_eccJudge ..)
  · split
    · exact (State.sameMade_eccEntered ..).trans (State.sameMade_eccJudge ..)
    · exact State.sameMade_eccMissed _

theorem State.sameMade_eccRead (id idx : Nat) : s.SameMade (s.eccRead id idx).2 := by
  unfold State.eccRead
  dsimp only
  split
  · exact ⟨rfl, rfl⟩
  · exact s.sameMade_eccLog ..

theorem State.sameMade_draw : s.SameMade s.draw.2 := ⟨rfl, rfl⟩

/-- The search of a memory for an error leaves the operations and the reductions. -/
theorem State.sameMade_memHit (id : Nat) : s.SameMade (s.memHit id).2 := by
  unfold State.memHit
  generalize s.upset.filter _ = xs
  generalize false = b
  induction xs generalizing s b with
  | nil => exact ⟨rfl, rfl⟩
  | cons x xs ih =>
    rw [List.foldl_cons]
    dsimp only
    split
    · exact (s.sameMade_draw.trans (State.sameMade_eccRead ..)).trans (ih _ _)
    · exact s.sameMade_draw.trans (ih _ _)

/-- The values of a row of a result. -/
def Red.rowVals (x : Red) (row : Nat) : List Val := (List.range x.tdb.dim0).map fun i => x.result (row * x.tdb.dim0 + i)

/-- The rows of a result in the format of its destination, with their scale bytes and counts. -/
def Red.outRows (x : Red) : List (Nat × List Byte) × List (Nat × List Byte) × Cnt :=
  Machine.outRows x.tdb { satinf := x.satinf, ftz := x.ftz } ((List.range x.tdb.rows).map fun row => (row, x.rowVals row, []))

/-- A reduction marked as converted, its values beyond the format counted. -/
def State.redDone (s : State) (r : Nat) : State :=
  ((s.memHit 7).2.setRed r { s.redAt r with converted := true }).count32 0x70014
    ((s.redAt r).outRows.2.2.sat - ((List.range (s.redAt r).tdb.rows).map fun row => infCount ((s.redAt r).rowVals row)).sum)

theorem State.redDone_op? (r tag : Nat) : (s.redDone r).op? tag = s.op? tag := congrArg (List.find? _) (s.sameMade_memHit 7).1

theorem State.redDone_converted (r : Nat) : ((s.redDone r).redAt r).converted = true :=
  congrArg Red.converted (spGet_spPut_same _ (s.memHit 7).2.red r { s.redAt r with converted := true })

theorem State.redCheck_eq {r : Nat} (hbusy : (s.redAt r).busy = true) (hopen : (s.redAt r).converted = false)
    (hgrid : (s.redAt r).gfinal = true) (hall : (s.redAt r).k ≤ (s.redAt r).done.length) :
    s.redCheck r = match (s.redDone r).op? (s.redAt r).tag with
      | none => s.redDone r
      | some o =>
        (s.redDone r).sendMade { o.fail (if (s.redAt r).gsat then 7 else (s.redAt r).first) false (s.redAt r).drops with
            psn := o.psn || ((s.redAt r).poison || (s.redAt r).calBad || (s.memHit 7).1) }
          ((outPieces (s.redAt r).tdb (s.redAt r).outRows.1 (s.redAt r).outRows.2.1 []).map fun p =>
            { p with ans := (s.redAt r).poison || (s.redAt r).calBad || (s.memHit 7).1 }) := by
  have hgo : (!(s.redAt r).busy || (s.redAt r).converted || !(s.redAt r).gfinal || decide ((s.redAt r).done.length < (s.redAt r).k)) = false := by
    rw [hbusy, hopen, hgrid, decide_eq_false (Nat.not_lt.2 hall)]
    rfl
  exact if_neg (Bool.eq_false_iff.1 hgo)

/-- A reduction whose last contribution has come and whose grid is fixed sends its result. -/
theorem State.redCheck_sends {r : Nat} {o : Op} (hbusy : (s.redAt r).busy = true) (hopen : (s.redAt r).converted = false)
    (hgrid : (s.redAt r).gfinal = true) (hall : (s.redAt r).k ≤ (s.redAt r).done.length) (ho : s.op? (s.redAt r).tag = some o) :
    ∃ (u : State) (p : Op) (bad : Bool), s.redCheck r = u.sendMade p
        ((outPieces (s.redAt r).tdb (s.redAt r).outRows.1 (s.redAt r).outRows.2.1 []).map fun q => { q with ans := bad }) ∧
      p.tag = o.tag ∧ (u.redAt r).converted = true := by
  have heq := s.redCheck_eq hbusy hopen hgrid hall
  rw [State.redDone_op?, ho] at heq
  exact ⟨s.redDone r, _, _, heq, rfl, s.redDone_converted r⟩

end

/-! ## The head of a merge -/

/-- The records of a head weighted and added, to its l and to its elements. -/
def foldRecs (w : PRec → Nat) (rs : List PRec) (a : Nat × List Nat) : Nat × List Nat :=
  rs.foldl (fun a r => (f32Add a.1 (f32Mul (w r) (if fld r.l 30 0 = 0 then 0 else r.l.toNat)),
    a.2.mapIdx fun i y => f32Add y (f32Mul (w r) (clipInf (r.o.getD i 0).toNat)))) a

theorem foldRecs_weight (w : PRec → Nat) (rs : List PRec) (a : Nat × List Nat) :
    (foldRecs w rs a).1 = rs.foldl (fun a r => f32Add a (f32Mul (w r) (if fld r.l 30 0 = 0 then 0 else r.l.toNat))) a.1 := by
  induction rs generalizing a with
  | nil => rfl
  | cons r rs ih => exact ih _

theorem foldRecs_length (w : PRec → Nat) (rs : List PRec) (a : Nat × List Nat) : (foldRecs w rs a).2.length = a.2.length := by
  induction rs generalizing a with
  | nil => rfl
  | cons r rs ih => exact (ih _).trans List.length_mapIdx

theorem foldRecs_elem (w : PRec → Nat) (rs : List PRec) (a : Nat × List Nat) {i : Nat} (hi : i < a.2.length) :
    (foldRecs w rs a).2.getD i 0 = rs.foldl (fun y r => f32Add y (f32Mul (w r) (clipInf (r.o.getD i 0).toNat))) (a.2.getD i 0) := by
  induction rs generalizing a with
  | nil => rfl
  | cons r rs ih =>
    refine (ih _ (by simpa using hi)).trans ?_
    rw [List.foldl_cons]
    congr 1
    simp [List.getD_eq_getElem?_getD, hi]

/-- The largest m of the records of a head. -/
def headMax (r : PRec) (rs : List PRec) : Nat := (r :: rs).foldl (fun a r => f32Max a r.m.toNat) r.m.toNat

theorem foldl_f32Max_mem (rs : List PRec) (a : Nat) :
    rs.foldl (fun a r => f32Max a r.m.toNat) a = a ∨ ∃ r ∈ rs, r.m.toNat = rs.foldl (fun a r => f32Max a r.m.toNat) a := by
  induction rs generalizing a with
  | nil => exact .inl rfl
  | cons r rs ih =>
    rcases ih (f32Max a r.m.toNat) with h | ⟨q, hq, h⟩
    · by_cases hlt : f32Lt a r.m.toNat = true
      · exact .inr ⟨r, List.mem_cons_self, (h.trans (if_pos hlt)).symm⟩
      · exact .inl (h.trans (if_neg hlt))
    · exact .inr ⟨q, List.mem_cons_of_mem _ hq, h⟩

theorem headMax_mem (r : PRec) (rs : List PRec) : ∃ q ∈ r :: rs, q.m.toNat = headMax r rs := by
  rcases foldl_f32Max_mem (r :: rs) r.m.toNat with h | h
  · exact ⟨r, List.mem_cons_self, h.symm⟩
  · exact h

theorem foldHead_empty (e3 : Bool) (d : Nat) (c : FoldCnt) : (foldHead e3 d [] c).1 = .masked := rfl

/-- A head with a record whose m or l no weight can take. -/
def badHead (rs : List PRec) : Prop := 0 < (rs.filter recNan).length ∨ (rs.any fun r => !recNan r && recBad r) = true

section
variable {e3 : Bool} {d : Nat} {rs : List PRec} {c : FoldCnt}

theorem badHead_of_mem (h : ∃ r ∈ rs, recNan r = true ∨ recBad r = true) : badHead rs := by
  obtain ⟨r, hr, h⟩ := h
  by_cases hnan : recNan r = true
  · exact .inl (List.length_pos_of_mem (List.mem_filter.2 ⟨hr, hnan⟩))
  · refine .inr (List.any_eq_true.2 ⟨r, hr, ?_⟩)
    rw [Bool.eq_false_iff.2 hnan, h.resolve_left hnan]
    rfl

/-- The weight of a record under the largest m. -/
def headWeight (e3 : Bool) (mx : Nat) (r : PRec) : Nat := if e3 then exp3 r.m.toNat mx else exp1 r.m.toNat mx

/-- The result of a head whose records are all sound: NaN where its l is no finite weight. -/
theorem headSum_done {p : Nat × List Nat} {m mx l : Nat} {o : List Nat}
    (h : (if p.1 = 0 ∨ p.1 = 0x7F800000 then HeadOut.nan else .done m p.1 p.2) = .done mx l o) : mx = m ∧ (l, o) = p ∧ l ≠ 0 := by
  by_cases hl : p.1 = 0 ∨ p.1 = 0x7F800000
  · rw [if_pos hl] at h
    cases h
  · rw [if_neg hl] at h
    cases h
    exact ⟨rfl, rfl, fun hz => hl (.inl hz)⟩

/-- A head with records is NaN, or the weighted sum under its largest m. -/
theorem foldHead_cons (r : PRec) :
    (badHead (r :: rs) → (foldHead e3 d (r :: rs) c).1 = .nan) ∧
    ∀ mx l o, (foldHead e3 d (r :: rs) c).1 = .done mx l o →
      mx = headMax r rs ∧ (l, o) = foldRecs (headWeight e3 (headMax r rs)) (r :: rs) (0, List.replicate d 0) ∧ l ≠ 0 := by
  unfold foldHead
  dsimp only
  refine ⟨fun hbad => ?_, fun mx l o h => ?_⟩
  · rw [if_pos (by simpa [badHead] using hbad)]
  · by_cases hbad : badHead (r :: rs)
    · rw [if_pos (by simpa [badHead] using hbad)] at h
      cases h
    · rw [if_neg (by simpa [badHead] using hbad)] at h
      replace h := (apply_ite Prod.fst _ _ _).symm.trans h
      exact headSum_done h

theorem foldHead_bad (h : badHead rs) : (foldHead e3 d rs c).1 = .nan := by
  cases rs with
  | nil => exact absurd h (by simp [badHead])
  | cons r rs => exact (foldHead_cons r).1 h

theorem foldHead_done {mx l : Nat} {o : List Nat} (h : (foldHead e3 d rs c).1 = .done mx l o) :
    (∃ r ∈ rs, r.m.toNat = mx) ∧ o.length = d ∧ l ≠ 0 ∧
    l = rs.foldl (fun a r => f32Add a (f32Mul (headWeight e3 mx r) (if fld r.l 30 0 = 0 then 0 else r.l.toNat))) 0 ∧
    ∀ i < d, o.getD i 0 = rs.foldl (fun y r => f32Add y (f32Mul (headWeight e3 mx r) (clipInf (r.o.getD i 0).toNat))) 0 := by
  cases rs with
  | nil => cases h
  | cons r rs =>
    obtain ⟨rfl, hsum, hl⟩ := (foldHead_cons r).2 mx l o h
    have hl' : l = _ := congrArg Prod.fst hsum
    have ho : o = _ := congrArg Prod.snd hsum
    refine ⟨headMax_mem r rs, ?_, hl, ?_, fun i hi => ?_⟩
    · rw [ho, foldRecs_length, List.length_replicate]
    · rw [hl', foldRecs_weight]
    · rw [ho, foldRecs_elem _ _ _ (by rw [List.length_replicate]; exact hi)]
      congr 1
      rw [List.getD_eq_getElem?_getD, List.getElem?_replicate, if_pos hi, Option.getD_some]

end

/-- Settles O35: the issue by the rule of the engine instructions, the pieces by the cut of rows, sums by the commutation of two values of one
element, and heads by an induction over their records. -/
theorem harvestIssue : Obligations.HarvestIssue := by
  unfold Obligations.HarvestIssue
  refine ⟨fun s op w h hpc => ⟨fun hop => ?_, fun his => ?_, fun his => ?_, fun his => ?_, fun his => ?_⟩,
    fun d rows scales bad => ⟨outPieces_puts bad, outPieces_fit bad⟩,
    fun s o ps => ⟨_, s.sendMade_eq o ps, s.madeWritten_writes o ps, fun p hp => ?_⟩,
    fun s o hphase hleft => State.convNext_ready hphase hleft, fun a b hb => rhe_nearest a hb,
    fun g e m neg c hge hmax => alignVal_exact neg c hge hmax,
    fun x e f k v w c c' hop => ⟨Red.acc_add_comm hop .., fun hv hnan => Red.result_add hop c hv hnan,
      Red.result_nan (Red.acc_add_nan hop e c),
      Red.result_nan (Red.acc_add_keepsNan (Red.add_op hop e .nan c) (Red.acc_add_nan hop e c) f w c')⟩,
    fun s r o hbusy hopen hgrid hall ho => s.redCheck_sends hbusy hopen hgrid hall ho,
    fun e3 d rs c => ⟨fun hrs => by rw [hrs]; exact foldHead_empty e3 d c, fun hbad => foldHead_bad (badHead_of_mem hbad), fun mx l o h => foldHead_done h⟩,
    fun x heads h => mergePieces_puts x heads h⟩
  · subst hop
    exact h.engine hpc h.is rfl fun u hu => startConvert_seq hu
  · exact h.engine hpc his rfl fun u hu => startFoldSend_seq hu
  · exact h.engine hpc his rfl fun u hu => startReduce_seq hu
  · exact h.engine hpc his rfl fun u hu => startMergeSend_seq hu
  · exact h.engine hpc his rfl fun u hu => startMerge_seq hu
  · rw [s.madeWritten_msgs o ps p hp]
    exact s.madeMsgs_fields o ps

end Sys2Proof.Machine
end
